-- ==== Sys2Proof/Word.lean ====
section
/-!
DEFINITION. The word types of the manual ("Numbers, bits and bytes", 00_scope.md) and their plainest arithmetic.
-/

namespace Sys2Proof

/-- Eight bits. -/
abbrev Byte := BitVec 8

/-- A 32-bit register of the window. -/
abbrev Word := BitVec 32

/-- A 64-bit register pair, address, or integer register of a core. -/
abbrev DWord := BitVec 64

/-- A bit of a natural number. -/
def bitOf (n i : Nat) : Bool := (n >>> i) % 2 == 1

/-- The field [hi:lo] of a natural number. -/
def fieldOf (n hi lo : Nat) : Nat := (n >>> lo) % 2 ^ (hi + 1 - lo)

/-- 1 or 0. -/
def b2n (b : Bool) : Nat := if b then 1 else 0

/-- The sum, held at a maximum. -/
def satAdd (limit a b : Nat) : Nat := min limit (a + b)

end Sys2Proof
end

