-- ==== Sys2Proof/Machine/Base.lean ====
section
/-!
DEFINITION. Data kept by the machine that the manual does not shape: sparse tables, byte memories in one canonical
form, and little-endian numbers in bytes.
-/

namespace Sys2Proof.Machine

/-- A sparse table: a key that is not listed holds the reader's default. -/
abbrev Tbl (κ α : Type) := List (κ × α)

def Tbl.get {κ α : Type} [DecidableEq κ] (t : Tbl κ α) (dflt : α) (k : κ) : α :=
  match t with
  | [] => dflt
  | (k', v) :: r => if k' = k then v else Tbl.get r dflt k

/-- An entry keeps its place when it is written again. -/
def Tbl.set {κ α : Type} [DecidableEq κ] (t : Tbl κ α) (k : κ) (v : α) : Tbl κ α :=
  match t with
  | [] => [(k, v)]
  | (k', v') :: r => if k' = k then (k, v) :: r else (k', v') :: Tbl.set r k v

/-- Removes the entries whose key meets `p`: those keys read the default again. -/
def Tbl.drop {κ α : Type} (t : Tbl κ α) (p : κ → Bool) : Tbl κ α :=
  t.filter (fun e => !p e.1)

/-- A byte memory: addresses strictly rising, and no listed byte 0, since an unlisted byte reads as 0 (log entry 4). -/
abbrev Mem := List Host.Cell

/-- What a byte that nothing has written reads as (log entry 4). -/
def Mem.unlisted : Byte := 0

def Mem.byte (m : Mem) (a : Nat) : Byte :=
  match m with
  | [] => Mem.unlisted
  | (a', b) :: r => if a' = a then b else if a < a' then Mem.unlisted else Mem.byte r a

/-- Writes one byte and keeps the canonical form. -/
def Mem.put (m : Mem) (a : Nat) (b : Byte) : Mem :=
  match m with
  | [] => if b = Mem.unlisted then [] else [(a, b)]
  | (a', b') :: r =>
    if a < a' then (if b = Mem.unlisted then (a', b') :: r else (a, b) :: (a', b') :: r)
    else if a = a' then (if b = Mem.unlisted then r else (a, b) :: r)
    else (a', b') :: Mem.put r a b

/-- Writes bytes at rising addresses. -/
def Mem.write (m : Mem) (a : Nat) (bs : List Byte) : Mem :=
  match bs with
  | [] => m
  | b :: r => Mem.write (Mem.put m a b) (a + 1) r

def Mem.read (m : Mem) (a n : Nat) : List Byte :=
  match n with
  | 0 => []
  | k + 1 => Mem.byte m a :: Mem.read m (a + 1) k

/-- Forgets every byte of [lo, hi). -/
def Mem.clear (m : Mem) (lo hi : Nat) : Mem := m.filter (fun c => c.1 < lo || hi ≤ c.1)

/-- The canonical form. -/
def Mem.wf (m : Mem) : Bool :=
  match m with
  | [] => true
  | (a, b) :: r =>
    b != Mem.unlisted && (match r with | [] => true | (a', _) :: _ => decide (a < a')) && Mem.wf r

/-- A number from little-endian bytes. -/
def leNat (bs : List Byte) : Nat :=
  match bs with
  | [] => 0
  | b :: r => b.toNat + 256 * leNat r

/-- The low `n` bytes of a number, little-endian. -/
def leBytes (n v : Nat) : List Byte :=
  match n with
  | 0 => []
  | k + 1 => BitVec.ofNat 8 v :: leBytes k (v / 256)

/-- The low `n` bytes of a number, big-endian (network headers). -/
def beBytes (n v : Nat) : List Byte := (leBytes n v).reverse

/-- A little-endian number of `n` bytes at `off` of a body. -/
def leAt (bs : List Byte) (off n : Nat) : Nat := leNat ((bs.drop off).take n)

/-- `n` bytes of zero. -/
def zeros (n : Nat) : List Byte := List.replicate n 0

/-- `xs` with `x` at place `i`. -/
def setAt {α : Type} (xs : List α) (i : Nat) (x : α) : List α := xs.set i x

/-- The first `k` with `k < n` that meets `p`. -/
def firstBelow (n : Nat) (p : Nat → Bool) : Option Nat := (List.range n).find? p

/-- How many `k < n` meet `p`. -/
def countBelow (n : Nat) (p : Nat → Bool) : Nat := ((List.range n).filter p).length

/-- Rounds up to a multiple of `m`. -/
def roundUp (n m : Nat) : Nat := (n + m - 1) / m * m

/-- The number is a power of two times the unit, that is, `n` is a multiple of `2^k`. -/
def aligned (n k : Nat) : Bool := n % 2 ^ k == 0

/-- Bits [hi:lo] of `w` replaced by `v`. -/
def putField (w hi lo v : Nat) : Nat :=
  w - fieldOf w hi lo * 2 ^ lo + (v % 2 ^ (hi + 1 - lo)) * 2 ^ lo

/-- Sets bit `i`. -/
def orBit (w i : Nat) : Nat := w ||| 2 ^ i

/-- Clears bit `i`. -/
def clrBit (w i : Nat) : Nat := if bitOf w i then w - 2 ^ i else w

/-- `k v`, with `v` brought to a numeral first: a checksum over many bytes is computed step by step. -/
def stepwise {w : Nat} {α : Type} (v : BitVec w) (k : BitVec w → α) : α :=
  match v.toNat with
  | 0 => k 0
  | n + 1 => k (BitVec.ofNat w (n + 1))

end Sys2Proof.Machine
end

