-- ==== Sys2Proof/Syntax.lean ====
section
/-!
DEFINITION. The commands: one constructor of `Instr` for each row of spec/opcode_table.json, with its operands, and the
plain data those operands carry. What arrives from outside the module (the bytes of a flit or a frame, measured inputs, results of a
test) is an operand; everything else a command needs is in the state.
-/

namespace Sys2Proof

/-- The block types of R55. -/
inductive BlockType where
  | module | job | power | reset | floorPlan | controlComplex | managementView | dieController
  | memoryController | updateEngine | port | networkInterface | queuePool | reduction | checkContexts
  | ring | belay | counters | luawick | core
deriving DecidableEq, Repr

/-- The causes of a page or unit transition (R35). -/
inductive Cause where
  | powerOn | testPassed | testFailed | fused | cairn | hostCommand | mgmtOrder | selfFault | hang | ownerLost
  | coolant | reset | work | trainingFailed | thermalTrip
deriving DecidableEq, Repr

/-- The five ports of a router (R166). -/
inductive MeshPort where
  | north | east | south | west | localPort
deriving DecidableEq, Repr

/-- The bits of a 144-bit codeword that differ from what was stored or sent: content bits 0 to 127, check bits 128 to 143
(R194). -/
abbrev WordNoise := BitVec 144

/-- What disturbs a flit on a link: the bits in error of its two words (R166). -/
structure FlitNoise where
  word0 : WordNoise
  word1 : WordNoise
deriving DecidableEq, Repr

/-- A byte of a 256-byte Luawick flit that arrives in error: its place and the bits that differ from what was sent (R60). -/
structure ByteError where
  place : Nat
  bits : Byte
deriving DecidableEq, Repr

/-- An error that has come about in the memory devices (R191 to R194): bits of the codeword of the 128-bit word at a module
address, bits of one of the three copies of a group's poison marks, or a check burst that cannot be read. -/
inductive DeviceError where
  | word (addr : Nat) (bits : WordNoise)
  | marks (channel group copy : Nat) (bits : Byte)
  | burst (channel group : Nat)
deriving DecidableEq, Repr

/-- A received frame of a type other than the transport's (R248, R256). -/
inductive OtherFrame where
  /-- PAUSE, LLDP or another protocol of R248. -/
  | unsupportedProtocol
  /-- Not IPv6. -/
  | nonIpv6
  /-- ICMPv6 other than a Neighbor Solicitation. -/
  | otherIcmp
deriving DecidableEq, Repr

/-- One stream half pair: the side, the transport channel and the peer rank (R263). -/
structure StreamId where
  side : Nat
  channel : Nat
  peer : Nat
deriving DecidableEq, Repr

/-- A detour entry of R175: router, rectangle of destinations (x0, y0, x1, y1) and waypoint. -/
structure Detour where
  router : Nat
  x0 : Nat
  y0 : Nat
  x1 : Nat
  y1 : Nat
  wpx : Nat
  wpy : Nat
deriving DecidableEq, Repr

/-- Pin levels that power-on samples (R425, R499). -/
structure PinLevels where
  slotId : Nat
  bivouacN : Bool
  coolantOk : Bool
deriving DecidableEq, Repr

/-- What the ROMs find (R350, R351): self-tests of the complexes, whether the active set and staging verify, whether
the variant word, the fuse-map words, the cairn record and the trim record decode from either copy, and the SLOT_ID that an L2
samples (R425). -/
structure RomResults where
  westPasses : Bool
  eastPasses : Bool
  activeVerifies : Bool
  stagingVerifies : Bool
  variantFuseOk : Bool
  failedFuseUnits : List Nat
  cairnOk : Bool
  trimOk : Bool
  slotId : Nat
deriving DecidableEq, Repr

/-- What a cluster supervisor counts in one 2 µs period, in the classes of R376: filled steps with matrix work by format and
with vector work, instructions retired, 128-bit SRAM accesses, flits sent, and flits forwarded by hop. -/
structure ClusterActivity where
  matrixFp4 : Nat
  matrix8 : Nat
  matrix16 : Nat
  matrixFp32 : Nat
  vector : Nat
  functions : Nat
  scalar : Nat
  sram : Nat
  sent : Nat
  hops : Nat
deriving DecidableEq, Repr

/-- The activity of one 2 µs period (R376, R377, R383): what the 160 cluster supervisors count, the figures of the ten die
controllers in 1/16 W, and the step rates of the clusters over the last 32 µs in M steps/s. -/
structure Activity where
  clusters : List ClusterActivity
  dies : List Nat
  stepRates : List Nat
deriving DecidableEq, Repr

/-- What the lead measures in the collect phase (R431): input power in 1/16 W, voltage and current (0.01 V, 0.01 A),
whether the cycle overran 100 µs, and the R437 check that fails, if one does. -/
structure CycleInputs where
  measured : Nat
  volts : Nat
  amps : Nat
  overrun : Bool
  failedCheck : Option Nat
  corrected : Nat
deriving DecidableEq, Repr

/-- The bytes of a flit that arrive in error. -/
abbrev FlitErrors := List ByteError

/-- A flit as it comes over the Luawick link: as sent, with its bytes in error (R59, R60). -/
structure ReceivedFlit where
  flit : List Byte
  errors : FlitErrors
deriving DecidableEq, Repr

/-- A message with an unused opcode: its opcode and DATA_LENGTH (R64, R65). -/
structure UnusedMessage where
  opcode : Nat
  length : Nat
deriving DecidableEq, Repr

/-- TAG and ADDRESS of a coherent message (R64, R66). -/
structure CohHeader where
  tag : Nat
  addr : DWord
deriving DecidableEq, Repr

/-- Errors that have come about in memory devices. -/
abbrev DeviceErrors := List DeviceError

/-- A port has lost alignment or FEC lock: for how long, in µs, and the lanes with light, as bits (R249, R287). -/
structure LockLoss where
  port : Nat
  lasted : Nat
  lanes : Nat
deriving DecidableEq, Repr

/-- A port and its lanes with light, as bits (R287). -/
structure PortLight where
  port : Nat
  lanes : Nat
deriving DecidableEq, Repr

/-- A Neighbor Solicitation: whether its MAC check passes, its IPv6 source and its target (R256, R257). -/
structure Solicitation where
  good : Bool
  source : Nat
  target : Nat
deriving DecidableEq, Repr

/-- A frame that the module does not use: whether its MAC check passes, and its type (R248, R256, R257). -/
structure UnusedFrame where
  good : Bool
  kind : OtherFrame
deriving DecidableEq, Repr

/-- A stream whose next packet is sent, and the errors that the read of its source meets in staging (R345). -/
structure StreamRead where
  stream : StreamId
  errors : DeviceErrors
deriving DecidableEq, Repr

/-- A queue, and the bits in error of a link entry of it (R293). -/
structure LinkEntryError where
  queue : Nat
  bits : WordNoise
deriving DecidableEq, Repr

/-- A ring whose op goes on, and the errors that its reads meet in staging (R345). -/
structure RingRead where
  ring : Nat
  errors : DeviceErrors
deriving DecidableEq, Repr

/-- The end of a known-answer run: whether it passed, and the errors that it corrected (R353). -/
structure RunOutcome where
  passed : Bool
  corrected : Nat
deriving DecidableEq, Repr

/-- What a mesh test found: the routers and links that failed, and a router for each error corrected (R353). -/
structure MeshOutcome where
  failed : List Nat
  corrected : List Nat
deriving DecidableEq, Repr

/-- The quanta that a PFC frame gives each of the eight priorities that it names (R281). -/
abbrev PauseQuanta := List (Option Nat)

/-- Detour entries that the die controllers install. -/
abbrev Detours := List Detour

/-- The commands, in the order of the opcode table. -/
inductive Instr where
  /-- QUIESCE (R37): Host command that takes a READY or ACTIVE block to QUIESCED at its next safe point and sets the host hold. -/
  | quiesce (ty : BlockType) (inst : Nat)
  /-- QUIESCED_AT_SAFE_POINT (R37): A block that took QUIESCE reaches its safe point, becomes QUIESCED and ends the command DONE. -/
  | quiescedAtSafePoint (ty : BlockType) (inst : Nat)
  /-- RESUME (R508): Host command that releases the host hold and returns the block to its prior state once no other hold stands. -/
  | resume (ty : BlockType) (inst : Nat)
  /-- RETEST (R37): Host or owner command that runs the block's known-answer run, leaving it READY (or QUIESCED under a hold) on a pass and RETIRED on a fail. -/
  | retest (ty : BlockType) (inst : Nat)
  /-- RETIRE (R37): Command that retires a block, or on a die controller page the unit named in ARG, ending any command in progress first. -/
  | retire (ty : BlockType) (inst : Nat) (arg : Nat)
  /-- LOAD (R37): Command that takes a block to LOADING to load the named firmware image, then back to its prior state or to FAULT. -/
  | load (ty : BlockType) (inst : Nat) (arg : Nat)
  /-- RETRAIN (R38): Command that retrains a named channel or lane, or the whole block, on a memory controller, port or Luawick page. -/
  | retrain (ty : BlockType) (inst : Nat) (arg : Nat)
  /-- SELF_FAULT (R16): A block detects a fault in itself and reports it to its owner, which moves it to FAULT or retires it. -/
  | selfFault (unit : Nat)
  /-- OWNER_RETEST (R213): After a self-check fault the owner runs RETEST on its own, keeping the holds that stood when the fault came. -/
  | ownerRetest (unit : Nat)
  /-- PAGE_NEGOTIATE (R51): Write of PAGE_NEGOTIATE that accepts, refuses or withdraws a page version. -/
  | pageNegotiate (ty : BlockType) (inst : Nat) (value : Word)
  /-- PAGE_ERROR (R31): Write of PAGE_ERROR in which any bit set clears the whole register. -/
  | pageError (ty : BlockType) (inst : Nat) (value : Word)
  /-- PAGE_EVENTS (R49): W1C write of PAGE_EVENTS that clears the bits written as 1, with a coincident event prevailing. -/
  | pageEvents (ty : BlockType) (inst : Nat) (value : Word) (coincident : Word)
  /-- PAGE_EVENT_MASK (R48): Write of PAGE_EVENT_MASK that delivers an event-ring entry when a mask bit is set over an event bit already 1. -/
  | pageEventMask (ty : BlockType) (inst : Nat) (value : Word)
  /-- REGISTER_WRITE (R45): Write of a register that has no behaviour of its own, stored exactly as written. -/
  | registerWrite (off : Nat) (value : Word)
  /-- LO_READ (R50): 32-bit read of a _LO register that returns the low half, latches the high half and, for an RC pair, clears both halves. -/
  | loRead (off : Nat)
  /-- HI_WRITE (R50): Write of a _HI register that writes the held low half and the new high half in one instant. -/
  | hiWrite (off : Nat) (value : Word)
  /-- RC_READ (R47): Aligned read of an RC register that returns its value and clears it. -/
  | rcRead (off : Nat) (wide : Bool)
  /-- NEGOTIATE_ALL (R370): Write of NEGOTIATE_ALL that negotiates every page of one block type and counts acceptances and refusals. -/
  | negotiateAll (value : Word)
  /-- LINK_TRAINED (R57): Luawick training ends with the link ACTIVE at the widest width and highest rate both ends trained. -/
  | linkTrained (lanes : Nat) (rate : Nat)
  /-- LINK_TRAINING_FAILED (R87): Luawick training fails and is retried without limit while the page stays TRAINING. -/
  | linkTrainingFailed
  /-- LINK_FAILURE (R63): The Luawick link fails and the page moves to TRAINING while it retrains, keeping messages and credits. -/
  | linkFailure
  /-- LINK_LOST_TIMEOUT (R63): The link is not ACTIVE within LINK_LOST_TIMEOUT, so the shared window, DMA queues and event rings are dropped and LINK_LOST is set. -/
  | linkLostTimeout
  /-- DATA_FLIT (R62): Receipt of a data flit, which is FEC-corrected, CRC-checked and either accepted in order or discarded with a replay request. -/
  | dataFlit (flit : List Byte) (errors : FlitErrors)
  /-- REPLAY_REQUEST (R62): Receipt of a replay request, which makes the sender replay from the flit after ACK. -/
  | replayRequest (received : ReceivedFlit)
  /-- REG_READ32 (R66): Host message that reads a 32-bit register and is answered with REG_COMPLETION. -/
  | regRead32 (tag : Nat) (addr : DWord)
  /-- REG_READ64 (R66): Host message that reads a 64-bit register and is answered with REG_COMPLETION. -/
  | regRead64 (tag : Nat) (addr : DWord)
  /-- REG_WRITE32 (R66): Host message that writes a 32-bit register and is answered with REG_COMPLETION. -/
  | regWrite32 (tag : Nat) (addr : DWord) (value : Word)
  /-- REG_WRITE64 (R66): Host message that writes a 64-bit register and is answered with REG_COMPLETION. -/
  | regWrite64 (tag : Nat) (addr : DWord) (value : DWord)
  /-- DMA_READ_DATA (R65): Receipt of data from the companion answering a DMA_READ_REQ of the same TAG. -/
  | dmaReadData (tag : Nat) (status : Nat) (poison : Bool) (data : List Byte)
  /-- UNUSED_OPCODE (R65): A message with an unused opcode is discarded and counted in PROTOCOL_ERRORS. -/
  | unusedOpcode (message : UnusedMessage)
  /-- COH_SNOOP_INV (R70): Invalidating snoop answered at once from the line's present state, with data from M. -/
  | cohSnoopInv (header : CohHeader)
  /-- COH_SNOOP_SHARE (R70): Sharing snoop answered at once from the line's present state, with data from M. -/
  | cohSnoopShare (header : CohHeader)
  /-- COH_GRANT (R70): Grant of a window line in S or E that installs the granted state for the outstanding request. -/
  | cohGrant (header : CohHeader) (exclusive : Bool) (data : List Byte)
  /-- COH_WB_ACK (R70): Acknowledgement that completes a writeback of a window line. -/
  | cohWbAck (header : CohHeader)
  /-- LINE_EVICTION (R70): The module evicts a cached window line, sending COH_WRITEBACK from M or COH_EVICT_CLEAN from S or E. -/
  | lineEviction (addr : DWord)
  /-- SHARED_ENABLE (R72): Luawick command that judges SHARED_BASE and SHARED_SIZE_LOG2 and starts the shared window. -/
  | sharedEnable
  /-- SHARED_DISABLE (R72): Luawick command that writes back modified lines, invalidates all lines and stops the shared window. -/
  | sharedDisable
  /-- QUEUE_ENABLE (R86): Luawick command that judges and enables a DMA queue. -/
  | queueEnable (arg : Nat)
  /-- QUEUE_DISABLE (R78): Luawick command that cancels unstarted descriptors of a queue and disables it. -/
  | queueDisable (arg : Nat)
  /-- RING_ENABLE (R83): Luawick command that enables an event ring and writes an OVERFLOW entry first if entries were lost. -/
  | ringEnable (arg : Nat)
  /-- RING_DISABLE (R86): Luawick command that disables an event ring. -/
  | ringDisable (arg : Nat)
  /-- DOORBELL (R73): Write of a queue's new producer index, ignored with DOORBELL_ERROR if it would overfill the queue. -/
  | doorbell (q : Nat) (value : Word)
  /-- NOP (R75): DMA descriptor op that moves nothing but still increments its flag and delivers its event. -/
  | nop (q : Nat)
  /-- HOST_TO_MODULE (R75): DMA descriptor op that is judged at start and moves data from companion memory into module memory. -/
  | hostToModule (q : Nat)
  /-- MODULE_TO_HOST (R75): DMA descriptor op that is judged at start and moves data from module memory to companion memory, carrying poison. -/
  | moduleToHost (q : Nat)
  /-- SLOT_FILL (R92): DMA descriptor op that fills a sample slot, truncating or padding to capacity, and writes the slot header. -/
  | slotFill (q : Nat)
  /-- DESCRIPTOR_COMPLETE (R76): A DMA transfer ends and its flag, status word and event are written in order. -/
  | descriptorComplete (q : Nat)
  /-- E_CONSUMER (R82): Host write of an event ring's consumer index that frees space and clears the pending signal. -/
  | eConsumer (n : Nat) (value : Word)
  /-- INT_HOLDOFF (R82): The hold-off since the last signal of a ring ends, so a pending signal may be sent. -/
  | intHoldoff (n : Nat)
  /-- ATTACH (R89): JOB command that judges the job setup, loads the rank table, fixes the slot layout and attaches the job. -/
  | attach (arg : Nat)
  /-- DETACH (R89): JOB command that detaches the job when no context is open. -/
  | detach
  /-- OPEN_CONTEXT (R89): JOB command that opens one of the eight contexts. -/
  | openContext (arg : Nat)
  /-- CLOSE_CONTEXT (R89): JOB command that closes a context, cancelling its posted descriptors and disabling its plans and windows. -/
  | closeContext (arg : Nat)
  /-- CONTEXT_DRAINED (R89): The last running work of a closing context finishes and CLOSE_CONTEXT ends DONE. -/
  | contextDrained (ctx : Nat)
  /-- SCALAR_INSTRUCTION (R94): Execution of one standard RV64IMAC instruction by the scalar processor, including any trap it raises. -/
  | scalarInstruction (core : Nat)
  /-- ECALL (R107): A user-mode ECALL ends the kernel with a7 = 0 or returns −1 otherwise. -/
  | ecall (core : Nat)
  /-- FENCE_I (R97): FENCE.I makes instructions written into SRAM by messages or engines visible to fetch. -/
  | fenceI (core : Nat)
  /-- MRET (R106): Return from a trap, after which an interrupted issue or wait instruction executes again from the start. -/
  | mret (core : Nat)
  /-- VXBEACON (R105): Machine-mode write of vxbeacon that answers the pending beacon request. -/
  | vxbeacon (core : Nat)
  /-- VXSEED (R103): Write of the stochastic rounding seed, which affects only commands issued after it. -/
  | vxseed (core : Nat) (value : DWord)
  /-- MX_ISSUE (R110): Issue of a descriptor to the matrix engine, returning a ticket once the engine has copied it. -/
  | mxIssue (core : Nat) (rd : Nat) (rs1 : Nat)
  /-- VX_ISSUE (R110): Issue of a descriptor to the vector engine, returning a ticket once the engine has copied it. -/
  | vxIssue (core : Nat) (rd : Nat) (rs1 : Nat)
  /-- MSG_SEND (R110): Issue of a message descriptor to the messenger, returning a ticket once it is accepted. -/
  | msgSend (core : Nat) (rd : Nat) (rs1 : Nat)
  /-- ENG_WAIT (R109): Instruction that waits until an engine's completed count reaches a ticket. -/
  | engWait (core : Nat) (rd : Nat) (rs1 : Nat) (rs2 : Nat)
  /-- ENG_POLL (R108): Instruction that returns an engine's completed count. -/
  | engPoll (core : Nat) (rd : Nat) (rs1 : Nat)
  /-- FLAG_READ (R108): Instruction that reads a flag counter. -/
  | flagRead (core : Nat) (rd : Nat) (imm : Nat)
  /-- FLAG_ADD (R124): Instruction that adds to a flag counter and returns its old value. -/
  | flagAdd (core : Nat) (rd : Nat) (rs1 : Nat) (imm : Nat)
  /-- FLAG_SET (R124): Instruction that sets a flag counter and returns its old value. -/
  | flagSet (core : Nat) (rd : Nat) (rs1 : Nat) (imm : Nat)
  /-- FLAG_WAIT (R122): Instruction that waits until a flag counter has reached a value. -/
  | flagWait (core : Nat) (rd : Nat) (rs1 : Nat) (imm : Nat)
  /-- FLAG_TEST (R108): Instruction that returns whether a flag counter has reached a value. -/
  | flagTest (core : Nat) (rd : Nat) (rs1 : Nat) (imm : Nat)
  /-- WAIT_SATISFIED (R122): The awaited flag or completed count reaches its value and the waiting FLAG.WAIT or ENG.WAIT retires. -/
  | waitSatisfied (core : Nat)
  /-- WAIT_TIMEOUT (R123): A user-mode wait exceeds WAIT_LIMIT and raises an exception. -/
  | waitTimeout (core : Nat)
  /-- BEACON_REQ (R105): The cluster supervisor's 1 ms beacon request reaches a core, counting a miss if the previous one is still pending. -/
  | beaconReq (core : Nat)
  /-- MATMUL (R154): Matrix engine command that computes C = A × Bᵀ with optional accumulation and writes the output. -/
  | matmul (core : Nat)
  /-- ADD (R157): Vector command that adds two operands elementwise. -/
  | add (core : Nat)
  /-- SUB (R157): Vector command that subtracts two operands elementwise. -/
  | sub (core : Nat)
  /-- MUL (R157): Vector command that multiplies two operands elementwise. -/
  | mul (core : Nat)
  /-- FMA (R157): Vector command that computes a × b + c with one rounding. -/
  | fma (core : Nat)
  /-- MAX (R157): Vector command that takes the larger of two operands elementwise. -/
  | max (core : Nat)
  /-- MIN (R157): Vector command that takes the smaller of two operands elementwise. -/
  | min (core : Nat)
  /-- COPY (R157): Vector command that converts a into FMT_D. -/
  | copy (core : Nat)
  /-- TRANSPOSE (R157): Vector command that copies A into D transposed, bits unchanged. -/
  | transpose (core : Nat)
  /-- EXP2 (R161): Vector function command computing 2^s. -/
  | exp2 (core : Nat)
  /-- LOG2 (R161): Vector function command computing log₂ s. -/
  | log2 (core : Nat)
  /-- RECIP (R161): Vector function command computing 1 ÷ s. -/
  | recip (core : Nat)
  /-- RSQRT (R161): Vector function command computing 1 ÷ √s. -/
  | rsqrt (core : Nat)
  /-- TANH (R161): Vector function command computing tanh s. -/
  | tanh (core : Nat)
  /-- SIGMOID (R161): Vector function command computing 1 ÷ (1 + e^−s). -/
  | sigmoid (core : Nat)
  /-- ERF (R161): Vector function command computing erf s. -/
  | erf (core : Nat)
  /-- RSUM (R160): Vector reduction command summing each row. -/
  | rsum (core : Nat)
  /-- RMAX (R160): Vector reduction command taking the largest element of each row. -/
  | rmax (core : Nat)
  /-- RMIN (R160): Vector reduction command taking the smallest element of each row. -/
  | rmin (core : Nat)
  /-- RSUMSQ (R160): Vector reduction command summing the squares of each row. -/
  | rsumsq (core : Nat)
  /-- RAMAX (R160): Vector reduction command taking the largest magnitude of each row. -/
  | ramax (core : Nat)
  /-- MESSAGE_PUT (R117): Messenger starts a PUT that writes local data at a core or in module memory. -/
  | messagePut (core : Nat)
  /-- MESSAGE_GET (R177): Messenger starts a GET that reads from a core or module memory into local SRAM. -/
  | messageGet (core : Nat)
  /-- ROW_MULTICAST (R183): Messenger starts a PUT to a run of cores along one row. -/
  | rowMulticast (core : Nat)
  /-- COLUMN_MULTICAST (R183): Messenger starts a PUT to a run of cores along one column. -/
  | columnMulticast (core : Nat)
  /-- COUNTER_MESSAGE (R182): Messenger sends an addition to a counter on an I/O die. -/
  | counterMessage (core : Nat)
  /-- UPDATE_QUEUE_MESSAGE (R181): Messenger sends trigger records to an update engine's queue. -/
  | updateQueueMessage (core : Nat)
  /-- ENGINE_COMMAND_COMPLETE (R114): An engine command ends and its output, flags, status word and completed count change in order. -/
  | engineCommandComplete (core : Nat) (engine : Nat) (ticket : Nat)
  /-- MSG_STALL (R129): A message stays incomplete past MSG_STALL_LIMIT and is latched in STALL_INFO. -/
  | msgStall (core : Nat) (ticket : Nat)
  /-- SRAM_SCRUB (R99): A core scrubs an SRAM word in an idle bank step, correcting or poisoning it. -/
  | sramScrub (core : Nat) (addr : Nat) (error : WordNoise)
  /-- START (R133): Core command that loads a kernel by GET, sets the context and starts it in user mode. -/
  | start (core : Nat) (arg : Nat)
  /-- STOP (R136): Core command that ends the running kernel with STOPPED and releases the host hold. -/
  | stop (core : Nat)
  /-- KERNEL_END (R132): Once started commands have ended, the runtime writes EXIT, moves the page to READY and sets KERNEL_EXIT. -/
  | kernelEnd (core : Nat)
  /-- ROUTER_FLIT (R171): A router checks a received flit, correcting, requesting a resend, poisoning a payload word or discarding the packet. -/
  | routerFlit (router : Nat) (port : MeshPort) (n : Nat) (first second : FlitNoise)
  /-- PUT (R176): A PUT packet arrives at a core and its payload is written, completing the message when all packets are counted. -/
  | put (n : Nat)
  /-- PUT_MEM (R196): A data packet reaches a memory controller and is written to its lines, then answered with a COMPLETION. -/
  | putMem (n : Nat)
  /-- GET_REQ (R177): A read request reaches a core or memory controller, which returns GET_DATA packets. -/
  | getReq (n : Nat)
  /-- GET_DATA (R177): Returned data for a GET is written into the requester's SRAM. -/
  | getData (n : Nat)
  /-- COMPLETION (R176): A completion packet returns a message's or packet's outcome to its source messenger. -/
  | completion (n : Nat)
  /-- COUNTER_ADD (R182): A counter packet reaches an I/O die, which adds REMOTE_INC once and returns a COMPLETION. -/
  | counterAdd (n : Nat)
  /-- UPDATE_PUT (R235): A packet of trigger records reaches an update engine's queue. -/
  | updatePut (n : Nat)
  /-- MC_PUT (R183): A multicast packet reaches its entry router, which moves it onto MC and distributes copies along the run. -/
  | mcPut (n : Nat)
  /-- RELAY_PUT (R185): A die controller broadcast travels a row and starts a column run at every router. -/
  | relayPut (n : Nat)
  /-- TARGET_ENTRY_TIMEOUT (R186): 1 ms after a router or link retirement an older incomplete target entry is freed with FAILED. -/
  | targetEntryTimeout (core : Nat)
  /-- SOURCE_MESSAGE_TIMEOUT (R186): 2 ms after a router or link retirement an older incomplete message ends FAILED at its source. -/
  | sourceMessageTimeout (core : Nat)
  /-- MAP_FIXED (R200): Once every controller has trained, the address map is fixed and every controller page moves to READY. -/
  | mapFixed
  /-- SCRUB_STEP (R202): A controller scrubs the next group of its channels, correcting or poisoning lines. -/
  | scrubStep (c : Nat) (errors : DeviceErrors)
  /-- SCRUB_NOW (R221): Memory controller command that starts a scrub pass at once at the fastest rate. -/
  | scrubNow (c : Nat)
  /-- WCK2DQ_READ (R189): The 100 ms read of the WCK2DQ oscillator for drift tracking, which may start a retrain. -/
  | wck2dqRead (c : Nat) (drifted : List Nat)
  /-- MR4_READ (R205): The 32 ms MR4 read that sets the refresh rate and MEM_HOT. -/
  | mr4Read (c : Nat) (rate : Nat) (hot : Bool)
  /-- CHANNEL_RETRAIN_START (R206): An automatic channel retrain starts once no command is in progress and holds the channel's accesses. -/
  | channelRetrainStart (c : Nat) (j : Nat)
  /-- CHANNEL_RETRAIN_END (R207): A channel retrain ends, releasing held accesses or retiring the channel on failure. -/
  | channelRetrainEnd (c : Nat) (failed : List Nat)
  /-- INJECT_CTRL (R219): Arming of a memory error injection, made on the next write of the addressed word. -/
  | injectCtrl (c : Nat) (value : Word)
  /-- MAP_LOCAL_NEXT (R218): Write of the module-wide LOCAL_SHARE for the next memory bring-up, kept in management flash. -/
  | mapLocalNext (value : Word)
  /-- SELF_REFRESH_ENTRY (R215): 10 ms after a coolant stop or power-off order the controller holds all accesses and enters self-refresh. -/
  | selfRefreshEntry (c : Nat)
  /-- ENABLE_PLAN (R230): Update engine command that judges a plan and copies its block, program and streams. -/
  | enablePlan (c : Nat) (arg : Nat)
  /-- DISABLE_PLAN (R246): Update engine command that sets a plan's chunks IDLE and discards its later triggers. -/
  | disablePlan (c : Nat) (arg : Nat)
  /-- ARM (R233): Update engine command that arms a range of chunks, or only its SKIPPED chunks. -/
  | arm (c : Nat) (arg : Nat)
  /-- DISARM (R233): Update engine command that sets ARMED and PENDING chunks of a range to IDLE. -/
  | disarm (c : Nat) (arg : Nat)
  /-- FIRE (R235): Update engine command that enqueues one trigger record for a plan. -/
  | fire (c : Nat) (arg : Nat)
  /-- STATE_QUERY (R245): Write of a chunk state table entry number whose state then reads back. -/
  | stateQuery (c : Nat) (value : Word)
  /-- CHUNK_RUN (R237): An update engine starts its next PENDING chunk with the CHECK phase and then APPLY. -/
  | chunkRun (c : Nat)
  /-- CHUNK_END (R240): A chunk run ends APPLIED or SKIPPED and its counts, skip entry, counter and events follow. -/
  | chunkEnd (c : Nat)
  /-- PORT_TRAINING_DONE (R250): Port training ends, taking the port to READY or to OFF or FAULT on failure. -/
  | portTrainingDone (p : Nat) (passed : Bool)
  /-- LINK_DOWN (R249): Loss of alignment or FEC lock lasts LINK_DOWN_HOLD, so the port link goes down and retrains. -/
  | linkDown (loss : LockLoss)
  /-- LINK_UP (R249): A port link returns and LINK_UP is set. -/
  | linkUp (p : Nat)
  /-- FEC_INTERVAL (R251): A 100 ms interval ends and FEC_DEGRADED is set or cleared. -/
  | fecInterval (light : PortLight) (corrected : Nat) (uncorrected : Nat)
  /-- LASER_CHECK (R252): The 5 µs measurement of both laser inputs of every engine. -/
  | laserCheck (powers : List Int)
  /-- LASER_SWITCHED (R252): The active laser input stays below LASER_LOW for 10 µs and the engine switches to the spare. -/
  | laserSwitched (e : Nat)
  /-- LASER_SELECT (R253): Port command that chooses the laser input of the whole optical engine. -/
  | laserSelect (p : Nat) (arg : Nat)
  /-- NEIGHBOR_SOLICITATION (R256): An IPv6 Neighbor Solicitation for the port's address is answered with an advertisement. -/
  | neighborSolicitation (p : Nat) (solicitation : Solicitation)
  /-- UNSUPPORTED_FRAME (R248): A frame of an unsupported protocol or a non-IPv6 frame is counted and discarded. -/
  | unsupportedFrame (p : Nat) (frame : UnusedFrame)
  /-- DATA (R267): A received DATA packet is checked, written at REMOTE_ADDR and folded into its stream, or NACKed or discarded. -/
  | data (p : Nat) (frame : List Byte)
  /-- PFC_FRAME (R281): A received PFC frame pauses DATA_PCP or CTRL_PCP traffic on the port for its quanta. -/
  | pfcFrame (p : Nat) (good : Bool) (quanta : PauseQuanta)
  /-- PFC_REPEAT (R280): Every 20 µs a PFC frame is repeated while the buffer is above half, or quanta 0 is sent when it falls below. -/
  | pfcRepeat (side : Nat) (port : Nat) (ctrl : Bool)
  /-- PFC_STORM (R281): A priority stays paused longer than PFC_STORM_LIMIT and PFC_STORM is raised. -/
  | pfcStorm (p : Nat) (ctrl : Bool)
  /-- ACK (R273): A received ACK advances the sending half's cumulative acknowledgement and completes sends. -/
  | ack (p : Nat) (frame : List Byte)
  /-- NACK (R277): A received NACK causes a retransmission, a reject end of the message, a hold or a resend on another plane. -/
  | nack (p : Nat) (frame : List Byte)
  /-- CREDIT (R327): A received CREDIT packet raises FREED_BY_NEXT of a running pass or is discarded. -/
  | credit (p : Nat) (frame : List Byte)
  /-- ABORT_PACKET (R339): A received ABORT aborts the running pass with REMOTE set and forwards the notice, or is discarded. -/
  | abortPacket (p : Nat) (frame : List Byte)
  /-- SEND (R290): Network interface command that judges and starts a host send from the SEND registers. -/
  | send (p : Nat)
  /-- PACKET_SEND (R266): A network interface sends the next packet of a send once window, pacing and an eligible plane allow. -/
  | packetSend (read : StreamRead)
  /-- ACK_DELAY (R275): ACK_DELAY passes after the first unacknowledged packet and the receiving half sends an ACK. -/
  | ackDelay (k : StreamId)
  /-- NACK_DELAY (R276): A later packet has waited NACK_DELAY past a gap and NACK GAP is sent. -/
  | nackDelay (k : StreamId)
  /-- RETX_TIMEOUT (R276): RETX_TIMEOUT passes, retransmitting an unacknowledged packet or repeating a NACK GAP. -/
  | retxTimeout (k : StreamId)
  /-- HOLD_PROBE (R277): In HELD, the lowest unacknowledged packet is resent every HOLD_PROBE. -/
  | holdProbe (k : StreamId)
  /-- STREAM_GIVEUP (R278): The oldest unacknowledged packet gains no acknowledgement for STREAM_GIVEUP and the stream becomes BROKEN. -/
  | streamGiveup (k : StreamId)
  /-- RATE_RISE (R283): A RATE_RISE interval with no ECE ends and the sending rate rises by RATE_STEP. -/
  | rateRise (k : StreamId)
  /-- OPEN_WINDOW (R269): Network interface command that opens a receive window. -/
  | openWindow (p : Nat) (arg : Nat)
  /-- CLOSE_WINDOW (R269): Network interface command that closes a receive window once its accepted packets are visible. -/
  | closeWindow (p : Nat) (arg : Nat)
  /-- WIN_QUERY (R289): Write of a window number whose state, base and length then read back. -/
  | winQuery (p : Nat) (value : Word)
  /-- STREAM_QUERY (R289): Write of a channel and peer whose stream state then reads back. -/
  | streamQuery (p : Nat) (value : Word)
  /-- FLUSH (R298): Queue pool command that empties a queue at its next record boundary. -/
  | flush (side : Nat) (arg : Nat)
  /-- APPLY_RESERVES (R295): Queue pool command that judges and applies new queue reserves. -/
  | applyReserves (side : Nat)
  /-- POOL_INJECT (R310): Arming of a parity flip on a word of the next cell written to a queue. -/
  | poolInject (side : Nat) (value : Word)
  /-- QUEUE_LINK_LOST (R297): An uncorrectable link-store error breaks a queue and drops all its records. -/
  | queueLinkLost (side : Nat) (error : LinkEntryError)
  /-- CELL_RECLAIM (R297): The pool returns unreachable cells to the free list and producer credit after a broken queue. -/
  | cellReclaim (side : Nat) (q : Nat)
  /-- SET_HALF (R313): Check contexts command that opens a send or receive half with loaded values. -/
  | setHalf (r : Nat) (arg : Nat)
  /-- CLEAR_HALF (R313): Check contexts command that sets a half IDLE, closing a receive half with ABANDONED. -/
  | clearHalf (r : Nat) (arg : Nat)
  /-- COUNTER_WRITE (R315): Host write that sets an I/O-die counter, after which its belay entries are judged. -/
  | counterWrite (side : Nat) (c : Nat) (value : Word)
  /-- ARM_ENTRY (R320): BELAY command that arms an entry not bound to a ring. -/
  | armEntry (side : Nat) (arg : Nat)
  /-- DISARM_ENTRY (R320): BELAY command that sets an entry IDLE. -/
  | disarmEntry (side : Nat) (arg : Nat)
  /-- SEND_OP (R319): Ring op that sends a chunk of the local buffer to NEXT_RANK, packing it first under PACK. -/
  | sendOp (r : Nat)
  /-- REDUCE_SEND (R328): Ring op that combines the oldest arrival with the local chunk and stores or forwards the result. -/
  | reduceSend (read : RingRead)
  /-- COPY_OP (R319): Ring op that takes the oldest arrival and stores or forwards it. -/
  | copyOp (read : RingRead)
  /-- SIGNAL_OP (R319): Ring op that gives a good chunk signal and moves no data. -/
  | signalOp (r : Nat)
  /-- OP_END (R326): A taking op frees its buffer once its STORE is visible and FORWARD completed, and sends a CREDIT upstream. -/
  | opEnd (r : Nat) (op : Nat)
  /-- LAUNCH (R331): RING command that judges a pass and arms its belay entries. -/
  | launch (r : Nat)
  /-- ABORT (R348): RING command that aborts a running pass with reason HOST. -/
  | abort (r : Nat)
  /-- ACKNOWLEDGE (R335): RING command that clears an ended pass and returns the page to READY. -/
  | acknowledge (r : Nat)
  /-- PASS_END (R333): All entries are DONE and all ops and sends complete, so the pass ends DONE or PARTIAL. -/
  | passEnd (r : Nat)
  /-- STEP_TIMEOUT (R338): A pass makes no progress for STEP_TIMEOUT and aborts. -/
  | stepTimeout (r : Nat)
  /-- POWER_ON (R493): The 48 V input rises past 40 V, or returns for 10 ms after a loss, and the power-on sequence starts. -/
  | powerOn (pins : PinLevels)
  /-- INPUT_DIP (R493): The input falls below 38 V, ridden through if it returns within 50 µs. -/
  | inputDip
  /-- POWER_LOSS (R493): The input stays below 38 V for 50 µs, PWR_GOOD falls and all state is lost. -/
  | powerLoss
  /-- OVERVOLTAGE (R493): The input stays above 62 V for 10 µs and the module acts as on a power loss. -/
  | overvoltage
  /-- ROM_START (R350): The ROM self-tests, reads fuses, chooses the lead, rolls forward an activation, verifies firmware and starts it or bivouac mode. -/
  | romStart (r : RomResults)
  /-- DIE_CONTROLLER_RELEASE (R349): The lead releases the die controllers, which self-test, load firmware and start their dies' tests. -/
  | dieControllerRelease (d : Nat) (passed : Bool)
  /-- KNOWN_ANSWER_RUN_END (R353): A unit's known-answer run ends and the unit moves on in bring-up or to OFF. -/
  | knownAnswerRunEnd (unit : Nat) (outcome : RunOutcome)
  /-- MESH_TEST_END (R356): The mesh test ends and detours are installed for every OFF router and link. -/
  | meshTestEnd (outcome : MeshOutcome) (detours : Detours) (cut : List Nat)
  /-- CORE_WAVE (R354): A wave of core bring-up starts with supervisor runs, trims, core runs and runtime loads. -/
  | coreWave (d : Nat) (w : Nat)
  /-- IN_SESSION_RETIREMENT (R367): The lead retires units by one decision with one new generation, entries, events and cairn additions. -/
  | inSessionRetirement (unit : Nat) (cause : Cause) (detours : Detours) (cut : List Nat)
  /-- POWER_PERIOD (R382): Every 2 µs the module forms P_est and updates s_power, s_pace, the envelope, barrier state and filler. -/
  | powerPeriod (a : Activity)
  /-- AFTERGLOW_MAX_HOLD (R387): AFTERGLOW_MAX_HOLD passes in a barrier and the floor lapses. -/
  | afterglowMaxHold
  /-- PACE_BELOW_JOB (R384): A cluster's work rate stays 0.5 % below JOB_PACE for 10 ms and PACE_BELOW_JOB is set. -/
  | paceBelowJob (i : Nat)
  /-- APPLY_TARGETS (R379): POWER command that judges and applies JOB_PACE and HOST_POWER_TARGET. -/
  | applyTargets
  /-- CONTROL_CYCLE (R431): The lead's 100 µs cycle that collects, decides, mirrors over the rope and releases outputs. -/
  | controlCycle (m : CycleInputs)
  /-- SENSOR_CONVERSION (R396): A temperature sensor completes a conversion every 20 µs. -/
  | sensorConversion (n : Nat) (reading : Int)
  /-- SENSOR_FAULT (R397): A sensor makes no conversion for 1 ms and is faulted. -/
  | sensorFault (n : Nat)
  /-- SENSOR_SPLIT (R398): A hot spot's two sensors differ by more than 6 °C for 50 ms and SENSOR_SPLIT is set. -/
  | sensorSplit (h : Nat)
  /-- TRIM_CHANGED (R392): A cluster shows 4 shadow failures in 10 ms and its trim is lengthened by one step. -/
  | trimChanged (i : Nat)
  /-- OP_POINT_CHANGED (R391): The core rails reach the new operating point, trims and weights apply and shade is released. -/
  | opPointChanged
  /-- COOLANT_OK_FALL (R402): COOLANT_OK goes low, starting the 20 µs drop filter. -/
  | coolantOkFall
  /-- COOLANT_STOP (R402): A low of 20 µs is accepted as a drop, shading all clusters at 255 and quiescing blocks. -/
  | coolantStop
  /-- COOLANT_OK_RISE (R403): COOLANT_OK goes high after a drop, starting the 1 ms return filter. -/
  | coolantOkRise
  /-- COOLANT_RETURN (R403): A high of 1 ms is accepted as a return and blocks go back to their prior states. -/
  | coolantReturn
  /-- COOLANT_GRACE (R402): No return is accepted within COOLANT_GRACE and the module trips. -/
  | coolantGrace
  /-- SUPERVISOR_BEACON (R410): A cluster supervisor's 1 ms beacon period ends at the lead, counting a miss if none came. -/
  | supervisorBeacon (i : Nat) (came : Bool)
  /-- DIE_CONTROLLER_BEACON (R410): A die controller's 1 ms beacon period ends at the lead, counting a miss if none came. -/
  | dieControllerBeacon (d : Nat) (came : Bool)
  /-- BEACON (R410): The lead's 10 ms beacon advances BEACON_COUNT and writes a BEACON entry. -/
  | beacon
  /-- REQUEST_RESET (R420): RESET command with which the host requests an L0 or L1 reset. -/
  | requestReset (arg : Nat)
  /-- RESET_N_FALL (R421): The tray drives RESET_N low, starting the 10 µs filter. -/
  | resetNFall
  /-- PIN_RESET (R421): RESET_N stays low for 10 µs and is accepted as a reset from source PIN. -/
  | pinReset
  /-- MESH_DRAINED (R416): During a compute reset the mesh has drained, with packets to cores discarded. -/
  | meshDrained
  /-- RESET_N_RELEASE (R422): 2 ms after acceptance the module releases RESET_N. -/
  | resetNRelease
  /-- RESET_N_RISE (R422): RESET_N rises after the tray held it, and the reset sequence resumes. -/
  | resetNRise
  /-- RECOVERY_DONE (R416): Every core of a compute reset is READY and RECOVERY_DONE is set. -/
  | recoveryDone
  /-- MIRROR_RECORD (R435): The second receives a mirror record, checks it, applies it and acknowledges. -/
  | mirrorRecord (crcOk : Bool)
  /-- ROPE_RESEND (R435): No acknowledgement comes within 10 µs, so the lead resends, or fences and retires the second on a second miss. -/
  | ropeResend
  /-- WATCHDOG (R437): 300 µs pass without a cycle end and the lead's watchdog releases LEAD_SELECT. -/
  | watchdog
  /-- SILENCE (R439): No record has arrived for 300 µs, so the second fences the lead and takes over. -/
  | silence
  /-- TAKEOVER (R440): The second claims LEAD_SELECT once it is released and starts its takeover check. -/
  | takeover
  /-- TAKEOVER_CHECK_END (R441): The takeover check ends and the new lead starts cycles, or the module enters the safe state. -/
  | takeoverCheckEnd (passed : Bool)
  /-- REJOINED (R436): A rejoining complex holds the full image and the last record and becomes SECOND. -/
  | rejoined
  /-- ENEC (R450): I3C CCC that enables target events. -/
  | enec (events : Nat)
  /-- DISEC (R450): I3C CCC that disables target events. -/
  | disec (events : Nat)
  /-- RSTDAA (R451): I3C CCC that resets the dynamic address. -/
  | rstdaa
  /-- ENTDAA (R450): I3C CCC that assigns a dynamic address. -/
  | entdaa (addr : Nat)
  /-- SETDASA (R450): I3C CCC that assigns a dynamic address from the static address. -/
  | setdasa (static : Nat) (addr : Nat)
  /-- SETNEWDA (R450): I3C CCC that sets a new dynamic address. -/
  | setnewda (addr : Nat)
  /-- GETPID (R450): I3C CCC that returns the provisional ID. -/
  | getpid
  /-- GETBCR (R450): I3C CCC that returns the bus characteristics register. -/
  | getbcr
  /-- GETDCR (R450): I3C CCC that returns the device characteristics register. -/
  | getdcr
  /-- GETSTATUS (R450): I3C CCC that returns target status. -/
  | getstatus
  /-- GETMRL (R450): I3C CCC that returns the maximum read length. -/
  | getmrl
  /-- GETMWL (R450): I3C CCC that returns the maximum write length. -/
  | getmwl
  /-- SETMRL (R452): I3C CCC that sets the maximum read length. -/
  | setmrl (length : Nat)
  /-- SETMWL (R452): I3C CCC that sets the maximum write length. -/
  | setmwl (length : Nat)
  /-- SET_ENDPOINT_ID (R452): MCTP control command that sets the endpoint ID. -/
  | setEndpointId (inst : Nat) (op : Nat) (eid : Nat)
  /-- GET_ENDPOINT_ID (R452): MCTP control command that returns the endpoint ID. -/
  | getEndpointId (inst : Nat)
  /-- GET_ENDPOINT_UUID (R452): MCTP control command that returns the endpoint UUID. -/
  | getEndpointUuid (inst : Nat)
  /-- GET_MCTP_VERSION_SUPPORT (R452): MCTP control command that returns supported versions. -/
  | getMctpVersionSupport (inst : Nat) (mtype : Nat)
  /-- GET_MESSAGE_TYPE_SUPPORT (R452): MCTP control command that returns supported message types. -/
  | getMessageTypeSupport (inst : Nat)
  /-- GET_VENDOR_DEFINED_MESSAGE_SUPPORT (R452): MCTP control command that returns vendor-defined message support. -/
  | getVendorDefinedMessageSupport (inst : Nat) (selector : Nat)
  /-- UNSUPPORTED_MESSAGE_TYPE (R452): An MCTP message of an unsupported type is discarded and counted. -/
  | unsupportedMessageType (mtype : Nat)
  /-- ASSEMBLY_TIMEOUT (R452): An MCTP message not complete 100 ms after its first packet is abandoned. -/
  | assemblyTimeout
  /-- GET_TID (R453): PLDM command that returns the terminus ID. -/
  | getTid (inst : Nat)
  /-- SET_TID (R453): PLDM command that sets the terminus ID. -/
  | setTid (inst : Nat) (tid : Nat)
  /-- GET_PLDM_VERSION (R453): PLDM command that returns a type's version. -/
  | getPldmVersion (inst : Nat) (ptype : Nat)
  /-- GET_PLDM_TYPES (R453): PLDM command that returns supported types. -/
  | getPldmTypes (inst : Nat)
  /-- GET_PLDM_COMMANDS (R453): PLDM command that returns supported commands of a type. -/
  | getPldmCommands (inst : Nat) (ptype : Nat)
  /-- SET_EVENT_RECEIVER (R455): PLDM command that names the receiver of platform events. -/
  | setEventReceiver (inst : Nat) (enable : Nat) (receiver : Nat)
  /-- GET_PDR_REPOSITORY_INFO (R454): PLDM command that returns PDR repository information. -/
  | getPdrRepositoryInfo (inst : Nat)
  /-- GET_PDR (R454): PLDM command that returns a PDR record. -/
  | getPdr (inst : Nat) (handle : Nat)
  /-- GET_SENSOR_READING (R454): PLDM command that returns a numeric sensor reading. -/
  | getSensorReading (inst : Nat) (sensor : Nat)
  /-- GET_STATE_SENSOR_READINGS (R454): PLDM command that returns state sensor readings. -/
  | getStateSensorReadings (inst : Nat) (sensor : Nat)
  /-- POLL_FOR_PLATFORM_EVENT_MESSAGE (R453): PLDM command that polls for a pending platform event. -/
  | pollForPlatformEventMessage (inst : Nat)
  /-- GET_STATE (R460): Vendor command that returns module state and clears the event bits it returns. -/
  | getState (inst : Nat) (body : List Byte)
  /-- GET_CEILINGS (R459): Vendor command that returns the ceilings in force. -/
  | getCeilings (inst : Nat) (body : List Byte)
  /-- SET_CEILINGS (R461): Vendor command that sets valid ceilings all together in one control cycle, optionally persisting them. -/
  | setCeilings (inst : Nat) (body : List Byte)
  /-- SET_SILENCE (R462): Vendor command that sets the silence timeout and ceiling. -/
  | setSilence (inst : Nat) (body : List Byte)
  /-- SILENCE_ENGAGED (R462): Management silence reaches TIMEOUT and the silence ceiling joins the effective limit. -/
  | silenceEngaged
  /-- ORDER_RESET (R463): Vendor command that raises reset source MGMT_L0, MGMT_L1 or MGMT_L2. -/
  | orderReset (inst : Nat) (body : List Byte)
  /-- ORDER_POWER_OFF (R464): Vendor long order that quiesces the module, puts memory in self-refresh and completes flash work. -/
  | orderPowerOff (inst : Nat) (body : List Byte)
  /-- HANDOVER (R446): Vendor long order that hands the lead to the second after its takeover check passes. -/
  | handover (inst : Nat) (body : List Byte)
  /-- RESTART_SECOND (R447): Vendor long order that restarts the second from active firmware and brings it back. -/
  | restartSecond (inst : Nat) (body : List Byte)
  /-- GET_FLOOR_PLAN (R465): Vendor command that returns floor-plan entries of one unit class from one snapshot. -/
  | getFloorPlan (inst : Nat) (body : List Byte)
  /-- GET_CAIRN (R459): Vendor command that returns cairn record entries. -/
  | getCairn (inst : Nat) (body : List Byte)
  /-- CLEAR_CAIRN (R466): Vendor command that clears one or all unfused units from the cairn record for the next bring-up. -/
  | clearCairn (inst : Nat) (body : List Byte)
  /-- STAGE_BEGIN (R471): Vendor command that judges a manifest and starts or resumes staging. -/
  | stageBegin (inst : Nat) (body : List Byte)
  /-- STAGE_DATA (R472): Vendor command that writes a fragment of a piece into an assembly buffer. -/
  | stageData (inst : Nat) (body : List Byte)
  /-- STAGE_PIECE_DONE (R472): Vendor command that hashes an assembled piece and writes it to staging on a match. -/
  | stagePieceDone (inst : Nat) (body : List Byte)
  /-- STAGE_STATUS (R473): Vendor command that returns staging state and the piece bitmap. -/
  | stageStatus (inst : Nat) (body : List Byte)
  /-- STAGE_ABANDON (R473): Vendor command that empties staging. -/
  | stageAbandon (inst : Nat) (body : List Byte)
  /-- ACTIVATE (R474): Vendor long order that verifies staging, writes INTENT and starts copying it over the active set. -/
  | activate (inst : Nat) (body : List Byte)
  /-- ACTIVATION_COPY_DONE (R475): The loader finishes copying and verifying, COMMITTED is written, settings are checked and fuses optionally advanced. -/
  | activationCopyDone (verified : Bool)
  /-- GET_SETTING (R459): Vendor command that returns a stored setting. -/
  | getSetting (inst : Nat) (body : List Byte)
  /-- SET_SETTING (R478): Vendor command that writes a setting judged against the schema. -/
  | setSetting (inst : Nat) (body : List Byte)
  /-- GET_MEASUREMENTS (R480): Vendor command that returns measurement log entries. -/
  | getMeasurements (inst : Nat) (body : List Byte)
  /-- GET_CERTIFICATE (R481): Vendor command that returns part of the identity certificate chain. -/
  | getCertificate (inst : Nat) (body : List Byte)
  /-- ATTEST (R482): Vendor command that starts signing an attestation over the nonce, fuses and log. -/
  | attest (inst : Nat) (body : List Byte)
  /-- ATTEST_SIGNED (R482): Signing ends and the attestation response is sent. -/
  | attestSigned
  /-- DEBUG_CHALLENGE (R483): Vendor command that issues a fresh debug nonce and voids the previous one. -/
  | debugChallenge (inst : Nat) (body : List Byte)
  /-- DEBUG_UNLOCK (R483): Vendor command that checks a signed token and opens its debug scopes. -/
  | debugUnlock (inst : Nat) (body : List Byte)
  /-- BYPASS (R500): JTAG instruction selecting the bypass register. -/
  | bypass (tdi : Bool)
  /-- IDCODE (R500): JTAG instruction that reads the device identification code. -/
  | idcode
  /-- SAMPLE_PRELOAD (R500): JTAG instruction that samples and preloads the boundary scan cells. -/
  | samplePreload (cells : List Nat)
  /-- EXTEST (R500): JTAG instruction that drives the pins from boundary scan only while RESET_N is held low. -/
  | extest (cells : List Nat)
  /-- LOAD_COMPLETE (R33): A firmware or runtime load started by LOAD ends, and the block returns to its prior state or goes to FAULT. -/
  | loadComplete (ty : BlockType) (inst : Nat) (passed : Bool)
  /-- IDLE_FLIT (R61): Receipt of an idle Luawick flit whose ACK frees replay-buffer entries and whose CREDIT fields return credits. -/
  | idleFlit (received : ReceivedFlit)
  /-- PAUSE_QUANTA_EXPIRED (R281): The quanta of a received PFC frame run out, so the priority is no longer paused and PAUSED_DATA or PAUSED_CTRL clears. -/
  | pauseQuantaExpired (p : Nat) (ctrl : Bool)
  /-- ERROR_UNSUPPORTED_PLDM_CMD (R453): A PLDM request of an unimplemented type or command is answered with ERROR_UNSUPPORTED_PLDM_CMD. -/
  | errorUnsupportedPldmCmd (inst : Nat) (ptype : Nat) (cmd : Nat)
  /-- UNDEFINED_VENDOR_COMMAND (R457): A vendor message whose command code is not defined, or not available in the present mode, is answered UNSUPPORTED. -/
  | undefinedVendorCommand (inst : Nat) (cmd : Nat)
  /-- SHADOW_FAILURE (R392): A cluster's shadow stage differs from its real stage at a handshake and counts in SHADOW_FAILS. -/
  | shadowFailure (i : Nat)
  /-- MANAGEMENT_CONTROLLER_RESTART (R467): The management controller restarts or stops answering, and the module discards messages in assembly, unread responses and unfinished STAGE_DATA fragments. -/
  | managementControllerRestart
  /-- TRST_N (R489): TRST_N goes low and holds the JTAG TAP in reset. -/
  | trstN (level : Bool)
  /-- W1C_WRITE (R135): A W1C write to FAULT_INFO, STALL_INFO or LEVEL_HIT clears the written bits, freeing the latch for a new fault or stall. -/
  | w1cWrite (off : Nat) (value : Word)
  /-- RESET_N_HELD_BY_TRAY (R422): 50 µs after the module releases RESET_N the input is still low, so the blocks stay in reset until the pin rises. -/
  | resetNHeldByTray
deriving DecidableEq, Repr

end Sys2Proof
end

