-- ==== Sys2Proof/Decode.lean ====
section
/-! DEFINITION. The opcode table gives no row any bits: a command reaches the block by name (log entry 1). A message of the host has
bits of its own, and its command is read from them (R64, R65). -/

namespace Sys2Proof

/-- The command that a word of the table spells: none, since the table gives no row any bits. -/
def decodeTableWord (_nbits _w : Nat) : Option Instr := none

/-- The opcodes of R65. -/
def usedOpcode (o : Nat) : Bool :=
  [0x01, 0x02, 0x03, 0x04, 0x08, 0x10, 0x11, 0x12, 0x18, 0x20, 0x21, 0x22, 0x23, 0x28, 0x29, 0x2A, 0x2B, 0x2C].contains o

/-- The command of a message of the host in payload slots (R64, R65): none for a message that only the module sends. Reserved
header bits are ignored. -/
def messageCommand (bs : List Byte) : Option Instr :=
  let h := Machine.leAt bs 0 16
  let opcode := fieldOf h 7 0
  let tag := fieldOf h 27 16
  let addr := BitVec.ofNat 64 (fieldOf h 127 64)
  let data := (bs.drop 16).take (fieldOf h 44 32)
  match opcode with
  | 0x01 => some (.regRead32 tag addr)
  | 0x02 => some (.regRead64 tag addr)
  | 0x03 => some (.regWrite32 tag addr (BitVec.ofNat 32 (Machine.leNat data)))
  | 0x04 => some (.regWrite64 tag addr (BitVec.ofNat 64 (Machine.leNat data)))
  | 0x12 => some (.dmaReadData tag (fieldOf h 11 8) (bitOf h 12) data)
  | 0x28 => some (.cohSnoopInv ⟨tag, addr⟩)
  | 0x29 => some (.cohSnoopShare ⟨tag, addr⟩)
  | 0x2A => some (.cohGrant ⟨tag, addr⟩ (fieldOf h 11 10 == 2) data)
  | 0x2B => some (.cohWbAck ⟨tag, addr⟩)
  | _ => if usedOpcode opcode then none else some (.unusedOpcode ⟨opcode, fieldOf h 44 32⟩)

end Sys2Proof
end

