-- ==== Sys2Proof/Machine/Types.lean ====
section
/-!
DEFINITION. The records that State is made of, one group for each chapter of the manual.
-/

namespace Sys2Proof.Machine

/-! ### Pages (02_register_pages.md) -/

/-- The states of R32, with their codes. -/
inductive PState where
  | off | testing | training | loading | ready | active | quiesced | fault | retired
deriving DecidableEq, Repr

/-- The results of R36. -/
inductive Result where
  | done | busy | rejectedState | rejectedRange | rejectedVersion | failed
deriving DecidableEq, Repr

/-- The holds of R508. -/
inductive Hold where
  | host | coolant | thermal | powerOff
deriving DecidableEq, Repr

/-- A register of the window: block, page of the block (0 for the registers every page repeats), offset. -/
structure RegId where
  ty : BlockType
  inst : Nat
  page : Nat
  off : Nat
deriving DecidableEq, Repr

/-- A page header: a block type and an instance (R28). -/
structure PageId where
  ty : BlockType
  inst : Nat
deriving DecidableEq, Repr

/-- A command that a page has accepted and not ended (R42). -/
structure PageCmd where
  code : Nat
  arg : Nat
deriving DecidableEq, Repr

/-- A page header (R29 to R51) with what R508, R507 and R50 make the module keep beside it. -/
structure Page where
  state : PState
  cause : Cause
  gen : Nat
  seq : Nat
  result : Result
  lastCmd : Nat
  errCount : Nat
  errFirst : Nat
  events : Word
  mask : Word
  major : Nat
  minor : Nat
  negotiated : Bool
  /-- Standing holds, latest first. -/
  holds : List Hold
  /-- The state held before the first hold (R508). -/
  before : PState
  /-- The command in progress. -/
  cmd : Option PageCmd
  /-- State and cause before TESTING, TRAINING or LOADING (R33, R507). -/
  back : PState
  backCause : Cause
  /-- The latched high half and the held low half of R50, by page of the instance. -/
  latch : Tbl Nat Word
  held : Tbl Nat Word
deriving DecidableEq, Repr

/-- The versions a block type implements (PAGE_VERSION; R51): newest, oldest major, newest minor of older majors. -/
structure Version where
  major : Nat
  minor : Nat
  oldest : Nat
  olderMinors : List (Nat × Nat)
deriving DecidableEq, Repr

/-- A unit without a page of its own: router, link, supervisor, channel, optical engine, reduction unit (R27, R366). -/
structure UnitRec where
  state : PState
  cause : Cause
  gen : Nat
  /-- State and cause before a retrain or retest (R507). -/
  back : PState
  backCause : Cause
deriving DecidableEq, Repr

/-- Flags of ENTRY_HI that the floor plan keeps (R366). -/
structure UnitFlags where
  failedAtStart : Bool
  retiredInSession : Bool
deriving DecidableEq, Repr

/-! ### Luawick (03_luawick_host_link.md) -/

/-- A message that the module sends to the host (R64). -/
structure HostMsg where
  opcode : Nat
  tag : Nat
  address : Nat
  context : Nat
  status : Nat
  poison : Bool
  readLength : Nat
  data : List Byte
deriving DecidableEq, Repr

/-- The phases of R57. -/
inductive LinkPhase where
  | detect | lock | equalize | deskew | config | active
deriving DecidableEq, Repr

/-- KIND of a flit (R61). -/
inductive FlitKind where
  | data | idle | replayRequest | linkControl
deriving DecidableEq, Repr

/-- A flit: the fields of its header (R61) and its payload (R59). -/
structure LinkFlit where
  kind : FlitKind
  seq : Nat
  ack : Nat
  ackValid : Bool
  creditClass : Nat
  creditCount : Nat
  payload : List Byte
deriving DecidableEq, Repr

/-- The Luawick link (R56 to R63). -/
structure Link where
  phase : LinkPhase
  lanes : Nat
  rate : Nat
  /-- When the link left ACTIVE, in ns. -/
  leftAt : Option Nat
  /-- The link was lost and has not returned. -/
  lost : Bool
  /-- Width and rate before it left ACTIVE. -/
  oldLanes : Nat
  oldRate : Nat
  /-- Next data SEQ sent, and SEQ of the next data flit expected. -/
  txSeq : Nat
  rxSeq : Nat
  /-- A data flit has been received in order: ACK is meaningful. -/
  heard : Bool
  /-- Data flits sent and not acknowledged, oldest first. -/
  replay : List LinkFlit
  /-- Every flit that has left, oldest first. -/
  sent : List LinkFlit
  /-- A replay is awaited; the SEQ that the module's last replay request awaits, and how many awaited it without progress. -/
  awaiting : Bool
  askedAt : Nat
  askTries : Nat
  /-- SEQ that the last replay request named and how many named it without progress. -/
  replayAt : Nat
  replayTries : Nat
  /-- Payload slots returned less slots used, by class. -/
  credit0 : Int
  credit1 : Int
  credit2 : Int
  /-- Payload slots of receive buffer that the module has to return, by class. -/
  owed0 : Nat
  owed1 : Nat
  owed2 : Nat
  /-- A RETURNED entry is owed once the Luawick group's ring is enabled (R84), with the interruption's length in µs. -/
  returned : Option Nat
deriving DecidableEq, Repr

/-- The states of R69 other than I. -/
inductive LineState where
  | shared | exclusive | modified
deriving DecidableEq, Repr

/-- A line of the shared window that the module holds (R69). -/
structure Line where
  addr : Nat
  state : LineState
  data : List Byte
deriving DecidableEq, Repr

/-- What waits, in order, for a window line to be owned: bytes to write, or the signal of an event ring. -/
inductive WindowOp where
  | write (addr : Nat) (bytes : List Byte)
  | signal (ring : Nat)
deriving DecidableEq, Repr

/-- A request for a line, with its TAG (R66, R70). -/
structure LineRequest where
  addr : Nat
  own : Bool
  tag : Nat
deriving DecidableEq, Repr

/-- The shared window and the module's cache (R68 to R72). -/
structure Window where
  enabled : Bool
  base : Nat
  sizeLog2 : Nat
  lines : List Line
  /-- Lines with a request outstanding. -/
  requests : List LineRequest
  /-- Lines whose writeback has no COH_WB_ACK yet, with its TAG. -/
  writebacks : List (Nat × Nat)
  waiting : List WindowOp
deriving DecidableEq, Repr

/-- How far a descriptor has come (R76, R92): its data moves; for a fill, its padding, the read of the old header and the write of
the new one; its accesses have ended; its slot record waits for the window; its status does. -/
inductive DmaStage where
  | data | pad | oldHeader | header | ended | record | status
deriving DecidableEq, Repr

/-- Bytes that a memory read has brought, from an offset of what was asked, and whether a word of them is poisoned. -/
structure DmaPart where
  offset : Nat
  bytes : List Byte
  poisoned : List Nat
deriving DecidableEq, Repr

/-- A started DMA descriptor (R74 to R77). -/
structure DmaRun where
  queue : Nat
  index : Nat
  op : Nat
  slot : Nat
  context : Nat
  signalFlag : Bool
  event : Bool
  length : Nat
  hostAddr : Nat
  moduleAddr : Nat
  flagTarget : Nat
  increment : Nat
  /-- Bytes requested from the companion, bytes moved. -/
  asked : Nat
  moved : Nat
  /-- TAG of the read request outstanding. -/
  tag : Option Nat
  poisonAddr : Option Nat
  result : Result
  detail : Nat
  stage : DmaStage
  /-- MSG_ID of its packets over the mesh (R13, R169), the generation at its start, and what of its accesses has not been
  answered: packets of a write, bytes of a read. -/
  msgId : Nat
  startGen : Nat
  awaited : Nat
  parts : List DmaPart
deriving DecidableEq, Repr

/-- One DMA queue (R73, R78). -/
structure DmaQueue where
  /-- Enabled, with the base and size judged at QUEUE_ENABLE. -/
  enabled : Bool
  base : Nat
  sizeLog2 : Nat
  /-- Index of the next descriptor to start; a disable in progress. -/
  next : Nat
  disabling : Bool
deriving DecidableEq, Repr

/-- One event ring (R79 to R83). -/
structure EventRing where
  /-- Enabled, with the base and size judged at RING_ENABLE. -/
  enabled : Bool
  base : Nat
  sizeLog2 : Nat
  signalPending : Bool
  lastSignal : Option Nat
  /-- A signal that INT_HOLDOFF holds back. -/
  held : Bool
  /-- Entries lost while the ring was full, not yet reported. -/
  lost : Nat
deriving DecidableEq, Repr

/-- An ATTACH in progress (R89): the rank table as far as it has come from the companion, the request outstanding, and the header
lines not yet zeroed. -/
structure RankLoad where
  table : List Byte
  asked : Nat
  tag : Option Nat
  poisoned : Bool
  msgId : Nat
  awaited : Nat
deriving DecidableEq, Repr

/-- The attached job (R88 to R90). -/
structure Job where
  attached : Bool
  rank : Nat
  rankCount : Nat
  rankTable : List DWord
  slotUnit : Nat
  slotCapacity : Nat
  slotPad : Nat
  slotBase : Nat
  slotRecord : Nat
  open_ : List Nat
  closing : List Nat
  load : Option RankLoad
deriving DecidableEq, Repr

/-! ### Reset controller and always-on state (14_hangs_and_resets.md) -/

/-- How far a reset has come (R416, R422): the mesh drains (L0), RESET_N is low, the tray holds the pin, the blocks
start again. -/
inductive ResetPhase where
  | draining | asserted | pinHeld | starting
deriving DecidableEq, Repr

/-- The reset controller (R419 to R425). -/
structure ResetCtl where
  /-- Level in progress. -/
  level : Option Nat
  accepted : Nat
  phase : ResetPhase
  /-- RESET_N: driven low by the module, released at, level at the input, fell at. -/
  driving : Bool
  releasedAt : Nat
  pinHigh : Bool
  fellAt : Option Nat
  /-- The present low level of the pin has been accepted (R421). -/
  pinTaken : Bool
  /-- Source HANG was raised at this time (R412 raises it once for one instant). -/
  hangAt : Option Nat
deriving DecidableEq, Repr

/-- What survives every reset (R414, R424, R389, R401, R430). -/
structure AlwaysOn where
  cause : Nat
  count : Nat
  session : Nat
  time : Nat
  /-- Energies in mJ, with the 1/16 W times 2 µs not yet counted. -/
  energy : Nat
  energyRest : Nat
  afterglow : Nat
  afterglowRest : Nat
  hardTrip : Bool
  /-- LEAD_SELECT: the complex that holds it. -/
  leadSelect : Option Nat
  plannedTakeovers : Nat
  otherTakeovers : Nat
  lastTakeover : Nat
  lastTakeoverTime : Nat
deriving DecidableEq, Repr

/-! ### Cores (04_core.md) -/

/-- A wait in progress (R122): on a flag, or on a ticket of an engine. -/
inductive Wait where
  | flag (rd imm : Nat) (value : Word)
  | engine (rd engine : Nat) (ticket : Word)
deriving DecidableEq, Repr

/-- A 16-byte word of SRAM as it was. -/
structure KeptWord where
  addr : Nat
  bytes : List Byte
  poisoned : Bool
deriving DecidableEq, Repr

/-- What an engine keeps of a command that it has accepted (R109 to R114). -/
structure EngCmd where
  ticket : Word
  /-- Address of the descriptor, and the 64 bytes copied at issue (R110). -/
  addr : Nat
  desc : List Byte
  ctx : Nat
  user : Bool
  issuePc : Nat
  /-- Draw counter before the draws of this command, and the seed at its issue (R103). -/
  draws : DWord
  seed : DWord
  /-- Its place among the core's issues, over all three engines. -/
  order : Nat
  started : Bool
  startGen : Nat
  startedAt : Nat := 0
  /-- Result and DETAIL, once the work has ended. -/
  ended : Option (Result × Nat)
  /-- Steps 2 to 6 of R114 are done. -/
  completed : Bool
  /-- The command was dropped under R126 and raises no ENGINE_FAULT. -/
  quiet : Bool
  /-- Messages: MSG_ID, answers (or bytes, for a GET) awaited, and the recipients' outcomes by place. -/
  msgId : Nat
  awaited : Nat
  outcomes : List (Nat × Result × Nat)
  /-- SRAM ranges that the command reads and writes while it runs (R156, R180); of a message, the part of its target range
  that is undefined (R179, R180). -/
  reads : List (Nat × Nat) := []
  writes : List (Nat × Nat) := []
  raced : List (Nat × Nat) := []
  /-- The input words that the command works on, what its output words held before it, and the output ranges that other agents
  have written since (R156). -/
  inputs : List KeptWord := []
  olds : List KeptWord := []
  spoilt : List (Nat × Nat) := []
deriving DecidableEq, Repr

/-- An engine: issued and completed counts and the commands it holds (R109, R110). -/
structure Engine where
  issued : Word
  completed : Word
  cmds : List EngCmd
deriving DecidableEq, Repr

/-- A word of SRAM that both a message in flight and a scalar store of the target write (R180): its address, the message's
data once it has arrived, and the bytes stored, by place. -/
structure Contest where
  addr : Nat
  data : Option (List Byte)
  bytes : List (Nat × Byte)
deriving DecidableEq, Repr

/-- An incoming message at a target core (R176). Entries of one source stand in the order in which the source started
them (R179). -/
structure Arrival where
  source : Nat
  msgId : Nat
  ctx : Nat
  place : Nat
  last : Nat
  counted : List Nat
  flagEn : Bool
  flag : Nat
  increment : Word
  opened : Bool
  openTime : Nat
  openGen : Nat
  result : Result
  detail : Nat
  /-- Ranges that its packets have written (R186). -/
  wrote : List (Nat × Nat) := []
  /-- CTX_DROPS has counted the message (R120). -/
  dropped : Bool := false
  contests : List Contest := []
deriving DecidableEq, Repr

/-- A core (R94 to R134). Its SRAM is a part of `Dev.sram`. -/
structure Core where
  pc : Nat
  xs : Tbl Nat DWord
  machine : Bool
  reservation : Option Nat
  mstatus : DWord
  mie : DWord
  mip : DWord
  mtvec : DWord
  mepc : DWord
  mcause : DWord
  mtval : DWord
  mscratch : DWord
  mcounteren : DWord
  mcountinhibit : DWord
  mcycle : DWord
  minstret : DWord
  vxctx : Nat
  vxseed : DWord
  drawsMx : DWord
  drawsVx : DWord
  vxfinfo : Word
  vxfaddr : Word
  beaconPending : Bool
  /-- When its supervisor last asked for a beacon (R105). -/
  beaconAt : Option Nat
  flags : Tbl Nat Word
  engines : Tbl Nat Engine
  nextMsg : Nat
  arrivals : List Arrival
  /-- Context of the running kernel, and the exit cause of an end that has begun, with the exit value (R132). -/
  kernel : Option Nat
  ending : Option (Nat × Word)
  waiting : Option Wait
  waitSince : Option Nat
  halted : Bool
  /-- The runtime has been loaded and has yet to answer its first beacon request (R354). -/
  loaded : Bool
  /-- The next slot of the window of 256 issue slots, and the shade level of that window (R373). -/
  slot : Nat
  windowShade : Nat
deriving DecidableEq, Repr

/-! ### The mesh (06_mesh.md) -/

/-- Packet kinds (R170). -/
inductive PacketKind where
  | put | putMem | getReq | getData | completion | counterAdd | updatePut | mcPut | relayPut
deriving DecidableEq, Repr

/-- The virtual channels of one class on a link direction (R172); MC carries requests only. -/
inductive Vc where
  | a0 | a1 | rappel1 | rappel2 | mc
deriving DecidableEq, Repr

/-- A channel that a packet holds at a receiving port: the router, the port, the channel, and the flits that the router has
received (R172). The flits that it has passed on are those that the next router of the packet's way has received. -/
structure MeshHop where
  router : Nat
  port : MeshPort
  vc : Vc
  got : Nat
deriving DecidableEq, Repr

/-- A payload word of a multicast that was hurt on its way into a router: poisoned, or with bits that the word code let pass
(R171). -/
structure BranchHurt where
  router : Nat
  word : Nat
  flips : Option WordNoise
deriving DecidableEq, Repr

/-- A packet (R168, R169): the fields of its header, the payload, and the payload words that are poisoned. A multicast packet
carries the run it serves (R183). PAY_WORDS is the length of the payload, END is `runHi`, or `runLo` on a column run to lower
rows. -/
structure Packet where
  kind : PacketKind
  sx : Nat
  sy : Nat
  dx : Nat
  dy : Nat
  ctx : Nat
  msgId : Nat
  index : Nat
  last : Nat
  flagEn : Bool
  flag : Nat
  result : Result
  detail : Nat
  address : Nat
  amount : Nat
  returnAddr : Nat
  /-- Recipients of a multicast run: whether a row, its line, first and last place; relays also the last row. -/
  row : Bool
  runLo : Nat
  runHi : Nat
  relayEnd : Nat
  payload : List Byte
  poison : List Nat
  /-- The place of the recipient in the message's recipient order (R120). -/
  place : Nat
  /-- The waypoint that it has taken, and LEG (R174). -/
  wp : Option (Nat × Nat) := none
  leg : Bool := false
  /-- Channels that it holds or has held, the latest first (R172); none while its first flit is at its source. -/
  trail : List MeshHop := []
  /-- On the branches of a multicast: payload words hurt on the way into a router, and routers at which the header
  failed (R171). -/
  hurt : List BranchHurt := []
  cutAt : List Nat := []
  /-- An edge block holds it until the mesh test of a compute reset has ended (R416). -/
  heldBack : Bool := false
  /-- The die controller that sends it or awaits it: R167 gives die controllers no coordinates (log entry 76). -/
  die : Option Nat := none
deriving DecidableEq, Repr

/-- Counts and detours of a router (R171, R175, R187). -/
structure Router where
  corrected : Nat
  resent : Nat
  detours : List Detour
deriving DecidableEq, Repr

/-! ### Module memory (07_memory.md) -/

/-- Bits of a stored codeword that differ from what was written: the module address of the word, and the bits (R194,
R219). -/
structure WordFlaw where
  addr : Nat
  bits : WordNoise
deriving DecidableEq, Repr

/-- Bits of one copy of a group's poison marks that differ from what was written (R192, R193). -/
structure MarkFlaw where
  channel : Nat
  group : Nat
  copy : Nat
  bits : Byte
deriving DecidableEq, Repr

/-- The address map in force (R198): LOCAL_SHARE and the usable channels at MAP_FIXED. -/
structure MemMap where
  share : Nat
  usable : List Nat
deriving DecidableEq, Repr

/-- A memory controller (R202 to R216), beside its registers and its channels' entries. -/
structure MemCtl where
  /-- Accesses held, in arrival order. -/
  held : List Packet
  /-- Channel that a retrain trains, 16 for all of them; channels that an automatic retrain waits for. -/
  retraining : Option Nat
  wanted : List Nat
  /-- The RETRAIN in progress waits for an automatic retrain to end (R206). -/
  behind : Bool
  /-- Corrections of each channel in this scrub pass, and channels already retrained for them (R204). -/
  passCount : Tbl Nat Nat
  passRetrained : List Nat
  /-- A scrub pass in progress, whether SCRUB_NOW runs it, and groups of each channel already scrubbed. -/
  scrubbing : Bool
  fast : Bool
  position : Nat
  selfRefresh : Bool
  refreshRate : Nat
deriving DecidableEq, Repr

/-! ### Update engines (08_update_engines.md) -/

/-- A stream of a plan (R223). -/
structure PlanStream where
  format : Nat
  mode : Nat
  base : Nat
deriving DecidableEq, Repr

/-- What ENABLE_PLAN copies (R231). -/
structure Plan where
  context : Nat
  program : List Word
  chunkLog2 : Nat
  chunks : Nat
  stateBase : Nat
  length : Nat
  streams : List PlanStream
  counterEn : Bool
  counter : Nat
  drainEn : Bool
  drainFlag : Nat
deriving DecidableEq, Repr

/-- The codes of R232. -/
inductive ChunkState where
  | idle | armed | pending | running | applied | skipped
deriving DecidableEq, Repr

/-- The running chunk (R237): plan, chunk, the plan's copy with the parameters and SEED read at its start, the first
marked line that CHECK found, and whether its plan was disabled while it ran (R246). -/
structure ChunkRun where
  plan : Nat
  chunk : Nat
  copy : Plan
  params : List Word
  seedLo : Word
  seedHi : Word
  marked : Option Nat
  disabled : Bool
  /-- CHECK has been done. -/
  checked : Bool
  /-- Ranges that another chunk, run at the same time, writes as well (R230). -/
  raced : List (Nat × Nat) := []
deriving DecidableEq, Repr

/-- An update engine (R229 to R243), beside its registers. -/
structure UpdEng where
  plans : Tbl Nat Plan
  /-- State and TAG of each entry of the chunk state table. -/
  table : Tbl Nat (ChunkState × Nat)
  running : Option ChunkRun
  lastPlan : Nat
deriving DecidableEq, Repr

/-! ### Ports and the transport (09_optical_ports.md) -/

/-- What the bytes of a frame say: what the MAC, IPv6 and UDP checks of R257 see, and the transport header of R258 with its
payload. Addresses are 128-bit numbers. -/
structure Frame where
  fcsOk : Bool
  length : Nat
  tagged : Bool
  etherType : Nat
  ipVersion : Nat
  ipPayloadLength : Nat
  nextHeader : Nat
  srcAddr : Nat
  dstAddr : Nat
  ce : Bool
  udpDport : Nat
  udpLength : Nat
  checksumOk : Bool
  version : Nat
  type : Nat
  channel : Nat
  context : Nat
  srcRank : Nat
  dstRank : Nat
  poison : Bool
  lastOfChunk : Bool
  retransmission : Bool
  ackRequest : Bool
  endOfMessage : Bool
  chunk : Bool
  notify : Bool
  ece : Bool
  seq : Word
  remoteAddr : DWord
  payloadLength : Nat
  notifyCounter : Nat
  chunkId : Word
  chunkOffset : Word
  /-- Bytes 12 to 20 of CREDIT and ABORT (R327): PASS_TAG, the second word, RING. -/
  passTag : Word
  notice : Word
  ring : Nat
  payload : List Byte
  check : DWord
deriving DecidableEq, Repr

/-- A port's link beside its registers (R249, R280, R281): up or down, and signal detect of its four lanes; since when and until
when the peer pauses each priority; when the port last paused the peer; FEC_DEGRADED; and the frames that wait in the receive
buffers for data and for control. -/
structure PortLink where
  up : Bool
  lanes : Nat
  pausedData : Option (Nat × Nat)
  pausedCtrl : Option (Nat × Nat)
  xoffData : Option Nat
  xoffCtrl : Option Nat
  degraded : Bool
  bufData : List Frame
  bufCtrl : List Frame
deriving DecidableEq, Repr

/-- An optical engine: input in use, last measured powers of both, whether LASER_LOST has been raised for the present
loss, and since when the active input has measured below LASER_LOW (R252, R253). -/
structure Optic where
  input : Nat
  power0 : Int
  power1 : Int
  lost : Bool
  lowSince : Option Nat
deriving DecidableEq, Repr

/-- What started a send (R264, R326, R339). -/
inductive SendFrom where
  | host (p : Nat)
  | op (r op : Nat)
  | credit (r : Nat)
  | abort (r : Nat)
deriving DecidableEq, Repr

/-- A send (R264); CREDIT and ABORT are messages of their own (R259). -/
structure Send where
  num : Nat
  origin : SendFrom
  stream : StreamId
  type : Nat
  ctx : Nat
  src : Nat
  length : Nat
  remote : Nat
  /-- Planes that it may use, as bits of 48. -/
  planes : Nat
  notify : Bool
  counter : Nat
  chunk : Bool
  chunkEnd : Bool
  chunkId : Nat
  chunkOffset : Nat
  passTag : Word
  notice : Word
  /-- Packets handed to the stream. -/
  sent : Nat
  poisoned : Bool
  /-- Its chunk was abandoned by a newer one (R304). -/
  abandoned : Bool
  rejected : Option Result
  ended : Option (Result × Nat)
deriving DecidableEq, Repr

/-- A packet sent and not covered by CUM_SEQ (R276): when it was first sent, for how long its timer has run since it was last
sent, and whether it is to be resent, on a plane other than `avoid` (R277). -/
structure OutPkt where
  seq : Nat
  send : Nat
  index : Nat
  sacked : Bool
  check : DWord
  plane : Nat
  firstAt : Nat
  age : Nat
  due : Bool
  avoid : Option Nat
deriving DecidableEq, Repr

/-- A sending half (R263, R275 to R278, R283): rate and cap are in 2⁻¹⁶ Gb/s; when its next packet may leave, when the present
interval of RATE_RISE began, and when it last probed in HELD. -/
structure TxHalf where
  used : Bool
  next : Nat
  cum : Nat
  unacked : List OutPkt
  held : Bool
  broken : Bool
  rate : Option Nat
  cap : Nat
  eceSeen : Bool
  lastCut : Option Nat
  lastPlane : Nat
  paceAt : Nat
  riseAt : Nat
  probeAt : Nat
deriving DecidableEq, Repr

/-- A packet received and not yet passed by CUM_SEQ (R272, R302), and when it came. -/
structure RxPkt where
  seq : Nat
  at_ : Nat
  type : Nat
  ctx : Nat
  port : Nat
  rejected : Bool
  eom : Bool
  lastOfChunk : Bool
  notify : Bool
  counter : Nat
  chunk : Bool
  chunkId : Nat
  chunkOffset : Nat
  address : Nat
  payload : List Byte
  check : DWord
  poison : Bool
  passTag : Word
  notice : Word
  ring : Nat
deriving DecidableEq, Repr

/-- The payload of a packet whose message has not completed (R274). -/
structure Landing where
  address : Nat
  payload : List Byte
  poison : Bool
deriving DecidableEq, Repr

/-- A receiving half (R263, R272, R275, R276): since when a packet has waited for its acknowledgement, and the number that the
last NACK GAP named, and when. -/
structure RxHalf where
  cum : Nat
  pkts : List RxPkt
  sinceAck : Nat
  ce : Bool
  plane : Nat
  /-- The message at CUM_SEQ + 1 holds a rejected packet that CUM_SEQ has passed. -/
  rejecting : Bool
  /-- Payloads of that message's packets that CUM_SEQ has passed (R274). -/
  landing : List Landing
  firstAt : Option Nat
  lastNack : Option (Nat × Nat)
deriving DecidableEq, Repr

/-- An open receive window (R269). -/
structure RecvWindow where
  ctx : Nat
  base : Nat
  length : Nat
deriving DecidableEq, Repr

/-- What leaves on a port: the bytes of a transport packet's frame (R254, R255); a PFC frame (R280); a Neighbor Advertisement with
its MAC addresses, tag, IPv6 addresses, target and target MAC (R254, R256). -/
inductive WireOut where
  | packet (port : Nat) (bytes : List Byte)
  | pfc (port pcp quanta : Nat)
  | advertisement (port dstMac srcMac tag dst src target mac : Nat)
deriving DecidableEq, Repr

/-! ### Queues and the chunk check (10_port_queues_and_chunk_check.md) -/

/-- A cell of a queue pool: eight words and the parity bit of each (R292, R296). -/
structure PoolCell where
  words : List DWord
  parity : List Bool
deriving DecidableEq, Repr

/-- A record of a transmit or receive queue: the header of a packet, the send that it belongs to where it is sequenced, and its
cells (R292). -/
structure PktRec where
  frame : Frame
  send : Option Nat
  cells : List PoolCell
deriving DecidableEq, Repr

/-- A queue pool: reserves in effect, cells of broken queues not yet reclaimed, the records of queues 0 to 95, oldest first, and
headers that wait for credit with the queue of each (R291, R294, R297). -/
structure Pool where
  reserves : Tbl Nat Nat
  lostCells : Tbl Nat Nat
  records : Tbl Nat (List PktRec)
  waiting : List (Nat × PktRec)
deriving DecidableEq, Repr

/-- A send half of a chunk slot (R303, R304), with the send that its chunk belongs to. -/
structure CheckTx where
  open_ : Bool
  chunkId : Nat
  bytes : Nat
  value : DWord
  owner : Option Nat
deriving DecidableEq, Repr

/-- A receive half of a chunk slot (R303, R306, R307). -/
structure CheckRx where
  open_ : Bool
  chunkId : Nat
  bytes : Nat
  value : DWord
  base : Nat
  received : DWord
  result : Nat
  outOfOrder : Bool
  poisoned : Bool
  ctx : Nat
deriving DecidableEq, Repr

/-! ### Rings (11_ring_collectives.md) -/

/-- The states of a belay entry (R317). -/
inductive EntryState where
  | idle | armed | done | failed
deriving DecidableEq, Repr

/-- The working copy of a belay entry (R318). -/
structure Belay where
  state : EntryState
  fired : Nat
  work : Word
  ctrl : Nat
  trigger : Nat
  step : Word
  repeat_ : Nat
  firstPiece : Nat
  firstChunk : Nat
  done : Nat
  updTarget : Nat
  updFirst : Nat
deriving DecidableEq, Repr

/-- A firing of a ring op: a record of the RING_WORK queue, with its cells (R318, R292). -/
structure Work where
  entry : Nat
  firing : Nat
  cells : List PoolCell
deriving DecidableEq, Repr

/-- An arrival (R325): transfer number, CHUNK_ID and result of the receive half. -/
structure ChunkArrival where
  transfer : Nat
  chunkId : Nat
  result : Nat
deriving DecidableEq, Repr

/-- A started op (R326): what it has taken, and how far it is. -/
structure RingOp where
  num : Nat
  entry : Nat
  firing : Nat
  op : Nat
  flags : Nat
  piece : Nat
  chunk : Nat
  arrival : Option ChunkArrival
  transfer : Option Nat
  /-- Data has begun to move; the data part is over; the send has been given to the transport, and its end. -/
  moved : Bool
  sendNum : Option Nat
  sendEnd : Option (Result × Nat)
  poisoned : Bool
  /-- The reduction unit that combines (R346). -/
  unit_ : Option Nat
deriving DecidableEq, Repr

/-- A pass, as LAUNCH copied it (R331, R347). -/
structure Pass where
  format : Nat
  op : Nat
  ceil : Bool
  repair : Bool
  ctx : Nat
  channel : Nat
  chunkLog2 : Nat
  members : Nat
  position : Nat
  next : Nat
  prev : Nat
  nextCounter : Nat
  tag : Word
  pieceSize : Nat
  base : Nat
  stride : Nat
  buffers : Nat
  inFlight : Nat
  first : Nat
  count : Nat
  signalCore : Nat
  signalUpdate : Nat
  planChunk : Nat
  pad : Nat
  gatherSrc : Nat
  gatherLength : Nat
  listBase : Nat
  listCapacity : Nat
  gateCounter : Nat
  gateThreshold : Word
deriving DecidableEq, Repr

/-- A ring (R322 to R339), beside its registers. -/
structure RingSt where
  /-- The running pass, or the last pass launched since ATTACH (R323). -/
  pass : Option Pass
  launched : Nat
  gated : Bool
  aborting : Bool
  remote : Bool
  reason : Nat
  result : Nat
  /-- Origin rank of the notice that this member sends (R339). -/
  origin : Nat
  work : List Work
  waiting : List Work
  arrivals : List ChunkArrival
  ops : List RingOp
  nextOp : Nat
  nextTransfer : Nat
  freed : Nat
  begun : Bool
  lastProgress : Nat
  /-- How long the step timer has run (R338). -/
  timer : Nat
deriving DecidableEq, Repr

/-- The network of both I/O dies. -/
structure Net where
  ports : Tbl Nat PortLink
  optics : Tbl Nat Optic
  sends : List Send
  nextSend : Nat
  tx : Tbl StreamId TxHalf
  rx : Tbl StreamId RxHalf
  windows : Tbl Nat RecvWindow
  wire : List WireOut
  /-- Staging of both dies by offset, and its poisoned words by offset div 16 (R268, R345). -/
  staging : Mem
  stagePoison : List Nat
  pools : Tbl Nat Pool
  checkTx : Tbl Nat CheckTx
  checkRx : Tbl Nat CheckRx
  belay : Tbl Nat Belay
  rings : Tbl Nat RingSt
deriving DecidableEq, Repr

/-! ### Fuses and management flash (R351, R362, R378, R394, R419, R468 to R478) -/

/-- The fuse array, as the ROM decodes it (R351). -/
structure Fuses where
  variant : Nat
  build : Nat
  serial : Nat
  /-- Units fused at manufacture, by unit code. -/
  manufacture : List Nat
  defaultLead : Nat
  resetMap : Nat
  /-- Revoked ROM key slots (R470). -/
  revoked : List Nat
  /-- Fuse values of parts 1 to 7 (R477). -/
  svn : List Nat
  provisionalId : Nat
  /-- Port MACs (R287). -/
  macs : List Nat
  /-- For each operating point of R390, the weights of R376 in its order, in pJ. -/
  weights : List (List Nat)
deriving DecidableEq, Repr

/-- An entry of the measurement log (R480). -/
structure LogEntry where
  event : Nat
  part : Nat
  svn : Nat
  time : Nat
  hash : List Byte
deriving DecidableEq, Repr

/-- An entry of the cairn record (R362). -/
structure CairnEntry where
  unit : Nat
  cause : Nat
  start : Nat
deriving DecidableEq, Repr

/-- The ceilings of R378, in the order of R461. -/
structure Ceilings where
  power : Nat
  rise : Nat
  fall : Nat
  glowOn : Bool
  glowFloor : Nat
  glowHold : Nat
  opPoint : Nat
  throttle : Nat
  grace : Nat
deriving DecidableEq, Repr

/-- A commit record (R475): 1 INTENT, 2 COMMITTED. -/
structure Commit where
  sequence : Nat
  state : Nat
  hash : List Byte
deriving DecidableEq, Repr

/-- A firmware set in flash: its manifest and the bytes of its parts (R469). -/
structure FwSet where
  manifest : List Byte
  body : Mem
deriving DecidableEq, Repr

/-- Management flash (R468). -/
structure Flash where
  cairn : List CairnEntry
  /-- Trim of cluster i at operating point o, by 3 i + o (R394). -/
  trims : Tbl Nat Nat
  powerOns : Nat
  ceilings : Ceilings
  silenceTime : Nat
  silenceCeiling : Nat
  /-- MAP_LOCAL_NEXT (R218). -/
  mapLocal : Nat
  /-- FORMAT of each stored setting, by KEY (R478). -/
  formats : Tbl Nat Nat
  commit0 : Commit
  commit1 : Commit
  active : FwSet
  /-- The set in staging, with its bitmap, if staging holds one (R471, R473). -/
  staged : Option FwSet
  pieces : List Nat
deriving DecidableEq, Repr

/-! ### Bring-up (12_bring_up_and_floor_plan.md) -/

/-- How far the module has come since its last power-on, module reset or cold reset. -/
inductive BootPhase where
  | unpowered | waiting | running | bivouac | dead
deriving DecidableEq, Repr

/-- Bring-up. -/
structure Boot where
  phase : BootPhase
  /-- Core waves of each compute die that have begun (R354). -/
  waves : Tbl Nat Nat
  /-- Waves, numbered 5 × die + wave, whose runtime the die controller has sent (R355). -/
  relayed : List Nat
  meshTested : Bool
  complete : Bool
  /-- The cairn record as the lead read it (R360). -/
  cairnRead : List Nat
  fuseError : Bool
  /-- Fuse words whose copies both failed: the units they cover (R351). -/
  lostFuses : List Nat
  /-- Units that a RETEST of a REDUCTION page still tests (R346). -/
  retesting : List Nat
  /-- The counts that R365 compares at every retirement: memory from MAP_FIXED, cores and ports from START_COMPLETE. -/
  memGuaranteed : Bool
  coreGuaranteed : Bool
deriving DecidableEq, Repr

/-! ### Pace, power, heat and coolant (13_pace_power_thermal.md) -/

/-- What one 2 µs period leaves for the averages: P_est, and for each cluster its step rate, its applied shade and s_lim
(R384). -/
structure PowerSample where
  est : Nat
  rates : List Nat
  shades : List Nat
  limits : List Nat
deriving DecidableEq, Repr

/-- The power loops. Powers are in 1/8000 W, OFFSET and the measured power in 1/16 W. -/
structure PowerSt where
  ceilings : Ceilings
  silenceTime : Nat
  silenceCeiling : Nat
  /-- P_est with the filler of the period, and the filler. -/
  est : Nat
  filler : Nat
  sPower : Nat
  /-- Cause code of what set B in the last period: 1, 2, 4, or 0 for the design power. -/
  boundBy : Nat
  envelope : Option Nat
  offset : Int
  sPace : List Nat
  idleRun : Nat
  inBarrier : Bool
  /-- When the module entered the barrier (R387). -/
  barrierAt : Nat
  holdEnded : Bool
  /-- The mean of P_est over the 50 ms that end where the idle run began (R387). -/
  runMean : Nat
  floor : Nat
  /-- Latest first, at most 50,000 periods (100 ms). -/
  history : List PowerSample
  cycleSum : Nat
  cycleCount : Nat
  measured : Nat
  volts : Nat
  amps : Nat
  opChange : Option Nat
  /-- Clusters whose work rate lies more than 0.5 % below the job pace, since when (R384). -/
  belowSince : Tbl Nat Nat
  /-- Times of the latest four shadow failures of a cluster, the latest first, and of its last trim change (R392). -/
  shadow : Tbl Nat (List Nat)
  trimAt : Tbl Nat Nat
  /-- At the last control cycle (R454): the control values of the hot spots, the effective limit, and the filler energy. -/
  cycleTemps : List (Option Int)
  cycleLimit : Nat
  cycleGlow : Nat
  cycleEnergy : Nat
deriving DecidableEq, Repr

/-- A temperature sensor (R397): its last reading in 0.1 °C, while faulted since when its readings have been plausible, and when
it last made a conversion. -/
structure Sensor where
  reading : Option Int
  faulted : Bool
  plausibleSince : Option Nat
  convertedAt : Nat
deriving DecidableEq, Repr

/-- A hot spot (R398, R399): SUSPECT on sensor 2h or 2h + 1, SPLIT, since when its sensors have been valid and
within 6 °C of each other, since when its valid sensors have differed by more than 6 °C, and s_th. -/
structure HotSpot where
  suspect : Option Nat
  split : Bool
  closeSince : Option Nat
  apartSince : Option Nat
  sTh : Nat
deriving DecidableEq, Repr

/-- Coolant (R402 to R404): COOLANT_OK as sampled, when the stop's first drop was accepted, and whether the module has
tripped at COOLANT_GRACE or hard; since when it is in a fall that may become a drop, or in a rise that may become a return. -/
structure Coolant where
  ok : Bool
  falling : Option Nat
  rising : Option Nat
  dropAt : Option Nat
  tripped : Bool
deriving DecidableEq, Repr

/-! ### Control complexes (15_lead_and_second.md) -/

/-- The roles of R430. -/
inductive Role where
  | none_ | lead | second | rejoining | fenced
deriving DecidableEq, Repr

/-- A control complex: its role, and the manifest of the set whose control firmware it runs. -/
structure Complex where
  role : Role
  release : Nat
  format : Nat
deriving DecidableEq, Repr

/-- A control cycle whose record has not been acknowledged (R432, R435): its inputs, the page commands it judges, whether the
record was sent a second time, and when it was sent last. -/
structure OpenCycle where
  inputs : CycleInputs
  judged : List (PageId × PageCmd)
  resent : Bool
  sentAt : Nat
deriving DecidableEq, Repr

/-- A takeover (R440): the old lead, the reason of R449, when it surrendered; the new lead has claimed LEAD_SELECT; its
check has passed. -/
structure TakeoverSt where
  old : Nat
  reason : Nat
  since : Nat
  claimed : Bool
  passed : Bool
deriving DecidableEq, Repr

/-- The lead's control state. -/
structure Lead where
  latches : List (PageId × PageCmd)
  cycle : Option OpenCycle
  takeover : Option TakeoverSt
  safe : Bool
  /-- A planned handover's check runs (R446). -/
  handover : Bool
  /-- Missed beacons in a row: supervisor i at i, die controller d at 160 + d (R410). -/
  missed : Tbl Nat Nat
  /-- When the lead last counted or heard each of them, and since when it has watched (R410, R444). -/
  heard : Tbl Nat Nat
  watchFrom : Nat
  /-- The last beacon of the lead, or the start of its control firmware (R410); the last end of a cycle (R437); the last
  mirror record that arrived (R439). -/
  beaconAt : Nat
  cycleEnd : Nat
  recordAt : Nat
  /-- What the registers of lead-owned pages read in the safe state: their values at its start (R443). -/
  frozen : List (RegId × Nat)
deriving DecidableEq, Repr

/-! ### Management (16_management_and_firmware.md) -/

/-- What the module gives out on I3C: the bytes of a CCC read, a message of an MCTP type, or an in-band interrupt with its data
byte (R452). -/
inductive MgmtOut where
  | ccc (bytes : List Byte)
  | message (type : Nat) (bytes : List Byte)
  | interrupt (data : Byte)
deriving DecidableEq, Repr

/-- A piece in assembly (R472). -/
structure Assembly where
  piece : Nat
  bytes : Mem
deriving DecidableEq, Repr

/-- The management port and the orders. -/
structure Mgmt where
  address : Option Nat
  eventsOn : Nat
  mrl : Nat
  mwl : Nat
  eid : Nat
  tid : Nat
  receiver : Option Nat
  /-- When the first packet of the message in assembly came. -/
  incoming : Option Nat
  out : List MgmtOut
  discarded : Nat
  /-- EVENTS of R460. -/
  events : Nat
  /-- Time of the last well-formed request. -/
  heard : Nat
  silenced : Bool
  orderKind : Nat
  orderState : Nat
  assemblies : List Assembly
  /-- ADVANCE_SVN of the activation in progress, and copies made (R475). -/
  activation : Option (Bool × Nat)
  powerOff : Bool
  /-- The latest debug nonce, and the scopes open (R483). -/
  nonce : Option (List Byte)
  scope : Nat
  /-- The ATTEST response that waits for its signature. -/
  attest : Option (List Byte)
  settingsReset : Nat
deriving DecidableEq, Repr

/-! ### Pins and JTAG (17_module_and_pins.md) -/

/-- Pins that hold a level of their own: outputs driven, and what was sampled. -/
structure Pins where
  powerGood : Bool
  /-- ALERT_N is driven low. -/
  alert : Bool
  slotId : Nat
  bivouacN : Bool
deriving DecidableEq, Repr

/-- The instructions of R500. -/
inductive JtagInstr where
  | bypass | idcode | samplePreload | extest
deriving DecidableEq, Repr

/-- The TAP: held in reset by TRST_N, its instruction, the bypass bit, the boundary cells, whether they drive the pins,
and what TDO has shifted out. -/
structure Jtag where
  held : Bool
  instr : JtagInstr
  bit : Bool
  cells : List Nat
  drives : Bool
  tdo : List Word
deriving DecidableEq, Repr

end Sys2Proof.Machine
end

