-- ==== Sys2Proof/Machine/Firmware.lean ====
section
/-!
DEFINITION. Firmware sets in management flash (R469, R475): the fields of a manifest, the latest commit record, and the set
that loads read.
-/

namespace Sys2Proof.Machine

/-- Where the entry of a part lies: each part has one of the seven entries. -/
def partAt (m : List Byte) (k : Nat) : Nat :=
  match (List.range 7).find? (fun i => leAt m (0x20 + 0x40 * i) 1 == k) with
  | some i => 0x20 + 0x40 * i
  | none => 0x20 + 0x40 * (k - 1)

def partSvn (m : List Byte) (k : Nat) : Nat := leAt m (partAt m k + 1) 1
def partCompat (m : List Byte) (k : Nat) : Nat := leAt m (partAt m k + 2) 2
def partOffset (m : List Byte) (k : Nat) : Nat := leAt m (partAt m k + 4) 4
def partSize (m : List Byte) (k : Nat) : Nat := leAt m (partAt m k + 8) 4
def partHash (m : List Byte) (k : Nat) : List Byte := (m.drop (partAt m k + 32) ++ zeros 32).take 32
def releaseOf (m : List Byte) : Nat := leAt m 8 4

/-- Bytes of a set, and its pieces of 64 KiB (R469, R471). -/
def setSizeOf (m : List Byte) : Nat := leAt m 0x0C 4
def setPieces (m : List Byte) : Nat := (setSizeOf m + 65535) / 65536

/-- The latest commit record. -/
def latestCommit (f : Flash) : Commit := if f.commit0.sequence < f.commit1.sequence then f.commit1 else f.commit0

/-- The set that loads read: staging from INTENT to COMMITTED, else the active set. -/
def loadSet (f : Flash) : FwSet :=
  match f.staged with
  | some s => if (latestCommit f).state = 1 then s else f.active
  | none => f.active

end Sys2Proof.Machine
end

