-- ==== Sys2Proof/Config.lean ====
section
/-!
DEFINITION. What an implementation fixes and the manual leaves open: uninterpreted constants with no body, so that a
claim holds for every value of them. The assumption log names each (entries 7, 8, 10, 11, 15, 17,
75 and 80).
-/

namespace Sys2Proof.Config

/-- A free value: draw `n` of the model (log entry 7). -/
opaque freeBits : Nat → BitVec 64

/-- Last places of the transcendental functions of R161 (and RSQRT, RECIP of R226): by function code, silicon stepping
and operand bits, as R165 requires (log entry 8). -/
opaque transcendental : Nat → Nat → BitVec 32 → BitVec 32

/-- SLH-DSA verification (FIPS 205) under ROM key slot `slot` of `message` and `signature` (log entry 10). -/
opaque slhVerify : (slot : Nat) → (message signature : List Byte) → Bool

/-- The identity key's signature over a response (R482; log entry 10). -/
opaque slhSign : (message : List Byte) → List Byte

/-- The DER certificate chain in the protected region (R481; log entry 10). -/
opaque certificateChain : List Byte

/-- The settings schema of a firmware release: format, default and range (least, greatest value of each field) are
the firmware's (R478; log entry 10). -/
opaque schemaFormat : (release key : Nat) → Nat

/-- A PDR record of the repository (R454 gives its sensors; the record bytes are the firmware's; log entry 10). -/
opaque pdrRecord : (handle : Nat) → List Byte

/-- The range of a setting in the schema of a release (R478; log entry 10). -/
opaque schemaAllows : (release key : Nat) → (value : List Byte) → Bool

/-- The PDR repository information of R454, after the completion code (log entry 10). -/
opaque pdrInfo : List Byte

/-- The UUID of the MCTP endpoint, its byte `i` (R452; log entry 10). -/
opaque endpointUuid : (i : Nat) → BitVec 8

/-- Version entries that the endpoint reports for an MCTP message type, and their count (R452; log entry 10). -/
opaque mctpVersions : (type : Nat) → List Byte

/-- The command set type of the vendor defined messages (R452; log entry 10). -/
opaque vendorSetType : BitVec 16

/-- The version data that the terminus reports for a PLDM type (R453; log entry 10). -/
opaque pldmVersion : (type : Nat) → List Byte

/-- PAGE_VERSION of a block type in a firmware release other than the one shipped: major, minor and oldest major, and the
newest minor of an older major (R51, R53; log entry 11). -/
opaque pageVersion : (release type : Nat) → Nat × Nat × Nat
opaque olderMinor : (release type major : Nat) → Nat

/-- Detour entries that the die controllers install when the mesh units of a list are lost, and the cores that no detour
then reaches (R175 leaves both to firmware; log entry 15). -/
opaque detourPlan : (lost : List Nat) → List Detour
opaque cutOff : (lost : List Nat) → List Nat

/-- Column `bit` of the check matrix of the word code, content bits 0 to 127 (R194 gives the weights of the columns and what
the code corrects and detects, not the columns; log entry 75). -/
opaque checkColumn : (bit : Nat) → BitVec 16

/-- Byte `place` of a Luawick flit, one of its FEC check symbols, for the other bytes of its interleave (R60 gives what the code
corrects, not its field polynomial; log entry 17). -/
opaque fecSymbol : (place : Nat) → (interleave : List (BitVec 8)) → BitVec 8

/-- The silicon stepping of a die, which mimpid and IDCODE read (R102, R500; log entry 8). -/
opaque stepping : (die : Nat) → BitVec 64

/-- What the lead's scaling makes of the leakage weight of a core, in pJ per period, at a junction temperature in 0.1 °C; the
weight is that of 60 °C (R376; log entry 80). -/
opaque leakage : (weight : Nat) → (temperature : Option Int) → Nat

end Sys2Proof.Config
end

