-- ==== Sys2Proof/Machine/LinkFlit.lean ====
section
/-!
DEFINITION. Luawick flits and messages in bytes (R59 to R66): the CRC, the header, the forward error correction, and how a message
fills payload slots.
-/

namespace Sys2Proof.Machine

/-! ### CRC-32C (R59) -/

/-- One bit of the reflected CRC-32C. -/
def crcBit (c : Word) : Word := if c.getLsbD 0 then (c >>> 1) ^^^ 0x82F63B78 else c >>> 1

def crcByte (c : Word) (b : Byte) : Word := (List.range 8).foldl (fun x _ => crcBit x) (c ^^^ b.setWidth 32)

def crc32cReg (c : Word) (bs : List Byte) : Word :=
  match bs with
  | [] => c
  | b :: r => stepwise (crcByte c b) (fun x => crc32cReg x r)

/-- CRC-32C of bytes: initial value all ones, final XOR all ones. -/
def crc32c (bs : List Byte) : Word := ~~~ crc32cReg 0xFFFFFFFF bs

/-! ### Messages (R64, R65) -/

/-- The class of an opcode (R65): register, DMA, coherent. -/
def classOf (opcode : Nat) : Nat := opcode / 16

/-- The 16-byte header of a message (R64). -/
def messageHeader (m : HostMsg) : List Byte :=
  leBytes 16 (m.opcode % 2 ^ 8 + 2 ^ 8 * (m.status % 2 ^ 4) + 2 ^ 12 * b2n m.poison + 2 ^ 16 * (m.tag % 2 ^ 12)
    + 2 ^ 28 * (m.context % 2 ^ 3) + 2 ^ 32 * (m.data.length % 2 ^ 13) + 2 ^ 45 * (m.readLength % 2 ^ 13)
    + 2 ^ 64 * (m.address % 2 ^ 64))

/-- Payload slots of data. -/
def slotsFor (n : Nat) : Nat := 1 + (n + 15) / 16

/-- Payload slots of a message: its header and its data (R64). -/
def slotsOf (m : HostMsg) : Nat := slotsFor m.data.length

/-- A message in payload slots; the rest of the last is 0. -/
def messageBytes (m : HostMsg) : List Byte :=
  messageHeader m ++ m.data ++ zeros (16 * slotsOf m - 16 - m.data.length)

/-- Flits of a message, where each starts a flit of its own (log entry 17). -/
def flitsOf (m : HostMsg) : Nat := (slotsOf m + 14) / 15

/-- The payloads of the data flits that carry a message. -/
def messagePayloads (m : HostMsg) : List (List Byte) :=
  (List.range (flitsOf m)).map (fun i => ((messageBytes m).drop (240 * i)).take 240)

/-! ### Flits (R59, R61) -/

def flitKindCode (k : FlitKind) : Nat :=
  match k with | .data => 0 | .idle => 1 | .replayRequest => 2 | .linkControl => 3

def flitKindOf (n : Nat) : FlitKind :=
  match n with | 0 => .data | 1 => .idle | 2 => .replayRequest | _ => .linkControl

/-- The 48 bits of a flit header (R61). -/
def flitHeader (f : LinkFlit) : Nat :=
  2 ^ 11 * (f.creditCount % 2 ^ 8) + 2 ^ 19 * (f.creditClass % 4) + 2 ^ 21 * b2n f.ackValid + 2 ^ 22 * (f.ack % 2 ^ 12)
    + 2 ^ 34 * (f.seq % 2 ^ 12) + 2 ^ 46 * flitKindCode f.kind

/-- Bytes 0 to 245: header and payload. -/
def flitBody (f : LinkFlit) : List Byte := leBytes 6 (flitHeader f) ++ (f.payload ++ zeros 240).take 240

/-- Bytes 0 to 249, with the CRC (R59). -/
def flitChecked (f : LinkFlit) : List Byte := flitBody f ++ leBytes 4 (crc32c (flitBody f)).toNat

/-- The bytes of an interleave, by place modulo 3 (R60). -/
def interleave (i : Nat) (bs : List Byte) : List Byte := (bs.zipIdx.filter (fun x => x.2 % 3 == i)).map (·.1)

/-- The 256 bytes of a flit (R59, R60). -/
def flitBytes (f : LinkFlit) : List Byte :=
  let bs := flitChecked f
  bs ++ (List.range 6).map (fun i => Config.fecSymbol (250 + i) (interleave ((250 + i) % 3) bs))

/-! ### Receipt (R60, R61) -/

/-- Bytes of an interleave that arrive in error. -/
def errorsIn (i : Nat) (e : FlitErrors) : List Nat :=
  ((e.filter (fun x => x.bits != 0 && decide (x.place < 256) && x.place % 3 == i)).map (·.place)).eraseDups

/-- Each interleave corrects one byte (R60). -/
def correctable (e : FlitErrors) : Bool := (List.range 3).all (fun i => decide ((errorsIn i e).length ≤ 1))

/-- The FEC corrects a byte. -/
def corrected (e : FlitErrors) : Bool := (List.range 3).any (fun i => !(errorsIn i e).isEmpty)

/-- A flit as sent, of which bytes 0 to 249 are read: its header and payload, where its CRC holds (R59, R61). -/
def parseFlit (bs : List Byte) : Option LinkFlit :=
  if leAt bs 246 4 = (crc32c (bs.take 246)).toNat then
    let h := leAt bs 0 6
    some ⟨flitKindOf (fieldOf h 47 46), fieldOf h 45 34, fieldOf h 33 22, bitOf h 21, fieldOf h 20 19, fieldOf h 18 11,
      (bs.drop 6).take 240⟩
  else none

/-- A flit as received: the FEC corrects what it can, and the CRC of a flit with more errors fails (R60). -/
def readFlit (bs : List Byte) (e : FlitErrors) : Option LinkFlit := if correctable e then parseFlit bs else none

/-! ### Sending (R61, R62) -/

/-- The class whose credits the next flit returns, and how many: 3 and none where nothing is owed. -/
def creditOwed (l : Link) : Nat × Nat :=
  if l.owed0 ≠ 0 then (0, min 255 l.owed0) else if l.owed1 ≠ 0 then (1, min 255 l.owed1)
  else if l.owed2 ≠ 0 then (2, min 255 l.owed2) else (3, 0)

/-- Slots of a received message become free, to be returned (R61). -/
def owe (cls n : Nat) (l : Link) : Link :=
  { l with
    owed0 := if cls = 0 then l.owed0 + n else l.owed0
    owed1 := if cls = 1 then l.owed1 + n else l.owed1
    owed2 := if cls = 2 then l.owed2 + n else l.owed2 }

/-- A flit leaves, with the last data flit received in order and credits in its header (R61). -/
def sendFlit (kind : FlitKind) (seq : Nat) (payload : List Byte) (l : Link) : Link :=
  let c := creditOwed l
  { l with
    sent := l.sent ++ [⟨kind, seq, (l.rxSeq + 4095) % 4096, l.heard, c.1, c.2, payload⟩]
    owed0 := if c.1 = 0 then l.owed0 - c.2 else l.owed0
    owed1 := if c.1 = 1 then l.owed1 - c.2 else l.owed1
    owed2 := if c.1 = 2 then l.owed2 - c.2 else l.owed2 }

/-- A data flit leaves and waits in the replay buffer for its acknowledgement (R62). -/
def sendData (l : Link) (payload : List Byte) : Link :=
  let x := sendFlit .data l.txSeq payload l
  { x with
    txSeq := (l.txSeq + 1) % 4096
    replay := x.replay ++ [⟨.data, l.txSeq, 0, false, 3, 0, payload⟩] }

/-- Credits used for a message of a class. -/
def useCredits (cls n : Nat) (l : Link) : Link :=
  { l with
    credit0 := if cls = 0 then l.credit0 - n else l.credit0
    credit1 := if cls = 1 then l.credit1 - n else l.credit1
    credit2 := if cls = 2 then l.credit2 - n else l.credit2 }

end Sys2Proof.Machine
end

