-- ==== Sys2Proof/Machine/Regs.lean ====
section
/-!
DEFINITION. The register window: where each page lies (R23 to R28), the block types (R55), and the table of every block
register with its access, reset value and the bits it has.
-/

namespace Sys2Proof.Machine

/-- PAGE_ID.TYPE (R55). -/
def typeCode (t : BlockType) : Nat :=
  match t with
  | .module => 0x01 | .job => 0x02 | .power => 0x03 | .reset => 0x04 | .floorPlan => 0x05
  | .controlComplex => 0x10 | .managementView => 0x11 | .dieController => 0x20
  | .memoryController => 0x30 | .updateEngine => 0x31
  | .port => 0x40 | .networkInterface => 0x41 | .queuePool => 0x42 | .reduction => 0x43 | .checkContexts => 0x44
  | .ring => 0x45 | .belay => 0x46 | .counters => 0x47 | .luawick => 0x50 | .core => 0x60

/-- Every block type. -/
def blockTypes : List BlockType :=
  [.module, .job, .power, .reset, .floorPlan, .controlComplex, .managementView, .dieController, .memoryController,
   .updateEngine, .port, .networkInterface, .queuePool, .reduction, .checkContexts, .ring, .belay, .counters, .luawick,
   .core]

def typeOfCode (n : Nat) : Option BlockType := blockTypes.find? (fun t => typeCode t == n)

/-- Instances of a block type (R55). -/
def instances (t : BlockType) : Nat :=
  match t with
  | .module | .job | .power | .reset | .floorPlan | .managementView | .luawick => 1
  | .controlComplex | .queuePool | .reduction | .belay | .counters => 2
  | .dieController => 10
  | .memoryController | .updateEngine => 24
  | .port | .networkInterface | .checkContexts | .ring => 48
  | .core => 2560

/-- The group whose ROUTE field names the event ring of a block type (R85). -/
def routeGroup (t : BlockType) : Nat :=
  match t with
  | .module | .job | .power | .reset | .floorPlan | .controlComplex | .managementView => 0
  | .dieController => 1
  | .memoryController | .updateEngine => 2
  | .port | .networkInterface | .queuePool | .reduction | .checkContexts | .ring | .belay | .counters => 3
  | .luawick => 4
  | .core => 5

/-- Every block type (R55). -/
def allTypes : List BlockType :=
  [.module, .job, .power, .reset, .floorPlan, .controlComplex, .managementView, .dieController, .memoryController,
    .updateEngine, .port, .networkInterface, .queuePool, .reduction, .checkContexts, .ring, .belay, .counters, .luawick, .core]

/-- Pages whose owner is the lead (R15): their commands wait in the lead's latch (R432). -/
def leadOwned (t : BlockType) : Bool :=
  match t with
  | .module | .job | .power | .reset | .floorPlan | .managementView | .controlComplex | .dieController => true
  | _ => false

/-- The network blocks of an I/O die, from the offset in its region (R25). -/
def sideBlock (side b : Nat) : Option RegId :=
  if b < 0x18000 then some ⟨.networkInterface, 24 * side + b / 0x1000, 0, b % 0x1000⟩
  else if 0x20000 ≤ b ∧ b < 0x30000 then some ⟨.queuePool, side, (b - 0x20000) / 0x1000, b % 0x1000⟩
  else if 0x30000 ≤ b ∧ b < 0x34000 then some ⟨.reduction, side, (b - 0x30000) / 0x1000, b % 0x1000⟩
  else if 0x40000 ≤ b ∧ b < 0x58000 then some ⟨.checkContexts, 24 * side + (b - 0x40000) / 0x1000, 0, b % 0x1000⟩
  else if 0x60000 ≤ b ∧ b < 0x78000 then some ⟨.ring, 24 * side + (b - 0x60000) / 0x1000, 0, b % 0x1000⟩
  else if 0x80000 ≤ b ∧ b < 0x100000 then some ⟨.belay, side, (b - 0x80000) / 0x1000, b % 0x1000⟩
  else if 0x100000 ≤ b ∧ b < 0x108000 then some ⟨.counters, side, (b - 0x100000) / 0x1000, b % 0x1000⟩
  else none

/-- The page and offset that a window offset names, or none where the offset is unmapped (R23 to R27). -/
def locate (o : Nat) : Option RegId :=
  if o < 0x1000 then some ⟨.module, 0, 0, o⟩
  else if o < 0x2000 then some ⟨.job, 0, 0, o % 0x1000⟩
  else if o < 0x3000 then some ⟨.power, 0, 0, o % 0x1000⟩
  else if o < 0x4000 then some ⟨.reset, 0, 0, o % 0x1000⟩
  else if o < 0x10000 then none
  else if o < 0x40000 then some ⟨.floorPlan, 0, (o - 0x10000) / 0x1000, o % 0x1000⟩
  else if o < 0x50000 then some ⟨.controlComplex, 0, (o - 0x40000) / 0x1000, o % 0x1000⟩
  else if o < 0x60000 then some ⟨.controlComplex, 1, (o - 0x50000) / 0x1000, o % 0x1000⟩
  else if o < 0x80000 then some ⟨.managementView, 0, (o - 0x60000) / 0x1000, o % 0x1000⟩
  else if o < 0xD0000 then some ⟨.dieController, (o - 0x80000) / 0x8000, (o % 0x8000) / 0x1000, o % 0x1000⟩
  else if o < 0x100000 then none
  else if o < 0x130000 then some ⟨.memoryController, (o - 0x100000) / 0x2000, (o % 0x2000) / 0x1000, o % 0x1000⟩
  else if o < 0x140000 then none
  else if o < 0x1A0000 then some ⟨.updateEngine, (o - 0x140000) / 0x4000, (o % 0x4000) / 0x1000, o % 0x1000⟩
  else if o < 0x200000 then none
  else if o < 0x380000 then some ⟨.port, (o - 0x200000) / 0x8000, (o % 0x8000) / 0x1000, o % 0x1000⟩
  else if o < 0x400000 then none
  else if o < 0x600000 then sideBlock 0 (o - 0x400000)
  else if o < 0x800000 then sideBlock 1 (o - 0x600000)
  else if o < 0x810000 then some ⟨.luawick, 0, (o - 0x800000) / 0x1000, o % 0x1000⟩
  else if o < 0x1000000 then none
  else if o < 0x1A00000 then some ⟨.core, (o - 0x1000000) / 0x1000, 0, o % 0x1000⟩
  else none

/-- Access of a register (00_scope.md). -/
inductive Access where
  | ro | rw | wo | w1c | rc
deriving DecidableEq, Repr

/-- A register: access, reset value, the bits it has (the others are reserved, R8), and whether it is the _LO half of a
64-bit pair (R50), whose reset value and bits then count 64. -/
structure RegRow where
  acc : Access
  reset : Nat
  mask : Nat
  wide : Bool
deriving DecidableEq, Repr

def m32 : Nat := 0xFFFFFFFF
def m64 : Nat := 0xFFFFFFFFFFFFFFFF

def rowRO : Option RegRow := some ⟨.ro, 0, m32, false⟩
def rowROd (r : Nat) : Option RegRow := some ⟨.ro, r, m32, false⟩
def rowROw : Option RegRow := some ⟨.ro, 0, m64, true⟩
def rowRC : Option RegRow := some ⟨.rc, 0, m32, false⟩
def rowRCw : Option RegRow := some ⟨.rc, 0, m64, true⟩
def rowRW (r m : Nat) : Option RegRow := some ⟨.rw, r, m, false⟩
def rowRWw (m : Nat) : Option RegRow := some ⟨.rw, 0, m, true⟩
def rowWO : Option RegRow := some ⟨.wo, 0, 0, false⟩
def rowW1C (m : Nat) : Option RegRow := some ⟨.w1c, 0, m, false⟩

/-- `off` lies at `first + stride * k` for some `k < n`. -/
def inArray (off first stride n : Nat) : Bool :=
  first ≤ off && off < first + stride * n && (off - first) % stride == 0

/-- MODULE page (R369). -/
def rowModule (off : Nat) : Option RegRow :=
  match off with
  | 0x40 | 0x50 | 0x54 | 0x58 | 0x5C | 0x60 | 0x64 | 0x68 | 0x6C | 0x70 | 0x74 | 0x78 | 0x84 | 0x8C => rowRO
  | 0x48 => rowROw
  | 0x80 => rowWO
  | 0x88 => rowRC
  | _ => none

/-- JOB page (R88). -/
def rowJob (off : Nat) : Option RegRow :=
  match off with
  | 0x40 | 0x50 | 0x68 | 0x70 => rowRWw m64
  | 0x48 => rowRW 0 0xFFF
  | 0x4C => rowRW 0 0x1FFF
  | 0x58 | 0x78 => rowRO
  | 0x5C => rowRW 0 3
  | 0x60 | 0x64 => rowRW 0 m32
  | _ => none

/-- POWER page (R408). -/
def rowPower (off : Nat) : Option RegRow :=
  match off with
  | 0x40 | 0x44 => rowRW 0 0xFFFF
  | 0x48 | 0x4C | 0x50 | 0x54 | 0x58 | 0x5C | 0x60 | 0x64 | 0x68 | 0x6C | 0x70 | 0x74 | 0x78 | 0x7C | 0x98 | 0x9C => rowRO
  | 0x80 | 0x88 | 0x90 => rowROw
  | _ => if inArray off 0x100 4 88 || inArray off 0x300 4 160 then rowRO else none

/-- RESET page (R428). -/
def rowReset (off : Nat) : Option RegRow :=
  match off with
  | 0x40 | 0x44 | 0x50 | 0x54 | 0x5C | 0x60 | 0x100 => rowRO
  | 0x48 => rowROw
  | 0x58 => rowRW 0 0x33
  | 0x64 => rowRC
  | _ => if inArray off 0x80 4 16 || inArray off 0x200 4 128 then rowRO else none

/-- FLOOR_PLAN pages (R366): the places of the entries. -/
def rowFloor (page off : Nat) : Option RegRow :=
  if page < 40 then (if inArray off 0x100 8 64 || inArray off 0x400 8 64 then rowROw else none)
  else if page = 40 then
    (if inArray off 0x100 8 160 || inArray off 0x800 8 10 || inArray off 0x880 8 3 || inArray off 0x900 8 16
     then rowROw else none)
  else if page = 41 then (if inArray off 0x100 8 24 || inArray off 0x200 8 24 then rowROw else none)
  else if page = 42 ∨ page = 43 then (if inArray off 0x100 8 192 then rowROw else none)
  else if page = 44 then
    (if inArray off 0x100 8 48 || inArray off 0x300 8 48 || inArray off 0x500 8 6 then rowROw else none)
  else none

/-- CONTROL_COMPLEX pages (R449). -/
def rowComplex (page off : Nat) : Option RegRow :=
  if page ≠ 0 then none else
  match off with
  | 0x40 | 0x44 | 0x48 | 0x50 | 0x58 | 0x5C | 0x60 | 0x74 => rowRO
  | 0x4C | 0x54 | 0x70 => rowRC
  | 0x68 => rowROw
  | _ => none

/-- MANAGEMENT_VIEW pages (R484). -/
def rowView (page off : Nat) : Option RegRow :=
  if page = 0 ∧ inArray off 0x40 4 13 then rowRO else none

/-- Die controller pages (R371, R395). -/
def rowDie (inst page off : Nat) : Option RegRow :=
  if page = 0 then (if inArray off 0x40 4 5 then rowRO else none)
  else if page = 1 ∧ inst < 8 then (if inArray off 0x40 4 320 || inArray off 0x600 4 20 then rowRO else none)
  else if page = 2 ∧ inst < 8 then
    (if inArray off 0x40 4 20 || off == 0x200 then rowRO else if inArray off 0x100 4 20 then rowRC else none)
  else none

/-- Memory controller pages (R217, R220). -/
def rowMemory (page off : Nat) : Option RegRow :=
  if page = 0 then
    match off with
    | 0x40 | 0x44 | 0x4C | 0x6C | 0x74 => rowRO
    | 0x48 => rowRW 0 0x3FF
    | 0x50 | 0x58 | 0x60 | 0x90 => rowROw
    | 0x68 => rowRW 0x18 m32
    | 0x70 => rowRW 0x1000 m32
    | 0x80 => rowRWw m64
    | 0x88 => rowRW 0 0x800003FF
    | _ => none
  else if inArray off 0x40 4 16 || off == 0x100 || inArray off 0x200 4 256 then rowRO
  else if inArray off 0x80 4 32 then rowRC
  else none

/-- Update engine pages (R229, R245). -/
def rowUpdate (page off : Nat) : Option RegRow :=
  if page = 0 then
    match off with
    | 0x40 | 0x44 | 0x54 | 0x68 | 0x80 => rowRO
    | 0x48 => rowRW 0 0x3FFFF
    | 0x4C => rowRW 0 0x7FFFF
    | 0x50 => rowRW 0 0x3FFFF
    | 0x58 | 0x5C | 0x60 | 0x64 => rowRC
    | _ => if inArray off 0x100 4 256 then rowRO else none
  else if page = 1 then
    if off < 0x40 ∨ 0x40 + 0xC0 * 16 ≤ off then none else
    match (off - 0x40) % 0xC0 with
    | 0x00 => rowRW 0 0x03FFFF07
    | 0x04 => rowRW 0x13 0x1F
    | 0x08 => rowRW 0 0x7FFFF
    | 0x0C => rowRW 0 0x3FFFF
    | 0x10 => rowRW 0 0x3FF
    | 0x18 | 0x20 | 0x38 => rowRWw m64
    | 0x28 | 0x2C | 0x30 => rowRO
    | k => if inArray k 0x40 0x10 8 then rowRW 0 0xF3 else if inArray k 0x48 0x10 8 then rowRWw m64 else none
  else if page = 2 then (if inArray off 0x100 4 512 then rowRW 0 m32 else none)
  else (if inArray off 0x100 4 512 then rowRW 0 m32 else none)

/-- Port pages (R287). -/
def rowPort (page off : Nat) : Option RegRow :=
  if page ≠ 0 then none else
  match off with
  | 0x40 | 0x44 | 0x9C | 0xA0 => rowRO
  | 0x48 => rowRCw
  | 0x50 | 0x88 | 0x8C | 0x90 | 0xC0 | 0xC4 | 0xC8 => rowRC
  | 0x54 => rowRW 0x10 m32
  | 0x58 => rowRW 0x3E8 m32
  | 0x60 => rowRWw m64
  | 0x68 | 0xB0 | 0xB8 => rowROw
  | 0x70 => rowRWw 0xFFFFFFFFFFFF
  | 0x78 => rowRW 0x63000 0x77FFF
  | 0x7C => rowRW 0x301A 0x3F3F
  | 0x80 => rowRW 0 0xFFFF
  | 0x84 => rowRW 0x40 0xFF
  | 0x94 => rowRW 0x64 m32
  | 0x98 => rowRW 0x78 m32
  | _ => none

/-- Network interface pages (R289). -/
def rowNetwork (off : Nat) : Option RegRow :=
  match off with
  | 0x50 | 0x58 | 0xB0 | 0xB8 => rowRWw m64
  | 0x60 | 0x70 | 0x88 | 0x8C | 0x90 | 0x94 | 0x98 | 0x9C | 0xA0 | 0xA4 =>
    rowRW (match off with
      | 0x88 => 0x32 | 0x8C => 0x1388 | 0x90 => 0xA | 0x94 => 0x20 | 0x98 => 4 | 0x9C => 0x19281440 | 0xA0 => 8
      | 0xA4 => 0x64 | _ => 0) m32
  | 0x64 => rowRW 0 0x7FFF3FFF
  | 0x68 => rowRW 0 0xFFFFFF
  | 0x6C | 0x184 | 0x188 | 0x190 => rowRO
  | 0x18C => rowROd m32
  | 0x74 => rowRW 0 0x1FFFFF
  | 0x80 => rowRWw 0xFFFFFFFFFFFF
  | 0xC0 => rowRW 0 7
  | 0xC4 => rowRW 0 0xFF
  | 0xC8 | 0xD0 | 0x100 | 0x130 => rowROw
  | 0x108 | 0x10C | 0x110 | 0x114 | 0x118 | 0x11C | 0x120 | 0x124 | 0x128 | 0x12C | 0x138 | 0x13C | 0x140 | 0x144 => rowRC
  | 0x180 => rowRW 0 0x3FFF
  | _ => none

/-- RESERVE of a queue at reset (R291). -/
def reserveReset (q : Nat) : Nat := if 96 ≤ q then 512 else if q % 2 = 0 then 4096 else 1024

/-- Queue pool pages (R310). -/
def rowQueue (page off : Nat) : Option RegRow :=
  if page = 0 then
    match off with
    | 0x40 => rowROd 0x40000
    | 0x44 => rowROd 0x3F000
    | 0x48 | 0x4C => rowRC
    | 0x50 => rowRW 0 0x807F0007
    | 0x60 | 0x64 | 0x68 => rowW1C m32
    | 0x6C => rowW1C 0xFFFFFF
    | _ => none
  else if page = 1 ∧ 0x40 ≤ off ∧ off < 0x40 + 0x10 * 120 then
    match (off - 0x40) % 0x10 with
    | 0 => rowRO
    | 4 => rowRW (reserveReset ((off - 0x40) / 0x10)) 0x7FFFF
    | 8 => rowRW 0 0x7FFFF
    | 12 => rowRC
    | _ => none
  else none

/-- Reduction page (R346). -/
def rowReduction (page off : Nat) : Option RegRow :=
  if page ≠ 0 then none else
  match off with
  | 0x40 | 0x4C => rowRO
  | 0x44 | 0x48 | 0x50 => rowRC
  | _ => none

/-- Check context pages (R312). -/
def rowCheck (off : Nat) : Option RegRow :=
  match off with
  | 0x40 => rowRW 0 m32
  | 0x44 => rowRW 0 0x1FFFFF
  | 0x48 | 0x50 => rowRWw m64
  | 0x60 | 0x64 | 0x68 | 0x6C => rowRC
  | _ =>
    if off < 0x100 ∨ 0x200 ≤ off then none else
    match (off - 0x100) % 0x40 with
    | 0x00 | 0x04 | 0x10 | 0x14 => rowRO
    | 0x08 | 0x18 | 0x20 | 0x28 => rowROw
    | _ => none

/-- Ring pages (R347). -/
def rowRing (off : Nat) : Option RegRow :=
  match off with
  | 0x40 => rowRW 0 0xF313F
  | 0x44 => rowRW 0x13 0x1F
  | 0x48 => rowRW 0 0x1FFF
  | 0x4C => rowRW 0 0xFFF
  | 0x50 => rowRW 0 0x0FFF0FFF
  | 0x54 => rowRW 0 0x1FF
  | 0x58 | 0x5C => rowRW 0 m32
  | 0x60 | 0x68 | 0x70 | 0x80 | 0xA0 | 0xA8 | 0xB0 => rowRWw m64
  | 0x78 => rowRW 0x200000 m32
  | 0x7C => rowRW 0x7D0 m32
  | 0x88 => rowRW 0x80000 m32
  | 0x8C => rowRW 0 0x07FF03FF
  | 0x90 => rowRW 0 0x803F3F3F
  | 0x94 => rowRW 0 0x8FFFFFFF
  | 0x98 => rowRW 0 0x3FFFF
  | 0x9C => rowRW 0 0xFF
  | 0xB8 | 0xF8 => rowRW 0 m32
  | 0xBC => rowRW 0 0x800001FF
  | 0xC0 | 0xC4 | 0xC8 | 0xCC | 0xD0 | 0xD4 | 0xD8 | 0xDC | 0xE4 | 0xF0 => rowRO
  | 0xE8 => rowROw
  | 0xE0 | 0xF4 => rowRC
  | _ => none

/-- Belay pages (R317, R321). -/
def rowBelay (page off : Nat) : Option RegRow :=
  if page = 0 ∧ off = 0x40 then rowRO
  else if page = 0 ∧ off = 0x44 then rowRC
  else if 0x100 ≤ off ∧ off < 0x900 then
    match (off - 0x100) % 0x100 with
    | 0x00 => rowRW 0x0FC00000 0x0FFF800F
    | 0x04 | 0x2C => rowRO
    | 0x08 => rowRW 0 0x1FF
    | 0x0C | 0x10 => rowRW 0 m32
    | 0x14 => rowRW 0 0xFFFFFF
    | 0x18 => rowRW 0 0xFFF
    | 0x1C => rowRW 0 0xFFFFF
    | 0x20 => rowRW 0 0x800001FF
    | 0x24 => rowRW 0 0x0FFFFFFF
    | 0x28 => rowRW 0 0x3FFFF
    | _ => none
  else none

/-- Counter pages (R316). -/
def rowCounters (off : Nat) : Option RegRow := if inArray off 0x100 4 64 then rowRW 0 m32 else none

/-- LUAWICK pages (R85). -/
def rowLuawick (page off : Nat) : Option RegRow :=
  if page = 0 then
    match off with
    | 0x40 | 0x5C => rowRO
    | 0x44 | 0x48 | 0x4C => rowRC
    | 0x50 => rowRWw m64
    | 0x58 => rowRW 0x1A 0x3F
    | 0x60 => rowRW 0x64 m32
    | 0x64 => rowRW 2 m32
    | _ => none
  else if page = 1 then (if inArray off 0x40 8 32 then rowRWw m64 else none)
  else if page = 2 then
    if off < 0x40 ∨ 0x240 ≤ off then none else
    match (off - 0x40) % 32 with
    | 0x00 => rowRWw m64
    | 0x08 => rowRW 4 0xF
    | 0x0C => rowWO
    | 0x10 | 0x14 | 0x18 => rowRO
    | _ => none
  else if page = 3 then
    if off = 0x140 then rowRW 0 0x777777
    else if off < 0x40 ∨ 0x140 ≤ off then none else
    match (off - 0x40) % 32 with
    | 0x00 => rowRWw m64
    | 0x08 => rowRW 6 0x1F
    | 0x0C => rowRW 0 m32
    | 0x10 => rowRO
    | 0x14 => rowRC
    | 0x18 => rowRW 0 1
    | _ => none
  else none

/-- Core pages (R135). -/
def rowCore (off : Nat) : Option RegRow :=
  match off with
  | 0x40 | 0x44 | 0x48 | 0x70 | 0x74 | 0x78 | 0x84 | 0x88 | 0xA4 | 0xB0 | 0xB4 | 0xE0 | 0xE4 => rowRO
  | 0x50 | 0x68 => rowRWw m64
  | 0x58 => rowRW 0 0x1FFFFF
  | 0x5C => rowRW 0 0x1FFFF0
  | 0x60 => rowRW 0 0x1FFFFE
  | 0x7C => rowRW 0 m32
  | 0x80 | 0xA0 => rowW1C 0x80000000
  | 0x90 | 0xD0 | 0xD8 => rowROw
  | 0x98 | 0xC0 | 0xC4 | 0xC8 => rowRC
  | 0xA8 => rowRW 0x1388 m32
  | _ => none

/-- The row of a register at its own offset. -/
def rowAt (r : RegId) : Option RegRow :=
  match r.ty with
  | .module => rowModule r.off | .job => rowJob r.off | .power => rowPower r.off | .reset => rowReset r.off
  | .floorPlan => rowFloor r.page r.off | .controlComplex => rowComplex r.page r.off
  | .managementView => rowView r.page r.off | .dieController => rowDie r.inst r.page r.off
  | .memoryController => rowMemory r.page r.off | .updateEngine => rowUpdate r.page r.off
  | .port => rowPort r.page r.off | .networkInterface => rowNetwork r.off | .queuePool => rowQueue r.page r.off
  | .reduction => rowReduction r.page r.off | .checkContexts => rowCheck r.off | .ring => rowRing r.off
  | .belay => rowBelay r.page r.off | .counters => rowCounters r.off | .luawick => rowLuawick r.page r.off
  | .core => rowCore r.off

/-- The row of the 32-bit register at an offset: its own, or the high half of the pair 4 bytes below. -/
def rowHalf (r : RegId) : Option RegRow :=
  match rowAt r with
  | some row => some ⟨row.acc, row.reset % 2 ^ 32, row.mask % 2 ^ 32, row.wide⟩
  | none =>
    if r.off % 8 = 4 then
      match rowAt { r with off := r.off - 4 } with
      | some row => if row.wide then some ⟨row.acc, row.reset / 2 ^ 32, row.mask / 2 ^ 32, false⟩ else none
      | none => none
    else none

/-- The reset value of a register; a reserved one reads 0 (R8). -/
def regReset (r : RegId) : Word := BitVec.ofNat 32 (match rowHalf r with | some row => row.reset | none => 0)

/-- The high half of the pair whose _LO half is `r`. -/
def hiOf (r : RegId) : RegId := { r with off := r.off + 4 }

/-- Whether the offset is the _HI half of a pair. -/
def isHi (r : RegId) : Bool :=
  r.off % 8 == 4 && (match rowAt { r with off := r.off - 4 } with | some row => row.wide | none => false)

/-- Whether the offset is the _LO half of a pair. -/
def isLo (r : RegId) : Bool := match rowAt r with | some row => row.wide | none => false

end Sys2Proof.Machine
end

