-- ==== Sys2Proof/Machine/State.lean ====
section
/-!
DEFINITION. The state of the module.
-/

namespace Sys2Proof.Machine

/-- Everything but the queue, the fuse array and the measurement log. -/
structure Dev where
  /-- Draws of free values made (log entry 7). -/
  fresh : Nat
  /-- The local timer, in ns (R407). -/
  now : Nat
  always : AlwaysOn
  reset : ResetCtl
  /-- Block registers that have been written; a register not listed holds its reset value. -/
  regs : Tbl RegId Word
  versions : Tbl BlockType Version
  pages : Tbl PageId Page
  /-- Units without pages, by unit code (R364). -/
  units : Tbl Nat UnitRec
  flags : Tbl Nat UnitFlags
  /-- Cause of a page or unit that nothing has touched since the last reset that reached all (R33). -/
  startCause : Cause
  link : Link
  /-- Messages sent to the host, and messages that wait for the link. -/
  hostTx : List HostMsg
  hostWait : List HostMsg
  window : Window
  queues : Tbl Nat DmaQueue
  /-- The queue whose descriptor started last (R73). -/
  dmaTurn : Nat
  dma : List DmaRun
  rings : Tbl Nat EventRing
  job : Job
  /-- Cores that something has happened to since their reset; SRAM bytes by core × 2²¹ + address, and poisoned 128-bit
  words by core × 2¹⁷ + word (R98, R99). -/
  cores : Tbl Nat Core
  sram : Mem
  sramPoison : List Nat
  /-- Packets in the mesh, and routers (R166 to R187). -/
  packets : List Packet
  routers : Tbl Nat Router
  /-- The next MSG_ID of a die controller's relays (R185), and the retirements of routers and links: floor-plan generation and
  time (R186). -/
  relayIds : Tbl Nat Nat
  meshLosses : List (Nat × Nat)
  /-- Module memory by module address; marked lines by address div 64; words that hold the poisoned word, by address div 16;
  errors of words, of copies of the marks, and of whole check bursts by channel and group; injected marks not yet reported
  (R191 to R196, R219). -/
  mem : Mem
  memPoison : List Nat
  memBad : List Nat
  memFlaws : List WordFlaw
  markFlaws : List MarkFlaw
  burstFlaws : List (Nat × Nat)
  memMarks : List Nat
  memMap : Option MemMap
  memCtls : Tbl Nat MemCtl
  engines : Tbl Nat UpdEng
  net : Net
  /-- The fuse array as the ROM last read it (R350, R351, R414). -/
  fused : Fuses
  flash : Flash
  boot : Boot
  power : PowerSt
  sensors : Tbl Nat Sensor
  spots : Tbl Nat HotSpot
  coolant : Coolant
  complexes : Tbl Nat Complex
  lead : Lead
  mgmt : Mgmt
  pins : Pins
  jtag : Jtag
  /-- Parts of an activated set that have not started to run yet (R476, R480). -/
  unrun : List Nat
deriving DecidableEq, Repr

/-- The module: the queue of commands that wait, the fuse array, the measurement log, and everything else. -/
structure State where
  pending : List Instr
  fuses : Fuses
  mlog : List LogEntry
  dev : Dev
deriving DecidableEq, Repr

/-- Reasons to stop with a fault. No command of this manual ends in one. -/
inductive Fault where
  /-- Raised by nothing (safe: no run stops here). -/
  | none_
deriving DecidableEq, Repr

/-- Reasons to refuse a command. -/
inductive Refusal where
  /-- Raised by the dispatch for a command whose meaning is not written (safe: the model stops). -/
  | notModelled (mnemonic : String)
deriving DecidableEq, Repr

/-! ### Reset (R349, R414, R419, R424, R425) -/

/-- The weights of R376 typ. at 0.75 V, in pJ. -/
def typicalWeights : List Nat := [900, 850, 750, 700, 850, 120, 150, 20, 4, 20, 10, 300000]

/-- The fuses of a VX4-A-CP as shipped, with the typical weights at every operating point (log entry 80) and no unit fused at manufacture (log entry 11). -/
def shippedFuses : Fuses :=
  { variant := 0, build := 0, serial := 0, manufacture := [], defaultLead := 0, resetMap := 0x9116, revoked := [],
    svn := [0, 0, 0, 0, 0, 0, 0], provisionalId := 0, macs := [], weights := [typicalWeights, typicalWeights, typicalWeights] }

/-- The defaults of R378 for a design power in W. -/
def defaultCeilings (design : Nat) : Ceilings := ⟨design, 100, 50, true, 60, 5000, 1, 95, 5000⟩

/-- The design power of a variant (R1). -/
def designPower (variant : Nat) : Nat := match variant with | 0 => 4800 | 1 => 4500 | _ => 3600

/-- Management flash as shipped (log entry 11). -/
def shippedFlash : Flash :=
  { cairn := [], trims := [], powerOns := 1, ceilings := defaultCeilings 4800, silenceTime := 0, silenceCeiling := 0, mapLocal := 0,
    formats := [], commit0 := ⟨0, 2, []⟩, commit1 := ⟨0, 2, []⟩, active := ⟨[], []⟩, staged := none, pieces := [] }

def freshLink : Link :=
  { phase := .detect, lanes := 0, rate := 0, leftAt := none, lost := false, oldLanes := 0, oldRate := 0, txSeq := 0,
    rxSeq := 0, heard := false, replay := [], sent := [], awaiting := false, askedAt := 0, askTries := 0, replayAt := 0,
    replayTries := 0, credit0 := 0, credit1 := 0, credit2 := 0, owed0 := 0, owed1 := 0, owed2 := 0, returned := none }

def freshWindow : Window := ⟨false, 0, 0, [], [], [], []⟩

def freshJob : Job := ⟨false, 0, 0, [], 0, 0, 0, 0, 0, [], [], none⟩

def freshNet : Net :=
  { ports := [], optics := [], sends := [], nextSend := 1, tx := [], rx := [], windows := [], wire := [], staging := [],
    stagePoison := [], pools := [], checkTx := [], checkRx := [], belay := [], rings := [] }

def freshBoot : Boot := ⟨.waiting, [], [], false, false, [], false, [], [], false, false⟩

def freshPower (c : Ceilings) (time ceiling : Nat) : PowerSt :=
  { ceilings := c, silenceTime := time, silenceCeiling := ceiling, est := 0, filler := 0, sPower := 0, boundBy := 0,
    envelope := none, offset := 0, sPace := [], idleRun := 0, inBarrier := false, barrierAt := 0, holdEnded := false, runMean := 0,
    floor := 0, history := [], cycleSum := 0, cycleCount := 0, measured := 0, volts := 0, amps := 0, opChange := none,
    belowSince := [], shadow := [], trimAt := [], cycleTemps := [], cycleLimit := 0, cycleGlow := 0, cycleEnergy := 0 }

def freshLead : Lead :=
  { latches := [], cycle := none, takeover := none, safe := false, handover := false, missed := [], heard := [], watchFrom := 0,
    beaconAt := 0, cycleEnd := 0, recordAt := 0, frozen := [] }

def freshMgmt : Mgmt :=
  { address := none, eventsOn := 1, mrl := 64, mwl := 64, eid := 0, tid := 0, receiver := none, incoming := none, out := [],
    discarded := 0, events := 0, heard := 0, silenced := false, orderKind := 0, orderState := 0, assemblies := [],
    activation := none, powerOff := false, nonce := none, scope := 0, attest := none, settingsReset := 0 }

/-- Everything but the queue, the fuse array and the measurement log, right after the 48 V input has passed 40 V. -/
def Dev.atPowerOn (fuses : Fuses) (flash : Flash) (slotId : Nat) (bivouacN coolantOk : Bool) : Dev :=
  { fresh := 0, now := 0,
    always := {
      cause := 0x00020000, count := 0, session := 0, time := 0, energy := 0, energyRest := 0, afterglow := 0,
      afterglowRest := 0, hardTrip := false, leadSelect := none, plannedTakeovers := 0, otherTakeovers := 0,
      lastTakeover := 0, lastTakeoverTime := 0 },
    reset := {
      level := some 2, accepted := 0, phase := .asserted, driving := true, releasedAt := 0, pinHigh := true,
      fellAt := none, pinTaken := false, hangAt := none },
    regs := [], versions := [], pages := [], units := [], flags := [], startCause := .powerOn, link := freshLink, hostTx := [],
    hostWait := [], window := freshWindow, queues := [], dmaTurn := 15, dma := [], rings := [], job := freshJob, cores := [], sram := [],
    sramPoison := [], packets := [], routers := [], relayIds := [], meshLosses := [], mem := [], memPoison := [], memBad := [], memFlaws := [], markFlaws := [],
    burstFlaws := [], memMarks := [],
    memMap := none, memCtls := [], engines := [], net := freshNet, fused := fuses, flash := flash, boot := freshBoot,
    power := freshPower flash.ceilings flash.silenceTime flash.silenceCeiling, sensors := [], spots := [],
    coolant := ⟨coolantOk, none, none, none, false⟩, complexes := [], lead := freshLead, mgmt := freshMgmt,
    pins := ⟨false, false, slotId, bivouacN⟩, jtag := ⟨true, .idcode, false, [], false, []⟩, unrun := [] }

/-- The module right after a power-on, as shipped, with BIVOUAC_N high, COOLANT_OK high and no SLOT_ID strap (log entries
11 and 12). -/
def State.reset : State :=
  { pending := [], fuses := shippedFuses, mlog := [],
    dev := Dev.atPowerOn shippedFuses shippedFlash 15 true true }

end Sys2Proof.Machine
end

