-- ==== Sys2Proof/Machine/Ops.lean ====
section
/-!
DEFINITION. The operations that every chapter shares: registers, page headers, messages to the host, the shared window,
event rings, page commands and their results.
-/

namespace Sys2Proof.Machine

/-! ### Registers -/

/-- The register a page reads and writes: module-wide registers of the network interface pages have one home (R289), as
have the laser registers of an optical engine (R287) and MAP_LOCAL_NEXT (R218). -/
def homeOf (r : RegId) : RegId :=
  match r.ty with
  | .networkInterface => if 0x80 ≤ r.off ∧ r.off < 0xA8 then { r with inst := 0 } else r
  | .port => if r.off = 0x98 ∨ r.off = 0x9C ∨ r.off = 0xA0 then { r with inst := r.inst / 8 * 8 } else r
  | .memoryController => if r.page = 0 ∧ r.off = 0x48 then { r with inst := 0 } else r
  | _ => r

def rd (r : RegId) (d : Dev) : Nat := (d.regs.get (regReset (homeOf r)) (homeOf r)).toNat

def wr (r : RegId) (n : Nat) (d : Dev) : Dev := { d with regs := d.regs.set (homeOf r) (BitVec.ofNat 32 n) }

def rd64 (r : RegId) (d : Dev) : Nat := rd r d + 2 ^ 32 * rd (hiOf r) d

def wr64 (r : RegId) (n : Nat) (d : Dev) : Dev := wr (hiOf r) (n / 2 ^ 32) (wr r n d)

/-- Adds to a counter that saturates. -/
def addSat (r : RegId) (n : Nat) (d : Dev) : Dev := wr r (min m32 (rd r d + n)) d

def bump (r : RegId) (d : Dev) : Dev := addSat r 1 d

/-- Adds to a counter that wraps. -/
def addWrap (r : RegId) (n : Nat) (d : Dev) : Dev := wr r (rd r d + n) d

def add64 (r : RegId) (n : Nat) (d : Dev) : Dev := wr64 r (rd64 r d + n) d

/-- Every register of a block instance reads its reset value again. -/
def regsReset (p : RegId → Bool) (d : Dev) : Dev := { d with regs := d.regs.drop p }

abbrev rModule (off : Nat) : RegId := ⟨.module, 0, 0, off⟩
abbrev rJob (off : Nat) : RegId := ⟨.job, 0, 0, off⟩
abbrev rPower (off : Nat) : RegId := ⟨.power, 0, 0, off⟩
abbrev rReset (off : Nat) : RegId := ⟨.reset, 0, 0, off⟩
abbrev rLua (page off : Nat) : RegId := ⟨.luawick, 0, page, off⟩
abbrev rQueue (q off : Nat) : RegId := ⟨.luawick, 0, 2, 0x40 + 32 * q + off⟩
abbrev rEvt (n off : Nat) : RegId := ⟨.luawick, 0, 3, 0x40 + 32 * n + off⟩
abbrev rCore (k off : Nat) : RegId := ⟨.core, k, 0, off⟩
abbrev rDie (i page off : Nat) : RegId := ⟨.dieController, i, page, off⟩
abbrev rMem (c page off : Nat) : RegId := ⟨.memoryController, c, page, off⟩
abbrev rUpd (c page off : Nat) : RegId := ⟨.updateEngine, c, page, off⟩
abbrev rPort (p off : Nat) : RegId := ⟨.port, p, 0, off⟩
abbrev rNi (p off : Nat) : RegId := ⟨.networkInterface, p, 0, off⟩
abbrev rPool (side page off : Nat) : RegId := ⟨.queuePool, side, page, off⟩
abbrev rRed (side off : Nat) : RegId := ⟨.reduction, side, 0, off⟩
abbrev rChk (r off : Nat) : RegId := ⟨.checkContexts, r, 0, off⟩
abbrev rRing (r off : Nat) : RegId := ⟨.ring, r, 0, off⟩
abbrev rBelay (side e off : Nat) : RegId := ⟨.belay, side, e / 8, 0x100 + 0x100 * (e % 8) + off⟩
abbrev rCounter (side c : Nat) : RegId := ⟨.counters, side, c / 64, 0x100 + 4 * (c % 64)⟩
abbrev rComplex (i off : Nat) : RegId := ⟨.controlComplex, i, 0, off⟩
abbrev rView (off : Nat) : RegId := ⟨.managementView, 0, 0, off⟩

/-- The low 16 bits of the floor-plan generation are what a transition writes (PAGE_STATE.GEN). -/
def fpGen (d : Dev) : Nat := rd (rModule 0x54) d

/-- A threshold register judged by no command: it acts at the nearest bound of its range (R45). -/
def clampReg (lo hi v : Nat) : Nat := max lo (min hi v)

/-! ### Pages -/

def stateCode (s : PState) : Nat :=
  match s with
  | .off => 0 | .testing => 1 | .training => 2 | .loading => 3 | .ready => 4 | .active => 5 | .quiesced => 6
  | .fault => 7 | .retired => 8

/-- Codes of R35. -/
def causeCode (c : Cause) : Nat :=
  match c with
  | .powerOn => 0 | .testPassed => 1 | .testFailed => 2 | .fused => 3 | .cairn => 4 | .hostCommand => 5 | .mgmtOrder => 6
  | .selfFault => 7 | .hang => 8 | .ownerLost => 9 | .coolant => 0xA | .reset => 0xB | .work => 0xC
  | .trainingFailed => 0xD | .thermalTrip => 0xE

/-- Codes of R36. -/
def resultCode (r : Result) : Nat :=
  match r with
  | .done => 0 | .busy => 1 | .rejectedState => 2 | .rejectedRange => 3 | .rejectedVersion => 4 | .failed => 5

/-- A header at its reset values (R29, R33). -/
def freshPage (c : Cause) (gen : Nat) : Page :=
  { state := .off, cause := c, gen := gen % 65536, seq := 0, result := .done, lastCmd := 0, errCount := 0, errFirst := 0,
    events := 0, mask := 0x15, major := 0, minor := 0, negotiated := false, holds := [], before := .ready, cmd := none,
    back := .ready, backCause := c, latch := [], held := [] }

def pageOf (p : PageId) (d : Dev) : Page := d.pages.get (freshPage d.startCause 0) p

def putPage (p : PageId) (g : Page) (d : Dev) : Dev := { d with pages := d.pages.set p g }

def stateOf (p : PageId) (d : Dev) : PState := (pageOf p d).state

/-- The state is one of those named. -/
def inState (p : PageId) (l : List PState) (d : Dev) : Bool := l.contains (stateOf p d)

abbrev pModule : PageId := ⟨.module, 0⟩
abbrev pJob : PageId := ⟨.job, 0⟩
abbrev pPower : PageId := ⟨.power, 0⟩
abbrev pReset : PageId := ⟨.reset, 0⟩
abbrev pLua : PageId := ⟨.luawick, 0⟩

/-- PAGE_STATE as it reads (R30). -/
def stateWord (g : Page) : Nat := stateCode g.state + 2 ^ 8 * causeCode g.cause + 2 ^ 16 * g.gen

/-- PAGE_CMD_STATUS as it reads. -/
def statusWord (g : Page) : Nat := g.lastCmd + 2 ^ 8 * resultCode g.result + 2 ^ 16 * g.seq

/-- PAGE_ERROR as it reads. -/
def errorWord (g : Page) : Nat := g.errFirst + 2 ^ 16 * g.errCount

/-- PAGE_NEGOTIATE as it reads. -/
def negotiateWord (g : Page) : Nat := b2n g.negotiated + 2 ^ 16 * g.minor + 2 ^ 24 * g.major

/-- What a firmware release implements of a block type: 1.0 in the release as shipped (log entry 11). -/
def versionIn (release : Nat) (t : BlockType) : Version :=
  if release = 0 then ⟨1, 0, 1, []⟩
  else
    let v := Config.pageVersion release (typeCode t)
    ⟨v.1 % 256, v.2.1 % 256, v.2.2 % 256,
      (List.range (v.1 % 256)).map (fun m => (m, Config.olderMinor release (typeCode t) m % 256))⟩

/-- What a block type implements. -/
def versionOf (t : BlockType) (d : Dev) : Version := d.versions.get (versionIn 0 t) t

/-- PAGE_VERSION as it reads. -/
def versionWord (v : Version) : Nat := 2 ^ 8 * v.oldest + 2 ^ 16 * v.minor + 2 ^ 24 * v.major

/-- While a reset acts on a block, its pages answer as R54 gives: cores from the acceptance of an L0, every page from
the acceptance of an L1 or L2, until the blocks start again (R422). -/
def resetActs (t : BlockType) (d : Dev) : Bool :=
  match d.reset.level with
  | none => false
  | some l => d.reset.phase != .starting && (l != 0 || t == .core)

/-- The page answers no access: it does not exist, or a reset acts on its block. -/
def pageSilent (p : PageId) (d : Dev) : Bool := decide (instances p.ty ≤ p.inst) || resetActs p.ty d

/-! ### Messages to the host -/

/-- A message leaves in data flits, which wait in the replay buffer (R62), and uses credits of its class. -/
def linkSend (m : HostMsg) (l : Link) : Link :=
  useCredits (classOf m.opcode) (slotsOf m) ((messagePayloads m).foldl sendData l)

/-- Sends what waits, in order, while the link is ACTIVE and the replay buffer holds at most 1,024 flits (R62). -/
def pump (fuel : Nat) (d : Dev) : Dev :=
  match fuel, d.hostWait with
  | k + 1, m :: r =>
    if d.link.phase = .active ∧ d.link.replay.length + flitsOf m ≤ 1024 then
      pump k { d with link := linkSend m d.link, hostTx := d.hostTx ++ [m], hostWait := r }
    else d
  | _, _ => d

/-- A message to the host: it leaves at once or waits for the link, and overtakes none (R67). -/
def hostSend (m : HostMsg) (d : Dev) : Dev :=
  pump (d.hostWait.length + 1) { d with hostWait := d.hostWait ++ [m] }

/-- A snoop response waits behind no message but earlier snoop responses (R70). -/
def hostSendFirst (m : HostMsg) (d : Dev) : Dev :=
  pump (d.hostWait.length + 1) { d with
    hostWait := d.hostWait.takeWhile (fun x => x.opcode == 0x2C) ++ m :: d.hostWait.dropWhile (fun x => x.opcode == 0x2C) }

def msg (opcode : Nat) (address : Nat) (data : List Byte) : HostMsg :=
  { opcode := opcode, tag := 0, address := address, context := 0, status := 0, poison := false, readLength := 0,
    data := data }

/-! ### The shared window (R68 to R71) -/

def lineOf (a : Nat) : Nat := a / 64 * 64

def findLine (a : Nat) (w : Window) : Option Line := w.lines.find? (fun l => l.addr == a)

/-- Replaces the line of that address. -/
def putLine (l : Line) (w : Window) : Window :=
  { w with lines := w.lines.filter (fun x => x.addr != l.addr) ++ [l] }

def dropLine (a : Nat) (w : Window) : Window := { w with lines := w.lines.filter (fun x => x.addr != a) }

/-- Bytes put into a line from an offset. -/
def overlay (line : List Byte) (off : Nat) (bs : List Byte) : List Byte :=
  line.take off ++ bs ++ line.drop (off + bs.length)

/-- A line whose writeback has no COH_WB_ACK yet. -/
def writingBack (a : Nat) (w : Window) : Bool := w.writebacks.any (fun x => x.1 == a)

/-- A TAG that no coherent request holds: 4,096 may be outstanding (R66). -/
def freeCohTag (w : Window) : Option Nat :=
  firstBelow 4096 (fun t => !w.requests.any (fun r => r.tag == t) && !w.writebacks.any (fun x => x.2 == t))

/-- A request for a line, at most one outstanding, and none while its writeback is (R70). -/
def requestLine (a : Nat) (own : Bool) (d : Dev) : Dev :=
  if d.window.requests.any (fun r => r.addr == a) || writingBack a d.window then d
  else match freeCohTag d.window with
    | none => d
    | some t =>
      hostSend { msg (if own then 0x21 else 0x20) a [] with tag := t }
        { d with window := { d.window with requests := d.window.requests ++ [⟨a, own, t⟩] } }

/-- EVENT_SIGNAL for a ring, at once or when INT_HOLDOFF has passed since the last (R82). -/
def signalRing (n : Nat) (d : Dev) : Dev :=
  let r := d.rings.get ⟨false, 0, 0, false, none, false, 0⟩ n
  let hold := 1000 * clampReg 0 1000 (rd (rLua 0 0x64) d)
  match r.lastSignal with
  | some t =>
    if d.now < t + hold then { d with rings := d.rings.set n { r with held := true } }
    else hostSend (msg 0x18 n []) { d with rings := d.rings.set n { r with lastSignal := some d.now, held := false } }
  | none => hostSend (msg 0x18 n []) { d with rings := d.rings.set n { r with lastSignal := some d.now, held := false } }

/-- Applies what waits for the window, in order, as far as lines are owned (R69); the line that holds it up is
requested. -/
def drainWindow (fuel : Nat) (d : Dev) : Dev :=
  match fuel, d.window.waiting with
  | k + 1, .write a bs :: r =>
    match findLine (lineOf a) d.window with
    | some l =>
      if l.state = .shared then requestLine (lineOf a) true d
      else
        drainWindow k { d with window := { putLine { l with state := .modified, data := overlay l.data (a % 64) bs }
          d.window with waiting := r } }
    | none => requestLine (lineOf a) true d
  | k + 1, .signal n :: r => drainWindow k (signalRing n { d with window := { d.window with waiting := r } })
  | _, _ => d

/-- A write into the shared window of bytes within one line. -/
def windowWrite (a : Nat) (bs : List Byte) (d : Dev) : Dev :=
  let w := { d.window with waiting := d.window.waiting ++ [.write a bs] }
  drainWindow w.waiting.length { d with window := w }

/-- A signal that follows what waits for the window. -/
def windowSignal (n : Nat) (d : Dev) : Dev :=
  let w := { d.window with waiting := d.window.waiting ++ [.signal n] }
  drainWindow w.waiting.length { d with window := w }

/-- A read of the window from a line that the module holds; else the line is requested to share, and none comes. -/
def windowRead (a n : Nat) (d : Dev) : Option (List Byte) :=
  match findLine (lineOf a) d.window with
  | some l => some ((l.data.drop (a % 64)).take n)
  | none => none

/-- The range lies within the window in force. -/
def inWindow (a n : Nat) (d : Dev) : Bool :=
  d.window.enabled && decide (d.window.base ≤ a) && decide (a + n ≤ d.window.base + 2 ^ d.window.sizeLog2)

/-! ### Event rings (R79 to R84) -/

/-- What an event-ring entry carries beside its time and phase (R80). -/
structure Entry where
  kind : Nat
  type : Nat
  inst : Nat
  events : Nat
  state : Nat
  detail : Nat

/-- The bytes of an entry (R80). -/
def entryBytes (e : Entry) (phase : Bool) (time : Nat) : List Byte :=
  leBytes 4 (b2n phase + 2 ^ 4 * e.kind) ++ leBytes 2 e.type ++ leBytes 2 e.inst ++ leBytes 4 e.events ++ leBytes 4 e.state
    ++ leBytes 8 time ++ leBytes 8 e.detail

def noRing : EventRing := ⟨false, 0, 0, false, none, false, 0⟩

def ringOf (n : Nat) (d : Dev) : EventRing := d.rings.get noRing n

/-- The ring that ROUTE gives to a group (R79). -/
def routeOf (g : Nat) (d : Dev) : Nat := fieldOf (rd (rLua 3 0x140) d) (4 * g + 2) (4 * g)

/-- Free entries of a ring (R81). -/
def ringRoom (n : Nat) (d : Dev) : Nat :=
  let used := (rd (rEvt n 0x10) d + 2 ^ 32 - rd (rEvt n 0x0C) d) % 2 ^ 32
  2 ^ (ringOf n d).sizeLog2 - used

/-- Writes one entry where the producer stands, and signals (R80, R82). -/
def putEntry (n : Nat) (e : Entry) (d : Dev) : Dev :=
  let r := ringOf n d
  let p := rd (rEvt n 0x10) d
  let phase := (p / 2 ^ r.sizeLog2) % 2 == 0
  let d1 := windowWrite (r.base + 32 * (p % 2 ^ r.sizeLog2)) (entryBytes e phase d.now) (addWrap (rEvt n 0x10) 1 d)
  if bitOf (rd (rEvt n 0x18) d) 0 && !r.signalPending then
    windowSignal n { d1 with rings := d1.rings.set n { ringOf n d1 with signalPending := true } }
  else d1

/-- The entry is lost: counted in E_OVERFLOW, and in what the next OVERFLOW entry carries (R81, R83). -/
def loseEntry (n : Nat) (d : Dev) : Dev :=
  let r := ringOf n d
  bump (rEvt n 0x14) { d with rings := d.rings.set n { r with lost := if r.enabled then r.lost + 1 else r.lost } }

/-- The PAGE_EVENT entry of a page (R48). -/
def pageEntry (p : PageId) (d : Dev) : Entry :=
  let g := pageOf p d
  ⟨0, typeCode p.ty, p.inst, g.events.toNat, stateWord g, errorWord g⟩

/-- The OVERFLOW entry that a ring with room writes first (R81, R83), from the LUAWICK page, which owns the rings. -/
def payOverflow (n : Nat) (d : Dev) : Dev :=
  let r := ringOf n d
  if r.enabled && r.lost != 0 && ringRoom n d != 0 then
    putEntry n { pageEntry pLua d with kind := 3, detail := r.lost } { d with rings := d.rings.set n { r with lost := 0 } }
  else d

/-- Delivers an entry, or loses it; answers whether it was lost (R81, R83). -/
def tryDeliver (n : Nat) (e : Entry) (d : Dev) : Dev × Bool :=
  let d := payOverflow n d
  if (ringOf n d).enabled && ringRoom n d != 0 then (putEntry n e d, false) else (loseEntry n d, true)

/-- Sets EVT_OVERFLOW and delivers its entry, which may be lost in its turn (R81, R48). -/
def setOverflow (d : Dev) : Dev :=
  let g := pageOf pLua d
  let d1 := putPage pLua { g with events := g.events ||| (1 <<< 19 : Word) } d
  if g.mask.getLsbD 19 && !g.events.getLsbD 19 then
    (tryDeliver (routeOf 4 d1) (pageEntry pLua d1) d1).1
  else d1

/-- Delivers an entry to the ring of a group; a BEACON entry for a ring not enabled is dropped without being counted
(R83). -/
def deliver (g : Nat) (e : Entry) (d : Dev) : Dev :=
  let n := routeOf g d
  if e.kind = 1 ∧ (ringOf n d).enabled = false then d else
  let r := tryDeliver n e d
  if r.2 then setOverflow r.1 else r.1

/-- An event of a page: its bit is set whatever the mask, and an entry delivered when an unmasked bit goes from 0 to 1
(R48). -/
def raise (p : PageId) (bit : Nat) (d : Dev) : Dev :=
  let g := pageOf p d
  let d1 := putPage p { g with events := g.events ||| BitVec.ofNat 32 (2 ^ bit) } d
  if g.mask.getLsbD bit && !g.events.getLsbD bit then deliver (routeGroup p.ty) (pageEntry p d1) d1 else d1

/-- Writes STATE, CAUSE and GEN in one write and sets STATE_CHANGED (R30, R33, R34). -/
def setState (p : PageId) (st : PState) (c : Cause) (d : Dev) : Dev :=
  let g := pageOf p d
  raise p 0 (putPage p { g with state := st, cause := c, gen := fpGen d % 65536 } d)

/-- Writes the header's state without an event, where the write is part of a reset or of bring-up's start (R33). -/
def setStateQuiet (p : PageId) (st : PState) (c : Cause) (d : Dev) : Dev :=
  let g := pageOf p d
  putPage p { g with state := st, cause := c, gen := fpGen d % 65536 } d

/-- A page whose work begins or ends moves between READY and ACTIVE; under a hold, and in TRAINING or LOADING, the state
that it goes back to changes instead (R33, R508). -/
def settlePage (p : PageId) (want : PState) (c : Cause) (d : Dev) : Dev :=
  let g := pageOf p d
  if g.state = .quiesced then putPage p { g with before := want } d
  else if g.state = .training ∨ g.state = .loading then
    putPage p (if g.back = .quiesced then { g with before := want } else { g with back := want }) d
  else if (g.state = .ready ∨ g.state = .active) ∧ g.state ≠ want then setState p want c d
  else d

/-- Records an error in PAGE_ERROR (R31, R46). -/
def recordError (p : PageId) (code : Nat) (d : Dev) : Dev :=
  let g := pageOf p d
  putPage p { g with errCount := min 0xFFFF (g.errCount + 1), errFirst := if g.errCount = 0 then code else g.errFirst } d

/-- Error codes of classes 0x1 to 0x5 carry the state and the command (R46). -/
def classError (p : PageId) (cls code : Nat) (d : Dev) : Dev :=
  recordError p (2 ^ 12 * cls + 2 ^ 8 * stateCode (stateOf p d) + code) d

/-- A block-specific error (class 0xA). -/
def blockError (p : PageId) (detail : Nat) (d : Dev) : Dev := recordError p (0xA000 + detail) d

/-! ### Page commands (R39 to R43) -/

/-- The class of a rejected command's error (R46). -/
def rejectClass (r : Result) : Nat := match r with | .rejectedState => 1 | .rejectedRange => 2 | _ => 3

/-- A rejected command (R40). -/
def reject (p : PageId) (code : Nat) (r : Result) (d : Dev) : Dev :=
  let g := pageOf p d
  raise p 2 (classError p (rejectClass r) code
    (putPage p { g with seq := (g.seq + 1) % 65536, lastCmd := code, result := r } d))

/-- A dropped command (R41). -/
def dropCmd (p : PageId) (code : Nat) (d : Dev) : Dev := raise p 2 (classError p 4 code d)

/-- An accepted command: BUSY until it ends (R42). -/
def accept (p : PageId) (code arg : Nat) (d : Dev) : Dev :=
  let g := pageOf p d
  putPage p { g with seq := (g.seq + 1) % 65536, lastCmd := code, result := .busy, cmd := some ⟨code, arg⟩ } d

/-- The end of the command in progress: DONE, or FAILED with an error of class 0x5 (R42, R46). -/
def endCmd (p : PageId) (ok : Bool) (d : Dev) : Dev :=
  let g := pageOf p d
  match g.cmd with
  | none => d
  | some c =>
    let d1 := putPage p { g with result := if ok then .done else .failed, cmd := none } d
    raise p 1 (if ok then d1 else classError p 5 c.code d1)

/-- Ends the command in progress where it is the one named. -/
def endCmdIf (p : PageId) (code : Nat) (ok : Bool) (d : Dev) : Dev :=
  match (pageOf p d).cmd with
  | some c => if c.code = code then endCmd p ok d else d
  | none => d

/-- The judgement of a write to PAGE_CMD (R39): `defined`, `legal` and `inRange` are checks 3, 4 and 5, and `start` is
what an accepted command does. RETIRE ends a command in progress first (R43). In the safe state every write is rejected
(R443). -/
def pageCommand (p : PageId) (code arg : Nat) (defined legal inRange : Bool) (start : Dev → Dev) (d : Dev) : Dev :=
  let g := pageOf p d
  if pageSilent p d then d
  else if d.lead.safe then reject p code .rejectedState d
  else if !g.negotiated then reject p code .rejectedVersion d
  else if g.cmd.isSome && code != 4 then dropCmd p code d
  else if !defined then reject p code .rejectedVersion d
  else if !legal then reject p code .rejectedState d
  else if !inRange then reject p code .rejectedRange d
  else start (accept p code arg (endCmd p false d))

/-- A command whose work is done at once. -/
def doneAtOnce (p : PageId) (f : Dev → Dev) (d : Dev) : Dev := endCmd p true (f d)

/-! ### Free values (log entry 7) -/

/-- The next free value. -/
def drawFree (d : Dev) : BitVec 64 := Config.freeBits d.fresh

/-- Counts a draw. -/
def tickFree (d : Dev) : Dev := { d with fresh := d.fresh + 1 }

end Sys2Proof.Machine
end

