-- ==== Sys2Proof/Machine/WordCode.lean ====
section
/-!
DEFINITION. The word code (R194, R195): 144-bit codewords of 128 content bits (bits 0 to 127) and 16 check bits (bits 128 to
143), and what a decoder makes of a word with bits in error. The manual gives the classes of errors that the code corrects
and detects, and the weights of the columns, but not the columns (log entry 75).
-/

namespace Sys2Proof.Machine

/-- Bits set among the low `n`. -/
def weightBelow (n : Nat) (w : Nat) : Nat := countBelow n (bitOf w)

/-- Column `b` of the check matrix: odd, and of weight 1 for a check bit (R194). -/
def columnOf (b : Nat) : BitVec 16 :=
  if b < 128 then
    let c := Config.checkColumn b
    if weightBelow 16 c.toNat % 2 = 1 then c else c ^^^ 1
  else BitVec.ofNat 16 (2 ^ (b - 128))

/-- The sum of the columns of the bits set in a word of 144 bits. -/
def columnSum (e : WordNoise) : BitVec 16 :=
  (List.range 144).foldl (fun s b => if e.getLsbD b then s ^^^ columnOf b else s) 0

/-- The check bits of a content (R191). -/
def checkBits (content : BitVec 128) : BitVec 16 := columnSum (content.setWidth 144)

/-- The codeword of a content. -/
def codeword (content : BitVec 128) : BitVec 144 := checkBits content ++ content

/-- The poisoned word: 128 zero content bits and the check bits 0xFFFF (R195). -/
def poisonedWord : BitVec 144 := 0xFFFF#16 ++ 0#128

/-- The syndrome of a word as read. -/
def syndromeOf (w : BitVec 144) : BitVec 16 := columnSum w

/-- What a decoder makes of a word: a content that differs from the one stored in the bits `flips`, with a bit corrected or
not; a poisoned word recognised; or an uncorrectable word, which it poisons (R195). -/
inductive Verdict where
  | good (corrected : Bool) (flips : WordNoise)
  | poisoned
  | uncorrectable
deriving DecidableEq, Repr

/-- The bit that a column belongs to. -/
def columnBit (s : BitVec 16) : Option Nat := firstBelow 144 (fun b => columnOf b == s)

/-- The reading of R195 by syndrome, with the bits in error. -/
def verdictOf (s : BitVec 16) (e : WordNoise) : Verdict :=
  if s = 0 then .good false e
  else match columnBit s with
    | some b => .good true (e ^^^ BitVec.ofNat 144 (2 ^ b))
    | none => if s = 0xFFFF ∨ (columnBit (s ^^^ 0xFFFF)).isSome then .poisoned else .uncorrectable

/-- The bits lie in one aligned nibble. -/
def oneNibble (e : WordNoise) : Bool := (List.range 36).any (fun i => e &&& BitVec.ofNat 144 (15 * 16 ^ i) == e)

/-- What a decoder makes of a word with bits in error: the classes of R194 hold whatever the columns, and any other error goes
by its syndrome. A poisoned word is recognised even after one bit of it flips (R195). -/
def judgeWord (poisoned : Bool) (e : WordNoise) : Verdict :=
  if e = 0 then (if poisoned then .poisoned else .good false 0)
  else
    let n := weightBelow 144 e.toNat
    if n = 1 then (if poisoned then .poisoned else .good true 0)
    else if n = 2 then .uncorrectable
    else if poisoned then verdictOf (columnSum e ^^^ 0xFFFF) e
    else if oneNibble e then .uncorrectable
    else verdictOf (columnSum e) e

/-- The bytes of a content, little-endian. -/
def contentBytes (c : BitVec 128) : List Byte := leBytes 16 c.toNat

/-- Bits of 16 bytes that differ are flipped. -/
def flipBytes (bs : List Byte) (flips : WordNoise) : List Byte :=
  bs.zipIdx.map (fun x => x.1 ^^^ flips.extractLsb' (8 * x.2) 8)

end Sys2Proof.Machine
end

