-- ==== Sys2Proof/Machine/MemoryOps.lean ====
section
/-!
DEFINITION. Module memory: units' states, the address map (R198, R199), poison and flaws (R194 to R196, R219), and the
one read and the one write that every agent uses.
-/

namespace Sys2Proof.Machine

/-! ### Units (R364) -/

def uCore (k : Nat) : Nat := 0x100000 + k
def uRouter (k : Nat) : Nat := 0x200000 + k
def uLink (side k : Nat) : Nat := 0x300000 + 4096 * side + k
def uSupervisor (i : Nat) : Nat := 0x400000 + i
def uController (c : Nat) : Nat := 0x500000 + c
def uChannel (n : Nat) : Nat := 0x600000 + n
def uEngine (c : Nat) : Nat := 0x700000 + c
def uPort (p : Nat) : Nat := 0x800000 + p
def uNetwork (p : Nat) : Nat := 0x900000 + p
def uOptical (e : Nat) : Nat := 0xA00000 + e
def uReduction (n : Nat) : Nat := 0xB00000 + n
def uDie (d : Nat) : Nat := 0xC00000 + d
def uComplex (i : Nat) : Nat := 0xD00000 + i

def unitClass (u : Nat) : Nat := u / 2 ^ 20
def unitIndex (u : Nat) : Nat := u % 2 ^ 20

/-- The page of a unit that has one. -/
def unitPage (u : Nat) : Option PageId :=
  match unitClass u with
  | 0x1 => some ⟨.core, unitIndex u⟩
  | 0x5 => some ⟨.memoryController, unitIndex u⟩
  | 0x7 => some ⟨.updateEngine, unitIndex u⟩
  | 0x8 => some ⟨.port, unitIndex u⟩
  | 0x9 => some ⟨.networkInterface, unitIndex u⟩
  | 0xC => some ⟨.dieController, unitIndex u⟩
  | 0xD => some ⟨.controlComplex, unitIndex u⟩
  | _ => none

/-- Whether a code names a unit of the module (R364, R12). -/
def unitExists (u : Nat) : Bool :=
  let i := unitIndex u
  match unitClass u with
  | 0x1 | 0x2 => i < 2560
  | 0x3 =>
    let k := i % 4096
    i < 16384 && k < 2560 &&
      (match i / 4096 with
       | 0 => true
       | 1 => true
       | 2 => k % 64 == 0
       | _ => k < 64)
  | 0x4 => i < 160
  | 0x5 | 0x7 => i < 24
  | 0x6 => i < 384
  | 0x8 | 0x9 => i < 48
  | 0xA => i < 6
  | 0xB => i < 16
  | 0xC => i < 10
  | 0xD => i < 2
  | _ => false

def unitRec (u : Nat) (d : Dev) : UnitRec := d.units.get ⟨.off, d.startCause, 0, .ready, d.startCause⟩ u

/-- The state of any unit: its page's, or its entry's (R366). -/
def unitState (u : Nat) (d : Dev) : PState :=
  match unitPage u with
  | some p => stateOf p d
  | none => (unitRec u d).state

/-- A unit is usable while it is neither OFF nor RETIRED (R365). -/
def usable (u : Nat) (d : Dev) : Bool := unitState u d != .off && unitState u d != .retired

/-- Writes a unit's state, cause and generation: on its page with the event, or in its owner's table. -/
def setUnit (u : Nat) (st : PState) (c : Cause) (d : Dev) : Dev :=
  match unitPage u with
  | some p => setState p st c d
  | none => { d with units := d.units.set u { unitRec u d with state := st, cause := c, gen := fpGen d % 65536 } }

def unitFlags (u : Nat) (d : Dev) : UnitFlags := d.flags.get ⟨false, false⟩ u

def markFailed (u : Nat) (d : Dev) : Dev :=
  { d with flags := d.flags.set u { unitFlags u d with failedAtStart := true } }

def markRetired (u : Nat) (d : Dev) : Dev :=
  { d with flags := d.flags.set u { unitFlags u d with retiredInSession := true } }

/-! ### The address map (R198, R199) -/

def mapGroups (m : MemMap) : Nat := 15625 * (1000 - m.share)
def localGroups (m : MemMap) : Nat := 15625 * m.share

/-- The usable channels of the global region, ordered by j × 24 + c. -/
def globalList (m : MemMap) : List Nat :=
  ((List.range 384).map (fun i => 16 * (i % 24) + i / 24)).filter (fun n => m.usable.contains n)

/-- The usable channels of a die, ordered by j × 3 + k. -/
def dieList (m : MemMap) (die : Nat) : List Nat :=
  ((List.range 48).map (fun i => 16 * (3 * die + i % 3) + i / 3)).filter (fun n => m.usable.contains n)

/-- A region: base, size, list of channels, group offset. -/
structure Region where
  base : Nat
  size : Nat
  list : List Nat
  offset : Nat

def globalSize (m : MemMap) : Nat := m.usable.length * mapGroups m * 448
def localSize (m : MemMap) (die : Nat) : Nat := (dieList m die).length * localGroups m * 448
def localBase (m : MemMap) (die : Nat) : Nat :=
  globalSize m + ((List.range die).map (localSize m)).foldl (· + ·) 0

/-- G + Σ L_d. -/
def mapSize (m : MemMap) : Nat := localBase m 8

def regionAt (m : MemMap) (a : Nat) : Option Region :=
  if a < globalSize m then some ⟨0, globalSize m, globalList m, 0⟩
  else match (List.range 8).find? (fun e => localBase m e ≤ a && a < localBase m e + localSize m e) with
    | some e => some ⟨localBase m e, localSize m e, dieList m e, mapGroups m⟩
    | none => none

/-- The rotation of a stripe. -/
def stripeHash (s u : Nat) : Nat := (s * 2654435761) % 2 ^ 32 % u

/-- Where an address lies: channel, its place in the region's list, group of the channel, data line. -/
structure Spot where
  channel : Nat
  place : Nat
  group : Nat
  line : Nat

def spotOf (m : MemMap) (a : Nat) : Option Spot :=
  match regionAt m a with
  | none => none
  | some r =>
    let u := r.list.length
    let g := (a - r.base) / 448
    let s := g / u
    let q := (g % u + stripeHash s u) % u
    some ⟨r.list.getD q 0, q, r.offset + s, ((a - r.base) % 448) / 64⟩

/-- The size of usable module memory: 0 until MAP_FIXED (R357). -/
def usableSize (d : Dev) : Nat := match d.memMap with | some m => mapSize m | none => 0

/-- The range lies within usable module memory (R45); none does until MAP_FIXED (R357). -/
def inMemory (a n : Nat) (d : Dev) : Bool := d.memMap.isSome && decide (a + n ≤ usableSize d)

/-- The granule of a group of a channel: the address of its first data line (R199, R212). -/
def granuleAt (m : MemMap) (channel group : Nat) : Option Nat :=
  let r : Region := if group < mapGroups m then ⟨0, globalSize m, globalList m, 0⟩
    else ⟨localBase m (channel / 48), localSize m (channel / 48), dieList m (channel / 48), mapGroups m⟩
  match r.list.idxOf? channel with
  | none => none
  | some q =>
    let u := r.list.length
    let s := group - r.offset
    some (r.base + (s * u + (q + u - stripeHash s u) % u) * 448)

/-- Address div 64 of a data line of a group. -/
def lineAt (channel group line : Nat) (d : Dev) : Option Nat :=
  match d.memMap with
  | some m => (granuleAt m channel group).map (fun a => a / 64 + line)
  | none => none

/-- Where an address lies, under the map in force. -/
def spotAt (a : Nat) (d : Dev) : Option Spot :=
  match d.memMap with
  | some m => spotOf m a
  | none => none

def channelAt (a : Nat) (d : Dev) : Option Nat :=
  match d.memMap with
  | some m => (spotOf m a).map (·.channel)
  | none => none

def controllerAt (a : Nat) (d : Dev) : Option Nat := (channelAt a d).map (· / 16)

/-- The lines, by address div 64, that a range touches. -/
def linesIn (a n : Nat) : List Nat :=
  if n = 0 then [] else (List.range ((a + n - 1) / 64 + 1 - a / 64)).map (fun i => a / 64 + i)

/-! ### Controllers -/

def freshMemCtl : MemCtl := ⟨[], none, [], false, [], [], false, false, 0, false, 1⟩
def memCtl (c : Nat) (d : Dev) : MemCtl := d.memCtls.get freshMemCtl c
def putMemCtl (c : Nat) (m : MemCtl) (d : Dev) : Dev := { d with memCtls := d.memCtls.set c m }

abbrev pMem (c : Nat) : PageId := ⟨.memoryController, c⟩
abbrev pUpd (c : Nat) : PageId := ⟨.updateEngine, c⟩

/-- The controller holds an access to a channel: the channel or the whole page is training (R207, R208), the page is in
FAULT or under test (R213), its devices are in self-refresh (R215), or it is quiesced and the access writes (R214). What goes
to a channel lost in the session ends at once (R211). -/
def heldAt (c j : Nat) (write : Bool) (d : Dev) : Bool :=
  let st := stateOf (pMem c) d
  let ch := (unitRec (uChannel (16 * c + j)) d).state
  ch != .retired && ((memCtl c d).selfRefresh || st == .training || st == .fault || st == .testing
    || (st == .quiesced && write) || ch == .training)

/-- Some line of a range is held. -/
def linesHeld (a n : Nat) (write : Bool) (d : Dev) : Bool :=
  (linesIn a n).any (fun l =>
    match channelAt (64 * l) d with
    | some ch => heldAt (ch / 16) (ch % 16) write d
    | none => false)

/-- The bytes that a memory request touches. -/
def memSpan (p : Packet) : Nat := if p.kind = .putMem then p.payload.length else p.amount

/-- An access that the controller holds goes to some line of the range (R197). -/
def behind (held : List Packet) (a n : Nat) : Bool :=
  held.any (fun p => (linesIn p.address (memSpan p)).any (fun l => (linesIn a n).contains l))

/-- An access waits: a line of its range is held, or an earlier access to one of its lines is, since accesses to one line are
applied in the order in which the controller receives them (R197). -/
def rangeHeld (a n : Nat) (write : Bool) (d : Dev) : Bool :=
  linesHeld a n write d
    || (linesIn a n).any (fun l => match channelAt (64 * l) d with
      | some ch => behind (memCtl (ch / 16) d).held a n
      | none => false)

/-- From the acceptance of a compute reset to the end of its mesh test, edge blocks hold what they would send over the mesh
(R416). -/
def meshHeld (d : Dev) : Bool := d.reset.level == some 0 && (d.reset.phase != .starting || !d.boot.meshTested)

/-- The line lies on a channel lost in the session (R211). -/
def lineLost (l : Nat) (d : Dev) : Bool :=
  match channelAt (64 * l) d with
  | some ch => (unitRec (uChannel ch) d).state == .retired
  | none => false

/-- The poison mark of a line, as the majority of its three copies reads (R193). -/
def lineMarked (l : Nat) (d : Dev) : Bool :=
  let mark := d.memPoison.contains l
  if d.markFlaws.isEmpty then mark
  else match spotAt (64 * l) d with
    | none => mark
    | some s =>
      let wrong := fun k => d.markFlaws.any (fun f =>
        f.channel == s.channel && f.group == s.group && f.copy == k && f.bits.getLsbD s.line)
      mark != decide (2 ≤ countBelow 3 wrong)

/-- The line reads as poisoned words (R196, R211). -/
def linePoisoned (l : Nat) (d : Dev) : Bool := lineMarked l d || lineLost l d

/-- Some line of a range reads as poisoned. -/
def rangePoisoned (a n : Nat) (d : Dev) : Bool := (linesIn a n).any (fun l => linePoisoned l d)

/-- Adds a number to a list that holds it once at most. -/
def addOnce (x : Nat) (l : List Nat) : List Nat := if l.contains x then l else l ++ [x]

/-- Writes an entry of the poison log (R220): cause 0 READ, 1 SCRUB, 2 CHANNEL_LOST. -/
def logPoison (c addr cause channel : Nat) (ctx : Option Nat) (d : Dev) : Dev :=
  let n := rd (rMem c 1 0x100) d
  let e := 0x200 + 16 * (n % 64)
  let info := channel % 16 + 2 ^ 8 * cause + (match ctx with | some x => 2 ^ 12 * x + 2 ^ 15 | none => 0)
    + 2 ^ 16 * (fpGen d % 65536)
  raise (pMem c) 17 (wr (rMem c 1 0x100) (n + 1) (wr (rMem c 1 (e + 12)) 0 (wr (rMem c 1 (e + 8)) info
    (wr64 (rMem c 1 e) addr d))))

/-- Counts a corrected word, per channel and per scrub pass; past CE_LIMIT the channel asks for a retrain, once a pass
(R204). -/
def countCorrection (ch : Nat) (d : Dev) : Dev :=
  let c := ch / 16
  let j := ch % 16
  let m := memCtl c d
  let n := m.passCount.get 0 j + 1
  let d1 := bump (rMem c 1 (0x80 + 4 * j)) (putMemCtl c { m with passCount := m.passCount.set j n } d)
  if rd (rMem c 0 0x70) d < n ∧ m.passRetrained.contains j = false then
    let m1 := memCtl c d1
    raise (pMem c) 18 (putMemCtl c { m1 with passRetrained := m1.passRetrained ++ [j], wanted := addOnce j m1.wanted } d1)
  else d1

/-- The seven lines of a granule, by address div 64. -/
def granuleLines (channel group : Nat) (d : Dev) : List Nat :=
  match lineAt channel group 0 d with
  | some l => (List.range 7).map (· + l)
  | none => []

/-- A write of the check burst writes all three copies of the marks, with what they read (R193). -/
def settleMarks (channel group : Nat) (d : Dev) : Dev :=
  if d.markFlaws.any (fun f => f.channel == channel && f.group == group) then
    let ls := granuleLines channel group d
    { d with
      memPoison := d.memPoison.filter (fun l => !ls.contains l) ++ ls.filter (fun l => lineMarked l d)
      markFlaws := d.markFlaws.filter (fun f => !(f.channel == channel && f.group == group)) }
  else d

/-- The marks of a line's group are written. -/
def settleLine (l : Nat) (d : Dev) : Dev :=
  match spotAt (64 * l) d with
  | some s => settleMarks s.channel s.group d
  | none => d

/-- A read or scrub meets an uncorrectable word: the line is poisoned, counted and logged (R196). -/
def poisonLine (l ch cause : Nat) (ctx : Option Nat) (d : Dev) : Dev :=
  let d0 := settleLine l d
  let d1 := bump (rMem (ch / 16) 1 (0xC0 + 4 * (ch % 16))) { d0 with
    memPoison := addOnce l d0.memPoison
    memFlaws := d0.memFlaws.filter (fun f => f.addr / 64 != l) }
  logPoison (ch / 16) (64 * l) cause ch ctx d1

/-- Bits of a word of memory flip. -/
def flipWord (a : Nat) (flips : WordNoise) (d : Dev) : Dev :=
  if flips.setWidth 128 = 0 then d else { d with mem := d.mem.write a (flipBytes (d.mem.read a 16) flips) }

/-- One word with bits in error is met by a read (cause 0) or a scrub (cause 1): a correction is counted and written back
(R194, R196, R203). -/
def meetFlaw (f : WordFlaw) (cause : Nat) (ctx : Option Nat) (d : Dev) : Dev :=
  match channelAt f.addr d with
  | none => d
  | some ch =>
    if linePoisoned (f.addr / 64) d then d
    else match judgeWord (d.memBad.contains (f.addr / 16)) f.bits with
      | .good corrected flips =>
        let d1 := flipWord f.addr flips { d with
          memBad := d.memBad.filter (· != f.addr / 16)
          memFlaws := d.memFlaws.filter (fun x => x.addr != f.addr) }
        if corrected then countCorrection ch d1 else d1
      | _ => poisonLine (f.addr / 64) ch cause ctx d

/-- A check burst that cannot be read poisons all seven lines of its group (R193). -/
def meetBurst (g : Nat × Nat) (cause : Nat) (ctx : Option Nat) (d : Dev) : Dev :=
  (granuleLines g.1 g.2 d).foldl (fun x l => if linePoisoned l x then x else poisonLine l g.1 cause ctx x)
    { d with burstFlaws := d.burstFlaws.filter (· != g) }

/-- The report of an injected mark at the first read of its line (R219). -/
def meetMark (l : Nat) (ctx : Option Nat) (d : Dev) : Dev :=
  match channelAt (64 * l) d with
  | none => d
  | some ch => poisonLine l ch 0 ctx { d with memMarks := d.memMarks.filter (· != l) }

/-- The address lies in the group. -/
def inGroup (g : Nat × Nat) (a : Nat) (d : Dev) : Bool :=
  match spotAt a d with
  | some s => s.channel == g.1 && s.group == g.2
  | none => false

/-- Check bursts that cannot be read, of groups that a range touches. -/
def burstsIn (a n : Nat) (d : Dev) : List (Nat × Nat) :=
  d.burstFlaws.filter (fun g => (linesIn a n).any (fun l => inGroup g (64 * l) d))

/-- A line that holds the poisoned word without its mark is read as poisoned (R195). -/
def meetBad (w : Nat) (ctx : Option Nat) (d : Dev) : Dev :=
  match channelAt (16 * w) d with
  | none => d
  | some ch => if linePoisoned (w / 4) d then d else poisonLine (w / 4) ch 0 ctx d

/-- What a read of a range does before it answers: the errors and marks of its lines come to light. -/
def memTouch (a n : Nat) (ctx : Option Nat) (d : Dev) : Dev :=
  let ls := linesIn a n
  let d0 := (burstsIn a n d).foldl (fun x g => meetBurst g 0 ctx x) d
  let d1 := (d0.memFlaws.filter (fun f => ls.contains (f.addr / 64))).foldl (fun x f => meetFlaw f 0 ctx x) d0
  let d2 := (d1.memBad.filter (fun w => ls.contains (w / 4))).foldl (fun x w => meetBad w ctx x) d1
  (d2.memMarks.filter (fun l => ls.contains l)).foldl (fun x l => meetMark l ctx x) d2

/-! ### What the devices hold (R191, R192) -/

/-- The 144 bits of a stored word: its codeword, or the poisoned word, with the bits in error. -/
def storedWord (a : Nat) (d : Dev) : BitVec 144 :=
  let w := if d.memBad.contains (a / 16) then poisonedWord else codeword (BitVec.ofNat 128 (leNat (d.mem.read a 16)))
  match d.memFlaws.find? (fun f => f.addr == a) with
  | some f => w ^^^ f.bits
  | none => w

/-- Copy `copy` of the poison marks of a group. -/
def markByte (channel group copy : Nat) (d : Dev) : Byte :=
  let ls := granuleLines channel group d
  let true_ := (List.range 7).foldl (fun n i => n + 2 ^ i * b2n (match ls[i]? with
    | some l => d.memPoison.contains l
    | none => false)) 0
  (d.markFlaws.filter (fun f => f.channel == channel && f.group == group && f.copy == copy)).foldl (fun b f => b ^^^ f.bits)
    (BitVec.ofNat 8 true_)

/-- Byte `i` of the 512 bytes of a group: data lines 0 to 6, then the check burst with the check bits of each word, the marks
and their copies, and zeros. -/
def groupByte (channel group i : Nat) (d : Dev) : Byte :=
  match lineAt channel group 0 d with
  | none => 0
  | some l =>
    if i < 448 then (storedWord (64 * l + i / 16 * 16) d).extractLsb' (8 * (i % 16)) 8
    else if i < 504 then (storedWord (64 * l + (i - 448) / 2 * 16) d).extractLsb' (128 + 8 * (i % 2)) 8
    else if i < 507 then markByte channel group (i - 504) d
    else 0

/-! ### Reads and writes -/

/-- One byte as it reads: a poisoned line reads 0 (R195). -/
def memByte (d : Dev) (a : Nat) : Byte := if linePoisoned (a / 64) d then 0 else d.mem.byte a

def memBytesAux (d : Dev) (poisoned : List Nat) (a n : Nat) : List Byte :=
  match n with
  | 0 => []
  | k + 1 => (if poisoned.contains (a / 64) then 0 else d.mem.byte a) :: memBytesAux d poisoned (a + 1) k

/-- The bytes of a range, after `memTouch`. -/
def memBytes (a n : Nat) (d : Dev) : List Byte :=
  memBytesAux d ((linesIn a n).filter (fun l => linePoisoned l d)) a n

/-- The 16-byte words of a range from a 16-byte boundary that read as poisoned, by place. -/
def memPoisonWords (a n : Nat) (d : Dev) : List Nat :=
  (List.range ((n + 15) / 16)).filter (fun i => linePoisoned ((a + 16 * i) / 64) d)

/-- More bits of a word are in error. -/
def addFlaw (a : Nat) (bits : WordNoise) (d : Dev) : Dev :=
  let old := match d.memFlaws.find? (fun f => f.addr == a) with | some f => f.bits | none => 0
  let rest := d.memFlaws.filter (fun f => f.addr != a)
  { d with memFlaws := if old ^^^ bits = 0 then rest else rest ++ [⟨a, old ^^^ bits⟩] }

/-- Bits of one copy of a group's marks are in error. -/
def addMarkFlaw (f : MarkFlaw) (d : Dev) : Dev :=
  let same := fun (g : MarkFlaw) => g.channel == f.channel && g.group == f.group && g.copy == f.copy
  let old := match d.markFlaws.find? same with | some g => g.bits | none => 0
  let rest := d.markFlaws.filter (fun g => !same g)
  { d with markFlaws := if old ^^^ f.bits = 0 then rest else rest ++ [{ f with bits := old ^^^ f.bits }] }

/-- An error comes about in the devices, where the map has the place (R191 to R194). -/
def addError (d : Dev) (e : DeviceError) : Dev :=
  match e with
  | .word addr bits => if (spotAt addr d).isSome then addFlaw (addr / 16 * 16) bits d else d
  | .marks channel group copy bits =>
    if (lineAt channel group 0 d).isSome && decide (copy < 3) then addMarkFlaw ⟨channel, group, copy, bits⟩ d else d
  | .burst channel group =>
    if (lineAt channel group 0 d).isSome && !d.burstFlaws.contains (channel, group) then
      { d with burstFlaws := d.burstFlaws ++ [(channel, group)] } else d

/-- The scrubber reads a group: an unreadable check burst, marks that differ, and words in error come to light (R193, R202). -/
def scrubGroup (channel group : Nat) (d : Dev) : Dev :=
  let ls := granuleLines channel group d
  let d1 := settleMarks channel group (if d.burstFlaws.contains (channel, group) then meetBurst (channel, group) 1 none d else d)
  let d2 := (d1.memFlaws.filter (fun f => ls.contains (f.addr / 64))).foldl (fun x f => meetFlaw f 1 none x) d1
  (d2.memBad.filter (fun w => ls.contains (w / 4))).foldl (fun x w =>
    if linePoisoned (w / 4) x then x else poisonLine (w / 4) channel 1 none x) d2

/-- The bits that an injection flips (R218, R219). -/
def injectedBits (kind bit : Nat) : WordNoise :=
  BitVec.ofNat 144 (match kind with
    | 0 => 2 ^ bit
    | 1 => 3 * 2 ^ bit
    | _ => 15 * 2 ^ (bit / 4 * 4))

/-- An armed injection of the line's controller is made by a write of the addressed word, in whole or in part, since every word
is written whole (R197, R219). -/
def injectOn (a n : Nat) (l : Nat) (d : Dev) : Dev :=
  match channelAt (64 * l) d with
  | none => d
  | some ch =>
    let c := ch / 16
    let ctrl := rd (rMem c 0 0x88) d
    let w := rd64 (rMem c 0 0x80) d / 16 * 16
    if bitOf ctrl 31 && w / 64 == l && decide (a < w + 16) && decide (w < a + n) then
      let kind := fieldOf ctrl 9 8
      let d1 := raise (pMem c) 22 (wr (rMem c 0 0x88) (clrBit ctrl 31) d)
      if kind = 3 then { d1 with memPoison := addOnce l d1.memPoison, memMarks := addOnce l d1.memMarks }
      else addFlaw w (injectedBits kind (ctrl % 256)) d1
    else d

/-- What a write of [a, a + n) with poisoned words `pw` (by place from `a`) does to one line's mark (R196). -/
def writeMark (a n : Nat) (pw : List Nat) (l : Nat) (d : Dev) : Dev :=
  let some' := pw.any (fun i => (a + 16 * i) / 64 == l)
  let whole := decide (a ≤ 64 * l) && decide (64 * l + 64 ≤ a + n)
  let d := settleLine l d
  if some' then { d with memPoison := addOnce l d.memPoison, memMarks := d.memMarks.filter (· != l) }
  else if whole then { d with
    memPoison := d.memPoison.filter (· != l)
    memMarks := d.memMarks.filter (· != l) }
  else d

/-- The range covers the word. -/
def covers (a n w : Nat) : Bool := decide (a ≤ 16 * w) && decide (16 * w + 16 ≤ a + n)

/-- Bytes that a write stores: none on a lost channel (R211), and zeros for a poisoned word (R195). -/
def storeBytes (d : Dev) (pw : List Nat) (a : Nat) (i : Nat) (bs : List Byte) (m : Mem) : Mem :=
  match bs with
  | [] => m
  | b :: r => storeBytes d pw a (i + 1) r
      (if lineLost ((a + i) / 64) d then m else m.put (a + i) (if pw.contains (i / 16) then 0 else b))

/-- What a write of a range reads first inside the controller (R189, R192): the check bursts of groups that it does not cover,
and the lines that it covers in part. -/
def readBefore (a n : Nat) (d : Dev) : Dev :=
  let d0 := (burstsIn a n d).foldl (fun x g =>
    if (granuleLines g.1 g.2 x).all (fun l => decide (a ≤ 64 * l) && decide (64 * l + 64 ≤ a + n)) then
      { x with burstFlaws := x.burstFlaws.filter (· != g) }
    else meetBurst g 0 none x) d
  let part := (linesIn a n).filter (fun l => decide (64 * l < a) || decide (a + n < 64 * l + 64))
  (d0.memFlaws.filter (fun f => part.contains (f.addr / 64) && !covers a n (f.addr / 16))).foldl
    (fun x f => meetFlaw f 0 none x) d0

/-- A write of whole or partial words, with the places of its poisoned 16-byte words. -/
def memWrite (a : Nat) (bs : List Byte) (pw : List Nat) (d : Dev) : Dev :=
  let n := bs.length
  if n = 0 then d else
  let d0 := readBefore a n d
  let lost := fun w => lineLost (w / 4) d0
  let d1 := { d0 with
    mem := storeBytes d0 pw a 0 bs d0.mem
    memBad := d0.memBad.filter (fun w => !covers a n w || lost w)
      ++ (pw.map (fun i => a / 16 + i)).filter (fun w => covers a n w && !lost w)
    memFlaws := d0.memFlaws.filter (fun f => !covers a n (f.addr / 16)) }
  (linesIn a n).foldl (fun x l => if lineLost l x then x else injectOn a n l (writeMark a n pw l x)) d1

/-! ### Undefined bytes -/

/-- The common parts of two lists of ranges. -/
def commonRanges (xs ys : List (Nat × Nat)) : List (Nat × Nat) :=
  xs.flatMap (fun x => ys.filterMap (fun y =>
    let lo := max x.1 y.1
    let hi := min (x.1 + x.2) (y.1 + y.2)
    if lo < hi then some (lo, hi - lo) else none))

/-- The next `n` free bytes. -/
def freeList (n : Nat) (d : Dev) : List Byte := (List.range n).map (fun i => (Config.freeBits (d.fresh + i)).setWidth 8)

/-- Undefined bytes of module memory. -/
def freeMemory (l : List (Nat × Nat)) (d : Dev) : Dev :=
  l.foldl (fun x r => memWrite r.1 (freeList r.2 x) [] { x with fresh := x.fresh + r.2 }) d

end Sys2Proof.Machine
end

