-- ==== Sys2Proof/Machine/Shade.lean ====
section
/-!
DEFINITION. Clusters, sensors, hot spots and the shade (R354, R373, R374, R396 to R400).
-/

namespace Sys2Proof.Machine

/-- Core (x, y) has the number y × 64 + x. -/
def coreX (k : Nat) : Nat := k % 64
def coreY (k : Nat) : Nat := k / 64
def coreAt (x y : Nat) : Nat := y * 64 + x
def clusterOf (k : Nat) : Nat := 16 * (coreY k / 4) + coreX k / 4
def dieOfCore (k : Nat) : Nat := coreY k / 20 * 4 + coreX k / 16
def dieOfCluster (i : Nat) : Nat := i / 80 * 4 + i % 16 / 4

/-- A coolant stop stands, from the accepted drop (R402). -/
def coolantStopped (d : Dev) : Bool := d.coolant.dropAt.isSome

/-- The hot spot of a cluster (R396). -/
def spotOfCluster (i : Nat) : Nat := 5 * dieOfCluster i + i / 16 % 5

/-! ### Sensors and hot spots (R396 to R400) -/

def freshSensor : Sensor := ⟨none, false, none, 0⟩
def sensorOf (n : Nat) (d : Dev) : Sensor := d.sensors.get freshSensor n
def putSensor (n : Nat) (x : Sensor) (d : Dev) : Dev := { d with sensors := d.sensors.set n x }

def freshSpot : HotSpot := ⟨none, false, none, none, 0⟩
def hotSpot (h : Nat) (d : Dev) : HotSpot := d.spots.get freshSpot h
def putSpot (h : Nat) (x : HotSpot) (d : Dev) : Dev := { d with spots := d.spots.set h x }

/-- The reading of a valid sensor. -/
def validReading (n : Nat) (d : Dev) : Option Int := if (sensorOf n d).faulted then none else (sensorOf n d).reading

/-- One reading above 105 °C, the other valid and at or below 95 °C (row 3 of R398): the higher sensor. -/
def suspectPair (h : Nat) (d : Dev) : Option Nat :=
  match validReading (2 * h) d, validReading (2 * h + 1) d with
  | some a, some b =>
    if 1050 < a ∧ b ≤ 950 then some (2 * h) else if 1050 < b ∧ a ≤ 950 then some (2 * h + 1) else none
  | _, _ => none

def bothFaulted (h : Nat) (d : Dev) : Bool := (sensorOf (2 * h) d).faulted && (sensorOf (2 * h + 1) d).faulted

/-- The control value of a hot spot (R398). -/
def controlValue (h : Nat) (d : Dev) : Option Int :=
  match validReading (2 * h) d, validReading (2 * h + 1) d with
  | some a, some b => if (suspectPair h d).isSome then some (min a b) else some (max a b)
  | some a, none => some a
  | none, some b => some b
  | none, none => none

/-- The sensor-safety shade acts on the clusters of a hot spot. -/
def sensorSafety (h : Nat) (d : Dev) : Bool := (suspectPair h d).isSome || bothFaulted h d

/-- Hot spots that govern a cluster. -/
def governing (i : Nat) : List Nat := [spotOfCluster i, 40, 41, 42, 43]

/-- A hot spot trips (R400). -/
def spotTrips (h : Nat) (d : Dev) : Bool :=
  let one := fun a b => match validReading a d with
    | some x => decide (1050 < x) && ((sensorOf b d).faulted || (match validReading b d with
        | some y => decide (950 < y)
        | none => false))
    | none => false
  one (2 * h) (2 * h + 1) || one (2 * h + 1) (2 * h)

/-! ### Shade (R374) -/

/-- The highest of the power, thermal, sensor-safety, coolant and safe-state levels of a cluster: s_lim of R384. -/
def limitShade (i : Nat) (d : Dev) : Nat :=
  let thermal := (governing i).foldl (fun n h => max n (hotSpot h d).sTh) d.power.sPower
  let safety := if (governing i).any (fun h => sensorSafety h d) then 128 else 0
  let hard := if coolantStopped d || d.always.hardTrip then 255 else 0
  max (max thermal safety) (max hard (if d.lead.safe then 192 else 0))

/-- The applied shade of a cluster; a change of operating point shades every cluster at 255 (R391). -/
def appliedShade (i : Nat) (d : Dev) : Nat :=
  max (max (d.power.sPace.getD i 0) (limitShade i d)) (if d.power.opChange.isSome then 255 else 0)

/-! ### Issue slots (R373) -/

/-- Of the slots `from_` to `from_ + n − 1` of a window at level `s`, those that are not empty. -/
def filledSlots (s from_ n : Nat) : Nat := n - ((from_ + n) * s / 256 - from_ * s / 256)

/-- Empty slots before the next filled one. Slot 0 of a window is never empty. -/
def slotsToFilled (s slot : Nat) : Nat :=
  ((List.range 256).find? (fun j => decide (256 ≤ slot + j) || (slot + j + 1) * s / 256 == (slot + j) * s / 256)).getD 0

end Sys2Proof.Machine
end

