-- ==== Sys2Proof/Machine/CoreOps.lean ====
section
/-!
DEFINITION. What a core's commands share: SRAM with its poison (R98 to R100), flags (R121), traps (R104), the fault latch
(R128), the issue and the completion of engine commands (R109 to R115), and the end of kernels (R132, R134).
-/

namespace Sys2Proof.Machine

abbrev pCore (k : Nat) : PageId := ⟨.core, k⟩

/-- A core at reset. R102 and R95 give the CSRs; for the pc, the integer registers and the CSRs that they leave without
a reset value see log entry 5. -/
def freshCore : Core :=
  { pc := 0, xs := [], machine := true, reservation := none, mstatus := 0, mie := 0, mip := 0, mtvec := 0, mepc := 0,
    mcause := 0, mtval := 0, mscratch := 0, mcounteren := 7, mcountinhibit := 0, mcycle := 0, minstret := 0, vxctx := 0,
    vxseed := 0, drawsMx := 0, drawsVx := 0, vxfinfo := 0, vxfaddr := 0, beaconPending := false, beaconAt := none, flags := [],
    engines := [], nextMsg := 0, arrivals := [], kernel := none, ending := none, waiting := none, waitSince := none,
    halted := false, loaded := false, slot := 0, windowShade := 0 }

def coreOf (k : Nat) (d : Dev) : Core := d.cores.get freshCore k
def putCore (k : Nat) (c : Core) (d : Dev) : Dev := { d with cores := d.cores.set k c }
def modCore (k : Nat) (f : Core → Core) (d : Dev) : Dev := putCore k (f (coreOf k d)) d

/-- COORD and vxcoord (R102, R135). -/
def coordWord (k : Nat) : Nat := coreX k + 2 ^ 8 * coreY k + 2 ^ 16 * clusterOf k

/-- Whether a context is open (R89). -/
def ctxOpen (n : Nat) (d : Dev) : Bool := d.job.open_.contains n

def xreg (c : Core) (r : Nat) : DWord := if r % 32 = 0 then 0 else c.xs.get 0 (r % 32)
def setX (r : Nat) (v : DWord) (c : Core) : Core := if r % 32 = 0 then c else { c with xs := c.xs.set (r % 32) v }

/-! ### SRAM -/

def sramSize : Nat := 0x200000
def kernelWindow : Nat := 0x1F0000

/-- The range may be named by a descriptor issued in that mode (R115). -/
def inSram (user : Bool) (a n : Nat) : Bool := decide (a + n ≤ if user then kernelWindow else sramSize)

def sramAddr (k a : Nat) : Nat := k * 2 ^ 21 + a
def sramWord (k a : Nat) : Nat := k * 2 ^ 17 + a / 16

def sramRead (k a n : Nat) (d : Dev) : List Byte := d.sram.read (sramAddr k a) n

/-- Some word of a range is poisoned. -/
def sramPoisoned (k a n : Nat) (d : Dev) : Bool :=
  n != 0 && d.sramPoison.any (fun w => decide (sramWord k a ≤ w) && decide (w ≤ sramWord k (a + n - 1)))

/-- Places, from the word that holds `a`, of the poisoned words of a range. -/
def sramPoisonWords (k a n : Nat) (d : Dev) : List Nat :=
  (List.range ((n + 15) / 16)).filter (fun i => d.sramPoison.contains (sramWord k (a + 16 * i)))

/-- A write ends the reservations that it meets (R96). -/
def breakReservation (k a n : Nat) (d : Dev) : Dev :=
  match (coreOf k d).reservation with
  | some r => if a / 16 ≤ r / 16 ∧ r / 16 ≤ (a + n - 1) / 16 then modCore k (fun c => { c with reservation := none }) d else d
  | none => d

/-- Bytes of a word written without touching its poison (a scalar store, a status word). -/
def sramStore (k a : Nat) (bs : List Byte) (d : Dev) : Dev :=
  { d with sram := d.sram.write (sramAddr k a) bs }

/-- A write of whole words by an engine or a message, poisoned words by place (R99). A poisoned word reads as zeros. -/
def sramWrite (k a : Nat) (bs : List Byte) (pw : List Nat) (d : Dev) : Dev :=
  let n := bs.length
  if n = 0 then d else
  let first := sramWord k a
  let last := sramWord k (a + n - 1)
  let kept := d.sramPoison.filter (fun w => decide (w < first) || decide (last < w))
  breakReservation k a n { d with
    sram := d.sram.write (sramAddr k a) bs
    sramPoison := kept ++ pw.map (fun i => first + i) }

/-- Every output word of a command takes the poison mark (R100). -/
def sramPoisonRange (k a n : Nat) (d : Dev) : Dev :=
  let words := (List.range ((a % 16 + n + 15) / 16))
  if n = 0 then d else sramWrite k (a / 16 * 16) (zeros (16 * words.length)) words d

/-! ### Flags (R121, R122) -/

def flagOf (c : Core) (f : Nat) : Word := c.flags.get 0 f

/-- An increment, modulo 2³². -/
def addFlag (k f : Nat) (n : Word) (d : Dev) : Dev :=
  modCore k (fun c => { c with flags := c.flags.set f (flagOf c f + n) }) d

/-- A count has reached a value: (int32)(f − v) ≥ 0. -/
def reached (f v : Word) : Bool := !(f - v).msb

/-- The core takes flag increments and data: READY, ACTIVE or QUIESCED (R120). -/
def coreTakes (k : Nat) (d : Dev) : Bool := inState (pCore k) [.ready, .active, .quiesced] d

/-! ### Faults and traps -/

/-- The latch of R128; a later fault only counts. -/
def latchFault (k src cause detail ctx : Nat) (user : Bool) (pc addr : Nat) (d : Dev) : Dev :=
  let info := cause % 256 + 2 ^ 8 * detail + 2 ^ 24 * src + 2 ^ 27 * b2n user + 2 ^ 28 * ctx + 2 ^ 31
  let d1 := modCore k (fun c => { c with
    vxfinfo := BitVec.ofNat 32 info
    vxfaddr := if src = 0 then c.vxfaddr else BitVec.ofNat 32 addr }) d
  if bitOf (rd (rCore k 0x80) d) 31 then bump (rCore k 0x98) d1
  else wr64 (rCore k 0x90) d.now (wr (rCore k 0x88) addr (wr (rCore k 0x84) (pc % 2 ^ 21) (wr (rCore k 0x80) info d1)))

/-- A kernel is abandoned where it stands (R134). -/
def abandonKernel (k : Nat) (d : Dev) : Dev :=
  modCore k (fun c => { c with kernel := none, ending := none, waiting := none, waitSince := none, halted := true }) d

/-- The cluster supervisor moves the core page to FAULT (R101, R107, R131, R411); a command in progress ends FAILED. -/
def coreFault (k : Nat) (c : Cause) (d : Dev) : Dev :=
  if inState (pCore k) [.ready, .active, .quiesced] d then setState (pCore k) .fault c (endCmd (pCore k) false (abandonKernel k d)) else d

/-- Trap entry: mepc, mcause and mtval are written, mstatus stacks the mode and the enable, and the pc goes to mtvec,
vectored for interrupts (R95, R104). -/
def enterTrap (k : Nat) (interrupt : Bool) (code : Nat) (tval : Nat) (d : Dev) : Dev :=
  modCore k (fun c =>
    let mie := c.mstatus.getLsbD 3
    let base := c.mtvec.toNat / 4 * 4
    let status := putField (putField (putField c.mstatus.toNat 12 11 (if c.machine then 3 else 0)) 7 7 (b2n mie)) 3 3 0
    { c with
      mepc := BitVec.ofNat 64 c.pc
      mcause := BitVec.ofNat 64 ((if interrupt then 2 ^ 63 else 0) + code)
      mtval := BitVec.ofNat 64 tval
      mstatus := BitVec.ofNat 64 status
      machine := true
      waiting := none
      pc := if interrupt ∧ c.mtvec.toNat % 4 = 1 then base + 4 * code else base }) d

/-- The kernel begins to end with a cause of R132, unless its end has begun. -/
def beginEnd (k cause : Nat) (value : Word) (d : Dev) : Dev :=
  modCore k (fun c => { c with ending := if c.kernel.isSome && c.ending.isNone then some (cause, value) else c.ending }) d

/-- A synchronous exception. In user mode it is latched and ends the kernel with SCALAR_FAULT (R107, R128, R132); in
machine mode it is a fault of the core itself (R107). -/
def exception (k code tval : Nat) (d : Dev) : Dev :=
  let c := coreOf k d
  if c.machine then coreFault k .selfFault (enterTrap k false code tval d)
  else beginEnd k 2 0 (enterTrap k false code tval (latchFault k 0 code 0 c.vxctx true c.pc tval d))

/-- An interrupt pending bit (R104). -/
def setPending (k bit : Nat) (on : Bool) (d : Dev) : Dev :=
  modCore k (fun c => { c with mip := BitVec.ofNat 64 (if on then orBit c.mip.toNat bit else clrBit c.mip.toNat bit) }) d

/-- The interrupt that the core takes next: pending and enabled, in user mode always and in machine mode under MIE, the
lowest number first (log entry 18). -/
def nextInterrupt (c : Core) : Option Nat :=
  if c.machine ∧ c.mstatus.getLsbD 3 = false then none
  else (List.range 20).find? (fun b => c.mip.getLsbD b && c.mie.getLsbD b)

/-- Takes the next interrupt, if there is one (R106). -/
def takeInterrupt (k : Nat) (d : Dev) : Dev :=
  match nextInterrupt (coreOf k d) with
  | some b => enterTrap k true b 0 d
  | none => d

/-! ### Engines -/

def freshEngine : Engine := ⟨0, 0, []⟩
def engineOf (c : Core) (e : Nat) : Engine := c.engines.get freshEngine e
def putEngine (k e : Nat) (g : Engine) (d : Dev) : Dev := modCore k (fun c => { c with engines := c.engines.set e g }) d

/-- Words of a descriptor (R112). -/
def descW (b : List Byte) (off : Nat) : Nat := leAt b off 4
def descOp (b : List Byte) : Nat := descW b 0 % 256

/-- Replaces the command of that ticket. -/
def updCmd (t : Word) (f : EngCmd → EngCmd) (l : List EngCmd) : List EngCmd :=
  l.map (fun c => if c.ticket = t then f c else c)

def modCmd (k e : Nat) (t : Word) (f : EngCmd → EngCmd) (d : Dev) : Dev :=
  let g := engineOf (coreOf k d) e
  putEngine k e { g with cmds := updCmd t f g.cmds } d

def findCmd (c : Core) (e : Nat) (t : Word) : Option EngCmd := (engineOf c e).cmds.find? (fun x => x.ticket == t)

/-- The completed count advances past the commands at the front that have completed (R109). -/
def retireFront (fuel : Nat) (g : Engine) : Engine :=
  match fuel, g.cmds with
  | n + 1, c :: r => if c.completed then retireFront n { g with completed := c.ticket, cmds := r } else g
  | _, _ => g

/-- The kernel-visible end of a command that has ended: steps 3 to 6 of R114. -/
def finishCmd (k e : Nat) (c : EngCmd) (r : Result) (detail : Nat) (d : Dev) : Dev :=
  let w0 := descW c.desc 0
  let d1 := if bitOf w0 8 then addFlag k (fieldOf w0 21 16) (BitVec.ofNat 32 (descW c.desc 4)) d else d
  let status := 2 ^ 31 + 2 ^ 4 * detail + resultCode r
  let d2 := if bitOf w0 9 then breakReservation k (c.addr + 0x3C) 4 (sramStore k (c.addr + 0x3C) (leBytes 4 status) d1) else d1
  let g := engineOf (coreOf k d2) e
  let g1 := { g with cmds := updCmd c.ticket (fun x => { x with completed := true, ended := some (r, detail) }) g.cmds }
  let d3 := putEngine k e (retireFront g1.cmds.length g1) d2
  if r ≠ .done ∧ bitOf w0 10 = false ∧ c.quiet = false then
    beginEnd k 3 0 (setPending k 17 true (latchFault k (e + 1) (resultCode r) detail c.ctx c.user c.issuePc c.addr d3))
  else d3

/-- Completes a command whose work has ended; a retired core writes nothing (R134). -/
def completeCmd (k e : Nat) (t : Word) (d : Dev) : Dev :=
  match findCmd (coreOf k d) e t with
  | some c =>
    match c.ended with
    | some (r, detail) =>
      if c.completed || stateOf (pCore k) d == .retired || stateOf (pCore k) d == .off then d else finishCmd k e c r detail d
    | none => d
  | none => d

/-- Ends a command's work with a result. -/
def endWork (k e : Nat) (t : Word) (r : Result) (detail : Nat) (d : Dev) : Dev :=
  modCmd k e t (fun c => { c with ended := some (r, detail) }) d

/-- Drops the commands of an engine that have not started and meet `p`: FAILED and CANCELLED, in the order of R114 and
without ENGINE_FAULT (R126). -/
def dropUnstarted (k e : Nat) (p : EngCmd → Bool) (d : Dev) : Dev :=
  ((engineOf (coreOf k d) e).cmds.filter (fun c => !c.started && c.ended.isNone && p c)).foldl
    (fun x c => completeCmd k e c.ticket
      (modCmd k e c.ticket (fun y => { y with started := true, quiet := true, ended := some (.failed, 3) }) x)) d

def dropAllUnstarted (k : Nat) (p : EngCmd → Bool) (d : Dev) : Dev :=
  dropUnstarted k 2 p (dropUnstarted k 1 p (dropUnstarted k 0 p d))

/-- No engine of the core holds a command that has started and not completed. -/
def enginesQuiet (c : Core) : Bool :=
  [0, 1, 2].all (fun e => (engineOf c e).cmds.all (fun x => !x.started || x.completed))

/-- No engine of the core holds a command. -/
def enginesEmpty (c : Core) : Bool := [0, 1, 2].all (fun e => (engineOf c e).cmds.all (fun x => x.completed))

/-- The oldest command of an engine that has not started. -/
def nextCmd (c : Core) (e : Nat) : Option EngCmd := (engineOf c e).cmds.find? (fun x => !x.started && x.ended.isNone)

/-- No command of the engine has started and not completed: the matrix and vector engines run one at a time, each to its end
(R111). -/
def engineIdle (c : Core) (e : Nat) : Bool := (engineOf c e).cmds.all (fun x => !x.started || x.completed)

/-- Vector operations of R157. -/
def vectorOp (op : Nat) : Bool := (1 ≤ op && op ≤ 8) || (0x10 ≤ op && op ≤ 0x16) || (0x20 ≤ op && op ≤ 0x24)

/-- The checks of R115 that raise DESC_INVALID; DIR codes that R116 does not name raise it too (log entry 87). -/
def descInvalid (e : Nat) (b : List Byte) : Bool :=
  let op := descOp b
  let w0 := descW b 0
  let w8 := descW b 8
  let opOk := if e = 0 then op == 1 else if e = 1 then vectorOp op else op == 1
  let get := w8 % 16 != 0
  let target := fieldOf w8 7 4
  !opOk || (bitOf w0 10 && !bitOf w0 9)
    || (e == 2 && ((get && bitOf w8 8) || (get && decide (1 < target)) || decide (5 < target) || decide (1 < w8 % 16)))

/-- Draws that a command makes (R147): none without SR, for an FP32 output or for TRANSPOSE. -/
def drawsOf (e : Nat) (b : List Byte) : Nat :=
  let w8 := descW b 8
  let wC := descW b 0xC
  if bitOf (descW b 0) 11 = false then 0
  else if e = 0 then (if fieldOf w8 11 8 = 0 then 0 else (wC % 65536) * (wC / 65536))
  else if e = 1 then
    (if fieldOf w8 15 12 = 0 ∨ descOp b = 8 then 0
     else if 0x20 ≤ descOp b then wC / 65536 else (wC % 65536) * (wC / 65536))
  else 0

/-- Counts `n` steps, `filled` of them filled, and moves to a slot of a window (R95, R135, R373). -/
def countSteps (k n filled slot level : Nat) (d : Dev) : Dev :=
  add64 (rCore k 0xD8) filled (add64 (rCore k 0xD0) n (modCore k (fun c => { c with
    mcycle := if c.mcountinhibit.getLsbD 0 then c.mcycle else c.mcycle + BitVec.ofNat 64 n
    slot := slot
    windowShade := level }) d))

/-- `n` steps from slot `slot` of a window at level `level`, `s` being the level of every window that starts: the filled ones,
the slot after them and its window's level. -/
def slotsAfter (n slot level s : Nat) : Nat × Nat × Nat :=
  let rest := 256 - slot
  if n < rest then (filledSlots level slot n, slot + n, level)
  else
    let more := n - rest
    (filledSlots level slot rest + more / 256 * (256 - s) + filledSlots s 0 (more % 256), more % 256, s)

/-- The core makes `n` steps. Shade alone leaves a step empty (R19): the window that runs keeps its level, and the level applied
now takes effect at the start of the next one (R373). -/
def makeSteps (k n : Nat) (d : Dev) : Dev :=
  let c := coreOf k d
  let s := appliedShade (clusterOf k) d
  let r := slotsAfter n c.slot (if c.slot = 0 then s else c.windowShade) s
  countSteps k n r.1 r.2.1 r.2.2 d

/-- Time passes at a core: the manual gives no count of the steps of an instruction, so their number is a free value (log entry
7). -/
def passIdle (k : Nat) (d : Dev) : Dev := makeSteps k (drawFree d).toNat (tickFree d)

/-- Time passes at a core, and the filled slot of an instruction follows (R19). -/
def passSteps (k : Nat) (d : Dev) : Dev :=
  let d1 := passIdle k d
  let c := coreOf k d1
  makeSteps k (slotsToFilled (if c.slot = 0 then appliedShade (clusterOf k) d1 else c.windowShade) c.slot + 1) d1

/-- An instruction retires: rd is written, the pc advances, and the instruction and, in user mode, the end of a wait are
counted (R95, R123). -/
def retireInstr (k rd_ : Nat) (v : DWord) (len : Nat) (d : Dev) : Dev :=
  passSteps k (modCore k (fun c => setX rd_ v { c with
    pc := (c.pc + len) % 2 ^ 64
    minstret := if c.mcountinhibit.getLsbD 2 then c.minstret else c.minstret + 1
    waiting := none
    waitSince := if c.machine then c.waitSince else none }) d)

/-- Firmware of the core runs a number of instructions that the manual does not give (log entry 7). -/
def passRuntime (k : Nat) (d : Dev) : Dev :=
  let n := drawFree d
  passSteps k (modCore k (fun c => { c with
    minstret := if c.mcountinhibit.getLsbD 2 then c.minstret else c.minstret + n }) (tickFree d))

/-- The core's scalar processor is up: its page is, and no hang has halted it. -/
def coreUp (k : Nat) (d : Dev) : Bool :=
  decide (k < 2560) && inState (pCore k) [.ready, .active, .quiesced, .loading] d && !(coreOf k d).halted

/-- An interrupt is taken next (R104). -/
def interrupted (k : Nat) (d : Dev) : Bool := coreUp k d && (nextInterrupt (coreOf k d)).isSome

/-- The core may execute: where the page is QUIESCED or loads, or the kernel's end has begun, only the runtime does (R132,
R134). -/
def mayRun (k : Nat) (d : Dev) : Bool :=
  let c := coreOf k d
  coreUp k d && (c.machine || (!inState (pCore k) [.quiesced, .loading] d && c.ending.isNone))

/-- One instruction of a core that is not in a wait, or the interrupt that it takes first (R104, R106). -/
def stepCore (k : Nat) (f : Dev → Dev) (d : Dev) : Dev :=
  if interrupted k d then takeInterrupt k d
  else if mayRun k d && (coreOf k d).waiting.isNone then f d
  else d

/-- A core in a wait (R122): an interrupt is taken first. -/
def stepWait (k : Nat) (f : Dev → Dev) (d : Dev) : Dev :=
  if interrupted k d then takeInterrupt k d
  else if mayRun k d && (coreOf k d).waiting.isSome then f d
  else d

/-- mtval of a standard exception: the value that the privileged specification names, or 0, as the implementation chooses
(log entry 7). -/
def stdException (k code v : Nat) (d : Dev) : Dev :=
  exception k code (if (drawFree d).getLsbD 0 then v else 0) (tickFree d)

/-- An issue instruction (R108 to R110, R115): DESC_FAULT, CTX_CLOSED, then DESC_INVALID; the instruction waits while
the engine holds 16 commands. -/
def issue (k e rd_ rs1 : Nat) (d : Dev) : Dev :=
  let c := coreOf k d
  let a := (xreg c rs1).toNat
  let user := !c.machine
  if a % 64 ≠ 0 ∨ inSram user a 64 = false then exception k 24 a d
  else if ctxOpen c.vxctx d = false then exception k 26 a d
  else if sramPoisoned k a 64 d then exception k 27 a d
  else
    let b := sramRead k a 64 d
    let g := engineOf c e
    if descInvalid e b then exception k 25 a d
    else if 16 ≤ (g.cmds.filter (fun x => !x.completed)).length then d
    else
      let t := g.issued + 1
      let n := drawsOf e b
      let cmd : EngCmd :=
        { ticket := t, addr := a, desc := b, ctx := c.vxctx, user := user, issuePc := c.pc,
          draws := if e = 0 then c.drawsMx else c.drawsVx, seed := c.vxseed,
          order := [0, 1, 2].foldl (fun n x => n + (engineOf c x).issued.toNat) 0, started := false, startGen := 0,
          ended := none, completed := false, quiet := false, msgId := 0, awaited := 0, outcomes := [] }
      let d1 := modCore k (fun x => { x with
        drawsMx := if e = 0 then x.drawsMx + BitVec.ofNat 64 n else x.drawsMx
        drawsVx := if e = 1 then x.drawsVx + BitVec.ofNat 64 n else x.drawsVx }) d
      retireInstr k rd_ (t.setWidth 64) 4 (putEngine k e { g with issued := t, cmds := g.cmds ++ [cmd] } d1)

/-! ### The end of a kernel (R132) -/

/-- Writes EXIT, moves the page from ACTIVE to READY with cause WORK, and sets the events; a page that is QUIESCED keeps
its hold, with READY as the state held before. -/
def writeExit (k cause : Nat) (value : Word) (ctx : Nat) (d : Dev) : Dev :=
  let d1 := addWrap (rCore k 0x78) 1 (wr (rCore k 0x74) (if cause = 0 then value.toNat else 0)
    (wr (rCore k 0x70) (cause + 2 ^ 8 * ctx) d))
  let d2 := modCore k (fun c => { c with
    kernel := none, ending := none, waiting := none, waitSince := none, machine := true
    pc := if c.machine then c.pc else c.mtvec.toNat / 4 * 4 }) d1
  let g := pageOf (pCore k) d2
  let d3 := if g.state = .active then setState (pCore k) .ready .work d2
    else putPage (pCore k) { g with before := .ready } d2
  let d4 := raise (pCore k) 16 d3
  if cause = 0 then d4 else raise (pCore k) 17 d4

/-- Ends the kernel if its end has begun and its commands allow it: under EXIT every command runs to its end first,
under the other causes the unstarted ones are dropped. -/
def kernelEndStep (k : Nat) (d : Dev) : Dev :=
  let c := coreOf k d
  match c.ending, c.kernel with
  | some (cause, value), some ctx =>
    if cause = 0 then (if enginesEmpty c then writeExit k cause value ctx d else d)
    else
      let d1 := dropAllUnstarted k (fun x => x.ctx == ctx) d
      if enginesQuiet (coreOf k d1) then writeExit k cause value ctx d1 else d1
  | _, _ => d

end Sys2Proof.Machine
end

