-- ==== Sys2Proof/Machine/Float.lean ====
section
/-!
DEFINITION. Number formats and arithmetic (05_arithmetic.md): values are exact until they are rounded, as R140 and R141
require.
-/

namespace Sys2Proof.Machine

/-- A number: NaN, an infinity, or (−1)^neg × m × 2^e, where m = 0 keeps the sign of zero (R140). -/
inductive Val where
  | nan
  | inf (neg : Bool)
  | fin (neg : Bool) (m : Nat) (e : Int)
deriving DecidableEq, Repr

/-- Special values of a format (R138). -/
inductive Specials where
  | ieee | e4m3 | none_ | int8
deriving DecidableEq, Repr

/-- A format of R138. -/
structure Fmt where
  bits : Nat
  ebits : Nat
  mbits : Nat
  bias : Nat
  specials : Specials
  mx : Bool
deriving DecidableEq, Repr

def fp32 : Fmt := ⟨32, 8, 23, 127, .ieee, false⟩
def bf16 : Fmt := ⟨16, 8, 7, 127, .ieee, false⟩
def fp64 : Fmt := ⟨64, 11, 52, 1023, .ieee, false⟩

/-- The format of a code, or none for the unused codes 0xC to 0xF (R138). -/
def fmtOf (code : Nat) : Option Fmt :=
  match code with
  | 0x0 => some fp32
  | 0x1 => some bf16
  | 0x2 => some ⟨16, 5, 10, 15, .ieee, false⟩
  | 0x3 => some ⟨8, 4, 3, 7, .e4m3, false⟩
  | 0x4 => some ⟨8, 5, 2, 15, .ieee, false⟩
  | 0x5 => some ⟨4, 2, 1, 1, .none_, false⟩
  | 0x6 => some ⟨8, 4, 3, 7, .e4m3, true⟩
  | 0x7 => some ⟨8, 5, 2, 15, .ieee, true⟩
  | 0x8 => some ⟨6, 2, 3, 1, .none_, true⟩
  | 0x9 => some ⟨6, 3, 2, 3, .none_, true⟩
  | 0xA => some ⟨4, 2, 1, 1, .none_, true⟩
  | 0xB => some ⟨8, 0, 7, 0, .int8, true⟩
  | _ => none

/-- Codes of the Microscaling formats. -/
def isMx (code : Nat) : Bool := 6 ≤ code && code ≤ 0xB

/-- An MXINT8 element: two's complement in units of 2⁻⁶; 0x80 reads as −2.0 (R140). -/
def decodeInt8 (b : Nat) : Val := if b < 128 then .fin false b (-6) else .fin true (256 - b) (-6)

/-- Decodes an element exactly (R138, R140). -/
def decodeFmt (f : Fmt) (w : Nat) : Val :=
  if f.specials = .int8 then decodeInt8 (w % 256) else
  let neg := bitOf w (f.bits - 1)
  let ex := (w / 2 ^ f.mbits) % 2 ^ f.ebits
  let m := w % 2 ^ f.mbits
  let top := 2 ^ f.ebits - 1
  if f.specials = .ieee ∧ ex = top then (if m = 0 then .inf neg else .nan)
  else if f.specials = .e4m3 ∧ ex = top ∧ m = 2 ^ f.mbits - 1 then .nan
  else if ex = 0 then .fin neg m (1 - (f.bias : Int) - f.mbits)
  else .fin neg (2 ^ f.mbits + m) ((ex : Int) - f.bias - f.mbits)

/-- Magnitude comparison of two finite numbers. -/
def magLt (m1 : Nat) (e1 : Int) (m2 : Nat) (e2 : Int) : Bool :=
  if e1 ≤ e2 then m1 < m2 * 2 ^ (e2 - e1).toNat else m1 * 2 ^ (e1 - e2).toNat < m2

/-- The largest finite magnitude of a format. -/
def maxFin (f : Fmt) : Nat × Int :=
  match f.specials with
  | .ieee => (2 ^ (f.mbits + 1) - 1, (2 ^ f.ebits - 2 : Nat) - (f.bias : Int) - f.mbits)
  | .e4m3 => (2 ^ (f.mbits + 1) - 2, (2 ^ f.ebits - 1 : Nat) - (f.bias : Int) - f.mbits)
  | .none_ => (2 ^ (f.mbits + 1) - 1, (2 ^ f.ebits - 1 : Nat) - (f.bias : Int) - f.mbits)
  | .int8 => (127, -6)

/-- How a rounding decides: to nearest even, or up where `r < ⌊f × 65536⌋` (R141, R148). -/
inductive Rounding where
  | nearest
  | stochastic (r : Nat)
deriving DecidableEq, Repr

/-- Rounds m × 2^e to a whole number of units of 2^lsb. -/
def roundUnits (rm : Rounding) (m : Nat) (e lsb : Int) : Nat :=
  if lsb ≤ e then m * 2 ^ (e - lsb).toNat
  else
    let d := 2 ^ (lsb - e).toNat
    let q := m / d
    let rest := m % d
    match rm with
    | .nearest => if d < 2 * rest ∨ (2 * rest = d ∧ q % 2 = 1) then q + 1 else q
    | .stochastic r => if r < rest * 65536 / d then q + 1 else q

/-- The exponent of the last place of a nonzero magnitude in a format (subnormal spacing at the least). -/
def lastPlace (f : Fmt) (m : Nat) (e : Int) : Int :=
  if f.specials = .int8 then -6
  else max ((Nat.log2 m : Int) + e - f.mbits) (1 - (f.bias : Int) - f.mbits)

/-- Rounds a number to a format's precision with no bound on the exponent (R141). -/
def roundFmt (f : Fmt) (rm : Rounding) (v : Val) : Val :=
  match v with
  | .fin neg m e =>
    if m = 0 then .fin neg 0 0 else .fin neg (roundUnits rm m e (lastPlace f m e)) (lastPlace f m e)
  | v => v

/-- Whether a rounded number lies beyond the largest finite. -/
def beyond (f : Fmt) (v : Val) : Bool :=
  match v with
  | .fin _ m e => magLt (maxFin f).1 (maxFin f).2 m e
  | _ => false

/-- Rounds to nearest even in FP32; a finite result beyond FP32 becomes an infinity (R141, R155). -/
def rn (f : Fmt) (v : Val) : Val :=
  let r := roundFmt f .nearest v
  if beyond f r then (match r with | .fin neg _ _ => .inf neg | x => x) else r

def rn32 (v : Val) : Val := rn fp32 v

/-- The bits of a rounded finite number that lies in range. -/
def packFin (f : Fmt) (neg : Bool) (m : Nat) (e : Int) : Nat :=
  let sign := if neg then 2 ^ (f.bits - 1) else 0
  if f.specials = .int8 then (if neg ∧ m ≠ 0 then 256 - m else m)
  else if m = 0 then sign
  else
    let lsb := lastPlace f m e
    let q := if lsb ≤ e then m * 2 ^ (e - lsb).toNat else m / 2 ^ (lsb - e).toNat
    if q < 2 ^ f.mbits then sign + q
    else sign + ((lsb + f.mbits + f.bias).toNat) * 2 ^ f.mbits + q % 2 ^ f.mbits

/-- A converted element: its bits, and what the report of R163 counts. -/
structure Conv where
  bits : Nat
  sat : Bool
  nan : Bool
  inf : Bool
deriving DecidableEq, Repr

/-- NaN of a format (R141). -/
def nanBits (f : Fmt) : Nat :=
  match f.specials with
  | .ieee => if f.bits = 8 then 0x7E else (2 ^ f.ebits - 1) * 2 ^ f.mbits + 2 ^ (f.mbits - 1)
  | .e4m3 => 0x7F
  | _ => 0

/-- Converts a number to a format (R141). -/
def convert (f : Fmt) (rm : Rounding) (v : Val) : Conv :=
  match v with
  | .nan => ⟨nanBits f, false, true, false⟩
  | .inf neg =>
    match f.specials with
    | .ieee => ⟨packFin f neg 0 0 + (2 ^ f.ebits - 1) * 2 ^ f.mbits, false, false, true⟩
    | .e4m3 => ⟨0x7F, false, true, false⟩
    | _ => ⟨packFin f neg (maxFin f).1 (maxFin f).2, false, true, false⟩
  | .fin neg m e =>
    let r := roundFmt f rm (.fin neg m e)
    if beyond f r then
      if f.specials = .ieee ∧ 8 < f.bits then ⟨packFin f neg 0 0 + (2 ^ f.ebits - 1) * 2 ^ f.mbits, false, false, true⟩
      else ⟨packFin f neg (maxFin f).1 (maxFin f).2, true, false, false⟩
    else
      match r with
      | .fin neg' m' e' => ⟨packFin f neg' m' e', false, false, false⟩
      | _ => ⟨0, false, false, false⟩

/-- FP32 bits of a number already rounded. -/
def bits32 (v : Val) : Nat := (convert fp32 .nearest v).bits
def val32 (w : Nat) : Val := decodeFmt fp32 (w % 2 ^ 32)

/-! ### Exact arithmetic -/

def Val.isNan (v : Val) : Bool := match v with | .nan => true | _ => false
def Val.isInf (v : Val) : Bool := match v with | .inf _ => true | _ => false
def Val.isZero (v : Val) : Bool := match v with | .fin _ 0 _ => true | _ => false
def Val.isNeg (v : Val) : Bool := match v with | .inf n => n | .fin n _ _ => n | .nan => false

def Val.neg (v : Val) : Val :=
  match v with | .nan => .nan | .inf n => .inf !n | .fin n m e => .fin (!n) m e

def Val.abs (v : Val) : Val :=
  match v with | .nan => .nan | .inf _ => .inf false | .fin _ m e => .fin false m e

/-- A signed whole number times a power of two. -/
def ofInt (z : Int) (e : Int) (zeroNeg : Bool) : Val :=
  if z = 0 then .fin zeroNeg 0 0 else .fin (decide (z < 0)) z.natAbs e

/-- Exact sum; +∞ plus −∞ is NaN (R155), and a zero sum is +0 unless both terms are −0. -/
def addV (a b : Val) : Val :=
  match a, b with
  | .nan, _ => .nan
  | _, .nan => .nan
  | .inf x, .inf y => if x = y then .inf x else .nan
  | .inf x, _ => .inf x
  | _, .inf y => .inf y
  | .fin n1 m1 e1, .fin n2 m2 e2 =>
    let e := min e1 e2
    let z1 : Int := (if n1 then -1 else 1) * (m1 * 2 ^ (e1 - e).toNat : Nat)
    let z2 : Int := (if n2 then -1 else 1) * (m2 * 2 ^ (e2 - e).toNat : Nat)
    ofInt (z1 + z2) e (n1 && n2)

/-- Exact product; 0 × ∞ is NaN. -/
def mulV (a b : Val) : Val :=
  match a, b with
  | .nan, _ => .nan
  | _, .nan => .nan
  | .inf x, .inf y => .inf (x != y)
  | .inf x, .fin n m _ => if m = 0 then .nan else .inf (x != n)
  | .fin n m _, .inf y => if m = 0 then .nan else .inf (n != y)
  | .fin n1 m1 e1, .fin n2 m2 e2 => .fin (n1 != n2) (m1 * m2) (e1 + e2)

def pow2V (v : Val) (k : Int) : Val := match v with | .fin n m e => .fin n m (e + k) | x => x

/-- Strictly smaller; NaN compares false. -/
def ltV (a b : Val) : Bool :=
  match a, b with
  | .nan, _ => false
  | _, .nan => false
  | .inf x, .inf y => x && !y
  | .inf x, _ => x
  | _, .inf y => !y
  | .fin n1 m1 e1, .fin n2 m2 e2 =>
    if m1 = 0 ∧ m2 = 0 then false
    else if n1 && !n2 then true
    else if !n1 && n2 then false
    else if n1 then magLt m2 e2 m1 e1 else magLt m1 e1 m2 e2

/-- MAX of R157: NaN if either is NaN; +0 over −0. -/
def maxV (a b : Val) : Val :=
  if a.isNan || b.isNan then .nan
  else if a.isZero && b.isZero then (if a.isNeg then b else a)
  else if ltV a b then b else a

/-- MIN of R157: NaN if either is NaN; −0 under +0. -/
def minV (a b : Val) : Val :=
  if a.isNan || b.isNan then .nan
  else if a.isZero && b.isZero then (if a.isNeg then a else b)
  else if ltV b a then b else a

/-- A quotient with enough places that rounding it to `f` is correct: the last bit is set where a remainder is left. -/
def divV (a b : Val) : Val :=
  match a, b with
  | .nan, _ => .nan
  | _, .nan => .nan
  | .inf _, .inf _ => .nan
  | .inf x, .fin n _ _ => .inf (x != n)
  | .fin n _ _, .inf y => .fin (n != y) 0 0
  | .fin n1 m1 e1, .fin n2 m2 e2 =>
    if m2 = 0 then (if m1 = 0 then .nan else .inf (n1 != n2))
    else
      let k := 80 + Nat.log2 m2
      let q := m1 * 2 ^ k / m2
      let rest := m1 * 2 ^ k % m2
      .fin (n1 != n2) (2 * q + (if rest = 0 then 0 else 1)) (e1 - e2 - k - 1)

/-- The whole part of a square root, bit by bit. -/
def isqrtAux (n : Nat) (bit : Nat) (acc : Nat) : Nat :=
  match bit with
  | 0 => if (acc + 1) * (acc + 1) ≤ n then acc + 1 else acc
  | k + 1 => isqrtAux n k (if (acc + 2 ^ (k + 1)) * (acc + 2 ^ (k + 1)) ≤ n then acc + 2 ^ (k + 1) else acc)

def isqrt (n : Nat) : Nat := isqrtAux n (Nat.log2 n / 2 + 1) 0

/-- A square root with enough places to round; a negative number gives NaN, and ±0 keeps its sign. -/
def sqrtV (a : Val) : Val :=
  match a with
  | .nan => .nan
  | .inf x => if x then .nan else .inf false
  | .fin n m e =>
    if m = 0 then .fin n 0 0
    else if n then .nan
    else
      let k : Int := if (e % 2 = 0) then 80 else 81
      let m' := m * 2 ^ k.toNat
      let q := isqrt m'
      .fin false (2 * q + (if q * q = m' then 0 else 1)) ((e - k) / 2 - 1)

/-! ### Arithmetic in FP32 that notes what the report flags record (R155, R163) -/

/-- A value with the flags OVERFLOW and INVALID that its computation set. -/
structure Fl where
  v : Val
  ovf : Bool
  inv : Bool
deriving DecidableEq, Repr

def Fl.of (v : Val) : Fl := ⟨v, false, false⟩

/-- Rounds a computed value: an infinity from finite operands is OVERFLOW, a NaN from operands that held none is
INVALID. -/
def roundFl (exact : Val) (a b : Val) (prev : Bool × Bool) : Fl :=
  let r := rn32 exact
  ⟨r, prev.1 || (r.isInf && !exact.isInf), prev.2 || (r.isNan && !a.isNan && !b.isNan)⟩

def addFl (a b : Fl) : Fl := roundFl (addV a.v b.v) a.v b.v (a.ovf || b.ovf, a.inv || b.inv)
def mulFl (a b : Fl) : Fl := roundFl (mulV a.v b.v) a.v b.v (a.ovf || b.ovf, a.inv || b.inv)

/-- a × b + c with one rounding. -/
def fmaFl (a b c : Fl) : Fl :=
  let p := mulV a.v b.v
  let f := roundFl (addV p c.v) p c.v (a.ovf || b.ovf || c.ovf, a.inv || b.inv || c.inv)
  { f with inv := f.inv || (p.isNan && !a.v.isNan && !b.v.isNan) }

/-! ### Philox-4×32-10 (R148; its constants are those of its authors, log entry 8) -/

def mul32 (a b : Nat) : Nat × Nat := ((a * b / 2 ^ 32) % 2 ^ 32, a * b % 2 ^ 32)

/-- One round on the counter words under the key. -/
def philoxRound (c : Nat × Nat × Nat × Nat) (k : Nat × Nat) : Nat × Nat × Nat × Nat :=
  let (c0, c1, c2, c3) := c
  let (h0, l0) := mul32 0xD2511F53 c0
  let (h1, l1) := mul32 0xCD9E8D57 c2
  (h1 ^^^ c1 ^^^ k.1, l1, h0 ^^^ c3 ^^^ k.2, l0)

def philoxLoop (n : Nat) (c : Nat × Nat × Nat × Nat) (k : Nat × Nat) : Nat × Nat × Nat × Nat :=
  match n with
  | 0 => c
  | m + 1 => philoxLoop m (philoxRound c k) ((k.1 + 0x9E3779B9) % 2 ^ 32, (k.2 + 0xBB67AE85) % 2 ^ 32)

/-- Bits [15:0] of output word 0. -/
def philox16 (key : Nat × Nat) (c : Nat × Nat × Nat × Nat) : Nat := (philoxLoop 10 c key).1 % 65536

/-! ### Microscaling blocks (R142 to R146) -/

/-- The largest exponent of an element format. -/
def emaxOf (f : Fmt) : Int :=
  match f.specials with
  | .int8 => 0
  | .e4m3 => 8
  | .ieee => (2 ^ f.ebits - 2 : Nat) - (f.bias : Int)
  | .none_ => (2 ^ f.ebits - 1 : Nat) - (f.bias : Int)

/-- An element of a block with its scale, decoded into FP32 (R144). -/
def decodeMx (f : Fmt) (scale w : Nat) : Val :=
  if scale = 0xFF then .nan else rn32 (pow2V (decodeFmt f w) ((scale : Int) - 127))

/-- A block that the scale tracker writes: the scale byte and the converted elements. -/
structure MxBlock where
  scale : Nat
  elems : List Conv

/-- X of R145 for a magnitude that is not zero. -/
def trackX (f : Fmt) (ceil : Bool) (m : Nat) (e : Int) : Int :=
  let top : Int := Nat.log2 m + e
  let x := top - emaxOf f
  let above := magLt (maxFin f).1 ((maxFin f).2 + top - emaxOf f) m e
  max (-127) (min 127 (if ceil && above then x + 1 else x))

def convertList (f : Fmt) (rm : Nat → Rounding) (x : Int) (i : Nat) (l : List Val) : List Conv :=
  match l with
  | [] => []
  | v :: r => convert f (rm i) (pow2V v (-x)) :: convertList f rm x (i + 1) r

/-- The scale tracker (R145, R146); `rm i` rounds element i. -/
def trackBlock (f : Fmt) (ceil : Bool) (rm : Nat → Rounding) (l : List Val) : MxBlock :=
  if l.any (fun v => match v with | .fin _ _ _ => false | _ => true) then
    ⟨0xFF, l.map (fun _ => ⟨0, false, true, false⟩)⟩
  else
    match l.foldl (fun a v => maxV a v.abs) (.fin false 0 0) with
    | .fin _ m e =>
      let x := if m = 0 then -127 else trackX f ceil m e
      ⟨(x + 127).toNat, convertList f rm x 0 l⟩
    | _ => ⟨0xFF, []⟩

/-! ### Functions of R161 -/

/-- Whether a finite number is whole, with its value. -/
def wholeOf (v : Val) : Option Int :=
  match v with
  | .fin n m e =>
    if m = 0 then some 0
    else if 0 ≤ e then some ((if n then -1 else 1) * (m * 2 ^ e.toNat : Nat))
    else if m % 2 ^ (-e).toNat = 0 then some ((if n then -1 else 1) * (m / 2 ^ (-e).toNat : Nat))
    else none
  | _ => none

/-- The exponent where a positive number is a power of two. -/
def pow2Of (v : Val) : Option Int :=
  match v with
  | .fin false m e => if m = 2 ^ Nat.log2 m ∧ m ≠ 0 then some (Nat.log2 m + e) else none
  | _ => none

/-! Fixed-point values in units of 2⁻²⁵⁶, with the constants that the functions need. -/

def fixOne : Int := 2 ^ 256
def fixMul (a b : Int) : Int := a * b / fixOne
def fixDiv (a b : Int) : Int := a * fixOne / b

/-- ln 2, log₂ e and 2 ÷ √π. -/
def fixLn2 : Int := 80260960185991308862233904206310070533990667611589946606122867505419956976171
def fixLog2e : Int := 167052672916848388242985626561247531987276682633131050150846402744536260568207
def fixErf : Int := 130657381209852114387528029350014196574164286124850014242073919076264802271585

/-- The sum of x^k ÷ k! from term `k` on, `term` being x^k ÷ k!. -/
def expSeries (fuel : Nat) (k : Int) (x term acc : Int) : Int :=
  match fuel with
  | 0 => acc
  | n + 1 => expSeries n (k + 1) x (fixMul term x / (k + 1)) (acc + term)

/-- A value as a fixed-point number. -/
def toFix (v : Val) : Int :=
  match v with
  | .fin n m e => (if n then -1 else 1) * (if 0 ≤ e + 256 then (m * 2 ^ (e + 256).toNat : Nat) else (m / 2 ^ (-(e + 256)).toNat : Nat))
  | _ => 0

/-- Between −`lim` and `lim`. -/
def clampVal (lim : Nat) (v : Val) : Val :=
  match v with
  | .fin n m e => if magLt lim 0 m e then .fin n lim 0 else v
  | x => x

/-- 2^x. -/
def exp2Fix (x : Int) : Val :=
  let whole := x / fixOne
  .fin false (expSeries 80 0 (fixMul (x - whole * fixOne) fixLn2) fixOne 0).toNat (whole - 256)

/-- The sum of t^k ÷ k over odd k from `k` on, `power` being t^k. -/
def atanhSeries (fuel : Nat) (k : Int) (square power acc : Int) : Int :=
  match fuel with
  | 0 => acc
  | n + 1 => atanhSeries n (k + 2) square (fixMul power square) (acc + power / k)

/-- log₂ of m × 2^e. -/
def log2Fix (m : Nat) (e : Int) : Int :=
  let top := Nat.log2 m
  let y : Int := m * 2 ^ 256 / 2 ^ top
  let high := decide (2 * fixOne * fixOne < y * y)
  let z := if high then y / 2 else y
  let t := fixDiv (z - fixOne) (z + fixOne)
  ((top : Int) + e + (if high then 1 else 0)) * fixOne + fixMul (2 * atanhSeries 120 1 (fixMul t t) t 0) fixLog2e

/-- The sum of (−1)^n x^(2n+1) ÷ (n! (2n + 1)) from term `n` on, `term` being (−1)^n x^(2n+1) ÷ n!. -/
def erfSeries (fuel : Nat) (n : Int) (square term acc : Int) : Int :=
  match fuel with
  | 0 => acc
  | k + 1 => erfSeries k (n + 1) square (-(fixMul term square) / (n + 1)) (acc + term / (2 * n + 1))

/-- A fixed-point number as a value. -/
def ofFix (x : Int) : Val := .fin (decide (x < 0)) x.natAbs (-256)

/-- The value of a function of R161, to far more places than FP32 has. -/
def exactOf (op : Nat) (s : Val) : Val :=
  match op with
  | 0x10 => exp2Fix (toFix (clampVal 200 s))
  | 0x11 => (match s with | .fin _ m e => ofFix (log2Fix m e) | x => x)
  | 0x12 => divV (.fin false 1 0) s
  | 0x13 => divV (.fin false 1 0) (sqrtV s)
  | 0x14 =>
    let z := toFix (exp2Fix (fixMul (2 * toFix (clampVal 64 s)) fixLog2e))
    ofFix (fixDiv (z - fixOne) (z + fixOne))
  | 0x15 =>
    let x := toFix (clampVal 200 s)
    let z := toFix (exp2Fix (fixMul (-(x.natAbs : Int)) fixLog2e))
    if 0 ≤ x then ofFix (fixDiv fixOne (fixOne + z)) else ofFix (fixDiv z (fixOne + z))
  | _ =>
    let x := toFix (clampVal 6 s)
    ofFix (fixMul (erfSeries 250 0 (fixMul x x) x 0) fixErf)

/-- The accuracy of a function, in last places (R161, R226). -/
def ulpsOf (op : Nat) : Nat := if 0x14 ≤ op then 2 else 1

/-- A result of R161 that the rule does not state exactly: one of the FP32 numbers within the accuracy of the function, as the
silicon has it (R165; log entry 8). -/
def lastPlaces (op stepping : Nat) (s : Val) : Val :=
  match exactOf op s with
  | .fin n m e =>
    let lsb := if m = 0 then -149 else lastPlace fp32 m e
    let down := if lsb ≤ e then m * 2 ^ (e - lsb).toNat else m / 2 ^ (lsb - e).toNat
    let exact := decide (lsb ≤ e) || m % 2 ^ (lsb - e).toNat == 0
    let u := ulpsOf op
    let choices := if exact then 2 * u + 1 else 2 * u
    let pick := (Config.transcendental op stepping (BitVec.ofNat 32 (bits32 s))).toNat % choices
    rn32 (.fin n (down + pick + (if exact then 0 else 1) - u) lsb)
  | x => x

def oneV : Val := .fin false 1 0

/-- The functions of R161: special and exact values, else the silicon's last places. -/
def funcOf (op stepping : Nat) (s : Val) : Val :=
  match op, s with
  | _, .nan => .nan
  | 0x10, .inf n => if n then .fin false 0 0 else .inf false
  | 0x10, .fin n m e =>
    match wholeOf (.fin n m e) with
    | some z =>
      if 128 ≤ z then .inf false else if -149 ≤ z then .fin false 1 z else lastPlaces op stepping s
    | none => if n = false ∧ !magLt m e 128 0 then .inf false else lastPlaces op stepping s
  | 0x11, .inf n => if n then .nan else .inf false
  | 0x11, .fin n m e =>
    if m = 0 then .inf true
    else if n then .nan
    else match pow2Of (.fin n m e) with
      | some k => ofInt k 0 false
      | none => lastPlaces op stepping s
  | 0x12, .inf n => .fin n 0 0
  | 0x12, .fin n m _ => if m = 0 then .inf n else lastPlaces op stepping s
  | 0x13, .inf n => if n then .nan else .fin false 0 0
  | 0x13, .fin n m _ => if m = 0 then .inf n else if n then .nan else lastPlaces op stepping s
  | 0x14, .inf n => .fin n 1 0
  | 0x14, .fin _ m e => if m = 0 || magLt m e 1 (-12) then s else lastPlaces op stepping s
  | 0x15, .inf n => if n then .fin false 0 0 else oneV
  | 0x16, .inf n => .fin n 1 0
  | _, _ => lastPlaces op stepping s

end Sys2Proof.Machine
end

