-- ==== Sys2Proof/Machine/NetFrame.lean ====
section
/-!
DEFINITION. Frames as bytes (R254, R255, R258): the transport header, the UDP checksum and the FCS, the bytes of a frame that the
module sends and what the bytes of a received one say; and the cells of a record (R292, R296).
-/

namespace Sys2Proof.Machine

/-- A big-endian number of `n` bytes at a place. -/
def beAt (bs : List Byte) (off n : Nat) : Nat := leNat ((bs.drop off).take n).reverse

/-! ### FCS (R254, R257): the CRC-32 of IEEE 802.3, whose bytes leave least significant first -/

def fcsStep (k : Nat) (v : Word) : Word :=
  match k with
  | 0 => v
  | j + 1 => fcsStep j (if v.getLsbD 0 then (v >>> 1) ^^^ 0xEDB88320 else v >>> 1)

def fcsReg (v : Word) (bs : List Byte) : Word :=
  match bs with
  | [] => v
  | b :: r => stepwise (fcsStep 8 (v ^^^ b.setWidth 32)) (fun x => fcsReg x r)

/-- The FCS of the bytes before it. -/
def fcsOf (bs : List Byte) : Word := fcsReg 0xFFFFFFFF bs ^^^ 0xFFFFFFFF

/-! ### The UDP checksum (R255): ones' complement over the pseudo header and the datagram -/

/-- The sum of the 16-bit big-endian words. -/
def sumWords (bs : List Byte) : Nat :=
  match bs with
  | [] => 0
  | [a] => 256 * a.toNat
  | a :: b :: r => 256 * a.toNat + b.toNat + sumWords r

/-- A sum with its carries added back. -/
def foldCarries (n : Nat) : Nat := if n = 0 then 0 else (n - 1) % 0xFFFF + 1

/-- The ones' complement sum of a datagram with its pseudo header. -/
def udpSum (src dst : Nat) (udp : List Byte) : Nat :=
  foldCarries (sumWords (beBytes 16 src ++ beBytes 16 dst ++ beBytes 4 udp.length ++ beBytes 4 17 ++ udp))

/-- The checksum of a datagram whose checksum field holds 0: never 0. -/
def udpChecksum (src dst : Nat) (udp : List Byte) : Nat :=
  let c := 0xFFFF - udpSum src dst udp
  if c = 0 then 0xFFFF else c

/-! ### The transport header (R258) -/

/-- The FLAGS of bytes 6 and 7. -/
def frameFlags (f : Frame) : Nat :=
  2 ^ 15 * b2n f.poison + 2 ^ 14 * b2n f.lastOfChunk + 2 ^ 13 * b2n f.retransmission + 2 ^ 12 * b2n f.ackRequest
    + 2 ^ 11 * b2n f.endOfMessage + 2 ^ 10 * b2n f.chunk + 2 ^ 9 * b2n f.notify + 2 ^ 8 * b2n f.ece

/-- Bytes 12 to 22: those of CREDIT and ABORT hold PASS_TAG, the second word and RING (R327). -/
def addressBytes (f : Frame) : List Byte :=
  if f.type = 4 ∨ f.type = 5 then beBytes 4 f.passTag.toNat ++ beBytes 4 f.notice.toNat ++ [BitVec.ofNat 8 (f.ring % 64), 0]
  else beBytes 8 f.remoteAddr.toNat ++ beBytes 2 f.payload.length

/-- The 40 bytes of a transport header. -/
def transportHeader (f : Frame) : List Byte :=
  [BitVec.ofNat 8 (16 * f.version + f.type % 16), BitVec.ofNat 8 (64 * (f.channel % 4) + 8 * (f.context % 8))]
    ++ beBytes 2 (f.srcRank % 4096) ++ beBytes 2 (f.dstRank % 4096) ++ beBytes 2 (frameFlags f) ++ beBytes 4 f.seq.toNat
    ++ addressBytes f ++ beBytes 2 (f.notifyCounter % 512) ++ beBytes 4 f.chunkId.toNat ++ beBytes 4 f.chunkOffset.toNat
    ++ zeros 8

/-! ### Frames that the module sends (R254, R255) -/

/-- The UDP datagram with a checksum field. -/
def udpBytes (f : Frame) (sport dport checksum : Nat) : List Byte :=
  let body := transportHeader f ++ f.payload ++ (if f.lastOfChunk then leBytes 8 f.check.toNat else [])
  beBytes 2 sport ++ beBytes 2 dport ++ beBytes 2 (8 + body.length) ++ beBytes 2 checksum ++ body

/-- What a port adds to a packet: MAC addresses, tag, traffic class, hop limit, UDP port and the packet's entropy bits. -/
structure FrameWrap where
  dstMac : Nat
  srcMac : Nat
  tag : Nat
  trafficClass : Nat
  hopLimit : Nat
  dport : Nat
  entropy : Nat
deriving DecidableEq, Repr

/-- The bytes of a frame, with its FCS. -/
def frameBytes (w : FrameWrap) (f : Frame) : List Byte :=
  let sport := 0xC000 + w.entropy
  let bare := udpBytes f sport w.dport 0
  let udp := udpBytes f sport w.dport (udpChecksum f.srcAddr f.dstAddr bare)
  let frame := beBytes 6 w.dstMac ++ beBytes 6 w.srcMac ++ beBytes 2 0x8100 ++ beBytes 2 w.tag ++ beBytes 2 0x86DD
    ++ beBytes 4 (6 * 2 ^ 28 + w.trafficClass * 2 ^ 20 + w.entropy) ++ beBytes 2 bare.length
    ++ [17, BitVec.ofNat 8 w.hopLimit] ++ beBytes 16 f.srcAddr ++ beBytes 16 f.dstAddr ++ udp
  frame ++ leBytes 4 (fcsOf frame).toNat

/-- The length of the frame of a packet, in bytes. -/
def frameLength (f : Frame) : Nat := 110 + f.payload.length + (if f.lastOfChunk then 8 else 0)

/-! ### Received frames (R255, R257, R258) -/

/-- What the bytes of a received frame say. Bytes that are not there read 0; the checks of R257 refuse such a frame. -/
def readFrame (bs : List Byte) : Frame :=
  let tagged := beAt bs 12 2 == 0x8100
  let ip := if tagged then 18 else 14
  let udp := ip + 40
  let h := udp + 8
  let udpLength := beAt bs (udp + 4) 2
  let flags := beAt bs (h + 6) 2
  let type := beAt bs h 1 % 16
  let last := bitOf flags 14 && type == 1
  let payload := (bs.drop (h + 40)).take (udpLength - 48 - (if last then 8 else 0))
  let src := beAt bs (ip + 8) 16
  let dst := beAt bs (ip + 24) 16
  let body := bs.take (bs.length - 4)
  { fcsOk := (fcsOf body).toNat == leAt bs (bs.length - 4) 4
    length := bs.length
    tagged := tagged
    etherType := beAt bs (ip - 2) 2
    ipVersion := beAt bs ip 1 / 16
    ipPayloadLength := beAt bs (ip + 4) 2
    nextHeader := beAt bs (ip + 6) 1
    srcAddr := src
    dstAddr := dst
    ce := fieldOf (beAt bs ip 2) 5 4 == 3
    udpDport := beAt bs (udp + 2) 2
    udpLength := udpLength
    checksumOk := beAt bs (udp + 6) 2 != 0 && udpSum src dst ((bs.drop udp).take udpLength) == 0xFFFF
    version := beAt bs h 1 / 16
    type := type
    channel := fieldOf (beAt bs (h + 1) 1) 7 6
    context := fieldOf (beAt bs (h + 1) 1) 5 3
    srcRank := beAt bs (h + 2) 2 % 4096
    dstRank := beAt bs (h + 4) 2 % 4096
    poison := bitOf flags 15
    lastOfChunk := last
    retransmission := bitOf flags 13
    ackRequest := bitOf flags 12
    endOfMessage := bitOf flags 11
    chunk := bitOf flags 10
    notify := bitOf flags 9
    ece := bitOf flags 8
    seq := BitVec.ofNat 32 (beAt bs (h + 8) 4)
    remoteAddr := BitVec.ofNat 64 (beAt bs (h + 12) 8)
    payloadLength := beAt bs (h + 20) 2
    notifyCounter := beAt bs (h + 22) 2 % 512
    chunkId := BitVec.ofNat 32 (beAt bs (h + 24) 4)
    chunkOffset := BitVec.ofNat 32 (beAt bs (h + 28) 4)
    passTag := BitVec.ofNat 32 (beAt bs (h + 12) 4)
    notice := BitVec.ofNat 32 (beAt bs (h + 16) 4)
    ring := beAt bs (h + 20) 1 % 64
    payload := payload
    check := BitVec.ofNat 64 (leAt bs (h + 40 + payload.length) 8) }

/-! ### Records of the queue pools (R292, R296) -/

/-- The parity bit that makes a word's parity even. -/
def parityBit (w : DWord) : Bool := (List.range 64).foldl (fun p i => p != w.getLsbD i) false

/-- One cell: word 0 with KIND, FIRST and LAST, and 56 bytes of the record. -/
def cellOf (kind : Nat) (first last : Bool) (bytes : List Byte) : PoolCell :=
  let ws := BitVec.ofNat 64 (2 ^ 8 * kind + 4 * b2n first + 2 * b2n last)
    :: (List.range 7).map (fun i => BitVec.ofNat 64 (leAt bytes (8 * i) 8))
  ⟨ws, ws.map parityBit⟩

/-- Cells that a record of `n` bytes fills. -/
def cellsFor (n : Nat) : Nat := max 1 ((n + 55) / 56)

/-- The cells of a record. -/
def recordCells (kind : Nat) (bytes : List Byte) : List PoolCell :=
  let n := cellsFor bytes.length
  (List.range n).map (fun i => cellOf kind (i == 0) (i + 1 == n) ((bytes.drop (56 * i)).take 56))

/-- A word of the cell fails its parity. -/
def badCell (c : PoolCell) : Bool := (c.words.zip c.parity).any (fun x => parityBit x.1 != x.2)

/-- The parity bit of one word of the first cell flips (R310). -/
def flipParity (word : Nat) (l : List PoolCell) : List PoolCell :=
  match l with
  | c :: r => { c with parity := c.parity.modify word (! ·) } :: r
  | [] => []

/-- What a record of a packet holds: its addresses and its transport header (log entry 19). -/
def headerRecord (kind : Nat) (f : Frame) (send : Option Nat) : PktRec :=
  ⟨f, send, recordCells kind (beBytes 16 f.srcAddr ++ beBytes 16 f.dstAddr ++ transportHeader f)⟩

end Sys2Proof.Machine
end

