-- ==== Sys2Proof/Machine/NetOps.lean ====
section
/-!
DEFINITION. The network below the rings: queue pools (R291 to R299), staging (R268), frames (R254 to R259), sends with their
halves of streams (R263 to R283) and of chunk slots (R300 to R304).
-/

namespace Sys2Proof.Machine

abbrev pPort (p : Nat) : PageId := ⟨.port, p⟩
abbrev pNi (p : Nat) : PageId := ⟨.networkInterface, p⟩
abbrev pPool (side : Nat) : PageId := ⟨.queuePool, side⟩
abbrev pRed (side : Nat) : PageId := ⟨.reduction, side⟩
abbrev pChk (r : Nat) : PageId := ⟨.checkContexts, r⟩
abbrev pRing (r : Nat) : PageId := ⟨.ring, r⟩
abbrev pBelay (side : Nat) : PageId := ⟨.belay, side⟩
abbrev pCounters (side : Nat) : PageId := ⟨.counters, side⟩

def modNet (f : Net → Net) (d : Dev) : Dev := { d with net := f d.net }

/-! ### Entries of the tables, and what an entry not listed holds -/

def freshPort : PortLink := ⟨false, 0, none, none, none, none, false, [], []⟩
def portOf (p : Nat) (d : Dev) : PortLink := d.net.ports.get freshPort p
def modPort (p : Nat) (f : PortLink → PortLink) (d : Dev) : Dev :=
  modNet (fun n => { n with ports := n.ports.set p (f (portOf p d)) }) d

def freshOptic : Optic := ⟨0, 0, 0, false, none⟩
def opticOf (e : Nat) (d : Dev) : Optic := d.net.optics.get freshOptic e

/-- LASER_LOW of an engine, in 0.1 dBm (R287). -/
def laserLow (e : Nat) (d : Dev) : Int := (BitVec.ofNat 32 (rd (rPort (8 * e) 0x98) d)).toInt

def freshTx : TxHalf := ⟨false, 0, 0, [], false, false, none, 0, false, none, 0, 0, 0, 0⟩
def txOf (k : StreamId) (d : Dev) : TxHalf := d.net.tx.get freshTx k
def modTx (k : StreamId) (f : TxHalf → TxHalf) (d : Dev) : Dev :=
  modNet (fun n => { n with tx := n.tx.set k (f (txOf k d)) }) d

def freshRx : RxHalf := ⟨0xFFFFFFFF, [], 0, false, 0, false, [], none, none⟩
def rxOf (k : StreamId) (d : Dev) : RxHalf := d.net.rx.get freshRx k
def modRx (k : StreamId) (f : RxHalf → RxHalf) (d : Dev) : Dev :=
  modNet (fun n => { n with rx := n.rx.set k (f (rxOf k d)) }) d

def freshPass : RingSt :=
  { pass := none, launched := 0, gated := false, aborting := false, remote := false, reason := 0, result := 0, origin := 0,
    work := [], waiting := [], arrivals := [], ops := [], nextOp := 0, nextTransfer := 0, freed := 0, begun := false,
    lastProgress := 0, timer := 0 }
def ringSt (r : Nat) (d : Dev) : RingSt := d.net.rings.get freshPass r
def modRing (r : Nat) (f : RingSt → RingSt) (d : Dev) : Dev :=
  modNet (fun n => { n with rings := n.rings.set r (f (ringSt r d)) }) d

def crcInit : DWord := 0xFFFFFFFFFFFFFFFF

def freshCheckTx : CheckTx := ⟨false, 0, 0, 0, none⟩
def checkTx (h : Nat) (d : Dev) : CheckTx := d.net.checkTx.get freshCheckTx h
def putCheckTx (h : Nat) (c : CheckTx) (d : Dev) : Dev := modNet (fun n => { n with checkTx := n.checkTx.set h c }) d

def freshCheckRx : CheckRx := ⟨false, 0, 0, 0, 0, 0, 0, false, false, 0⟩
def checkRx (h : Nat) (d : Dev) : CheckRx := d.net.checkRx.get freshCheckRx h
def putCheckRx (h : Nat) (c : CheckRx) (d : Dev) : Dev := modNet (fun n => { n with checkRx := n.checkRx.set h c }) d

/-- The slot of a CHUNK_ID (R303). -/
def slotOf (chunkId : Nat) : Nat := 4 * (chunkId / 2 ^ 26) + chunkId % 4

/-! ### The queue pool (R291 to R299) -/

def freshPool : Pool := ⟨[], [], [], []⟩
def poolOf (side : Nat) (d : Dev) : Pool := d.net.pools.get freshPool side
def modPool (side : Nat) (f : Pool → Pool) (d : Dev) : Dev :=
  modNet (fun n => { n with pools := n.pools.set side (f (poolOf side d)) }) d

/-- The transmit and receive queues of a port, for data and for control (R291). -/
def txQueue (p : Nat) (data : Bool) : Nat := 4 * (p % 24) + (if data then 0 else 1)
def rxQueue (p : Nat) (data : Bool) : Nat := 4 * (p % 24) + (if data then 2 else 3)

/-- The records of a transmit or receive queue, oldest first. -/
def packetRecords (side q : Nat) (d : Dev) : List PktRec := (poolOf side d).records.get [] q
def putRecords (side q : Nat) (l : List PktRec) (d : Dev) : Dev :=
  modPool side (fun x => { x with records := x.records.set q l }) d

/-- RESERVE in effect (R294, R295). -/
def reserveOf (side q : Nat) (d : Dev) : Nat := (poolOf side d).reserves.get (reserveReset q) q

/-- Cells in a queue. -/
def depthOf (side q : Nat) (d : Dev) : Nat :=
  if 96 ≤ q then (ringSt (24 * side + (q - 96)) d).work.foldl (fun n w => n + w.cells.length) 0
  else (packetRecords side q d).foldl (fun n r => n + r.cells.length) 0

/-- Credit that the producer of a queue holds (R294, R297). -/
def creditOf (side q : Nat) (d : Dev) : Nat := reserveOf side q d - depthOf side q d - (poolOf side d).lostCells.get 0 q

abbrev rQueueBlock (side q off : Nat) : RegId := rPool side 1 (0x40 + 0x10 * q + off)

/-- A record has been linked: HIGH_WATER, and the level event where the depth crosses LEVEL (R299). -/
def linkLevel (side q before after : Nat) (d : Dev) : Dev :=
  let d1 := wr (rQueueBlock side q 12) (max after (rd (rQueueBlock side q 12) d)) d
  let level := rd (rQueueBlock side q 8) d
  if level ≠ 0 ∧ before < level ∧ level ≤ after then
    let hit := rPool side 0 (0x60 + 4 * (q / 32))
    raise (pPool side) 16 (wr hit (orBit (rd hit d1) (q % 32)) d1)
  else d1

/-- Cells are written to a queue: an armed injection strikes a word of the first, and is spent (R310). -/
def strike (side q : Nat) (cells : List PoolCell) (d : Dev) : Dev × List PoolCell :=
  let c := rd (rPool side 0 0x50) d
  if bitOf c 31 && fieldOf c 22 16 == q then (wr (rPool side 0 0x50) (clrBit c 31) d, flipParity (c % 8) cells) else (d, cells)

/-- Cells of a record are linked to a queue; answers them as they stand in the pool. -/
def linkCells (side q : Nat) (cells : List PoolCell) (d : Dev) : Dev × List PoolCell :=
  let before := depthOf side q d
  let s := strike side q cells d
  (linkLevel side q before (before + cells.length) s.1, s.2)

/-- The consumer reads a poisoned record (R296). -/
def countParity (side : Nat) (d : Dev) : Dev := raise (pPool side) 17 (bump (rPool side 0 0x48) d)

/-- A record of a packet is linked to its queue. -/
def pushRecord (side q : Nat) (r : PktRec) (d : Dev) : Dev :=
  let y := linkCells side q r.cells d
  putRecords side q (packetRecords side q d ++ [{ r with cells := y.2 }]) y.1

/-- The producer holds credit for a record (R294). -/
def hasCredit (side q : Nat) (r : PktRec) (d : Dev) : Bool := decide (r.cells.length ≤ creditOf side q d)

/-- Headers that waited for credit are linked, each queue's in order (R294). -/
def admitHeaders (side : Nat) (d : Dev) : Dev :=
  if (poolOf side d).waiting.isEmpty then d else
  (poolOf side d).waiting.foldl (fun x w =>
    if (poolOf side x).waiting.any (fun y => y.1 == w.1) || !hasCredit side w.1 w.2 x then
      modPool side (fun y => { y with waiting := y.waiting ++ [w] }) x
    else pushRecord side w.1 w.2 x) (modPool side (fun y => { y with waiting := [] }) d)

/-! ### Network addresses (R268) -/

def stageBase (side : Nat) : Nat := 2 ^ 63 + 2 ^ 26 * side

/-- The range lies in that die's staging. -/
def inStaging (side a n : Nat) : Bool := decide (stageBase side ≤ a) && decide (a + n ≤ stageBase (side + 1))

/-- The range lies in module memory or in the die's staging. -/
def inNet (side a n : Nat) (d : Dev) : Bool := inMemory a n d || inStaging side a n

def stageWord (a : Nat) : Nat := (a - 2 ^ 63) / 16

/-- Bytes of a range, and the places of its poisoned words. -/
def netRead (a n : Nat) (d : Dev) : Dev × List Byte × List Nat :=
  if 2 ^ 63 ≤ a then
    (d, d.net.staging.read (a - 2 ^ 63) n,
      (List.range ((n + 15) / 16)).filter (fun i => d.net.stagePoison.contains (stageWord (a + 16 * i))))
  else
    let d1 := memTouch a n none d
    (d1, memBytes a n d1, memPoisonWords a n d1)

def stageWrite (a : Nat) (bs : List Byte) (pw : List Nat) (d : Dev) : Dev :=
  let n := bs.length
  if n = 0 then d else
  modNet (fun t => { t with
    staging := t.staging.write (a - 2 ^ 63) bs
    stagePoison := (t.stagePoison.filter (fun w => decide (w < stageWord a) || decide (stageWord (a + n - 1) < w)))
      ++ pw.map (fun i => stageWord a + i) }) d

def netWrite (a : Nat) (bs : List Byte) (pw : List Nat) (d : Dev) : Dev :=
  if 2 ^ 63 ≤ a then stageWrite a bs pw d else memWrite a bs pw d

/-- The controllers hold an access to the range, or the mesh is drained or untested (R207, R213 to R215, R416). -/
def netHeld (a n : Nat) (write : Bool) (d : Dev) : Bool :=
  decide (a < 2 ^ 63) && n != 0 && (meshHeld d || rangeHeld a n write d)

/-- The words of a range that read as poisoned, by place. -/
def netPoisoned (a n : Nat) (d : Dev) : List Nat :=
  if 2 ^ 63 ≤ a then (List.range ((n + 15) / 16)).filter (fun i => d.net.stagePoison.contains (stageWord (a + 16 * i)))
  else (List.range ((n + 15) / 16)).filter (fun i => linePoisoned ((a + 16 * i) / 64) d || d.memBad.contains (a / 16 + i))

/-- The payload that a range has held since its packet came takes its place there; a word poisoned since keeps its poison
(R274). -/
def settleBytes (a : Nat) (bs : List Byte) (d : Dev) : Dev :=
  let bad := netPoisoned a bs.length d
  let merged := fun (old : List Byte) => (bs.zip old).zipIdx.map (fun x => if bad.contains (x.2 / 16) then x.1.2 else x.1.1)
  if 2 ^ 63 ≤ a then
    modNet (fun t => { t with staging := t.staging.write (a - 2 ^ 63) (merged (t.staging.read (a - 2 ^ 63) bs.length)) }) d
  else { d with mem := d.mem.write a (merged (d.mem.read a bs.length)) }

/-- A range written as poisoned words. -/
def netPoison (a n : Nat) (d : Dev) : Dev :=
  let first := a / 16 * 16
  let words := (a % 16 + n + 15) / 16
  if n = 0 then d else netWrite first (zeros (16 * words)) (List.range words) d

/-! ### CRC-64 (R300 to R302) -/

def crcStep (k : Nat) (v : DWord) : DWord :=
  match k with
  | 0 => v
  | j + 1 => crcStep j (if v.getLsbD 0 then (v >>> 1) ^^^ 0xC96C5795D7870F42 else v >>> 1)

/-- crc_reg of R302. -/
def crcReg (v : DWord) (bs : List Byte) : DWord :=
  match bs with
  | [] => v
  | b :: r => stepwise (crcStep 8 (v ^^^ b.setWidth 64)) (fun x => crcReg x r)

/-! ### Frames (R254 to R262) -/

/-- PREFIX of a port. -/
def prefixOf (p : Nat) (d : Dev) : Nat := rd64 (rPort p 0x60) d

/-- Interface identifier of a rank. -/
def identOf (rank : Nat) (d : Dev) : Nat := (d.job.rankTable.getD rank 0).toNat

/-- The address of a rank on a port's plane (R261). -/
def addrOf (p rank : Nat) (d : Dev) : Nat := prefixOf p d * 2 ^ 64 + identOf rank d

/-- A packet of a type to a peer, with every other field 0; what depends on the port's registers is added as it leaves. -/
def plainFrame (p : Nat) (k : StreamId) (type : Nat) (d : Dev) : Frame :=
  { fcsOk := true, length := 0, tagged := true, etherType := 0x86DD, ipVersion := 6, ipPayloadLength := 0, nextHeader := 17,
    srcAddr := addrOf p d.job.rank d, dstAddr := addrOf p k.peer d, ce := false, udpDport := rd (rPort p 0x80) d,
    udpLength := 0, checksumOk := true, version := 1, type := type, channel := k.channel, context := 0,
    srcRank := d.job.rank, dstRank := k.peer, poison := false, lastOfChunk := false, retransmission := false,
    ackRequest := false, endOfMessage := false, chunk := false, notify := false, ece := false, seq := 0, remoteAddr := 0,
    payloadLength := 0, notifyCounter := 0, chunkId := 0, chunkOffset := 0, passTag := 0, notice := 0, ring := 0,
    payload := [], check := 0 }

/-- DATA travels at data priority, every other type at control priority (R259). -/
def isData (type : Nat) : Bool := type == 1

/-- The port's link carries frames. -/
def carries (p : Nat) (d : Dev) : Bool := (portOf p d).up && inState (pPort p) [.ready, .active, .quiesced] d

/-- The port is paused for a priority (R281). -/
def pausedFor (p : Nat) (data : Bool) (d : Dev) : Bool :=
  if data then (portOf p d).pausedData.isSome else (portOf p d).pausedCtrl.isSome

/-- The page is held by a coolant stop or a hard trip (R267, R285). -/
def stopHeld (p : Nat) (d : Dev) : Bool :=
  (pageOf (pPort p) d).holds.contains .coolant || (pageOf (pPort p) d).holds.contains .thermal
    || (pageOf (pPort p) d).holds.contains .powerOff

/-- The port's TAG for a priority: VID and PCP (R254, R287). -/
def tagOf (p : Nat) (data : Bool) (d : Dev) : Nat :=
  let tag := rd (rPort p 0x78) d
  2 ^ 13 * (if data then fieldOf tag 14 12 else fieldOf tag 18 16) + tag % 4096

/-- What the port adds to a packet as it leaves (R254, R255): ECT(0) on DATA, CREDIT and ABORT; 14 entropy bits are free. -/
def wrapOf (p : Nat) (f : Frame) (d : Dev) : FrameWrap :=
  let dscp := rd (rPort p 0x7C) d
  { dstMac := rd64 (rPort p 0x70) d % 2 ^ 48
    srcMac := d.fused.macs.getD p 0 % 2 ^ 48
    tag := tagOf p (isData f.type) d
    trafficClass := 4 * (if isData f.type then fieldOf dscp 5 0 else fieldOf dscp 13 8)
      + (if f.type = 2 ∨ f.type = 3 then 0 else 2)
    hopLimit := rd (rPort p 0x84) d
    dport := rd (rPort p 0x80) d
    entropy := (drawFree d).toNat % 2 ^ 14 }

/-- Something leaves on a port: FRAMES_TX counts it. -/
def putOut (p : Nat) (o : WireOut) (d : Dev) : Dev := add64 (rPort p 0xB8) 1 (modNet (fun n => { n with wire := n.wire ++ [o] }) d)

/-- The packet of a record leaves, and is counted. -/
def emit (p : Nat) (f : Frame) (d : Dev) : Dev :=
  let d1 := add64 (rNi p 0x130) 1 (putOut p (.packet p (frameBytes (wrapOf p f d) f)) (tickFree d))
  if f.retransmission then bump (rNi p 0x138) d1 else d1

/-- An ACK or NACK goes to TX_CTRL, behind those that wait for credit. -/
def sendControl (p : Nat) (f : Frame) (d : Dev) : Dev :=
  if inState (pPort p) [.off, .retired] d then d else
  admitHeaders (p / 24) (modPool (p / 24) (fun x => { x with
    waiting := x.waiting ++ [(txQueue p false, headerRecord 1 f none)] }) d)

/-! ### Sequence numbers -/

/-- a ≤ b modulo 2³² (R263). -/
def seqLe (a b : Nat) : Bool := decide ((b + 2 ^ 32 - a) % 2 ^ 32 < 2 ^ 31)

/-- SACK_MAP from SACK_BASE = CUM_SEQ + 2 (log entry 20). -/
def sackMap (r : RxHalf) : Nat :=
  (List.range 64).foldl (fun m i =>
    if r.pkts.any (fun q => q.seq == (r.cum + 2 + i) % 2 ^ 32) then m + 2 ^ i else m) 0

/-- An ACK of the receiving half, on the plane of the latest packet (R275). -/
def sendAck (k : StreamId) (d : Dev) : Dev :=
  let r := rxOf k d
  let f := { plainFrame r.plane k 2 d with
    seq := BitVec.ofNat 32 r.cum
    remoteAddr := BitVec.ofNat 64 (sackMap r)
    chunkOffset := BitVec.ofNat 32 (r.cum + 2)
    ece := r.ce }
  modRx k (fun x => { x with sinceAck := 0, ce := false, firstAt := none }) (sendControl r.plane f d)

/-- A NACK naming a sequence number (R260). -/
def sendNack (p : Nat) (k : StreamId) (seq reason : Nat) (d : Dev) : Dev :=
  sendControl p { plainFrame p k 3 d with
    seq := BitVec.ofNat 32 seq, remoteAddr := BitVec.ofNat 64 reason, ece := (rxOf k d).ce } d

/-! ### Planes and rates (R266, R283) -/

def excluded (p : Nat) (d : Dev) : Bool := bitOf (rd64 (rNi p 0x80) d) p

def sidePlanes (side : Nat) : List Nat := (List.range 24).map (fun i => 24 * side + i)

/-- Planes that count toward the cap of a mask: paused ones do. -/
def capPlanes (side mask : Nat) (d : Dev) : List Nat :=
  (sidePlanes side).filter (fun p =>
    bitOf mask p && inState (pPort p) [.ready, .active] d && (portOf p d).up && !excluded p d)

/-- Planes eligible for a packet of a priority. -/
def eligible (side mask : Nat) (data : Bool) (d : Dev) : List Nat :=
  (capPlanes side mask d).filter (fun p => !pausedFor p data d)

/-- The plane with the most free transmit space; those with as much take turns (R266). -/
def nextPlane (last : Nat) (data : Bool) (l : List Nat) (d : Dev) : Option Nat :=
  let room := fun p => creditOf (p / 24) (txQueue p data) d
  let most := l.foldl (fun m p => max m (room p)) 0
  let ties := l.filter (fun p => room p == most)
  match ties.find? (fun p => decide (last < p)) with
  | some p => some p
  | none => ties.head?

/-- The stream's oldest send that still has packets to send. -/
def packetsOf (s : Send) : Nat := max 1 ((s.length + 4095) / 4096)
def oldestSend (k : StreamId) (d : Dev) : Option Send :=
  d.net.sends.find? (fun s => decide (s.stream = k) && s.ended.isNone && decide (s.sent < packetsOf s))

/-- The cap of a sending half; between sends it stays as it was (R283; log entry 81). -/
def capOf (k : StreamId) (d : Dev) : Nat :=
  match oldestSend k d with
  | some s => 2 ^ 16 * (800 * (capPlanes k.side s.planes d).length)
  | none => (txOf k d).cap

/-- Counts the cap afresh: R falls to it (R283). -/
def refreshRate (k : StreamId) (d : Dev) : Dev :=
  let cap := capOf k d
  modTx k (fun t => { t with cap := cap, rate := t.rate.map (min · cap) }) d

def refreshRates (d : Dev) : Dev :=
  (d.net.tx.filter (fun e => e.2.rate.isSome)).foldl (fun x e => refreshRate e.1 x) d

/-- R starts at the cap when the stream first sends (R283). -/
def startRate (k : StreamId) (d : Dev) : Dev :=
  let d1 := refreshRate k d
  if (txOf k d1).rate.isSome then d1
  else modTx k (fun t => { t with rate := some t.cap, riseAt := d.now }) d1

/-- Nanoseconds that a frame takes at the rate of its half. -/
def paceTime (rate length : Nat) : Nat := 8 * length * 2 ^ 16 / rate

/-! ### Sends (R264, R265, R271, R304) -/

def modSend (num : Nat) (f : Send → Send) (d : Dev) : Dev :=
  modNet (fun n => { n with sends := n.sends.map (fun s => if s.num = num then f s else s) }) d

def findSend (num : Nat) (d : Dev) : Option Send := d.net.sends.find? (fun s => s.num == num)

/-- The chunk size and extent that judge a ring's chunks (R323): the pass's, or the registers' before the first LAUNCH. -/
def extentOf (format log2 : Nat) : Nat := if isMx format then 2 ^ log2 + 2 ^ log2 / 32 else 2 ^ log2

def chunkExtent (r : Nat) (d : Dev) : Nat :=
  match (ringSt r d).pass with
  | some p => extentOf p.format p.chunkLog2
  | none => extentOf (rd (rRing r 0x40) d % 16) (rd (rRing r 0x44) d % 32)

/-- The judgement of a send (R264, R304). -/
def judgeSend (s : Send) (d : Dev) : Result :=
  let side := s.stream.side
  let ring := s.chunkId / 2 ^ 26
  if !d.job.attached || !d.job.open_.contains s.ctx || (txOf s.stream d).broken then .rejectedState
  else if decide (d.job.rankCount ≤ s.stream.peer) || s.src % 16 != 0 || s.remote % 16 != 0 || s.length % 16 != 0
    || !inNet side s.src s.length d
    || (s.chunk && (decide (47 < ring) || ring / 24 != side
        || decide (chunkExtent ring d < s.chunkOffset + s.length))) then .rejectedRange
  else if ((sidePlanes side).filter (fun p =>
      bitOf s.planes p && !excluded p d && !inState (pPort p) [.off, .retired] d)).isEmpty then .rejectedState
  else if s.type == 1 && s.length == 0 && !s.notify then .done
  else if s.chunk && s.chunkOffset != 0
    && !((checkTx (slotOf s.chunkId) d).open_ && (checkTx (slotOf s.chunkId) d).chunkId == s.chunkId
      && (checkTx (slotOf s.chunkId) d).bytes == s.chunkOffset) then .rejectedState
  else .done

/-- A chunk's first send opens its half; an older chunk there is abandoned (R304). -/
def openTxHalf (s : Send) (d : Dev) : Dev :=
  if s.chunk && s.chunkOffset == 0 then
    let h := slotOf s.chunkId
    let c := checkTx h d
    let d1 := if c.open_ then
      bump (rChk (h / 4) 0x6C) (match c.owner with
        | some n => modSend n (fun x => { x with abandoned := true }) d
        | none => d) else d
    putCheckTx h ⟨true, s.chunkId, 0, crcInit, some s.num⟩ d1
  else if s.chunk then
    putCheckTx (slotOf s.chunkId) { checkTx (slotOf s.chunkId) d with owner := some s.num } d
  else d

/-- Starts a send that has been judged. -/
def startSend (s : Send) (d : Dev) : Dev :=
  let s1 := { s with num := d.net.nextSend }
  let ended := if s1.type = 1 ∧ s1.length = 0 ∧ s1.notify = false then some (Result.done, 0) else none
  let d1 := modNet (fun n => { n with sends := n.sends ++ [{ s1 with ended := ended }], nextSend := n.nextSend + 1 }) d
  if ended.isSome then d1
  else modTx s1.stream (fun t => { t with used := true }) (openTxHalf s1 d1)

/-- The bytes of one packet of a send. -/
def packetSpan (s : Send) (i : Nat) : Nat × Nat := (4096 * i, min 4096 (s.length - 4096 * i))

/-- The packet of a send as it leaves now: the source is read again (R265, R279), and an abandoned chunk carries POISON
and no check (R304). -/
def buildPacket (s : Send) (o : OutPkt) (p : Nat) (resend : Bool) (d : Dev) : Dev × Frame :=
  let span := packetSpan s o.index
  let last := packetsOf s == o.index + 1
  let r := netRead (s.src + span.1) span.2 d
  let lastOfChunk := s.chunk && s.chunkEnd && last
  let f := { plainFrame p s.stream s.type d with
    context := s.ctx
    poison := s.abandoned || r.2.2 != []
    lastOfChunk := lastOfChunk
    retransmission := resend
    ackRequest := resend || last
    endOfMessage := last
    chunk := s.chunk
    notify := s.notify && last
    seq := BitVec.ofNat 32 o.seq
    remoteAddr := BitVec.ofNat 64 (s.remote + span.1)
    notifyCounter := if s.notify && last then s.counter else 0
    chunkId := BitVec.ofNat 32 s.chunkId
    chunkOffset := BitVec.ofNat 32 (if s.chunk then s.chunkOffset + span.1 else 0)
    payload := r.2.1
    check := if lastOfChunk && !s.abandoned then o.check else 0 }
  if s.type = 1 then (modSend s.num (fun x => { x with poisoned := x.poisoned || r.2.2 != [] }) r.1, f)
  else (d, { plainFrame p s.stream s.type d with
    context := s.ctx, retransmission := resend, ackRequest := true, endOfMessage := true, seq := BitVec.ofNat 32 o.seq,
    passTag := s.passTag, notice := s.notice, ring := s.chunkId })

/-- The send half folds a packet when it is first sent, and closes at the chunk's end; answers the 8 check bytes, which
are free where CLEAR_HALF took the half from the send (log entry 7). -/
def foldSent (s : Send) (last : Bool) (payload : List Byte) (d : Dev) : Dev × DWord :=
  let h := slotOf s.chunkId
  let c := checkTx h d
  if s.chunk && !s.abandoned && c.open_ && c.owner == some s.num then
    let v := crcReg c.value payload
    let fin := last && s.chunkEnd
    (putCheckTx h { c with bytes := c.bytes + payload.length, value := v, open_ := !fin } d, v ^^^ crcInit)
  else if s.chunk && !s.abandoned then (tickFree d, drawFree d)
  else (d, 0)

/-- NO_PLANE, on the page of the send's first plane. -/
def noPlane (k : StreamId) (s : Send) (d : Dev) : Dev :=
  raise (pNi (((sidePlanes k.side).find? (fun p => bitOf s.planes p)).getD (24 * k.side))) 20 d

/-- The source of a packet cannot be read now. -/
def sourceHeld (s : Send) (index : Nat) (d : Dev) : Bool :=
  s.type == 1 && netHeld (s.src + (packetSpan s index).1) (packetSpan s index).2 false d

/-- A stream's next packet is handed to a port. -/
def handOver (k : StreamId) (s : Send) (p : Nat) (d : Dev) : Dev :=
  let t := txOf k d
  let o : OutPkt := ⟨t.next, s.num, s.sent, false, 0, p, d.now, 0, false, none⟩
  let b := buildPacket s o p false d
  let c := foldSent s b.2.endOfMessage b.2.payload b.1
  let f := { b.2 with check := if b.2.lastOfChunk && !s.abandoned then c.2 else 0 }
  let d1 := pushRecord k.side (txQueue p (isData f.type)) (headerRecord 1 f (some s.num)) c.1
  refreshRate k (modTx k (fun x => { x with
    used := true
    next := (x.next + 1) % 2 ^ 32
    unacked := x.unacked ++ [{ o with check := f.check }]
    lastPlane := p
    paceAt := max d.now x.paceAt + paceTime (x.rate.getD 1) (frameLength f) })
    (modSend s.num (fun x => { x with sent := x.sent + 1 }) d1))

/-- The cells that any packet's record fills. -/
def packetCells : Nat := cellsFor 72

/-- The network interface sends the stream's next packet, once its window, its rate, an eligible plane and transmit credit
allow (R265, R266, R283, R294). -/
def sendPacket (k : StreamId) (d : Dev) : Dev :=
  let t := txOf k d
  match oldestSend k d with
  | none => d
  | some s =>
    let data := isData s.type
    if t.held || t.broken || decide (1024 ≤ t.unacked.length) || decide (d.now < t.paceAt) || sourceHeld s s.sent d then d
    else
      match nextPlane t.lastPlane data (eligible k.side s.planes data d) d with
      | none => noPlane k s d
      | some p =>
        let d1 := startRate k d
        if creditOf k.side (txQueue p data) d < packetCells || (txOf k d1).rate == some 0 then d1 else handOver k s p d1

def modOut (k : StreamId) (seq : Nat) (f : OutPkt → OutPkt) (d : Dev) : Dev :=
  modTx k (fun x => { x with unacked := x.unacked.map (fun y => if y.seq = seq then f y else y) }) d

/-- The plane that a retransmission may take now, other than one that closed. -/
def resendPlane (k : StreamId) (s : Send) (o : OutPkt) (d : Dev) : Option Nat :=
  nextPlane (txOf k d).lastPlane (isData s.type)
    ((eligible k.side s.planes (isData s.type) d).filter (fun p => some p != o.avoid)) d

/-- Resends a packet that is due, on a plane chosen afresh; it stays due while nothing can take it (R266, R276). -/
def sendDue (k : StreamId) (o : OutPkt) (d : Dev) : Dev :=
  match findSend o.send d with
  | none => modOut k o.seq (fun y => { y with due := false }) d
  | some s =>
    if sourceHeld s o.index d then d else
    match resendPlane k s o d with
    | none => d
    | some p =>
      if creditOf k.side (txQueue p (isData s.type)) d < packetCells then d else
      let b := buildPacket s o p true d
      modTx k (fun x => { x with lastPlane := p })
        (modOut k o.seq (fun y => { y with plane := p, age := 0, due := false, avoid := none })
          (pushRecord k.side (txQueue p (isData s.type)) (headerRecord 1 b.2 (some s.num)) b.1))

/-- A packet not acknowledged is to be resent (R276), `avoid` being a plane that closed (R277); where no plane is eligible it
waits and NO_PLANE is raised. -/
def resend (k : StreamId) (seq : Nat) (avoid : Option Nat) (d : Dev) : Dev :=
  match (txOf k d).unacked.find? (fun o => o.seq == seq) with
  | none => d
  | some o =>
    let o1 := { o with due := true, avoid := avoid }
    let d1 := modOut k seq (fun _ => o1) d
    match findSend o.send d with
    | none => d
    | some s => sendDue k o1 (if (resendPlane k s o1 d1).isNone then noPlane k s d1 else d1)

/-- How a send ends whose packets are all reported (R273). -/
def sendOutcome (s : Send) : Result × Nat :=
  match s.rejected with
  | some r => (r, 0)
  | none => if s.poisoned || s.abandoned then (.failed, 1) else (.done, 0)

/-- Sends of a stream complete in order, each when CUM_SEQ covers its last packet (R273). -/
def completeSends (k : StreamId) (l : List Send) (unacked : List OutPkt) (stopped : Bool) : List Send :=
  match l with
  | [] => []
  | s :: r =>
    if s.stream ≠ k ∨ s.ended.isSome then s :: completeSends k r unacked stopped
    else if !stopped && decide (packetsOf s ≤ s.sent) && !unacked.any (fun o => o.send == s.num) then
      { s with ended := some (sendOutcome s) } :: completeSends k r unacked false
    else s :: completeSends k r unacked true

def settleStream (k : StreamId) (d : Dev) : Dev :=
  modNet (fun n => { n with sends := completeSends k n.sends (txOf k d).unacked false }) d

/-- An ACK or NACK with ECE cuts the rate, at most once per ECN_HOLD (R283). -/
def cutRate (k : StreamId) (d : Dev) : Dev :=
  let c := rd (rNi 0 0x9C) d
  let t := txOf k d
  let hold := 1000 * fieldOf c 15 8
  let due := match t.lastCut with | none => true | some x => decide (x + hold ≤ d.now)
  let floor := 2 ^ 16 * rd (rNi 0 0xA0) d
  modTx k (fun x => { x with
    eceSeen := true
    lastCut := if due then some d.now else x.lastCut
    rate := if due then x.rate.map (fun r => max (min r floor) (r * (256 - fieldOf c 7 0) / 256)) else x.rate }) d

/-- Every send of a broken stream ends FAILED with DETAIL PEER_LOST (R278). -/
def breakStream (k : StreamId) (d : Dev) : Dev :=
  let d1 := modTx k (fun t => { t with broken := true, held := false, unacked := [] }) d
  modNet (fun n => { n with
    sends := n.sends.map (fun s =>
    if s.stream = k ∧ s.ended.isNone then { s with ended := some (.failed, 6) } else s) }) d1

/-! ### Port links (R249) -/

/-- The link goes down: UP clears and the loss is counted and raised; signal detect of its lanes. -/
def loseCarrier (p lanes : Nat) (d : Dev) : Dev :=
  if (portOf p d).up then
    refreshRates (raise (pPort p) 17 (bump (rPort p 0x44) (modPort p (fun x => { x with up := false, lanes := lanes }) d)))
  else modPort p (fun x => { x with lanes := lanes }) d

/-- The module takes the link of a port down itself (R249). -/
def takeDown (p : Nat) (d : Dev) : Dev := loseCarrier p (portOf p d).lanes d

end Sys2Proof.Machine
end

