-- ==== Sys2Proof/Machine/UpdateOps.lean ====
section
/-!
DEFINITION. Update engines below the counters (08_update_engines.md): plans and their judgement, shares, records, and the
two phases of a chunk run.
-/

namespace Sys2Proof.Machine

def freshEng : UpdEng := ⟨[], [], none, 15⟩
def engOf (c : Nat) (d : Dev) : UpdEng := d.engines.get freshEng c
def modEng (c : Nat) (f : UpdEng → UpdEng) (d : Dev) : Dev := { d with engines := d.engines.set c (f (engOf c d)) }

/-- A register of plan n's block (R229). -/
abbrev rPlan (c n off : Nat) : RegId := rUpd c 1 (0x40 + 0xC0 * n + off)

/-- Bytes of an element (R227). -/
def elemWidth (format : Nat) : Nat := match format with | 0 => 4 | 1 => 2 | 2 => 2 | _ => 1

/-! ### Plans (R223, R229 to R231) -/

def readStream (c n s : Nat) (d : Dev) : PlanStream :=
  let cfg := rd (rPlan c n (0x40 + 0x10 * s)) d
  ⟨fieldOf cfg 7 4, cfg % 4, rd64 (rPlan c n (0x48 + 0x10 * s)) d⟩

/-- What ENABLE_PLAN copies. -/
def readPlan (c n : Nat) (d : Dev) : Plan :=
  let ctrl := rd (rPlan c n 0) d
  let counter := rd (rPlan c n 0x10) d
  let slot := ctrl % 8
  { context := fieldOf ctrl 17 15
    program := (List.range (fieldOf ctrl 14 8)).map (fun i => BitVec.ofNat 32 (rd (rUpd c 2 (0x100 + 0x100 * slot + 4 * i)) d))
    chunkLog2 := rd (rPlan c n 4) d
    chunks := rd (rPlan c n 8) d
    stateBase := rd (rPlan c n 12) d
    length := rd64 (rPlan c n 0x18) d
    streams := (List.range 8).map (fun s => readStream c n s d)
    counterEn := bitOf ctrl 18
    counter := counter
    drainEn := bitOf ctrl 25
    drainFlag := fieldOf ctrl 24 19 }

def streamOf (p : Plan) (s : Nat) : PlanStream := p.streams.getD s ⟨0, 0, 0⟩

/-- The trigger stream. -/
def triggerOf (p : Plan) : PlanStream := (p.streams.find? (fun s => s.mode == 1)).getD ⟨0, 1, 0⟩

/-- An instruction that ENABLE_PLAN accepts (R225, R226, R230). -/
def instrOk (p : Plan) (w : Nat) : Bool :=
  let dst := fieldOf w 25 20
  let a := fieldOf w 19 14
  let opnd := fun x => decide (x ≤ 0x31)
  let reg := decide (dst < 16)
  let okA := opnd a
  let okB := opnd (fieldOf w 13 8)
  let okC := opnd (fieldOf w 7 2)
  match w / 2 ^ 26 with
  | 0x00 => true
  | 0x01 => reg && decide (a < 8) && ((streamOf p a).mode == 1 || (streamOf p a).mode == 2)
  | 0x02 => decide (dst < 8) && (streamOf p dst).mode != 0 && okA
  | 0x03 | 0x0A | 0x0D | 0x0E | 0x0F => reg && okA
  | 0x04 | 0x05 | 0x06 | 0x08 | 0x09 | 0x0C => reg && okA && okB
  | 0x07 | 0x0B => reg && okA && okB && okC
  | 0x10 => okA
  | _ => false

/-- ⌈a ÷ b⌉. -/
def ceilDiv (a b : Nat) : Nat := (a + b - 1) / b

/-- A stream's range lies where R230 requires. -/
def streamOk (m : MemMap) (r : Region) (p : Plan) (s : PlanStream) : Bool :=
  let u := r.list.length
  let eT := elemWidth (triggerOf p).format
  let eX := elemWidth s.format
  if s.mode = 2 then
    decide (r.base ≤ s.base) && (s.base - r.base) % (u * 448) == 0
      && decide (s.base + ceilDiv (eX * ceilDiv p.length (u * 448)) eT * (u * 448) ≤ r.base + r.size)
  else if s.mode = 3 then decide (s.base + p.length * eX / eT ≤ mapSize m)
  else true

/-- The range checks of R230. -/
def planInRange (c n : Nat) (p : Plan) (d : Dev) : Bool :=
  let t := triggerOf p
  let overlaps := (engOf c d).plans.any (fun q =>
    q.1 != n && p.chunks != 0 && q.2.chunks != 0 && decide (q.2.stateBase < p.stateBase + p.chunks) && decide (p.stateBase < q.2.stateBase + q.2.chunks))
  decide (p.program.length ≤ 64) && p.program.all (fun w => instrOk p w.toNat)
    && (p.streams.filter (fun s => s.mode == 1)).length == 1
    && p.streams.all (fun s => s.mode == 0 || decide (s.format ≤ 4))
    && decide (16 ≤ p.chunkLog2) && decide (p.chunkLog2 ≤ 20) && decide (p.stateBase + p.chunks ≤ 262144) && !overlaps
    && p.length % elemWidth t.format == 0 && decide (p.length ≤ p.chunks * 2 ^ p.chunkLog2)
    && (match d.memMap with
        | none => false
        | some m =>
          match regionAt m t.base with
          | none => false
          | some r => (t.base - r.base) % (r.list.length * 448) == 0 && decide (t.base + p.length ≤ r.base + r.size)
              && p.streams.all (streamOk m r p))

/-- Where the element of a stream lies that corresponds to the trigger element at `a` (R223). -/
def elementAt (m : MemMap) (p : Plan) (s : PlanStream) (a : Nat) : Nat :=
  let t := triggerOf p
  let eT := elemWidth t.format
  let eX := elemWidth s.format
  match s.mode, regionAt m t.base with
  | 2, some r =>
    let u := r.list.length
    let g := (a - r.base) / 448
    let o := (a - r.base) % 448
    let st := g / u
    let q := (g % u + stripeHash st u) % u
    let off := ((st - (t.base - r.base) / 448 / u) * 448 + o) * eX / eT
    let grp := (s.base - r.base) / 448 / u + off / 448
    r.base + (grp * u + (q + u - stripeHash grp u) % u) * 448 + off % 448
  | 3, _ => s.base + (a - t.base) * eX / eT
  | _, _ => a

/-! ### Shares (R222, R237) -/

/-- Trigger addresses of the elements of one granule within [lo, hi). -/
def granuleElements (base lo hi w g : Nat) : List Nat :=
  let first := max lo (base + 448 * g)
  let stop := min hi (base + 448 * g + 448)
  (List.range ((stop - first) / w)).map (fun i => first + w * i)

/-- The share of an engine in a chunk, in the order of R237. -/
def shareOf (c : Nat) (p : Plan) (k : Nat) (m : MemMap) : List Nat :=
  let t := triggerOf p
  let lo := t.base + k * 2 ^ p.chunkLog2
  let hi := t.base + min ((k + 1) * 2 ^ p.chunkLog2) p.length
  match regionAt m t.base with
  | none => []
  | some r =>
    if hi ≤ lo then [] else
    let g0 := (lo - r.base) / 448
    let granules := (List.range ((hi - 1 - r.base) / 448 + 1 - g0)).map (fun i => g0 + i)
    (List.range 16).flatMap (fun j =>
      (granules.filter (fun g =>
        let u := r.list.length
        r.list.getD ((g % u + stripeHash (g / u) u) % u) 384 == 16 * c + j)).flatMap
          (granuleElements r.base lo hi (elemWidth t.format)))

/-- Lines of a share in the trigger stream and the SHADOW streams. -/
def checkLines (p : Plan) (m : MemMap) (share : List Nat) : List Nat :=
  share.flatMap (fun a => (p.streams.filter (fun s => s.mode == 1 || s.mode == 2)).map (fun s => elementAt m p s a / 64))

/-- CHECK: the first marked line of the share in the trigger or a SHADOW stream. -/
def firstMarked (p : Plan) (m : MemMap) (share : List Nat) (d : Dev) : Option Nat :=
  ((checkLines p m share).find? (fun l => linePoisoned l d)).map (64 * ·)

/-! ### APPLY (R224 to R228, R238) -/

/-- One element's run: registers with the poisoned line that each depends on, the stores to come, by stream, and whether an
operand of SQACC has depended on a poisoned line. -/
structure Lane where
  regs : Tbl Nat (Val × Option Nat)
  stores : Tbl Nat (Val × Option Nat × Bool)
  tainted : Bool

/-- What APPLY carries from element to element. -/
structure ApplyCtx where
  d : Dev
  norm : Val
  affected : Option Nat

/-- An operand (R225). -/
def operandOf (params : List Word) (l : Lane) (x : Nat) : Val × Option Nat :=
  if x < 16 then l.regs.get (.fin false 0 0, none) x
  else if x < 0x30 then (val32 (params.getD (x - 16) 0).toNat, none)
  else if x = 0x31 then (oneV, none)
  else (.fin false 0 0, none)

/-- ABS, DIV and the other results of R226 that are computed from operands alone. -/
def aluOf (op stepping : Nat) (a b c : Val) : Val :=
  match op with
  | 0x03 => a
  | 0x04 => rn32 (addV a b)
  | 0x05 => rn32 (addV a b.neg)
  | 0x06 => rn32 (mulV a b)
  | 0x07 => rn32 (addV (mulV a b) c)
  | 0x08 => maxV a b
  | 0x09 => minV a b
  | 0x0A => a.abs
  | 0x0B => if c.isNan then b else if c.isNeg && !c.isZero then b else a
  | 0x0C => rn32 (divV a b)
  | 0x0D => rn32 (sqrtV a)
  | 0x0E => funcOf 0x13 stepping a
  | _ => funcOf 0x12 stepping a

/-- One instruction of the program. -/
def laneStep (m : MemMap) (p : Plan) (params : List Word) (stepping : Nat) (a : Nat) (w : Nat) (x : ApplyCtx × Lane) :
    ApplyCtx × Lane :=
  let dst := fieldOf w 25 20
  let fa := fieldOf w 19 14
  let op := w / 2 ^ 26
  let oa := operandOf params x.2 fa
  if op = 0x00 then x
  else if op = 0x01 then
    let s := streamOf p fa
    let ea := elementAt m p s a
    let d1 := memTouch ea (elemWidth s.format) (some p.context) x.1.d
    let bits := leNat (memBytes ea (elemWidth s.format) d1)
    let v := match fmtOf s.format with | some f => decodeFmt f bits | none => .nan
    let bad := if linePoisoned (ea / 64) d1 then some (ea / 64 * 64) else none
    ({ x.1 with d := d1, affected := x.1.affected.or bad }, { x.2 with regs := x.2.regs.set dst (v, bad) })
  else if op = 0x02 then (x.1, { x.2 with stores := x.2.stores.set dst (oa.1, oa.2, bitOf w 0) })
  else if op = 0x10 then
    ({ x.1 with norm := rn fp64 (addV x.1.norm (mulV oa.1 oa.1)) }, { x.2 with tainted := x.2.tainted || oa.2.isSome })
  else
    let two := [0x04, 0x05, 0x06, 0x08, 0x09, 0x0C, 0x07, 0x0B].contains op
    let three := op == 0x07 || op == 0x0B
    let ob := if two then operandOf params x.2 (fieldOf w 13 8) else (.nan, none)
    let oc := if three then operandOf params x.2 (fieldOf w 7 2) else (.nan, none)
    (x.1, { x.2 with
      regs := x.2.regs.set dst (aluOf op stepping oa.1 ob.1 oc.1, oa.2.or (ob.2.or oc.2)) })

/-- One store, at the end of the element (R227, R228, R238). -/
def laneStore (m : MemMap) (p : Plan) (seed : Nat × Nat) (a : Nat) (st : Nat × Val × Option Nat × Bool) (x : ApplyCtx) :
    ApplyCtx :=
  let s := streamOf p st.1
  let ea := elementAt m p s a
  let v := st.2.1
  let rm := if st.2.2.2 && s.format != 0 then
    Rounding.stochastic (philox16 seed (ea % 2 ^ 32, ea / 2 ^ 32 % 2 ^ 32, 2, 0)) else .nearest
  let bits := match fmtOf s.format with | some f => (convert f rm v).bits | none => 0
  let d1 := memWrite ea (leBytes (elemWidth s.format) bits) (if st.2.2.1.isSome then [0] else []) x.d
  { x with d := d1, affected := x.affected.or (if linePoisoned (ea / 64) d1 then some (ea / 64 * 64) else none) }

/-- The program on one element; one with a tainted SQACC adds nothing to NORM (R238). -/
def applyElement (m : MemMap) (run : ChunkRun) (stepping : Nat) (a : Nat) (x : ApplyCtx) : ApplyCtx :=
  let r := run.copy.program.foldl (fun y w => laneStep m run.copy run.params stepping a w.toNat y) (x, ⟨[], [], false⟩)
  r.2.stores.foldl (fun y st => laneStore m run.copy (run.seedLo.toNat, run.seedHi.toNat) a st y)
    { r.1 with norm := if r.2.tainted then x.norm else r.1.norm }

/-- NORM as FP64. -/
def normOf (c n : Nat) (d : Dev) : Val := decodeFmt fp64 (rd64 (rPlan c n 0x38) d)

/-- Applies the first elements of a share, NORM included. -/
def applyShare (c : Nat) (run : ChunkRun) (stepping : Nat) (share : List Nat) (d : Dev) : Dev × Option Nat :=
  match d.memMap with
  | none => (d, none)
  | some m =>
    let x := share.foldl (fun y a => applyElement m run stepping a y) ⟨d, normOf c run.plan d, none⟩
    (wr64 (rPlan c run.plan 0x38) (convert fp64 .nearest x.norm).bits x.d, x.affected)

/-! ### Writes that meet (R230) -/

/-- Streams that a program stores to. -/
def storedStreams (p : Plan) : List Nat :=
  (List.range 8).filter (fun i => p.program.any (fun w => w.toNat / 2 ^ 26 == 2 && fieldOf w.toNat 25 20 == i))

/-- What the elements of a share write of one stream. -/
def streamWrites (m : MemMap) (p : Plan) (share : List Nat) (i : Nat) : List (Nat × Nat) :=
  share.map (fun a => (elementAt m p (streamOf p i) a, elemWidth (streamOf p i).format))

/-- What two streams of one share both write. -/
def streamOverlaps (m : MemMap) (p : Plan) (share : List Nat) : List (Nat × Nat) :=
  let l := storedStreams p
  l.flatMap (fun i => (l.filter (fun j => decide (i < j))).flatMap (fun j =>
    commonRanges (streamWrites m p share i) (streamWrites m p share j)))

/-- What a running chunk writes. -/
def runWrites (c : Nat) (r : ChunkRun) (m : MemMap) : List (Nat × Nat) :=
  (storedStreams r.copy).flatMap (streamWrites m r.copy (shareOf c r.copy r.chunk m))

/-- Engine c's chunk has started: what it and a chunk of another engine both write is undefined. -/
def chunksMeet (c : Nat) (m : MemMap) (d : Dev) : Dev :=
  match (engOf c d).running with
  | none => d
  | some r =>
    (d.engines.filter (fun g => g.1 != c)).foldl (fun x g =>
      match g.2.running with
      | none => x
      | some o =>
        let l := commonRanges (runWrites c r m) (runWrites g.1 o m)
        if l.isEmpty then x
        else
          let add := fun (y : UpdEng) => { y with running := y.running.map (fun z => { z with raced := z.raced ++ l }) }
          modEng c add (modEng g.1 add x)) d

/-! ### The chunk state table (R232) and the skip log (R241) -/

def chunkAt (c : Nat) (p : Plan) (k : Nat) (d : Dev) : ChunkState × Nat := (engOf c d).table.get (.idle, 0) (p.stateBase + k)

def setChunk (c e : Nat) (st : ChunkState) (tag : Nat) (d : Dev) : Dev :=
  modEng c (fun g => { g with
    table := if st = .idle ∧ tag = 0 then g.table.drop (fun x => x == e) else g.table.set e (st, tag) }) d

/-- Chunks of a plan in the states named. -/
def countChunks (c : Nat) (p : Plan) (l : List ChunkState) (d : Dev) : Nat :=
  ((engOf c d).table.filter (fun x =>
    decide (p.stateBase ≤ x.1) && decide (x.1 < p.stateBase + p.chunks) && l.contains x.2.1)).length

/-- A skip-list entry: kind 0 SIGNAL, 1 STATE, 2 APPLIED_POISONED, 3 TORN. -/
def logSkip (c kind n ctx k tag addr : Nat) (d : Dev) : Dev :=
  let count := rd (rUpd c 0 0x80) d
  let e := 0x100 + 16 * (count % 64)
  addWrap (rUpd c 0 0x80) 1 (wr64 (rUpd c 0 (e + 8)) addr (wr (rUpd c 0 (e + 4)) tag
    (wr (rUpd c 0 e) (2 ^ 27 * ctx + 2 ^ 24 * kind + 2 ^ 20 * n + k) d)))

/-! ### Records (R234 to R236) -/

/-- A trigger record. -/
structure Trigger where
  plan : Nat
  chunk : Nat
  tag : Nat
  poisoned : Bool

/-- A discarded record. -/
def discard (c off : Nat) (d : Dev) : Dev :=
  if off = 0x58 then raise (pUpd c) 19 (bump (rUpd c 0 off) d) else bump (rUpd c 0 off) d

/-- What the table of R236 makes of a record. -/
inductive Handling where
  | discarded (counter : Nat)
  | toPending
  | toSkipped
deriving DecidableEq, Repr

def handlingOf (c ctx : Nat) (t : Trigger) (d : Dev) : Handling :=
  match (engOf c d).plans.find? (fun q => q.1 == t.plan) with
  | none => .discarded 0x58
  | some (_, p) =>
    if p.context ≠ ctx then .discarded 0x60
    else if p.chunks ≤ t.chunk then .discarded 0x58
    else match (chunkAt c p t.chunk d).1 with
      | .idle => .discarded 0x58
      | .armed => if t.poisoned then .toSkipped else .toPending
      | _ => .discarded 0x5C

def planOf (c n : Nat) (d : Dev) : Option Plan := ((engOf c d).plans.find? (fun q => q.1 == n)).map (·.2)

/-- A record whose POISONED is clear. -/
def takeClear (c ctx : Nat) (t : Trigger) (d : Dev) : Dev :=
  match handlingOf c ctx { t with poisoned := false } d, planOf c t.plan d with
  | .discarded r, _ => discard c r d
  | _, some p => setChunk c (p.stateBase + t.chunk) .pending t.tag d
  | _, none => d

/-! ### Starting a chunk (R237, R242) -/

/-- The controller holds the engine's accesses (R207, R214, R215, R242). -/
def engineHeld (c : Nat) (d : Dev) : Bool :=
  (memCtl c d).selfRefresh || inState (pMem c) [.testing, .training, .quiesced, .fault] d

/-- Streams that a program loads from. -/
def loadedStreams (p : Plan) : List Nat :=
  (List.range 8).filter (fun i => p.program.any (fun w => w.toNat / 2 ^ 26 == 1 && fieldOf w.toNat 19 14 == i))

/-- An element of a stream is held: by its controller, or on its way over the mesh where the element is not engine c's (R207,
R242, R416). -/
def elementHeld (c : Nat) (m : MemMap) (p : Plan) (write : Bool) (d : Dev) (i a : Nat) : Bool :=
  let s := streamOf p i
  let ea := elementAt m p s a
  rangeHeld ea (elemWidth s.format) write d
    || (meshHeld d && (match channelAt (ea / 64 * 64) d with | some ch => ch / 16 != c | none => false))

/-- Accesses of CHECK, and of the program, that are held now. -/
def checkHeld (p : Plan) (m : MemMap) (share : List Nat) (d : Dev) : Bool :=
  (checkLines p m share).any (fun l => rangeHeld (64 * l) 64 false d)
def applyHeld (c : Nat) (p : Plan) (m : MemMap) (share : List Nat) (d : Dev) : Bool :=
  share.any (fun a => (loadedStreams p).any (fun i => elementHeld c m p false d i a)
    || (storedStreams p).any (fun i => elementHeld c m p true d i a))

/-- The running chunk waits on accesses that are held (R242). -/
def runHeld (c : Nat) (d : Dev) : Bool :=
  match (engOf c d).running, d.memMap with
  | some r, some m =>
    let share := shareOf c r.copy r.chunk m
    engineHeld c d || (if r.checked then r.marked.isNone && applyHeld c r.copy m share d else checkHeld r.copy m share d)
  | _, _ => false

/-- CHECK of the running chunk, unless it is done or held (R237). -/
def checkRun (c : Nat) (d : Dev) : Dev :=
  match (engOf c d).running, d.memMap with
  | some r, some m =>
    if r.checked || runHeld c d then d
    else modEng c (fun g => { g with
      running := some { r with checked := true, marked := firstMarked r.copy m (shareOf c r.copy r.chunk m) d } }) d
  | _, _ => d

/-- The lowest PENDING chunk of a plan. -/
def lowestPending (c : Nat) (p : Plan) (d : Dev) : Option Nat :=
  ((engOf c d).table.filter (fun x =>
    decide (p.stateBase ≤ x.1) && decide (x.1 < p.stateBase + p.chunks) && x.2.1 == .pending)).foldl
    (fun b x => match b with
      | none => some (x.1 - p.stateBase)
      | some y => some (min y (x.1 - p.stateBase))) none

/-- The plan served next, in round-robin order. -/
def nextServed (c : Nat) (d : Dev) : Option (Nat × Nat) :=
  ((List.range 16).map (fun i => ((engOf c d).lastPlan + 1 + i) % 16)).findSome? (fun n =>
    match planOf c n d with
    | some p => (lowestPending c p d).map (fun k => (n, k))
    | none => none)

/-! ### Disabling plans (R244, R246) -/

/-- The plan's chunks become IDLE; one that runs runs to its end and then becomes IDLE. -/
def disablePlan (c n : Nat) (d : Dev) : Dev :=
  match planOf c n d with
  | none => d
  | some p =>
    modEng c (fun g => { g with
      plans := g.plans.drop (fun x => x == n)
      table := g.table.filter (fun x =>
        decide (x.1 < p.stateBase) || decide (p.stateBase + p.chunks ≤ x.1) || x.2.1 == .running)
      running := g.running.map (fun r => if r.plan = n then { r with disabled := true } else r) }) d

/-- The page is ACTIVE while a plan is enabled (R242). -/
def settleEngine (c : Nat) (d : Dev) : Dev :=
  settlePage (pUpd c) (if (engOf c d).plans.isEmpty then .ready else .active) .work d

/-- ARG of a DISARM in progress, with the range that it was given for. -/
def disarmArg (arg first count : Nat) : Nat := arg % 256 + 2 ^ 8 * first + 2 ^ 32 * count

/-- Ends a DISABLE_PLAN or DISARM that waited for a running chunk. -/
def settleUpdCmd (c : Nat) (d : Dev) : Dev :=
  match (pageOf (pUpd c) d).cmd, (engOf c d).running with
  | some ⟨0x41, a⟩, r =>
    if r.any (fun x => x.plan == a % 16) then d else settleEngine c (endCmd (pUpd c) true d)
  | some ⟨0x43, a⟩, r =>
    let first := a / 2 ^ 8 % 2 ^ 24
    if r.any (fun x => x.plan == a % 16 && decide (first ≤ x.chunk) && decide (x.chunk < first + a / 2 ^ 32)) then d
    else endCmd (pUpd c) true d
  | _, _ => d

end Sys2Proof.Machine
end

