-- ==== Sys2Proof/Machine/BelayOps.lean ====
section
/-!
DEFINITION. Counters and belay entries (R314 to R321): a change of a counter fires the entries that watch it, and opens the
start gates that watch it (R332).
-/

namespace Sys2Proof.Machine

/-! ### Order -/

/-- Puts `x` before the first element that `before` says it precedes. -/
def insertBy {α : Type} (before : α → α → Bool) (x : α) (l : List α) : List α :=
  match l with
  | [] => [x]
  | y :: r => if before x y then x :: y :: r else y :: insertBy before x r

/-- Sorts; elements that are equal keep their order. -/
def sortBy {α : Type} (before : α → α → Bool) (l : List α) : List α :=
  l.foldl (fun a x => insertBy before x a) []

def sortNat (l : List Nat) : List Nat := sortBy (fun a b => decide (a < b)) l

/-! ### Belay entries (R317 to R319) -/

def freshBelay : Belay := ⟨.idle, 0, 0, 0, 0, 0, 0, 0, 0, 0, 0, 0⟩
def belayKey (side e : Nat) : Nat := 1024 * side + e
def belayOf (side e : Nat) (d : Dev) : Belay := d.net.belay.get freshBelay (belayKey side e)
def putBelay (side e : Nat) (b : Belay) (d : Dev) : Dev :=
  modNet (fun n => { n with belay := n.belay.set (belayKey side e) b }) d

def entryOp (ctrl : Nat) : Nat := ctrl % 16
def entryRing (ctrl : Nat) : Nat := fieldOf ctrl 27 22
def ringOpCode (op : Nat) : Bool := 1 ≤ op && op ≤ 4

/-- The working copy that arming makes (R318); REPEAT 0 makes it DONE at once (R320). -/
def armedCopy (side e : Nat) (d : Dev) : Belay :=
  let r := fun off => rd (rBelay side e off) d
  { state := if r 0x14 = 0 then .done else .armed, fired := 0, work := BitVec.ofNat 32 (r 0x0C), ctrl := r 0,
    trigger := r 0x08, step := BitVec.ofNat 32 (r 0x10), repeat_ := r 0x14, firstPiece := r 0x18, firstChunk := r 0x1C,
    done := r 0x20, updTarget := r 0x24, updFirst := r 0x28 }

/-- The ring of an entry's field, which lies on its die's side. -/
def ringOfEntry (b : Belay) : Nat := entryRing b.ctrl

/-- A progress event of a pass (R338). -/
def progress (r : Nat) (d : Dev) : Dev := modRing r (fun x => { x with lastProgress := d.now, timer := 0 }) d

/-- The pass has fired an entry or taken an arrival: its step timer runs (R338). -/
def begin_ (r : Nat) (d : Dev) : Dev :=
  if (ringSt r d).begun then d else modRing r (fun x => { x with begun := true, lastProgress := d.now, timer := 0 }) d

/-- The record of a firing: one cell with its entry and its number (log entry 19). -/
def workRecord (e firing : Nat) : Work := ⟨e, firing, recordCells 3 (leBytes 2 e ++ leBytes 3 firing)⟩

/-- A firing becomes a record of RING_WORK, against credit; without credit it waits behind those that wait (R294, R318). -/
def enqueueWork (r : Nat) (w : Work) (d : Dev) : Dev :=
  let side := r / 24
  let q := 96 + r % 24
  if creditOf side q d < w.cells.length ∨ (ringSt r d).waiting ≠ [] then
    modRing r (fun x => { x with waiting := x.waiting ++ [w] }) d
  else
    let y := linkCells side q w.cells d
    modRing r (fun x => { x with work := x.work ++ [{ w with cells := y.2 }] }) y.1

/-- Firings that waited for credit become records (R318). -/
def admitWork (fuel r : Nat) (d : Dev) : Dev :=
  match fuel, (ringSt r d).waiting with
  | n + 1, w :: rest =>
    let side := r / 24
    let q := 96 + r % 24
    if creditOf side q d < w.cells.length then d
    else
      let y := linkCells side q w.cells d
      admitWork n r (modRing r (fun x => { x with work := x.work ++ [{ w with cells := y.2 }], waiting := rest }) y.1)
  | _, _ => d

/-- The triggers of an UPDATE_START firing (R319, R320). -/
def sendTriggers (side ctx plan chunk mask : Nat) (d : Dev) : Dev :=
  (List.range 24).foldl (fun x c =>
    if bitOf mask c = false then x
    else if inState (pUpd c) [.off, .retired] x then bump ⟨.belay, side, 0, 0x44⟩ x
    else takeClear c ctx ⟨plan, chunk, 0, false⟩ x) d

/-- What a firing does at once, and the counter that its end adds to, if it ends at once. -/
def fireOnce (side e : Nat) (b : Belay) (d : Dev) : Dev × List Nat :=
  let d0 := if entryRing b.ctrl < 48 then begin_ (entryRing b.ctrl) d else d
  let ended := if bitOf b.done 31 then [b.done % 512] else []
  if ringOpCode (entryOp b.ctrl) then (enqueueWork (ringOfEntry b) (workRecord e b.fired) d0, [])
  else if entryOp b.ctrl = 5 then
    (sendTriggers side (fieldOf b.ctrl 21 19) (fieldOf b.updTarget 27 24) (b.updFirst + b.fired)
      (b.updTarget % 2 ^ 24) d0, ended)
  else (d0, ended)

def counterOf (side c : Nat) (d : Dev) : Word := BitVec.ofNat 32 (rd (rCounter side c) d)

/-- An entry fires while its counter stands at or beyond its threshold (R318). -/
def fireEntry (fuel side e : Nat) (x : Dev × List Nat) : Dev × List Nat :=
  match fuel with
  | 0 => x
  | n + 1 =>
    let b := belayOf side e x.1
    if b.state = .armed ∧ reached (counterOf side b.trigger x.1) b.work then
      let b1 := { b with
        work := b.work + b.step, fired := b.fired + 1,
        state := if b.fired + 1 = b.repeat_ then .done else .armed }
      let y := fireOnce side e b (putBelay side e b1 x.1)
      fireEntry n side e (y.1, x.2 ++ y.2)
    else x

/-- ARMED entries of a die that watch a counter, in increasing number. -/
def watchers (side c : Nat) (d : Dev) : List Nat :=
  sortNat ((d.net.belay.filter (fun x => x.1 / 1024 == side && x.2.state == .armed && x.2.trigger == c)).map (·.1 % 1024))

/-- Firings that a die's armed entries have left. -/
def firingsLeft (side : Nat) (d : Dev) : Nat :=
  ((d.net.belay.filter (fun x => x.1 / 1024 == side && x.2.state == .armed)).map (fun x => x.2.repeat_ - x.2.fired)).foldl
    (· + ·) 0

/-! ### The start gate (R332) -/

/-- Opens a gate: the held records start in increasing entry number. -/
def openGate (r : Nat) (d : Dev) : Dev :=
  modRing r (fun x => { x with gated := false, work := sortBy (fun a b => decide (a.entry < b.entry)) x.work }) d

def judgeGate (r : Nat) (d : Dev) : Dev :=
  match (ringSt r d).pass with
  | some p =>
    if (ringSt r d).gated && reached (counterOf (r / 24) p.gateCounter d) p.gateThreshold then openGate r d else d
  | none => d

/-- The gates of a die that watch a counter. -/
def judgeGates (side c : Nat) (d : Dev) : Dev :=
  ((List.range 24).map (24 * side + ·)).foldl (fun x r =>
    match (ringSt r x).pass with
    | some p => if p.gateCounter = c then judgeGate r x else x
    | none => x) d

/-! ### Changes of counters (R314, R315) -/

/-- After a change: every watching entry is judged, then the gates. -/
def judgeCounter (side c : Nat) (d : Dev) : Dev × List Nat :=
  let y := (watchers side c d).foldl (fun x e =>
    fireEntry ((belayOf side e x.1).repeat_ - (belayOf side e x.1).fired) side e x) (d, [])
  (judgeGates side c y.1, y.2)

/-- Applies additions of 1 one at a time, with those that the firings they cause add in turn. -/
def applyAdds (fuel side : Nat) (todo : List Nat) (d : Dev) : Dev :=
  match fuel, todo with
  | n + 1, c :: r =>
    let y := judgeCounter side c (addWrap (rCounter side c) 1 d)
    applyAdds n side (r ++ y.2) y.1
  | _, _ => d

/-- Judges the entries after a change, and applies what they add. -/
def afterChange (side c : Nat) (d : Dev) : Dev :=
  let fuel := firingsLeft side d
  let y := judgeCounter side c d
  applyAdds fuel side y.2 y.1

/-- An addition to a counter, modulo 2³². -/
def counterAddN (side c n : Nat) (d : Dev) : Dev := afterChange side c (addWrap (rCounter side c) n d)

/-- The end of a ring op's firing: a failed one fails its entry, and DONE_COUNTER counts both (R509, R314). -/
def firingEnded (side e : Nat) (failed : Bool) (d : Dev) : Dev :=
  let b := belayOf side e d
  let d1 := if failed then raise (pBelay side) 16 (putBelay side e { b with state := .failed } d) else d
  if bitOf b.done 31 then counterAddN side (b.done % 512) 1 d1 else d1

/-- Arms an entry; its counter is judged at once (log entry 22). -/
def armOne (side e : Nat) (d : Dev) : Dev := putBelay side e (armedCopy side e d) d

/-- The additions that an entry's firings at arming cause. -/
def judgeArmed (side : Nat) (es : List Nat) (d : Dev) : Dev :=
  let fuel := firingsLeft side d
  let y := es.foldl (fun x e =>
    fireEntry ((belayOf side e x.1).repeat_ - (belayOf side e x.1).fired) side e x) (d, [])
  applyAdds fuel side y.2 y.1

/-- Disarms ARMED entries. -/
def disarmEntries (side : Nat) (es : List Nat) (d : Dev) : Dev :=
  es.foldl (fun x e =>
    let b := belayOf side e x
    if b.state = .armed then putBelay side e { b with state := .idle } x else x) d

end Sys2Proof.Machine
end

