-- ==== Sys2Proof/Machine/Compute.lean ====
section
/-!
DEFINITION. What the matrix and vector engines compute (05_arithmetic.md): operand arrays, output, the report record of R163,
MATMUL (R149 to R155) and the vector operations (R157 to R162).
-/

namespace Sys2Proof.Machine

/-- An array of a descriptor: format code, address, rows, elements per row, stride in 16-byte units, and the word that holds
its per-tensor scale or the address of its scale array. -/
structure Arr where
  code : Nat
  addr : Nat
  rows : Nat
  n : Nat
  ld : Nat
  scale : Nat

def formatOf (code : Nat) : Fmt := (fmtOf code).getD fp32

/-- Bytes of a row of `n` elements (R139). -/
def rowBytes (code n : Nat) : Nat := ((formatOf code).bits * n + 7) / 8

/-- An address of an element array, an accumulator or a report: bits [3:0] are ignored (R143). -/
def word16 (a : Nat) : Nat := a % 2 ^ 21 / 16 * 16

/-- The element bytes of an array, row by row, and its scale array. -/
def Arr.elemRanges (a : Arr) : List (Nat × Nat) := (List.range a.rows).map (fun i => (a.addr + 16 * a.ld * i, rowBytes a.code a.n))
def Arr.scaleRange (a : Arr) : List (Nat × Nat) := if isMx a.code then [(a.scale % 2 ^ 21, a.rows * (a.n / 32))] else []
def Arr.ranges (a : Arr) : List (Nat × Nat) := a.elemRanges ++ a.scaleRange

/-- No row is longer than its stride. -/
def Arr.rowsFit (a : Arr) : Bool := decide (rowBytes a.code a.n ≤ 16 * a.ld)

/-- The whole array may be named in that mode (R115). -/
def rangesFit (user : Bool) (l : List (Nat × Nat)) : Bool := l.all (fun r => inSram user r.1 r.2)

/-- One row as a number, element j at bits j × width. -/
def Arr.row (a : Arr) (k i : Nat) (d : Dev) : Nat := leNat (sramRead k (a.addr + 16 * a.ld * i) (rowBytes a.code a.n) d)
def elemBits (code row j : Nat) : Nat := row / 2 ^ ((formatOf code).bits * j) % 2 ^ (formatOf code).bits

/-- The scale byte of block b of row i (R143); 127 stands for 1 where the format has none. -/
def Arr.scaleOf (a : Arr) (k i b : Nat) (d : Dev) : Nat :=
  if isMx a.code then leNat (sramRead k (a.scale % 2 ^ 21 + i * (a.n / 32) + b) 1 d) else 127

/-- Row i decoded for the vector engine: FP32 values of an MX array, exact elements of another. -/
def Arr.values (a : Arr) (k i : Nat) (d : Dev) : List Val :=
  let r := a.row k i d
  (List.range a.n).map (fun j =>
    if isMx a.code then decodeMx (formatOf a.code) (a.scaleOf k i (j / 32) d) (elemBits a.code r j)
    else decodeFmt (formatOf a.code) (elemBits a.code r j))

/-! ### Results and reports -/

/-- What a command's results come to. -/
structure Tally where
  amax : Val
  sat : Nat
  nan : Nat
  invalid : Bool
  under : Bool
  ovfl : Bool
  nanIn : Bool

def noTally (nanIn : Bool) : Tally := ⟨.fin false 0 0, 0, 0, false, false, false, nanIn⟩

/-- One result: AMAX before OUT_SCALE, and the flags of its computation. -/
def tallyResult (r : Fl) (t : Tally) : Tally :=
  { t with
    amax := if r.v.isNan then t.amax else maxV t.amax r.v.abs
    invalid := t.invalid || r.inv
    ovfl := t.ovfl || r.ovf }

/-- One element as written, of result `r` and of `s`, what is converted; `voided` says that its block was written with scale
0xFF. -/
def tallyElement (f : Fmt) (r s : Val) (c : Conv) (voided : Bool) (t : Tally) : Tally :=
  let magnitude := if f.specials = .int8 then c.bits else c.bits % 2 ^ (f.bits - 1)
  { t with
    sat := t.sat + b2n c.sat
    nan := t.nan + b2n c.nan
    ovfl := t.ovfl || (c.inf && !s.isInf)
    under := t.under || (!voided && !c.nan && !r.isZero && magnitude == 0) }

/-- The report record (R163). -/
def reportBytes (t : Tally) : List Byte :=
  leBytes 4 (bits32 t.amax) ++ leBytes 4 (min m32 t.sat) ++ leBytes 4 (min m32 t.nan)
    ++ leBytes 4 (b2n t.nanIn + 2 * b2n t.ovfl + 4 * b2n t.under + 8 * b2n t.invalid)

/-- Elements of a row packed, element j at bits j × width. -/
def packRow (f : Fmt) (l : List Conv) : Nat :=
  match l with
  | [] => 0
  | c :: r => c.bits % 2 ^ f.bits + 2 ^ f.bits * packRow f r

/-- Pieces of `n` elements. -/
def piecesOf {α : Type} (fuel n : Nat) (l : List α) : List (List α) :=
  match fuel with
  | 0 => []
  | m + 1 => if l.isEmpty then [] else l.take n :: piecesOf m n (l.drop n)

/-- A row of results written plain: each is multiplied by OUT_SCALE and converted. -/
def plainRow (f : Fmt) (rm : Nat → Rounding) (scale : Val) (j : Nat) (l : List Fl) (t : Tally) : List Conv × Tally :=
  match l with
  | [] => ([], t)
  | r :: rest =>
    let s := mulFl { r with ovf := false, inv := false } (Fl.of scale)
    let c := convert f (rm j) s.v
    let t1 := tallyElement f r.v s.v c false (tallyResult r { t with ovfl := t.ovfl || s.ovf, invalid := t.invalid || s.inv })
    let y := plainRow f rm scale (j + 1) rest t1
    (c :: y.1, y.2)

/-- A row of results written in MX blocks by the scale tracker: elements, scales and tally. -/
def mxRow (f : Fmt) (ceil : Bool) (rm : Nat → Rounding) (j : Nat) (bs : List (List Fl)) (t : Tally) :
    List Conv × List Byte × Tally :=
  match bs with
  | [] => ([], [], t)
  | b :: rest =>
    let m := trackBlock f ceil (fun i => rm (j + i)) (b.map (·.v))
    let t1 := (b.zip m.elems).foldl (fun x e => tallyElement f e.1.v e.1.v e.2 (m.scale == 0xFF) (tallyResult e.1 x)) t
    let y := mxRow f ceil rm (j + 32) rest t1
    (m.elems ++ y.1, BitVec.ofNat 8 m.scale :: y.2.1, y.2.2)

/-- The writes of an output array, with its tally: row i starts at draw i × n. -/
def outRows (a : Arr) (ceil : Bool) (rm : Nat → Rounding) (i : Nat) (rows : List (List Fl)) (t : Tally) :
    List (Nat × List Byte) × Tally :=
  match rows with
  | [] => ([], t)
  | r :: rest =>
    let f := formatOf a.code
    let at_ := a.addr + 16 * a.ld * i
    let n := rowBytes a.code a.n
    if isMx a.code then
      let x := mxRow f ceil rm (i * a.n) (piecesOf (a.n / 32) 32 r) t
      let y := outRows a ceil rm (i + 1) rest x.2.2
      ((at_, leBytes n (packRow f x.1)) :: (a.scale % 2 ^ 21 + i * (a.n / 32), x.2.1) :: y.1, y.2)
    else
      let x := plainRow f rm (val32 a.scale) (i * a.n) r t
      let y := outRows a ceil rm (i + 1) rest x.2
      ((at_, leBytes n (packRow f x.1)) :: y.1, y.2)

/-- How output element j of a command rounds (R147, R148). -/
def roundingOf (k e code : Nat) (c : EngCmd) (j : Nat) : Rounding :=
  if bitOf (descW c.desc 0) 11 && code != 0 then
    let n := (c.draws.toNat + j) % 2 ^ 64
    .stochastic (philox16 (c.seed.toNat % 2 ^ 32, c.seed.toNat / 2 ^ 32) (n % 2 ^ 32, n / 2 ^ 32, e, k))
  else .nearest

/-! ### MATMUL -/

/-- The body of R150. -/
structure MatDesc where
  a : Arr
  b : Arr
  c : Arr
  acc : Arr
  accum : Bool
  ceil : Bool
  report : Bool
  reportAddr : Nat
  m : Nat
  n : Nat
  k : Nat

def matDesc (b : List Byte) : MatDesc :=
  let w8 := descW b 8
  let m := descW b 0xC % 65536
  let n := descW b 0xC / 65536
  let k := descW b 0x10 % 65536
  { a := ⟨w8 % 16, word16 (descW b 0x14), m, k, descW b 0x30 % 65536, descW b 0x24⟩
    b := ⟨fieldOf w8 7 4, word16 (descW b 0x18), n, k, descW b 0x30 / 65536, descW b 0x28⟩
    c := ⟨fieldOf w8 11 8, word16 (descW b 0x1C), m, n, descW b 0x34 % 65536, descW b 0x2C⟩
    acc := ⟨0, word16 (descW b 0x20), m, n, descW b 0x34 / 65536, 0⟩
    accum := bitOf w8 12, ceil := bitOf w8 13, report := bitOf w8 14, reportAddr := word16 (descW b 0x38)
    m := m, n := n, k := k }

def isFp4 (code : Nat) : Bool := code == 5 || code == 0xA
def isNarrow (code : Nat) : Bool := 3 ≤ code && code ≤ 0xB

/-- The K-slice of an operand pair, or none where the engine does not take it (R152). -/
def sliceOf (a b : Nat) : Option Nat :=
  if a = 0 ∧ b = 0 then some 1
  else if (a = 1 ∨ a = 2) ∧ (b = 1 ∨ b = 2) then some 4
  else if isFp4 a ∧ isFp4 b then some 32
  else if isNarrow a ∧ isNarrow b then some 16
  else none

/-- The arrays that a MATMUL reads and writes. -/
def matIns (m : MatDesc) : List (Nat × Nat) := m.a.ranges ++ m.b.ranges ++ (if m.accum then m.acc.ranges else [])
def reportRange (on : Bool) (a : Nat) : List (Nat × Nat) := if on then [(a, 16)] else []

/-- The checks of R153. -/
def matInRange (user : Bool) (m : MatDesc) : Bool :=
  (sliceOf m.a.code m.b.code).isSome && decide (m.c.code ≤ 0xB)
    && !((isMx m.a.code || isMx m.b.code) && m.k % 32 != 0)
    && !((isFp4 m.a.code || isFp4 m.b.code) && m.k % 2 != 0)
    && !(isMx m.c.code && m.n % 32 != 0) && !(m.c.code == 5 && m.n % 2 != 0)
    && m.a.rowsFit && m.b.rowsFit && m.c.rowsFit && (!m.accum || m.acc.rowsFit)
    && rangesFit user (matIns m ++ m.c.ranges ++ reportRange m.report m.reportAddr)

/-- Exact products and sums that note a NaN from operands that held none (R155, R163). -/
def exactMul (a b : Val) : Fl := ⟨mulV a b, false, (mulV a b).isNan && !a.isNan && !b.isNan⟩
def exactAdd (x y : Fl) : Fl :=
  let v := addV x.v y.v
  ⟨v, x.ovf || y.ovf, x.inv || y.inv || (v.isNan && !x.v.isNan && !y.v.isNan)⟩

/-- A row as the matrix engine reads it: elements without their block scales, NaN where the scale is. -/
def rawValues (a : Arr) (k i : Nat) (d : Dev) : List Val :=
  let r := a.row k i d
  (List.range a.n).map (fun j =>
    if isMx a.code ∧ a.scaleOf k i (j / 32) d = 0xFF then .nan else decodeFmt (formatOf a.code) (elemBits a.code r j))

/-- Exponents of a row's block scales, by block. -/
def rowScales (a : Arr) (k i : Nat) (d : Dev) : List Int :=
  (List.range (a.n / 32)).map (fun b => if isMx a.code then (a.scaleOf k i b d : Int) - 127 else 0)

/-- The loop of R154 over slices of (a, b) pairs. -/
def dotSlices (ks i : Nat) (xa xb : List Int) (slices : List (List (Val × Val))) (acc : Fl) : Fl :=
  match slices with
  | [] => acc
  | s :: rest =>
    let sum := s.foldl (fun x p => exactAdd x (exactMul p.1 p.2)) (Fl.of (.fin false 0 0))
    let block := i * ks / 32
    let scaled := pow2V sum.v (xa.getD block 0 + xb.getD block 0)
    let part := roundFl scaled sum.v sum.v (sum.ovf, sum.inv)
    dotSlices ks (i + 1) xa xb rest (addFl acc part)

/-- One result r of R154. -/
def matElement (ks : Nat) (av bv : List Val) (xa xb : List Int) (scale : Fl) (accIn : Option Val) : Fl :=
  let acc := dotSlices ks 0 xa xb (piecesOf av.length ks (av.zip bv)) (Fl.of (.fin false 0 0))
  let r := mulFl acc scale
  match accIn with
  | some v => addFl r (Fl.of v)
  | none => r

/-- A per-tensor scale; that of an MX operand counts as 1 (R154). -/
def tensorScale (a : Arr) : Val := if isMx a.code then oneV else val32 a.scale

/-- The results of a MATMUL, row by row, and whether an input was NaN. -/
def matResults (k : Nat) (m : MatDesc) (d : Dev) : List (List Fl) × Bool :=
  let ks := (sliceOf m.a.code m.b.code).getD 1
  let scale := mulFl (Fl.of (tensorScale m.a)) (Fl.of (tensorScale m.b))
  let bRows := (List.range m.n).map (fun j => (rawValues m.b k j d, rowScales m.b k j d))
  let aRows := (List.range m.m).map (fun i => (rawValues m.a k i d, rowScales m.a k i d))
  let accRows := (List.range m.m).map (fun i => if m.accum then m.acc.values k i d else [])
  let rows := (aRows.zip accRows).map (fun (a, acc) =>
    (List.range m.n).map (fun j =>
      let b := bRows.getD j ([], [])
      matElement ks a.1 b.1 a.2 b.2 scale (if m.accum then some (acc.getD j (.fin false 0 0)) else none)))
  let nan := fun (l : List (List Val)) => l.any (fun r => r.any (·.isNan))
  (rows, nan (aRows.map (·.1)) || nan (bRows.map (·.1)) || nan accRows)

/-! ### The vector engine -/

/-- The body of R158. -/
structure VecDesc where
  op : Nat
  a : Arr
  b : Arr
  c : Arr
  d : Arr
  scalar : Bool
  ceil : Bool
  report : Bool
  imm : Nat
  reportAddr : Nat
  len : Nat
  rows : Nat

def isReduction (op : Nat) : Bool := 0x20 ≤ op
def isFunction (op : Nat) : Bool := 0x10 ≤ op && op < 0x20
def usesB (op : Nat) (scalar : Bool) : Bool := 1 ≤ op && op ≤ 6 && !scalar
def usesC (op : Nat) : Bool := op == 4

/-- D of an operation: rows as A's, a dense row of ROWS values for a reduction, LEN rows of ROWS elements for TRANSPOSE. -/
def vecDesc (b : List Byte) : VecDesc :=
  let op := descOp b
  let w8 := descW b 8
  let len := descW b 0xC % 65536
  let rows := descW b 0xC / 65536
  let ldIn := descW b 0x20 % 65536
  let ldOut := descW b 0x20 / 65536
  let fd := fieldOf w8 15 12
  let dAddr := word16 (descW b 0x1C)
  let dScale := descW b 0x28
  { op := op
    a := ⟨w8 % 16, word16 (descW b 0x10), rows, len, ldIn, descW b 0x24⟩
    b := ⟨fieldOf w8 7 4, word16 (descW b 0x14), rows, len, ldIn, 0⟩
    c := ⟨fieldOf w8 11 8, word16 (descW b 0x18), rows, len, ldIn, 0⟩
    d := if isReduction op then ⟨fd, dAddr, 1, rows, 0, dScale⟩
      else if op = 8 then ⟨fd, dAddr, len, rows, ldOut, dScale⟩
      else ⟨fd, dAddr, rows, len, ldOut, dScale⟩
    scalar := bitOf w8 16, ceil := bitOf w8 17, report := bitOf w8 18, imm := descW b 0x2C
    reportAddr := word16 (descW b 0x30), len := len, rows := rows }

def vecIns (v : VecDesc) : List (Nat × Nat) :=
  v.a.ranges ++ (if usesB v.op v.scalar then v.b.ranges else []) ++ (if usesC v.op then v.c.ranges else [])

/-- The arrays that an operation uses. -/
def vecArrays (v : VecDesc) : List Arr :=
  [v.a, v.d] ++ (if usesB v.op v.scalar then [v.b] else []) ++ (if usesC v.op then [v.c] else [])

/-- The checks of R159. -/
def vecInRange (user : Bool) (v : VecDesc) : Bool :=
  (vecArrays v).all (fun x => decide (x.code ≤ 0xB))
    && !(usesB v.op v.scalar && isMx v.b.code) && !(usesC v.op && isMx v.c.code)
    && !(isReduction v.op && isMx v.d.code)
    && !(v.op == 8 && (v.d.code != v.a.code || decide (4 < v.a.code)))
    && !((isMx v.a.code || isMx v.d.code) && v.len % 32 != 0)
    && (vecArrays v).all (fun x => !(isFp4 x.code && x.n % 2 != 0))
    && v.a.rowsFit && (!usesB v.op v.scalar || v.b.rowsFit) && (!usesC v.op || v.c.rowsFit)
    && (isReduction v.op || v.d.rowsFit)
    && rangesFit user (vecIns v ++ v.d.ranges ++ reportRange v.report v.reportAddr)

/-- What an elementwise operation or a function makes of its decoded operands. -/
def vecElement (op stepping : Nat) (imm : Val) (a b c : Fl) : Fl :=
  match op with
  | 1 => addFl a b
  | 2 => addFl a { b with v := b.v.neg }
  | 3 => mulFl a b
  | 4 => fmaFl a b c
  | 5 => ⟨maxV a.v b.v, a.ovf || b.ovf, a.inv || b.inv⟩
  | 6 => ⟨minV a.v b.v, a.ovf || b.ovf, a.inv || b.inv⟩
  | 7 => a
  | _ =>
    let s := mulFl a (Fl.of imm)
    let f := funcOf op stepping s.v
    ⟨f, s.ovf || (f.isInf && !s.v.isInf), s.inv || (f.isNan && !s.v.isNan)⟩

/-- Element k of a row into lane k mod 64 (R160). -/
def intoLanes (square : Bool) (k : Nat) (l : List Fl) (lanes : List Fl) : List Fl :=
  match l with
  | [] => lanes
  | x :: r =>
    let old := lanes.getD (k % 64) (Fl.of (.fin false 0 0))
    intoLanes square (k + 1) r (lanes.set (k % 64) (if square then fmaFl x x old else addFl old x))

/-- Neighbours in pairs. -/
def addPairs (l : List Fl) : List Fl :=
  match l with
  | x :: y :: r => addFl x y :: addPairs r
  | l => l

/-- A reduction of one row (R157, R160). -/
def reduceRow (op : Nat) (l : List Fl) : Fl :=
  let flags := fun (v : Val) => (⟨v, l.any (·.ovf), l.any (·.inv)⟩ : Fl)
  let vals := l.map (·.v)
  let tree := fun sq => (addPairs (addPairs (addPairs (addPairs (addPairs (addPairs
    (intoLanes sq 0 l (List.replicate 64 (Fl.of (.fin false 0 0)))))))))).headD (Fl.of (.fin false 0 0))
  match op with
  | 0x20 => tree false
  | 0x23 => tree true
  | 0x21 => flags (vals.tail.foldl maxV (vals.headD .nan))
  | 0x22 => flags (vals.tail.foldl minV (vals.headD .nan))
  | _ => flags (vals.tail.foldl (fun x y => maxV x y.abs) (vals.headD .nan).abs)

/-- Row i of A as R159 step 1 gives it. A finite element of an MX block that its scale takes beyond FP32 is an infinity from a
finite computation (R144, R163). -/
def scaledRow (v : VecDesc) (k i : Nat) (d : Dev) : List Fl :=
  if isMx v.a.code then ((rawValues v.a k i d).zip (v.a.values k i d)).map (fun x => ⟨x.2, x.2.isInf && !x.1.isInf, false⟩)
  else (v.a.values k i d).map (fun x => mulFl (Fl.of x) (Fl.of (val32 v.a.scale)))

/-- Results of the elementwise operations and functions, by row. -/
def vecRow (v : VecDesc) (k i : Nat) (d : Dev) : List Fl :=
  let a := scaledRow v k i d
  let b := if usesB v.op v.scalar then v.b.values k i d else []
  let c := if usesC v.op then v.c.values k i d else []
  let stepping := (Config.stepping (dieOfCore k)).toNat
  (List.range v.len).map (fun j =>
    vecElement v.op stepping (val32 v.imm) (a.getD j (Fl.of .nan))
      (Fl.of (if v.scalar then val32 v.imm else b.getD j .nan)) (Fl.of (c.getD j .nan)))

/-- An input element or block scale is NaN. -/
def vecNanIn (v : VecDesc) (k : Nat) (d : Dev) : Bool :=
  (List.range v.rows).any (fun i =>
    (v.a.values k i d).any (·.isNan) || (usesB v.op v.scalar && (v.b.values k i d).any (·.isNan))
      || (usesC v.op && (v.c.values k i d).any (·.isNan)))

/-- Output of TRANSPOSE: bits copied; its report counts the elements that it copies (log entry 27). -/
def transposeOut (v : VecDesc) (k : Nat) (d : Dev) : List (Nat × List Byte) × Tally :=
  let f := formatOf v.a.code
  let rowsA := (List.range v.rows).map (fun i => v.a.row k i d)
  let cols := (List.range v.len).map (fun j => rowsA.map (fun r =>
    (⟨elemBits v.a.code r j, false, (decodeFmt f (elemBits v.a.code r j)).isNan, false⟩ : Conv)))
  let writes := (List.range v.len).zip cols |>.map (fun (j, col) =>
    (v.d.addr + 16 * v.d.ld * j, leBytes (rowBytes v.d.code v.rows) (packRow f col)))
  let t := cols.flatten.foldl (fun x c => tallyElement f (decodeFmt f c.bits) (decodeFmt f c.bits) c false
    (tallyResult (Fl.of (decodeFmt f c.bits)) x)) (noTally (vecNanIn v k d))
  (writes, t)

/-- The writes and the tally of a vector command. -/
def vecOut (v : VecDesc) (k : Nat) (c : EngCmd) (d : Dev) : List (Nat × List Byte) × Tally :=
  let rm := roundingOf k 1 v.d.code c
  let t0 := noTally (vecNanIn v k d)
  if v.op = 8 then transposeOut v k d
  else if isReduction v.op then
    outRows v.d v.ceil rm 0 [(List.range v.rows).map (fun i => reduceRow v.op (scaledRow v k i d))] t0
  else outRows v.d v.ceil rm 0 ((List.range v.rows).map (fun i => vecRow v k i d)) t0

/-- An elementwise D that coincides exactly with an input (R162). -/
def coincides (v : VecDesc) (x : Arr) : Bool :=
  !isReduction v.op && v.op != 8 && x.addr == v.d.addr && x.ld == v.d.ld
    && (formatOf x.code).bits == (formatOf v.d.code).bits

/-- What D's elements may not meet. -/
def vecForeign (v : VecDesc) : List (Nat × Nat) :=
  (if coincides v v.a then v.a.scaleRange else v.a.ranges)
    ++ (if usesB v.op v.scalar && !coincides v v.b then v.b.ranges else [])
    ++ (if usesC v.op && !coincides v v.c then v.c.ranges else [])

/-! ### The work of a command -/

/-- What a command reads, its output arrays' ranges, each with what it may not meet, and what it writes. -/
structure EngWork where
  ins : List (Nat × Nat)
  outs : List (List (Nat × Nat) × List (Nat × Nat))
  writes : List (Nat × List Byte)

/-- MATMUL on the inputs that SRAM holds (R153 to R156). -/
def matWork (k : Nat) (c : EngCmd) (d : Dev) : EngWork :=
  let m := matDesc c.desc
  let res := matResults k m d
  let out := outRows m.c m.ceil (roundingOf k 0 m.c.code c) 0 res.1 (noTally res.2)
  let rep := reportRange m.report m.reportAddr
  let inPlace := m.accum && m.c.code == 0 && m.acc.addr == m.c.addr && m.acc.ld == m.c.ld
  let free := if inPlace then m.a.ranges ++ m.b.ranges else matIns m
  ⟨matIns m,
    [(m.c.elemRanges, free ++ m.c.scaleRange ++ rep), (m.c.scaleRange, matIns m ++ m.c.elemRanges ++ rep),
     (rep, matIns m ++ m.c.ranges)],
    out.1 ++ (if m.report then [(m.reportAddr, reportBytes out.2)] else [])⟩

/-- A vector command on the inputs that SRAM holds (R159 to R162). -/
def vecWork (k : Nat) (c : EngCmd) (d : Dev) : EngWork :=
  let v := vecDesc c.desc
  let out := vecOut v k c d
  let rep := reportRange v.report v.reportAddr
  ⟨vecIns v,
    [(v.d.elemRanges, vecForeign v ++ v.d.scaleRange ++ rep), (v.d.scaleRange, vecIns v ++ v.d.elemRanges ++ rep),
     (rep, vecIns v ++ v.d.ranges)],
    out.1 ++ (if v.report then [(v.reportAddr, reportBytes out.2)] else [])⟩

def workOf (k e : Nat) (c : EngCmd) (d : Dev) : EngWork := if e = 0 then matWork k c d else vecWork k c d

end Sys2Proof.Machine
end

