-- ==== Sys2Proof/Machine/Races.lean ====
section
/-!
DEFINITION. Message descriptors (R116), and what the manual leaves undefined where two accesses meet (R156, R162, R179, R180,
R239): the bytes concerned are free values (log entry 7).
-/

namespace Sys2Proof.Machine

/-! ### Ranges and free bytes -/

def meets (xs ys : List (Nat × Nat)) : Bool := !(commonRanges xs ys).isEmpty

/-- The 16-byte words that a range touches. -/
def wordsOf (r : Nat × Nat) : Nat × Nat :=
  if r.2 = 0 then r else (r.1 / 16 * 16, (r.1 + r.2 + 15) / 16 * 16 - r.1 / 16 * 16)

/-- Undefined bytes of a core's SRAM. -/
def freeBytes (k : Nat) (l : List (Nat × Nat)) (d : Dev) : Dev :=
  l.foldl (fun x r => sramWrite k r.1 (freeList r.2 x) [] { x with fresh := x.fresh + r.2 }) d

/-- A payload as it lands at `a`: free where its message's target range is undefined. -/
def landed (raced : List (Nat × Nat)) (a : Nat) (bs : List Byte) (d : Dev) : List Byte × Dev :=
  if raced.isEmpty then (bs, d)
  else
    ((List.range bs.length).map (fun i =>
      if raced.any (fun r => decide (r.1 ≤ a + i) && decide (a + i < r.1 + r.2)) then (Config.freeBits (d.fresh + i)).setWidth 8
      else bs.getD i 0), { d with fresh := d.fresh + bs.length })

/-! ### Message descriptors (R116) -/

structure MsgDesc where
  flag : Nat
  fence : Bool
  flagEn : Bool
  target : Nat
  get : Bool
  inc : Nat
  localAddr : Nat
  length : Nat
  remote : Nat
  x : Nat
  y : Nat
  x2 : Nat
  y2 : Nat

/-- Reads a descriptor; whole 16-byte words move (R117). -/
def msgDesc (b : List Byte) : MsgDesc :=
  let w8 := descW b 8
  let w20 := descW b 0x20
  let target := fieldOf w8 7 4
  let remote := leAt b 0x18 8
  { flag := fieldOf w8 21 16, fence := bitOf w8 9, flagEn := bitOf w8 8, target := target, get := w8 % 16 == 1,
    inc := descW b 0xC, localAddr := descW b 0x10 % 2 ^ 21 / 16 * 16, length := descW b 0x14 % 2 ^ 17 / 16 * 16,
    remote := if target = 3 then remote else remote / 16 * 16,
    x := w20 % 64, y := fieldOf w20 13 8, x2 := fieldOf w20 21 16, y2 := fieldOf w20 29 24 }

def MsgDesc.here (m : MsgDesc) : List (Nat × Nat) := [(m.localAddr, m.length)]
def MsgDesc.there (m : MsgDesc) : List (Nat × Nat) := [(m.remote, m.length)]

def placesOf (lo hi : Nat) : List Nat := (List.range (hi + 1 - lo)).map (· + lo)

/-- The core at a place of a line: a row, or a column. -/
def lineCore (row : Bool) (line p : Nat) : Nat := if row then coreAt p line else coreAt line p

/-- Cores into which a message writes. -/
def MsgDesc.cores (m : MsgDesc) : List Nat :=
  if m.get then []
  else match m.target with
    | 0 => [coreAt m.x m.y]
    | 4 => (placesOf m.x m.x2).map (lineCore true m.y)
    | 5 => (placesOf m.y m.y2).map (lineCore false m.x)
    | _ => []

/-- A PUT to module memory. -/
def MsgDesc.toMemory (m : MsgDesc) : Bool := !m.get && m.target == 1

/-- Where parts of a message's local range land at its target. -/
def MsgDesc.landing (m : MsgDesc) (l : List (Nat × Nat)) : List (Nat × Nat) :=
  (commonRanges l m.here).map (fun r => (r.1 - m.localAddr + (if m.target = 2 then 0 else m.remote), r.2))

/-! ### Commands that run, messages in flight -/

/-- Commands that an engine of a core has started and not completed. -/
def running (k e : Nat) (d : Dev) : List EngCmd :=
  (engineOf (coreOf k d) e).cmds.filter (fun c => c.started && !c.completed)

/-- Messages in flight, each with its sender. -/
def inFlight (d : Dev) : List (Nat × EngCmd) :=
  d.cores.flatMap (fun x =>
    ((engineOf x.2 2).cmds.filter (fun c => c.started && c.ended.isNone)).map (fun c => (x.1, c)))

/-- More of a message's target range is undefined. -/
def addRaced (k : Nat) (ticket : Word) (l : List (Nat × Nat)) (d : Dev) : Dev :=
  if l.isEmpty then d else modCmd k 2 ticket (fun x => { x with raced := x.raced ++ l }) d

/-- The 16-byte words of ranges, by address. -/
def wordsIn (l : List (Nat × Nat)) : List Nat :=
  (l.flatMap (fun r => if r.2 = 0 then [] else
    (List.range ((r.1 + r.2 + 15) / 16 - r.1 / 16)).map (fun i => r.1 / 16 * 16 + 16 * i))).eraseDups

def keptWord (k : Nat) (d : Dev) (a : Nat) : KeptWord := ⟨a, sramRead k a 16 d, sramPoisoned k a 1 d⟩

/-- SRAM with words as they were kept, to compute from. -/
def withKept (k : Nat) (l : List KeptWord) (d : Dev) : Dev := l.foldl (fun x w => sramStore k w.addr w.bytes x) d

/-- The outputs of a command from its kept inputs (R100, R156, R162): poisoned input poisons every output word; else the
output is written, and what of it overlaps an input, another output or the descriptor, or was written by another agent, is
undefined. -/
def writeOutputs (k e : Nat) (c : EngCmd) (d : Dev) : Dev :=
  let w := workOf k e c (withKept k c.inputs d)
  if c.inputs.any (·.poisoned) then
    freeBytes k c.spoilt (w.outs.foldl (fun x o => o.1.foldl (fun y r => sramPoisonRange k r.1 r.2 y) x) d)
  else
    freeBytes k (c.spoilt ++ w.outs.flatMap (fun o => commonRanges o.1 ((c.addr, 64) :: o.2)))
      (w.writes.foldl (fun x v => sramWrite k v.1 v.2 [] x) d)

/-- The result of a command whose work is over: its inputs decide whether it meets poison. -/
def outcomeOf (c : EngCmd) : Result × Nat := if c.inputs.any (·.poisoned) then (.failed, 1) else (.done, 0)

/-- For each kept input word in `ws`, the command is left with the old word or the new one (R156). -/
def oldOrNew (k : Nat) (ws : List (Nat × Nat)) (l : List KeptWord) (now d : Dev) : List KeptWord × Dev :=
  l.foldl (fun x w =>
    if meets ws [(w.addr, 16)] then
      (x.1 ++ [if (drawFree x.2).getLsbD 0 then keptWord k now w.addr else w], tickFree x.2)
    else (x.1 ++ [w], x.2)) ([], d)

/-- Another agent has written words that a running engine command reads or writes: each input word is the old or the new, and
the results follow; output words are undefined (R156, R162). -/
def disturb (k e : Nat) (ws : List (Nat × Nat)) (c : EngCmd) (d : Dev) : Dev :=
  let hit := commonRanges c.writes ws
  let d1 := freeBytes k hit (modCmd k e c.ticket (fun x => { x with spoilt := x.spoilt ++ hit }) d)
  if meets ws (c.inputs.map (fun w => (w.addr, 16))) then
    let y := oldOrNew k ws c.inputs d d1
    let c1 := { c with inputs := y.1, spoilt := c.spoilt ++ hit }
    writeOutputs k e c1 (modCmd k e c.ticket (fun x => { x with inputs := y.1, ended := some (outcomeOf c1) }) y.2)
  else d1

/-- Another agent than the command `own` (engine, ticket) has written ranges of a core's SRAM: what engine commands that run
make of them is undefined as R156 and R162 say, what a running GET has yet to write of them is (R179), and so is what a
running PUT sends of them (R180). -/
def agentWrote (k : Nat) (own : Option (Nat × Word)) (w : List (Nat × Nat)) (d : Dev) : Dev :=
  let ws := w.map wordsOf
  let others := fun e => (running k e d).filter (fun c => own != some (e, c.ticket))
  let d1 := (others 0).foldl (fun x c => disturb k 0 ws c x) d
  let d2 := (others 1).foldl (fun x c => disturb k 1 ws c x) d1
  (others 2).foldl (fun x c => addRaced k c.ticket ((msgDesc c.desc).landing (commonRanges c.reads ws)) x)
    (freeBytes k ((others 2).flatMap (fun c => commonRanges c.writes ws)) d2)

/-! ### Scalar stores into a message's target (R180) -/

/-- Some bytes of a word as a scalar store leaves them. -/
def overBytes (word : List Byte) (bytes : List (Nat × Byte)) : List Byte := bytes.foldl (fun l b => l.set b.1 b.2) word

/-- A scalar store meets an incoming message in one word: until the message completes at the core the word is undefined, and
the data of both are kept. -/
def contestWord (a n : Nat) (before : List Byte) (bs : List Byte) (w : Nat) (x : Arrival) : Arrival :=
  let stored := (List.range n).filterMap (fun i => if (a + i) / 16 * 16 = w then some ((a + i) % 16, bs.getD i 0) else none)
  match x.contests.find? (fun c => c.addr == w) with
  | some c => { x with contests := x.contests.map (fun y => if y.addr = c.addr then { y with bytes := y.bytes ++ stored } else y) }
  | none => { x with contests := x.contests ++ [⟨w, if meets x.wrote [(w, 16)] then some before else none, stored⟩] }

/-- The places of a core's entries of messages that write a range, each with the words concerned. -/
def contested (k a n : Nat) (d : Dev) : List (Nat × List Nat) :=
  (coreOf k d).arrivals.zipIdx.filterMap (fun x =>
    match (inFlight d).find? (fun o => o.1 == x.1.source && o.2.msgId == x.1.msgId) with
    | none => none
    | some o =>
      let ws := wordsIn (commonRanges (msgDesc o.2.desc).there [wordsOf (a, n)])
      if ws.isEmpty || !(msgDesc o.2.desc).cores.contains k then none else some (x.2, ws))

/-- A scalar store of a core: as another agent, and beside messages that write the same words (R180). -/
def scalarStore (k a : Nat) (bs : List Byte) (d : Dev) : Dev :=
  let n := bs.length
  let hits := contested k a n d
  let d1 := agentWrote k none [(a, n)] (breakReservation k a n (sramStore k a bs d))
  hits.foldl (fun x h =>
    freeBytes k (h.2.map (fun w => (w, 16))) (modCore k (fun c => { c with
      arrivals := c.arrivals.modify h.1 (fun y => h.2.foldl (fun z w => contestWord a n (sramRead k w 16 d) bs w z) y) }) x)) d1

/-- The message has completed at the core: each contested word holds the message's data or the store's. -/
def settleContests (k : Nat) (l : List Contest) (d : Dev) : Dev :=
  l.foldl (fun x c =>
    match c.data with
    | none => tickFree x
    | some m => tickFree (sramStore k c.addr (if (drawFree x).getLsbD 0 then overBytes m c.bytes else m) x)) d

/-! ### Commands and messages that start -/

/-- What an input word of a starting command may have been: what it held before another running command's output (R156). -/
def earlierWord (k e : Nat) (ticket : Word) (w : KeptWord) (d : Dev) : Option KeptWord :=
  ([0, 1].flatMap (fun f => (running k f d).filter (fun c => !(f == e && c.ticket == ticket)))).findSome? (fun c =>
    c.olds.find? (fun o => o.addr == w.addr))

/-- An engine command starts: it keeps its input words, each of which may be the one before another command that runs, writes
its outputs, and meets what runs. -/
def beginWork (k e : Nat) (c : EngCmd) (d : Dev) : Dev :=
  let w := workOf k e c d
  let outs := w.outs.flatMap (·.1)
  let y := (wordsIn w.ins).foldl (fun (x : List KeptWord × Dev) a =>
    let now := keptWord k d a
    match earlierWord k e c.ticket now d with
    | some o => (x.1 ++ [if (drawFree x.2).getLsbD 0 then o else now], tickFree x.2)
    | none => (x.1 ++ [now], x.2)) ([], d)
  let c1 := { c with
    started := true, startGen := fpGen d, reads := w.ins, writes := outs, inputs := y.1,
    olds := (wordsIn outs).map (keptWord k d) }
  let c2 := { c1 with ended := some (outcomeOf c1) }
  agentWrote k (some (e, c.ticket)) outs (writeOutputs k e c2 (modCmd k e c.ticket (fun _ => c2) y.2))

/-- The core that a GET reads from. -/
def MsgDesc.source (m : MsgDesc) : List Nat := if m.get && m.target == 0 then [coreAt m.x m.y] else []

/-- A GET and a PUT in flight at the same time: what the GET reads of the PUT's target range is undefined (R179). -/
def getMeetsPut (g : MsgDesc) (p : MsgDesc) : List (Nat × Nat) :=
  let same := (g.target == 1 && p.toMemory) || g.source.any (fun t => p.cores.contains t)
  if same then (commonRanges g.there p.there).map (fun r => (r.1 - g.remote + g.localAddr, r.2)) else []

/-- One message in flight beside another that has started: where both write one place, both leave it undefined (R179). -/
def messagesMeet (k : Nat) (c : EngCmd) (o : Nat × EngCmd) (d : Dev) : Dev :=
  let m := msgDesc c.desc
  let n := msgDesc o.2.desc
  if o.1 = k ∧ o.2.ticket = c.ticket then d
  else if m.get && n.get && o.1 == k then
    let l := commonRanges m.here n.here
    freeBytes k l (addRaced k c.ticket l (addRaced k o.2.ticket l d))
  else if m.get then addRaced k c.ticket (getMeetsPut m n) d
  else if n.get then addRaced o.1 o.2.ticket (getMeetsPut n m) d
  else
    let l := commonRanges m.there n.there
    let ts := m.cores.filter (fun t => n.cores.contains t)
    if m.toMemory && n.toMemory then freeMemory l (addRaced k c.ticket l (addRaced o.1 o.2.ticket l d))
    else if ts.isEmpty then d
    else
      (ts.filter (fun t => coreTakes t d)).foldl (fun x t => freeBytes t l x)
        (addRaced k c.ticket l (addRaced o.1 o.2.ticket l d))

/-- A message starts: it reads or writes its local range, and meets what runs and what is in flight (R179, R180). -/
def messageMeets (k : Nat) (c : EngCmd) (d : Dev) : Dev :=
  let m := msgDesc c.desc
  let d1 := modCmd k 2 c.ticket (fun x => { x with
    reads := if m.get then [] else m.here, writes := if m.get then m.here else [] }) d
  let busy := ([0, 1, 2].flatMap (fun e => (running k e d).filter (fun x => !(e == 2 && x.ticket == c.ticket)))).flatMap (·.writes)
  let d2 := if m.get then d1 else addRaced k c.ticket (m.landing busy) d1
  (inFlight d).foldl (fun x o => messagesMeet k c o x) d2

/-! ### Lines of armed chunks (R239) -/

/-- The chunks of an engine that are ARMED, PENDING or RUNNING, with their plans; one that runs may have lost its plan. -/
def openChunks (g : UpdEng) : List (Plan × Nat × ChunkState) :=
  g.plans.flatMap (fun np => g.table.filterMap (fun e =>
    let p := np.2
    if decide (p.stateBase ≤ e.1) && decide (e.1 < p.stateBase + p.chunks) && [.armed, .pending, .running].contains e.2.1
    then some (p, e.1 - p.stateBase, e.2.1) else none))
  ++ (match g.running with | some r => [(r.copy, r.chunk, .running)] | none => [])

/-- The line belongs to a stream of a chunk that is ARMED, PENDING or RUNNING in an engine other than the writer. What a ring
stores in the trigger stream of an ARMED chunk is what that chunk waits for (R235, R330; log entry 51). -/
def streamLine (writer : Option Nat) (ring : Bool) (l : Nat) (d : Dev) : Bool :=
  match d.memMap with
  | none => false
  | some m => d.engines.any (fun g => some g.1 != writer && (openChunks g.2).any (fun x =>
      (shareOf g.1 x.1 x.2.1 m).any (fun a => x.1.streams.any (fun s =>
        s.mode != 0 && !(ring && s.mode == 1 && x.2.2 == .armed) && elementAt m x.1 s a / 64 == l))))

/-- An agent other than the engines and the rings has written a range of module memory: such lines are undefined. -/
def memWrote (a n : Nat) (d : Dev) : Dev :=
  freeMemory (((linesIn a n).filter (fun l => streamLine none false l d)).map (fun l => (64 * l, 64))) d

/-- A ring has written a range of module memory. -/
def ringWrote (a n : Nat) (d : Dev) : Dev :=
  freeMemory (((linesIn a n).filter (fun l => streamLine none true l d)).map (fun l => (64 * l, 64))) d

end Sys2Proof.Machine
end

