-- ==== Sys2Proof/Machine/Route.lean ====
section
/-!
DEFINITION. The mesh as a network (R166 to R175): header flits and payload flits, endpoints, virtual channels with their
buffers, and the way that a packet takes from router to router.
-/

namespace Sys2Proof.Machine

/-! ### Kinds and flits (R166, R168 to R170) -/

def kindCode (k : PacketKind) : Nat :=
  match k with
  | .put => 0 | .putMem => 1 | .getReq => 2 | .getData => 3 | .completion => 4 | .counterAdd => 5 | .updatePut => 6
  | .mcPut => 7 | .relayPut => 8

/-- The kind of a code; the table lists no other (R170). -/
def kindOf (n : Nat) : Option PacketKind :=
  [PacketKind.put, .putMem, .getReq, .getData, .completion, .counterAdd, .updatePut, .mcPut, .relayPut][n]?

/-- The class of a kind: response, or request. -/
def isResponse (k : PacketKind) : Bool := k == .getData || k == .completion

def payWords (p : Packet) : Nat := (p.payload.length + 15) / 16

/-- One header flit and two payload words in each further flit (R168). -/
def flitCount (p : Packet) : Nat := 1 + (payWords p + 1) / 2

/-- The sum of fields, each with its place and width. -/
def packFields (l : List (Nat × Nat × Nat)) : Nat := l.foldl (fun n f => n + f.1 % 2 ^ f.2.2 * 2 ^ f.2.1) 0

/-- Word 0 of the header flit (R169). -/
def headerWord0 (p : Packet) : BitVec 128 :=
  BitVec.ofNat 128 (packFields [(p.dx, 0, 7), (p.dy, 7, 7), (p.sx, 14, 7), (p.sy, 21, 7), (kindCode p.kind, 28, 4), (p.ctx, 32, 3),
    (p.msgId, 35, 8), (p.index, 43, 7), (p.last, 50, 7), (payWords p, 57, 6), (b2n p.wp.isSome, 63, 1),
    ((p.wp.getD (0, 0)).1, 64, 7), ((p.wp.getD (0, 0)).2, 71, 7), (b2n p.leg, 78, 1), (p.runHi, 79, 6), (p.relayEnd, 85, 6),
    (p.flag, 91, 6), (b2n p.flagEn, 97, 1), (resultCode p.result, 98, 4), (p.detail, 102, 4)])

/-- Word 1 of the header flit. -/
def headerWord1 (p : Packet) : BitVec 128 :=
  BitVec.ofNat 128 (packFields [(p.address, 0, 64), (p.amount, 64, 32), (p.returnAddr, 96, 21)])

/-- The result of a code, for a header that carries one. -/
def resultOfCode (n : Nat) : Result :=
  match n with
  | 0 => .done | 1 => .busy | 2 => .rejectedState | 3 => .rejectedRange | 4 => .rejectedVersion | _ => .failed

/-- A packet as its header flit reads; none where KIND is not listed (R170). -/
def withHeader (h0 h1 : BitVec 128) (p : Packet) : Option Packet :=
  let w := h0.toNat
  let v := h1.toNat
  (kindOf (fieldOf w 31 28)).map (fun k => { p with
    kind := k, dx := fieldOf w 6 0, dy := fieldOf w 13 7, sx := fieldOf w 20 14, sy := fieldOf w 27 21, ctx := fieldOf w 34 32,
    msgId := fieldOf w 42 35, index := fieldOf w 49 43, last := fieldOf w 56 50, payload := p.payload.take (16 * fieldOf w 62 57),
    wp := if bitOf w 63 then some (fieldOf w 70 64, fieldOf w 77 71) else none, leg := bitOf w 78, runHi := fieldOf w 84 79,
    relayEnd := fieldOf w 90 85, flag := fieldOf w 96 91, flagEn := bitOf w 97, result := resultOfCode (fieldOf w 101 98),
    detail := fieldOf w 105 102, address := fieldOf v 63 0, amount := fieldOf v 95 64, returnAddr := fieldOf v 116 96 })

/-- Payload word `i` as it travels; the padding word of an odd payload is zero. -/
def payloadWord (p : Packet) (i : Nat) : BitVec 144 :=
  if p.poison.contains i then poisonedWord else codeword (BitVec.ofNat 128 (leNat ((p.payload.drop (16 * i)).take 16)))

/-- The 288 bits of flit `f`: two codewords (R166). -/
def flitBits (p : Packet) (f : Nat) : BitVec 288 :=
  if f = 0 then codeword (headerWord1 p) ++ codeword (headerWord0 p)
  else payloadWord p (2 * f - 1) ++ payloadWord p (2 * f - 2)

/-! ### Routers, links and endpoints (R12, R166, R167) -/

def freshRouter : Router := ⟨0, 0, []⟩
def routerOf (k : Nat) (d : Dev) : Router := d.routers.get freshRouter k

/-- The code of a router's link to a side: each link has one code, at its west or south end (R364). -/
def linkCode (k side : Nat) : Nat :=
  let x := coreX k
  let y := coreY k
  match side with
  | 0 => if x = 0 then uLink 2 k else uLink 0 (coreAt (x - 1) y)
  | 1 => if y = 0 then uLink 3 k else uLink 1 (coreAt x (y - 1))
  | 2 => uLink 0 k
  | _ => uLink 1 k

/-- The link at a router's port; a local port has none. -/
def linkOfPort (k : Nat) (port : MeshPort) : Option Nat :=
  match port with
  | .west => some (linkCode k 0)
  | .south => some (linkCode k 1)
  | .east => some (linkCode k 2)
  | .north => some (linkCode k 3)
  | .localPort => none

/-- The link at the port is usable, where the port has one. -/
def linkUsable (k : Nat) (port : MeshPort) (d : Dev) : Bool :=
  match linkOfPort k port with
  | some u => usable u d
  | none => true

/-- Column and row on the grid of the edge router that reaches a coordinate. -/
def gridX (x : Nat) : Nat := if x = 0x7F then 0 else min x 63
def gridY (y : Nat) : Nat := if y = 0x7F then 0 else min y 39

/-- The router at a coordinate, and its port to the endpoint there. -/
def routerAt (x y : Nat) : Nat := coreAt (gridX x) (gridY y)
def portAt (x y : Nat) : MeshPort :=
  if x = 0x7F then .west else if 63 < x then .east else if y = 0x7F then .south else if 39 < y then .north else .localPort

/-- The router beyond a port. -/
def nextRouter (k : Nat) (port : MeshPort) : Option Nat :=
  let x := coreX k
  let y := coreY k
  match port with
  | .west => if x = 0 then none else some (k - 1)
  | .east => if x < 63 then some (k + 1) else none
  | .south => if y = 0 then none else some (k - 64)
  | .north => if y < 39 then some (k + 64) else none
  | .localPort => none

/-- The port at the other end of a link. -/
def otherEnd (port : MeshPort) : MeshPort :=
  match port with
  | .west => .east | .east => .west | .south => .north | .north => .south | .localPort => .localPort

/-- A packet may leave by the port: its link and the next router are usable (R173). -/
def wayOpen (k : Nat) (port : MeshPort) (d : Dev) : Bool :=
  match nextRouter k port with
  | some r => linkUsable k port d && usable (uRouter r) d
  | none => false

/-! ### Multicast runs (R183, R185) -/

/-- The ports by which a router of a run passes a packet on, away from the entry router; a relay along a row also starts a
column at each router. -/
def runPorts (p : Packet) (k : Nat) : List MeshPort :=
  let x := coreX k
  let y := coreY k
  let line := fun (at_ entry : Nat) (low high : MeshPort) =>
    (if at_ ≤ entry ∧ p.runLo < at_ then [low] else []) ++ (if entry ≤ at_ ∧ at_ < p.runHi then [high] else [])
  let column := if y < p.relayEnd then [MeshPort.north] else if p.relayEnd < y then [.south] else []
  if p.row then
    (if y = p.dy then line x p.dx .west .east else []) ++ (if p.kind = .relayPut then column else [])
  else line y p.dy .south .north

/-- Onward copies of a router of the run: the next router and the port by which it receives. -/
def onward (p : Packet) (k : Nat) (d : Dev) : List (Nat × MeshPort) :=
  (runPorts p k).filterMap (fun port => if wayOpen k port d then (nextRouter k port).map (fun r => (r, otherEnd port)) else none)

/-- A kind that a run distributes. -/
def runsOn (p : Packet) : Bool := p.kind == .mcPut || p.kind == .relayPut

/-! ### Channels and buffers (R172) -/

/-- The packet has come to the last router of its way. -/
def atLast (p : Packet) : Bool :=
  match p.trail with
  | h :: _ => h.router == routerAt p.dx p.dy && (p.wp.isNone || p.leg)
  | [] => false

/-- Flits that a router has of a packet, by a port. -/
def gotAt (p : Packet) (k : Nat) (port : MeshPort) : Nat :=
  match p.trail.find? (fun h => h.router == k && h.port == port && h.vc == .mc) with | some h => h.got | none => 0

/-- Flits that a hop has passed on: to the next router of the way, to every next router of a run, or to the endpoint. -/
def passedOn (p : Packet) (h : MeshHop) (next : Option MeshHop) (d : Dev) : Nat :=
  let last := h.vc == .mc || (h.router == routerAt p.dx p.dy && (p.wp.isNone || p.leg))
  if last then
    (if runsOn p then (onward p h.router d).foldl (fun n o => min n (gotAt p o.1 o.2)) h.got else h.got)
  else match next with
    | some x => x.got
    | none => 0

/-- The hops of a packet, each with the flits that it still buffers. -/
def buffered (p : Packet) (d : Dev) : List (MeshHop × Nat) :=
  p.trail.zipIdx.map (fun x =>
    (x.1, x.1.got - passedOn p x.1 (if x.2 = 0 then none else p.trail[x.2 - 1]?) d))

/-- Free places in the buffer of a channel at a receiving port: 4 flits, none while another packet holds the channel. -/
def freeSpace (k : Nat) (port : MeshPort) (response : Bool) (vc : Vc) (d : Dev) : Nat :=
  let here := d.packets.flatMap (fun p =>
    if isResponse p.kind == response then
      ((buffered p d).filter (fun b => b.1.router == k && b.1.port == port && b.1.vc == vc)).map (fun b =>
        if b.1.got < flitCount p then 4 else b.2)
    else [])
  4 - here.foldl (· + ·) 0

/-! ### The way of a packet (R173 to R175) -/

/-- Where the present leg leads. -/
def legTarget (p : Packet) : Nat × Nat :=
  match p.wp with
  | some w => if p.leg then (gridX p.dx, gridY p.dy) else (gridX w.1, gridY w.2)
  | none => (gridX p.dx, gridY p.dy)

/-- Ports that bring a packet one hop closer to a place, the X direction first. -/
def productive (k : Nat) (goal : Nat × Nat) : List MeshPort :=
  (if coreX k < goal.1 then [.east] else if goal.1 < coreX k then [.west] else [])
    ++ (if coreY k < goal.2 then [.north] else if goal.2 < coreY k then [.south] else [])

/-- The waypoint that a router's detour table holds for a destination. -/
def detourFor (k : Nat) (p : Packet) (d : Dev) : Option (Nat × Nat) :=
  ((routerOf k d).detours.find? (fun e => decide (e.x0 ≤ p.dx) && decide (p.dx ≤ e.x1) && decide (e.y0 ≤ p.dy)
    && decide (p.dy ≤ e.y1))).map (fun e => (e.wpx, e.wpy))

/-- A hop that a header may take: the port, the channel, and the packet with its waypoint and leg. -/
structure MeshMove where
  port : MeshPort
  vc : Vc
  packet : Packet

/-- The first choice with the most free space (R173). -/
def mostFree (space : MeshPort → Vc → Nat) (l : List (MeshPort × Vc)) : Option (MeshPort × Vc) :=
  l.foldl (fun best c =>
    if space c.1 c.2 = 0 then best
    else match best with
      | some b => if space b.1 b.2 < space c.1 c.2 then some c else best
      | none => some c) none

/-- A dimension-ordered hop on a rappel channel: along the row first (R174). -/
def rappelMove (k : Nat) (vc : Vc) (p : Packet) (space : MeshPort → Vc → Nat) (d : Dev) : Option MeshMove :=
  let turned := decide (legTarget p = (coreX k, coreY k)) && p.wp.isSome && !p.leg
  let p1 := if turned then { p with leg := true } else p
  let vc1 := if turned then Vc.rappel2 else vc
  match productive k (legTarget p1) with
  | port :: _ => if wayOpen k port d && space port vc1 != 0 then some ⟨port, vc1, p1⟩ else none
  | [] => none

/-- The hop that the header of a packet takes next from router `k`, where it came on channel `vc`. -/
def nextMove (k : Nat) (vc : Vc) (p : Packet) (space : MeshPort → Vc → Nat) (d : Dev) : Option MeshMove :=
  if vc = .a0 ∨ vc = .a1 then
    let ports := (productive k (legTarget p)).filter (fun port => wayOpen k port d)
    match mostFree space (ports.flatMap (fun port => [(port, .a0), (port, .a1)])) with
    | some c => some ⟨c.1, c.2, p⟩
    | none => rappelMove k .rappel1 { p with wp := if p.wp.isSome then p.wp else detourFor k p d } space d
  else rappelMove k vc p space d

/-- The buffers of the routers around `k`, as a packet of a class finds them. -/
def spaceAround (k : Nat) (response : Bool) (d : Dev) (port : MeshPort) (vc : Vc) : Nat :=
  match nextRouter k port with
  | some r => freeSpace r (otherEnd port) response vc d
  | none => 0

/-- The source lets the packet into the mesh: no edge block that holds it back, and no core's local port while a compute reset
acts (R416). -/
def mayInject (p : Packet) (d : Dev) : Bool :=
  !p.heldBack && (portAt p.sx p.sy != .localPort || !resetActs .core d)
    && usable (uRouter (routerAt p.sx p.sy)) d && linkUsable (routerAt p.sx p.sy) (portAt p.sx p.sy) d

/-- The packet comes to the last router of its way, by hops on channels that come free, and from there to its endpoint. -/
def comesHome (fuel k : Nat) (vc : Vc) (p : Packet) (d : Dev) : Bool :=
  if k == routerAt p.dx p.dy && (p.wp.isNone || p.leg) then linkUsable k (portAt p.dx p.dy) d
  else match fuel with
    | 0 => false
    | n + 1 =>
      match nextMove k vc p (fun _ _ => 4) d with
      | some m => (match nextRouter k m.port with | some r => comesHome n r m.vc m.packet d | none => false)
      | none => false

/-- The packet can be delivered: it is in the mesh or may enter it, and its way is open. -/
def reaches (p : Packet) (d : Dev) : Bool :=
  match p.trail with
  | h :: _ => if h.vc = .mc ∨ (runsOn p ∧ p.trail.any (fun x => x.vc == .mc)) then true else comesHome 512 h.router h.vc p d
  | [] => mayInject p d && comesHome 512 (routerAt p.sx p.sy) .a0 p d

/-- A router or link was retired under a generation above `gen`, at least `ns` ago (R6, R186). -/
def windowPassed (gen ns : Nat) (d : Dev) : Bool := d.meshLosses.any (fun l => decide (gen < l.1) && decide (l.2 + ns ≤ d.now))

/-! ### What a lost router or link takes with it (R186) -/

/-- The hop's channel is still in use at its router. -/
def inUse (p : Packet) (b : MeshHop × Nat) : Bool := b.2 != 0 || (decide (0 < b.1.got) && decide (b.1.got < flitCount p))

/-- A packet is buffered in a router, or crosses a link. -/
def caughtIn (u : Nat) (p : Packet) (d : Dev) : Bool :=
  (buffered p d).any (fun b => inUse p b
    && (u == uRouter b.1.router || (linkOfPort b.1.router b.1.port == some u && decide (b.1.got < flitCount p))))

/-- A copy of a run is lost beyond a router; any other packet is lost as a whole. -/
def loseIn (u : Nat) (d : Dev) : Dev :=
  { d with packets := d.packets.filterMap (fun p =>
      if !caughtIn u p d then some p
      else if p.trail.any (fun h => h.vc == .mc) then
        some { p with cutAt := p.cutAt ++ ((buffered p d).filter (fun b => inUse p b
          && (u == uRouter b.1.router || linkOfPort b.1.router b.1.port == some u))).map (fun b => b.1.router) }
      else none) }

/-- Errors that a router has corrected (R187). -/
def countCorrected (k : Nat) (n : Nat) (d : Dev) : Dev :=
  let r := routerOf k d
  if n = 0 then d else { d with routers := d.routers.set k { r with corrected := min 255 (r.corrected + n) } }

end Sys2Proof.Machine
end

