-- ==== Sys2Proof/Machine/MeshOps.lean ====
section
/-!
DEFINITION. The mesh (06_mesh.md): how the messenger starts a message and cuts it into packets, how a target core and a
memory controller deliver them, and how the answers come back.
-/

namespace Sys2Proof.Machine

/-! ### Packets -/

def emptyPacket : Packet :=
  { kind := .put, sx := 0, sy := 0, dx := 0, dy := 0, ctx := 0, msgId := 0, index := 0, last := 0, flagEn := false,
    flag := 0, result := .done, detail := 0, address := 0, amount := 0, returnAddr := 0, row := false, runLo := 0,
    runHi := 0, relayEnd := 0, payload := [], poison := [], place := 0 }

/-- Who sends a packet: a core, or a die controller beyond the cores. -/
def senderOf (p : Packet) : Nat := match p.die with | some i => 4096 + i | none => coreAt p.sx p.sy

/-- The packet comes from a core's messenger. -/
def fromCore (p : Packet) : Bool := p.die.isNone && portAt p.sx p.sy == .localPort

/-- The router by which a die controller's packets enter and leave the mesh: its south-west core's (log entry 76). -/
def dieRouter (die : Nat) : Nat := coreAt (16 * (die % 4)) (20 * (die / 4))

/-- Puts packets into the mesh; an edge block holds its own while a compute reset has the mesh (R416). -/
def sendPackets (ps : List Packet) (d : Dev) : Dev :=
  { d with packets := d.packets ++ ps.map (fun p =>
      if meshHeld d && portAt p.sx p.sy != .localPort then { p with heldBack := true } else p) }

/-- The poisoned words of a piece, by place within it. -/
def poisonWithin (pw : List Nat) (first n : Nat) : List Nat :=
  (pw.filter (fun i => decide (first ≤ i) && decide (i < first + n))).map (· - first)

/-- Cuts bytes into packets of 512 (R168); a message of LENGTH 0 is one packet with no payload. -/
def cut512 (bs : List Byte) : List (Nat × List Byte) :=
  if bs.length = 0 then [(0, [])]
  else (List.range ((bs.length + 511) / 512)).map (fun i => (i, (bs.drop (512 * i)).take 512))

/-- Pieces (offset, length) of a memory range: cut at every 512 bytes and where the interleave moves to another
controller (R168), word by word. -/
def memPieces (d : Dev) (a : Nat) (words : List Nat) (acc : List (Nat × Nat)) : List (Nat × Nat) :=
  match words with
  | [] => acc.reverse
  | w :: r =>
    match acc with
    | [] => memPieces d a r [(16 * w, 16)]
    | (o, n) :: t =>
      if (16 * w) % 512 ≠ 0 ∧ controllerAt (a + 16 * w) d = controllerAt (a + o) d then
        memPieces d a r ((o, n + 16) :: t)
      else memPieces d a r ((16 * w, 16) :: acc)

def cutMemory (d : Dev) (a n : Nat) : List (Nat × Nat) :=
  if n = 0 then [(0, 0)] else memPieces d a (List.range (n / 16)) []

/-- The column and row of controller c's edge router for an address (R12, R167, R181). -/
def controllerPort (c a : Nat) : Nat × Nat :=
  let d := c / 3
  let first := 16 * (d % 4) + (match c % 3 with | 0 => 0 | 1 => 5 | _ => 11)
  let width := if c % 3 = 1 then 6 else 5
  (first + (a / 64) % width, if d < 4 then 0x7F else 0x28)

/-! ### Outcomes -/

/-- The outcome of a message: the first that is not DONE, in recipient order (R120). -/
def combine (l : List (Nat × Result × Nat)) : Result × Nat :=
  let bad := l.filter (fun o => o.2.1 != .done)
  match bad.foldl (fun (best : Option (Nat × Result × Nat)) o =>
      match best with
      | none => some o
      | some b => if o.1 < b.1 then some o else some b) none with
  | none => (.done, 0)
  | some b => b.2

/-- Ends a started message when nothing is awaited any more. -/
def settle (c : EngCmd) : EngCmd :=
  if c.awaited = 0 ∧ c.ended.isNone then { c with ended := some (combine c.outcomes) } else c

/-- The message a COMPLETION or GET_DATA belongs to. -/
def findMsg (c : Core) (id : Nat) : Option EngCmd :=
  (engineOf c 2).cmds.find? (fun x => x.started && x.ended.isNone && x.msgId == id)

/-- Records one answer of a message. -/
def answer (k : Nat) (id place : Nat) (r : Result) (detail n : Nat) (d : Dev) : Dev :=
  match findMsg (coreOf k d) id with
  | none => d
  | some c =>
    modCmd k 2 c.ticket (fun x =>
      let get := (msgDesc x.desc).get
      let x1 := { x with outcomes := x.outcomes ++ [(place, r, detail)], awaited := x.awaited - n }
      if get && r != .done && n == 0 then { x1 with ended := some (r, detail) } else settle x1) d

/-- What of a message's target range is undefined. -/
def racedOf (k id : Nat) (d : Dev) : List (Nat × Nat) :=
  match findMsg (coreOf k d) id with
  | some c => c.raced
  | none => []

/-! ### Starting a message (R116 to R120, R168, R181 to R183) -/

/-- The sender's part of every packet of a message. -/
def packetFrom (k : Nat) (c : EngCmd) (m : MsgDesc) (id : Nat) : Packet :=
  { emptyPacket with
    sx := coreX k, sy := coreY k, ctx := c.ctx, msgId := id, flagEn := m.flagEn, flag := m.flag,
    amount := m.inc }

/-- Marks the command started. -/
def startCmd (id awaited : Nat) (outcomes : List (Nat × Result × Nat)) (d : Dev) (c : EngCmd) : EngCmd :=
  settle { c with
    started := true, startGen := fpGen d, startedAt := d.now, msgId := id, awaited := awaited,
    outcomes := outcomes }

/-- Rejects or ends a message at its start. -/
def endAtStart (k : Nat) (c : EngCmd) (r : Result) (detail : Nat) (d : Dev) : Dev :=
  modCmd k 2 c.ticket (fun x => { x with started := true, startGen := fpGen d, ended := some (r, detail) }) d

/-- The place that a target keeps for a message of a source, in the order in which the source started them (R176,
R179). -/
def expectAt (t : Nat) (src id ctx place : Nat) (m : MsgDesc) (last : Nat) (d : Dev) : Dev :=
  modCore t (fun c => { c with
    arrivals := c.arrivals ++ [{
      source := src, msgId := id, ctx := ctx, place := place,
      last := last, counted := [], flagEn := m.flagEn, flag := m.flag, increment := BitVec.ofNat 32 m.inc, opened := false,
      openTime := 0, openGen := 0, result := .done, detail := 0 }] }) d

/-- Puts packets into the mesh and marks the command; what the message meets there is undefined (R179, R180). -/
def launchMsg (k : Nat) (c : EngCmd) (ps : List Packet) (awaited : Nat) (outs : List (Nat × Result × Nat)) (d : Dev) :
    Dev :=
  let id := (coreOf k d).nextMsg
  messageMeets k c (modCore k (fun x => { x with nextMsg := (x.nextMsg + 1) % 256 })
    (modCmd k 2 c.ticket (startCmd id awaited outs d) (sendPackets ps d)))

/-- A core that the messenger may send to when it starts the message: OFF and RETIRED cores, and those still TESTING or
LOADING, are not (R120, R357). -/
def coreSendable (t : Nat) (d : Dev) : Bool := inState (pCore t) [.ready, .active, .quiesced, .fault] d

/-- PUT to a core. -/
def putCoreMsg (k : Nat) (c : EngCmd) (m : MsgDesc) (d : Dev) : Dev :=
  if 39 < m.y ∨ kernelWindow < m.remote + m.length ∨ inSram c.user m.localAddr m.length = false then
    endAtStart k c .rejectedRange 0 d
  else
    let t := coreAt m.x m.y
    if coreSendable t d = false then endAtStart k c .rejectedState 5 d
    else
      let id := (coreOf k d).nextMsg
      let pw := sramPoisonWords k m.localAddr m.length d
      let cuts := cut512 (sramRead k m.localAddr m.length d)
      let ps := cuts.map (fun (i, bs) => { packetFrom k c m id with
        kind := .put, dx := m.x, dy := m.y, index := i,
        last := cuts.length - 1, address := m.remote + 512 * i, payload := bs,
        poison := poisonWithin pw (32 * i) 32 })
      launchMsg k c ps 1 [] (expectAt t k id c.ctx 0 m (cuts.length - 1) d)

/-- PUT to memory: one COMPLETION for each packet. A message of LENGTH 0 is one header flit; at the end of usable memory no
controller answers for its address (log entry 76). -/
def putMemMsg (k : Nat) (c : EngCmd) (m : MsgDesc) (d : Dev) : Dev :=
  if inMemory m.remote m.length d = false ∨ inSram c.user m.localAddr m.length = false then
    endAtStart k c .rejectedRange 0 d
  else if (controllerAt m.remote d).isNone then endAtStart k c .done 0 d
  else
    let id := (coreOf k d).nextMsg
    let pw := sramPoisonWords k m.localAddr m.length d
    let bs := sramRead k m.localAddr m.length d
    let ps := (cutMemory d m.remote m.length).map (fun (o, n) =>
      let a := m.remote + o
      let q := controllerPort ((controllerAt a d).getD 0) a
      { packetFrom k c m id with
        kind := .putMem, dx := q.1, dy := q.2, address := a, payload := (bs.drop o).take n,
        poison := poisonWithin pw (o / 16) (n / 16) })
    launchMsg k c ps ps.length [] d

/-- GET from a core or from memory (R177): complete when every byte is here. -/
def getMsg (k : Nat) (c : EngCmd) (m : MsgDesc) (d : Dev) : Dev :=
  let badLocal := inSram c.user m.localAddr m.length == false
  let id := (coreOf k d).nextMsg
  if m.target = 0 then
    if 39 < m.y ∨ kernelWindow < m.remote + m.length ∨ badLocal = true then endAtStart k c .rejectedRange 0 d
    else if coreSendable (coreAt m.x m.y) d = false then endAtStart k c .rejectedState 5 d
    else launchMsg k c [{ packetFrom k c m id with
      kind := .getReq, dx := m.x, dy := m.y, address := m.remote,
      amount := m.length, returnAddr := m.localAddr }] m.length [] d
  else
    if inMemory m.remote m.length d = false ∨ badLocal = true then endAtStart k c .rejectedRange 0 d
    else if (controllerAt m.remote d).isNone then endAtStart k c .done 0 d
    else
      let ps := (cutMemory d m.remote m.length).map (fun (o, n) =>
        let a := m.remote + o
        let q := controllerPort ((controllerAt a d).getD 0) a
        { packetFrom k c m id with
          kind := .getReq, dx := q.1, dy := q.2, address := a, amount := n,
          returnAddr := m.localAddr + o })
      launchMsg k c ps m.length [] d

/-- Runs of usable routers among the places lo..hi of a line (R183). -/
def runsOf (ok : Nat → Bool) (places : List Nat) (acc : List (Nat × Nat)) : List (Nat × Nat) :=
  match places with
  | [] => acc.reverse
  | p :: r =>
    if ok p then
      match acc with
      | (lo, hi) :: t => if hi + 1 = p then runsOf ok r ((lo, p) :: t) else runsOf ok r ((p, p) :: acc)
      | [] => runsOf ok r [(p, p)]
    else runsOf ok r acc

/-- The entry router of a run: nearest to the sender's place on the line, ties to the lower (R183). -/
def entryPlace (sender lo hi : Nat) : Nat := if sender < lo then lo else if hi < sender then hi else sender

/-- A row or column multicast (R118, R183). -/
def multicastMsg (k : Nat) (c : EngCmd) (m : MsgDesc) (row : Bool) (d : Dev) : Dev :=
  let lo := if row then m.x else m.y
  let hi := if row then m.x2 else m.y2
  let line := if row then m.y else m.x
  if hi < lo ∨ (row ∧ 39 < m.y) ∨ (row = false ∧ 39 < m.y2) ∨ kernelWindow < m.remote + m.length
      ∨ inSram c.user m.localAddr m.length = false then endAtStart k c .rejectedRange 0 d
  else
    let ok := fun p => usable (uRouter (lineCore row line p)) d
    let runs := runsOf ok (placesOf lo hi) []
    let id := (coreOf k d).nextMsg
    let pw := sramPoisonWords k m.localAddr m.length d
    let cuts := cut512 (sramRead k m.localAddr m.length d)
    let outs := ((placesOf lo hi).filter (fun p => !ok p)).map (fun p => (p - lo, Result.rejectedState, 5))
    let ps := runs.flatMap (fun (a, b) => cuts.map (fun (i, bs) =>
      let e := entryPlace (if row then coreX k else coreY k) a b
      { packetFrom k c m id with
        kind := .mcPut, dx := if row then e else line, dy := if row then line else e,
        index := i, last := cuts.length - 1, address := m.remote + 512 * i, payload := bs,
        poison := poisonWithin pw (32 * i) 32, row := row, runLo := a, runHi := b, place := lo }))
    let rec_ := (placesOf lo hi).filter ok
    let d1 := rec_.foldl (fun x p => expectAt (lineCore row line p) k id c.ctx (p - lo) m (cuts.length - 1) x) d
    launchMsg k c ps rec_.length outs d1

/-- A COUNTER message (R118, R182): bit 0 of X names the I/O die; the sender's own row is the entry. -/
def counterMsg (k : Nat) (c : EngCmd) (m : MsgDesc) (d : Dev) : Dev :=
  if m.length ≠ 0 ∨ 511 < m.remote then endAtStart k c .rejectedRange 0 d
  else
    let id := (coreOf k d).nextMsg
    launchMsg k c [{ packetFrom k c m id with
      kind := .counterAdd, dx := if m.x % 2 = 0 then 0x7F else 0x40,
      dy := coreY k, address := m.remote }] 1 [] d

/-- An UPDATE_QUEUE message (R118, R181, R235). -/
def updateMsg (k : Nat) (c : EngCmd) (m : MsgDesc) (d : Dev) : Dev :=
  if 23 < m.x ∨ inSram c.user m.localAddr m.length = false then endAtStart k c .rejectedRange 0 d
  else
    let id := (coreOf k d).nextMsg
    let pw := sramPoisonWords k m.localAddr m.length d
    let ps := (cut512 (sramRead k m.localAddr m.length d)).map (fun (i, bs) =>
      let q := controllerPort m.x (512 * i)
      { packetFrom k c m id with
        kind := .updatePut, dx := q.1, dy := q.2, address := 512 * i, payload := bs,
        poison := poisonWithin pw (32 * i) 32, place := m.x })
    launchMsg k c ps ps.length [] d

/-- The messenger starts its oldest message not started, where `pick` says that it is one of the kind in question
(R111, R116). A message with FENCE waits for every earlier one to complete, at most 16 run at once, and a message that
reads more than 65,536 bytes is out of range. -/
def startMessage (k : Nat) (pick : MsgDesc → Bool) (go : EngCmd → MsgDesc → Dev → Dev) (d : Dev) : Dev :=
  match nextCmd (coreOf k d) 2 with
  | none => d
  | some c =>
    let m := msgDesc c.desc
    if !pick m || !inState (pCore k) [.ready, .active, .loading] d then d
    else if m.fence && (engineOf (coreOf k d) 2).cmds.any (fun x => x.started && !x.completed) then d
    else if 65536 < m.length then endAtStart k c .rejectedRange 0 d
    else go c m d

/-! ### Delivery at a core (R176, R178 to R180) -/

/-- The COMPLETION that a core's messenger or router sends back to a message's source. -/
def completionPacket (src id place t : Nat) (r : Result) (detail : Nat) : Packet :=
  let goal := if src < 4096 then src else dieRouter (src - 4096)
  { emptyPacket with
    kind := .completion, sx := coreX t, sy := coreY t, dx := coreX goal, dy := coreY goal, msgId := id,
    result := r, detail := detail, place := place, die := if src < 4096 then none else some (src - 4096) }

/-- The answer that an edge block sends from where the request reached it (R167, R176). -/
def answerTo (p : Packet) (r : Result) (detail : Nat) : Packet :=
  { emptyPacket with
    kind := .completion, sx := p.dx, sy := p.dy, dx := p.sx, dy := p.sy, msgId := p.msgId, result := r, detail := detail }

def arrivalFull (a : Arrival) : Bool := a.opened && decide (a.last < a.counted.length)

/-- Applies the outcomes of a core's full entries, each after every earlier one of its source (R179): DONE increments the
flag, and one COMPLETION goes back. A core whose load has come whole has its runtime (R355). -/
def applyOutcomes (fuel t : Nat) (d : Dev) : Dev :=
  match fuel with
  | 0 => d
  | n + 1 =>
    let l := (coreOf t d).arrivals
    match (List.range l.length).find? (fun i =>
        match l[i]? with
        | some a => arrivalFull a && !((l.take i).any (fun b => b.source == a.source))
        | none => false) with
    | none => d
    | some i =>
      match l[i]? with
      | none => d
      | some a =>
        let d1 := settleContests t a.contests (modCore t (fun c => { c with
          arrivals := c.arrivals.eraseIdx i
          loaded := c.loaded || (decide (4096 ≤ a.source) && a.result == .done && !a.flagEn && stateOf (pCore t) d == .loading) }) d)
        let d2 := if a.result = .done ∧ a.flagEn then addFlag t a.flag a.increment d1 else d1
        applyOutcomes n t (sendPackets [completionPacket a.source a.msgId a.place t a.result a.detail] d2)

/-- The entry of a message at its target, made where none stands. -/
def entryIndex (c : Core) (src id : Nat) : Option Nat :=
  (List.range c.arrivals.length).find? (fun i =>
    match c.arrivals[i]? with
    | some a => a.source == src && a.msgId == id
    | none => false)

def modArrival (t i : Nat) (f : Arrival → Arrival) (d : Dev) : Dev :=
  modCore t (fun c => { c with arrivals := c.arrivals.modify i f }) d

/-- Counts a message of a closed context once (R120). -/
def dropForContext (t : Nat) (d : Dev) : Dev := raise (pCore t) 20 (bump (rCore t 0xC8) d)

/-- The first packet of a message that the source did not announce makes its entry. -/
def enterArrival (t : Nat) (p : Packet) (place : Nat) (d : Dev) : Dev :=
  if (entryIndex (coreOf t d) (senderOf p) p.msgId).isSome then d
  else modCore t (fun c => { c with
    arrivals := c.arrivals ++ [{
      source := senderOf p, msgId := p.msgId, ctx := p.ctx, place := place, last := p.last, counted := [],
      flagEn := p.flagEn, flag := p.flag, increment := BitVec.ofNat 32 p.amount, opened := false, openTime := 0, openGen := 0,
      result := .done, detail := 0 }] }) d

/-- The core takes what the message brings: a load also while it is LOADING (R120, R355). -/
def takesPacket (t : Nat) (p : Packet) (d : Dev) : Bool :=
  coreTakes t d || (p.kind == .relayPut && !p.flagEn && stateOf (pCore t) d == .loading)

/-- The message's context is open; a die controller's relay has none. -/
def packetOpen (p : Packet) (d : Dev) : Bool := p.kind == .relayPut || ctxOpen p.ctx d

/-- The bytes of a payload in a word, where the payload covers it. -/
def payloadAt (p : Packet) (w : Nat) : Option (List Byte) :=
  if p.address ≤ w ∧ w + 16 ≤ p.address + p.payload.length then some ((p.payload.drop (w - p.address)).take 16) else none

/-- A payload lands in SRAM; words that scalar stores contest stay undefined, with the message's data kept (R180). -/
def landPayload (t i : Nat) (p : Packet) (d : Dev) : Dev :=
  let a := (coreOf t d).arrivals[i]?
  let contests := match a with | some x => x.contests | none => []
  let hit := contests.filter (fun c => (payloadAt p c.addr).isSome)
  let b := landed (if fromCore p then racedOf (senderOf p) p.msgId d else []) p.address p.payload d
  let d1 := agentWrote t none [(p.address, p.payload.length)] (sramWrite t p.address b.1 p.poison b.2)
  if hit.isEmpty then d1
  else freeBytes t (hit.map (fun c => (c.addr, 16))) (modArrival t i (fun x => { x with
    contests := x.contests.map (fun c => match payloadAt p c.addr with | some bs => { c with data := some bs } | none => c) }) d1)

/-- The outcome of a message after one more packet: its first that is not DONE stands (R120). -/
def outcomeAfter (t : Nat) (p : Packet) (a : Arrival) (d : Dev) : Result × Nat :=
  if a.result ≠ .done then (a.result, a.detail)
  else if !takesPacket t p d then (.failed, 5)
  else if !packetOpen p d then (.failed, 2)
  else if p.poison ≠ [] then (.failed, 1)
  else (.done, 0)

/-- One packet of a message arrives at a core (R176). -/
def arrive (t : Nat) (p : Packet) (write : Bool) (place : Nat) (d : Dev) : Dev :=
  let d0 := enterArrival t p place d
  match entryIndex (coreOf t d0) (senderOf p) p.msgId with
  | none => d0
  | some i =>
    match (coreOf t d0).arrivals[i]? with
    | none => d0
    | some a =>
      if a.counted.contains p.index then d0
      else
        let up := takesPacket t p d0
        let out := outcomeAfter t p a d0
        let w := up && packetOpen p d0 && write
        let drop := up && !packetOpen p d0 && !a.dropped
        let d1 := if w then landPayload t i p d0 else d0
        let d2 := if drop then dropForContext t d1 else d1
        let d3 := modArrival t i (fun x => { x with
          counted := x.counted ++ [p.index]
          opened := true
          openTime := if x.opened then x.openTime else d.now
          openGen := if x.opened then x.openGen else fpGen d
          result := out.1
          detail := out.2
          dropped := x.dropped || drop
          wrote := if w then x.wrote ++ [(p.address, p.payload.length)] else x.wrote }) d2
        applyOutcomes ((coreOf t d3).arrivals.length) t d3

/-! ### Memory packets (R176, R177, R207) -/

/-- GET_DATA for the bytes of a request, from where it was answered: each packet carries the requester's address for its
payload (R177). -/
def dataPackets (p : Packet) (bs : List Byte) (pw : List Nat) : List Packet :=
  (cut512 bs).map (fun (i, part) =>
    { emptyPacket with
      kind := .getData, sx := p.dx, sy := p.dy, dx := p.sx, dy := p.sy, msgId := p.msgId, ctx := p.ctx,
      address := p.returnAddr + 512 * i, payload := part, poison := poisonWithin pw (32 * i) 32 })

/-- A request that a memory controller applies: a PUT_MEM is written and answered, a GET_REQ is read and returned as
GET_DATA, cut as R168 gives. -/
def applyMemPacket (p : Packet) (d : Dev) : Dev :=
  if p.kind = .putMem then
    let b := landed (if fromCore p then racedOf (senderOf p) p.msgId d else []) p.address p.payload d
    let d1 := memWrote p.address p.payload.length (memWrite p.address b.1 p.poison b.2)
    let bad := rangePoisoned p.address p.payload.length d1
    sendPackets [if bad then answerTo p .failed 1 else answerTo p .done 0] d1
  else
    let d1 := memTouch p.address p.amount (some p.ctx) d
    sendPackets (dataPackets p (memBytes p.address p.amount d1) (memPoisonWords p.address p.amount d1)) d1

/-- Releases what a controller holds, in arrival order; what is still held stays, and later accesses to its lines behind it
(R197, R207, R213, R215). -/
def releaseHeld (waiting kept : List Packet) (c : Nat) (d : Dev) : Dev :=
  match waiting with
  | [] => putMemCtl c { memCtl c d with held := kept } d
  | p :: r =>
    if linesHeld p.address (memSpan p) (p.kind == .putMem) d || behind kept p.address (memSpan p) then
      releaseHeld r (kept ++ [p]) c d
    else releaseHeld r kept c (applyMemPacket p d)

def releaseAll (c : Nat) (d : Dev) : Dev := releaseHeld (memCtl c d).held [] c d

/-- A channel's hold of 256 accesses is full: the controller accepts no packet from the mesh (R207). -/
def holdFull (c : Nat) (d : Dev) : Bool :=
  (List.range 16).any (fun j => decide (256 ≤ ((memCtl c d).held.filter (fun q => channelAt q.address d == some (16 * c + j))).length))

/-- A memory request reaches its controller: held, or applied. -/
def memArrive (n : Nat) (p : Packet) (d : Dev) : Dev :=
  let gone := { d with packets := d.packets.eraseIdx n }
  match controllerAt p.address d with
  | none => gone
  | some c =>
    if holdFull c d then d
    else if rangeHeld p.address (memSpan p) (p.kind == .putMem) d then
      putMemCtl c { memCtl c d with held := (memCtl c d).held ++ [p] } gone
    else applyMemPacket p gone

/-! ### GET from a core, and its data (R177) -/

/-- A GET_REQ at a core: the data goes back, or the outcome of R120. -/
def getAtCore (t : Nat) (p : Packet) (d : Dev) : Dev :=
  if !coreTakes t d then sendPackets [answerTo p .failed 5] d
  else if !ctxOpen p.ctx d then sendPackets [answerTo p .failed 2] (dropForContext t d)
  else sendPackets (dataPackets p (sramRead t p.address p.amount d) (sramPoisonWords t p.address p.amount d)) d

/-- GET_DATA at the requester; data that comes after the GET has ended is discarded (R186). -/
def dataAtCore (k : Nat) (p : Packet) (d : Dev) : Dev :=
  match findMsg (coreOf k d) p.msgId with
  | none => d
  | some c =>
    let b := landed c.raced p.address p.payload d
    let d1 := agentWrote k (some (2, c.ticket)) [(p.address, p.payload.length)]
      (sramWrite k p.address b.1 p.poison b.2)
    if p.poison = [] then answer k p.msgId 0 .done 0 p.payload.length d1
    else answer k p.msgId 0 .failed 1 p.payload.length d1

/-! ### Multicast runs and relays (R183 to R185) -/

/-- The sender of a multicast reads and writes one address (R184). -/
def atOwnAddress (p : Packet) (d : Dev) : Bool :=
  match findMsg (coreOf (senderOf p) d) p.msgId with
  | some c => (msgDesc c.desc).localAddr == (msgDesc c.desc).remote
  | none => false

/-- A router answers for its core that is OFF or RETIRED, once for a message (R183). -/
def routerAnswers (p : Packet) (t place : Nat) (d : Dev) : Dev :=
  if p.index = p.last then
    sendPackets [completionPacket (senderOf p) p.msgId place t .rejectedState 5]
      (modCore t (fun c => { c with
        arrivals := c.arrivals.filter (fun a => !(a.source == senderOf p && a.msgId == p.msgId)) }) d)
  else d

/-- A copy of a multicast packet at a router of its run: a core that is OFF or RETIRED takes nothing, and its router answers
for it; a sender at its own address writes nothing (R183, R184). -/
def mcCopy (p : Packet) (t : Nat) (d : Dev) : Dev :=
  let place := (if p.row then coreX t else coreY t) - p.place
  if inState (pCore t) [.off, .retired] d then routerAnswers p t place d
  else arrive t p (!(t == senderOf p && atOwnAddress p d)) place d

/-- A copy of a relay (R178, R185): cores that are OFF receive nothing, and a core under test takes none (R355). -/
def relayCopy (p : Packet) (t : Nat) (d : Dev) : Dev :=
  if inState (pCore t) [.off, .retired] d then routerAnswers p t t d
  else if stateOf (pCore t) d = .testing then d
  else arrive t p true t d

/-- A packet as a branch of its run carries it beyond a router (R171). -/
def hurtAt (k : Nat) (p : Packet) : Packet :=
  (p.hurt.filter (fun h => h.router == k)).foldl (fun x h =>
    match h.flips with
    | none => if x.poison.contains h.word then x else { x with poison := x.poison ++ [h.word] }
    | some e => { x with
        payload := x.payload.take (16 * h.word) ++ flipBytes ((x.payload.drop (16 * h.word)).take 16) e
          ++ x.payload.drop (16 * h.word + 16) }) p

/-- The distribution of a run from a router on: a copy to its core, and copies onward. -/
def spread (fuel k : Nat) (copy : Packet → Nat → Dev → Dev) (p : Packet) (d : Dev) : Dev :=
  match fuel with
  | 0 => d
  | n + 1 =>
    if p.cutAt.contains k then d
    else
      let p1 := hurtAt k p
      (onward p1 k d).foldl (fun x o => spread n o.1 copy p1 x) (copy p1 k d)

/-- The whole run of a multicast or relay packet, from its entry router. -/
def runDeliver (p : Packet) (d : Dev) : Dev :=
  spread 128 (routerAt p.dx p.dy) (if p.kind = .relayPut then relayCopy else mcCopy) p d

/-- Relay packets of one payload part that reach every usable router of columns x0..x1 and rows y0..y1: the row and the columns
are split into runs at every router that is not usable (R355). -/
def relayRuns (x0 x1 y0 y1 : Nat) (base : Packet) (d : Dev) : List Packet :=
  let ok := fun x y => usable (uRouter (coreAt x y)) d
  let rows := (runsOf (fun x => ok x y0) (placesOf x0 x1) []).map (fun (a, b) =>
    { base with dx := entryPlace base.sx a b, dy := y0, row := true, runLo := a, runHi := b, relayEnd := y1 })
  let columns := (placesOf x0 x1).flatMap (fun x =>
    ((runsOf (fun y => ok x y) (placesOf y0 y1) []).filter (fun r => r.1 != y0)).map (fun (a, b) =>
      { base with dx := x, dy := entryPlace base.sy a b, row := false, runLo := a, runHi := b, relayEnd := y1 }))
  rows ++ columns

/-- A die controller sends a relayed broadcast: bytes to an address of every core of an area, or a flag increment (R178, R185,
R240, R355). -/
def relayFrom (die x0 x1 y0 y1 address : Nat) (bs : List Byte) (base : Packet) (d : Dev) : Dev :=
  let id := d.relayIds.get 0 die
  let cuts := cut512 bs
  let ps := cuts.flatMap (fun (i, part) => relayRuns x0 x1 y0 y1 { base with
    kind := .relayPut, sx := coreX (dieRouter die), sy := coreY (dieRouter die), die := some die, msgId := id, index := i,
    last := cuts.length - 1, address := address + 512 * i, payload := part } d)
  sendPackets ps { d with relayIds := d.relayIds.set die ((id + 1) % 256) }

end Sys2Proof.Machine
end

