-- ==== Sys2Proof/Machine/UpdateRun.lean ====
section
/-!
DEFINITION. The end of a chunk (R240) and what it does to counters and cores; records of every kind (R235, R236).
-/

namespace Sys2Proof.Machine

/-- The drain signal (R240): a RELAY_PUT with no payload over the whole grid. -/
def drainSignal (c : Nat) (p : Plan) (d : Dev) : Dev :=
  relayFrom (c / 3) 0 63 0 39 0 [] { emptyPacket with ctx := p.context, flagEn := true, flag := p.drainFlag, amount := 1 } d

/-- Steps 4 to 6 of R240, with the event bits of the skip kinds. -/
def chunkSteps (c : Nat) (p : Plan) (bits : List Nat) (d : Dev) : Dev :=
  let d1 := if p.counterEn then counterAddN (p.counter / 512) (p.counter % 512) 1 d else d
  let drained := countChunks c p [.armed, .pending, .running] d1 == 0
  let d2 := if drained && p.drainEn then drainSignal c p d1 else d1
  (bits ++ (if drained then [16] else [])).foldl (fun x b => raise (pUpd c) b x) d2

/-- The event of a skip kind (R246). -/
def skipEvent (kind : Nat) : Nat := match kind with | 2 => 18 | 3 => 20 | _ => 17

/-- A chunk ends APPLIED or SKIPPED, with a skip-list entry or without (R240). -/
def endChunk (c n : Nat) (p : Plan) (k : Nat) (st : ChunkState) (entry : Option (Nat × Nat)) (d : Dev) : Dev :=
  let tag := (chunkAt c p k d).2
  let d1 := setChunk c (p.stateBase + k) st tag d
  match entry with
  | some (kind, addr) => chunkSteps c p [skipEvent kind] (logSkip c kind n p.context k tag addr d1)
  | none => chunkSteps c p [] d1

/-- The engine takes a record (R236). -/
def takeTrigger (c ctx : Nat) (t : Trigger) (d : Dev) : Dev :=
  match handlingOf c ctx t d, planOf c t.plan d with
  | .toSkipped, some p =>
    endChunk c t.plan p t.chunk .skipped (some (0, 0)) (setChunk c (p.stateBase + t.chunk) .skipped t.tag d)
  | _, _ => takeClear c ctx t d

/-- The running chunk leaves the engine. -/
def clearRun (c : Nat) (d : Dev) : Dev := addWrap (rUpd c 0 0x68) 1 (modEng c (fun g => { g with running := none }) d)

/-- The silicon stepping of the engine's die, on which last places may depend (R165). -/
def steppingOf (c : Nat) : Nat := (Config.stepping (c / 3)).toNat

/-- A share's APPLY, or the part `share` of it, with what other agents' writes and its own leave undefined (R230, R239), and the
first affected line. -/
def applyPart (c : Nat) (r : ChunkRun) (m : MemMap) (share : List Nat) (d : Dev) : Dev × Option Nat :=
  let z := applyShare c r (steppingOf c) share d
  let written := (storedStreams r.copy).flatMap (streamWrites m r.copy share)
  let others := ((written.flatMap (fun x => linesIn x.1 x.2)).eraseDups.filter (fun l => streamLine (some c) false l d)).map
    (fun l => (64 * l, 64))
  (freeMemory (streamOverlaps m r.copy share ++ r.raced ++ others) z.1, z.2)

/-- The running chunk, its CHECK done, ends (R237 to R240). -/
def finishRun (c : Nat) (d : Dev) : Dev :=
  match (engOf c d).running, d.memMap with
  | some r, some m =>
    let y := if r.marked.isSome then (d, none) else applyPart c r m (shareOf c r.copy r.chunk m) d
    let d1 := clearRun c y.1
    let d2 :=
      if r.disabled then setChunk c (r.copy.stateBase + r.chunk) .idle 0 d1
      else match r.marked, y.2 with
        | some a, _ => endChunk c r.plan r.copy r.chunk .skipped (some (1, a)) d1
        | none, some a => endChunk c r.plan r.copy r.chunk .applied (some (2, a)) d1
        | none, none => endChunk c r.plan r.copy r.chunk .applied none d1
    settleUpdCmd c d2
  | _, _ => d

/-- CHUNK_END: the running chunk ends, unless its accesses are held. -/
def endChunkRun (c : Nat) (d : Dev) : Dev := let d1 := checkRun c d; if runHeld c d1 then d1 else finishRun c d1

/-- Starts a chunk: RUNNING, with parameters and SEED read, and CHECK where nothing holds it. An empty share is applied with no
memory access, and takes no time (R222). -/
def startOne (c n k : Nat) (p : Plan) (m : MemMap) (d : Dev) : Dev :=
  if (shareOf c p k m).isEmpty then
    endChunk c n p k .applied none (clearRun c (modEng c (fun g => { g with lastPlan := n }) d))
  else
    let run : ChunkRun :=
      { plan := n, chunk := k, copy := p,
        params := (List.range 32).map (fun i => BitVec.ofNat 32 (rd (rUpd c 3 (0x100 + 0x80 * n + 4 * i)) d)),
        seedLo := BitVec.ofNat 32 (rd (rPlan c n 0x20) d), seedHi := BitVec.ofNat 32 (rd (rPlan c n 0x24) d),
        marked := none, disabled := false, checked := false }
    chunksMeet c m (checkRun c (modEng c (fun g => { g with running := some run, lastPlan := n })
      (setChunk c (p.stateBase + k) .running (chunkAt c p k d).2 d)))

/-- The engine starts its next chunk, after the empty shares before it (R222, R237). -/
def startChunks (fuel c : Nat) (d : Dev) : Dev :=
  match fuel, (engOf c d).running, nextServed c d with
  | f + 1, none, some (n, k) =>
    if engineHeld c d || stateOf (pUpd c) d != .active then d else
    match planOf c n d, d.memMap with
    | some p, some m => startChunks f c (startOne c n k p m d)
    | _, _ => d
  | _, _, _ => d

/-- CHUNK_RUN: the next chunk starts, or the one that waits for its CHECK goes on. -/
def startChunk (c : Nat) (d : Dev) : Dev := checkRun c (startChunks ((engOf c d).table.length + 1) c d)

/-- A run is cut off: a share of which some first part, free (log entry 7), has been applied, and a TORN entry (R243). -/
def tearRun (c : Nat) (d : Dev) : Dev :=
  match (engOf c d).running, d.memMap with
  | some r, some m =>
    let share := shareOf c r.copy r.chunk m
    let done := (drawFree d).toNat % (share.length + 1)
    let y := if r.marked.isSome || !r.checked then (d, r.marked) else applyPart c r m (share.take done) (tickFree d)
    let addr := y.2.getD 0
    let d1 := clearRun c y.1
    if r.disabled then
      raise (pUpd c) 20 (logSkip c 3 r.plan r.copy.context r.chunk (chunkAt c r.copy r.chunk d1).2 addr
        (setChunk c (r.copy.stateBase + r.chunk) .idle 0 d1))
    else endChunk c r.plan r.copy r.chunk .skipped (some (3, addr)) d1
  | _, _ => d

/-- RETEST of an engine (R243): the run is cut off, every plan disabled, the table IDLE, and DRAINED set. -/
def clearEngine (c : Nat) (d : Dev) : Dev :=
  let d1 := tearRun c d
  raise (pUpd c) 16 (modEng c (fun g => { g with plans := [], table := [], running := none }) d1)

end Sys2Proof.Machine
end

