-- ==== Sys2Proof/Machine/RingOps.lean ====
section
/-!
DEFINITION. Ring collectives (R322 to R339): geometry, arrivals, ops, chunk signals, aborts and the ends of sends.
-/

namespace Sys2Proof.Machine

def sideOf (r : Nat) : Nat := r / 24

/-! ### Geometry (R319, R322 to R324) -/

def passExtent (p : Pass) : Nat := extentOf p.format p.chunkLog2
def chunksPer (p : Pass) : Nat := ceilDiv p.pieceSize (passExtent p)

/-- Piece and chunk of firing f. -/
def pieceChunk (p : Pass) (firstPiece firstChunk f : Nat) : Nat × Nat :=
  let g := firstChunk + f
  let c := chunksPer p
  let q := g / c
  ((firstPiece + p.members * q - q) % p.members, g % c)

def chunkAddr (p : Pass) (piece j : Nat) : Nat := p.base + piece * p.stride + j * passExtent p
def chunkLength (p : Pass) (j : Nat) : Nat := min (passExtent p) (p.pieceSize - j * passExtent p)
def bufferAddr (p : Pass) (t : Nat) : Nat := p.buffers + t % p.inFlight * passExtent p
def chunkIdOf (r : Nat) (p : Pass) (t : Nat) : Nat := 2 ^ 26 * r + (if p.repair then 2 ^ 25 else 0) + t % 2 ^ 25

/-- Chunks in flight (R323). -/
def flightOf (size extent : Nat) : Nat := min 4 (size / extent)

/-- What LAUNCH copies. -/
def readPass (r : Nat) (d : Dev) : Pass :=
  let g := fun off => rd (rRing r off) d
  let g64 := fun off => rd64 (rRing r off) d
  let ctrl := g 0x40
  let repair := bitOf ctrl 19
  { format := ctrl % 16, op := fieldOf ctrl 5 4, ceil := bitOf ctrl 8, repair := repair, ctx := fieldOf ctrl 18 16,
    channel := fieldOf ctrl 13 12, chunkLog2 := g 0x44, members := g 0x48, position := g 0x4C,
    next := g 0x50 % 2 ^ 12, prev := fieldOf (g 0x50) 27 16, nextCounter := g 0x54, tag := BitVec.ofNat 32 (g 0x58),
    pieceSize := g 0x5C, base := g64 0x60, stride := g64 0x68, buffers := if repair then g64 0x80 else g64 0x70,
    inFlight := flightOf (if repair then g 0x88 else g 0x78) (extentOf (ctrl % 16) (g 0x44)),
    first := g 0x8C % 2 ^ 10, count := fieldOf (g 0x8C) 26 16, signalCore := g 0x90, signalUpdate := g 0x94,
    planChunk := g 0x98, pad := g 0x9C, gatherSrc := g64 0xA0, gatherLength := g64 0xA8, listBase := g64 0xB0,
    listCapacity := g 0xB8, gateCounter := g 0xBC % 2 ^ 9, gateThreshold := BitVec.ofNat 32 (g 0xF8) }

def passEntries (p : Pass) : List Nat := (List.range p.count).map (p.first + ·)

/-- A pass is RUNNING and has not begun to abort. -/
def isRunning (r : Nat) (d : Dev) : Bool := (ringSt r d).result == 1 && !(ringSt r d).aborting

/-- The REDUCTION page is ACTIVE while any pass of its die is RUNNING (R346). -/
def settleReduction (side : Nat) (d : Dev) : Dev :=
  settlePage (pRed side)
    (if (sidePlanes side).any (fun r => (ringSt r d).result == 1) then .active else .ready) .work d

/-! ### Aborts (R339) -/

/-- The send of an op that has handed no packet to its stream is not sent. -/
def unhanded (d : Dev) (o : RingOp) : Bool :=
  match o.sendNum with
  | none => o.transfer.isSome
  | some n => match findSend n d with | some s => s.sent == 0 && s.ended.isNone | none => false

/-- Ends an abort once no op runs: the notice leaves, and RESULT reads ABORTED (steps 3 and 4). -/
def finishAbort (r : Nat) (d : Dev) : Dev :=
  let st := ringSt r d
  match st.pass with
  | some p =>
    if st.aborting && st.ops.isEmpty then
      let notice : Send :=
        { num := 0, origin := .abort r, stream := ⟨sideOf r, p.channel, p.next⟩, type := 5, ctx := p.ctx, src := 0,
          length := 0, remote := 0, planes := 2 ^ r, notify := false, counter := 0, chunk := false, chunkEnd := false,
          chunkId := r, chunkOffset := 0, passTag := p.tag, notice := BitVec.ofNat 32 (2 ^ 16 * st.reason + st.origin),
          sent := 0, poisoned := false, abandoned := false, rejected := none, ended := none }
      let d1 := modRing r (fun x => { x with result := 4, aborting := false }) (startSend notice d)
      settleReduction (sideOf r) (endCmdIf (pRing r) 0x41 true (raise (pRing r) 16 (raise (pRing r) 19 d1)))
    else d
  | none => d

/-- A running pass aborts with a reason; a notice keeps its origin rank. -/
def abortPass (r reason : Nat) (notice : Option Nat) (d : Dev) : Dev :=
  match (ringSt r d).pass with
  | some p =>
    if isRunning r d = false then d else
    let d1 := disarmEntries (sideOf r) (passEntries p) d
    let dropped := ((ringSt r d1).ops.filter (fun o => o.moved && unhanded d1 o)).filterMap (·.sendNum)
    let d2 := modNet (fun n => { n with sends := n.sends.filter (fun s => !dropped.contains s.num) }) d1
    let keep := ((ringSt r d1).ops.filter (·.moved)).map (fun o =>
      if unhanded d1 o then { o with transfer := none, sendNum := none } else o)
    let d3 := modRing r (fun x => { x with
      aborting := true, reason := reason, remote := notice.isSome, origin := notice.getD d.job.rank,
      gated := false, work := [], waiting := [], ops := keep }) d2
    finishAbort r (match notice with | some n => wr (rRing r 0xC4) n d3 | none => d3)
  | none => d

/-! ### Arrivals and notices (R325, R327) -/

def discardNotice (r : Nat) (d : Dev) : Dev := bump (rRing r 0xF4) d

/-- The arrival limit: K of the pass, or of the registers before a LAUNCH. -/
def arrivalLimit (r : Nat) (d : Dev) : Nat :=
  match (ringSt r d).pass with
  | some p => p.inFlight
  | none => (readPass r d).inFlight

/-- A chunk signal of a receive half reaches the ring. -/
def ringArrival (r chunkId result : Nat) (d : Dev) : Dev :=
  let st := ringSt r d
  let arrived := rd (rRing r 0xC8) d
  if chunkId % 2 ^ 25 = arrived % 2 ^ 25 ∧ st.arrivals.length < arrivalLimit r d then
    let d1 := modRing r (fun x => { x with
      arrivals := x.arrivals ++ [⟨arrived, chunkId, result⟩]
      lastProgress := d.now
      timer := 0 }) (addWrap (rRing r 0xC8) 1 d)
    if isRunning r d1 then begin_ r d1 else d1
  else
    let d1 := discardNotice r d
    if isRunning r d1 then abortPass r 6 none d1 else d1

/-- A CREDIT or ABORT packet that arrived on plane r (R327, R339). -/
def ringNotice (r type ring : Nat) (tag : Word) (value : Nat) (d : Dev) : Dev :=
  match (ringSt r d).pass with
  | some p =>
    if ring = r ∧ (ringSt r d).result = 1 ∧ p.tag = tag ∧ (type = 4 ∨ isRunning r d) then
      if type = 4 then
        (if rd (rRing r 0xD4) d < value then progress r (wr (rRing r 0xD4) value d) else d)
      else abortPass r (fieldOf value 19 16) (some (value % 2 ^ 12)) d
    else discardNotice r d
  | none => discardNotice r d

/-! ### Poison list and chunk signals (R330, R334) -/

/-- The write of the next entry of the poison list is held. -/
def listHeld (r : Nat) (p : Pass) (d : Dev) : Bool :=
  let n := rd (rRing r 0xE4) d
  decide (n < p.listCapacity) && netHeld (p.listBase + 16 * n) 16 true d

/-- One entry of the poison list. -/
def listPoison (r : Nat) (p : Pass) (o : RingOp) (chunkId result kind : Nat) (d : Dev) : Dev :=
  let n := rd (rRing r 0xE4) d
  let bytes := leBytes 4 chunkId ++ leBytes 4 (2 ^ 12 * o.chunk + o.piece)
    ++ leBytes 4 (2 ^ 16 * o.entry + 2 ^ 12 * o.op + 2 ^ 8 * result + kind)
    ++ leBytes 4 ((p.planChunk + o.piece * chunksPer p + o.chunk) % 2 ^ 18)
  let d1 := if n < p.listCapacity then ringWrote (p.listBase + 16 * n) 16 (memWrite (p.listBase + 16 * n) bytes [] d) else d
  wr (rRing r 0xE4) (n + 1) d1

def signalDrop (r : Nat) (d : Dev) : Dev := raise (pRing r) 20 (bump (rRing r 0xE0) d)

/-- The chunk signal of a firing. -/
def chunkSignal (r : Nat) (p : Pass) (piece j : Nat) (good : Bool) (tag : Nat) (d : Dev) : Dev :=
  let sc := p.signalCore
  let t := coreAt (sc % 64) (fieldOf sc 13 8)
  let d1 :=
    if bitOf sc 31 = false then d
    else if t < 2560 ∧ coreTakes t d then addFlag t (fieldOf sc 21 16) 1 d
    else signalDrop r d
  let su := p.signalUpdate
  let d2 :=
    if bitOf su 31 = false then d1
    else (List.range 24).foldl (fun x c =>
      if bitOf su c = false then x
      else if inState (pUpd c) [.off, .retired] x then signalDrop r x
      else takeTrigger c p.ctx ⟨fieldOf su 27 24, (p.planChunk + piece * chunksPer p + j) % 2 ^ 18, tag, !good⟩ x) d1
  let d3 := raise (pRing r) 17 (addWrap (rRing r (if good then 0xD8 else 0xDC)) 1 d2)
  if good then d3 else raise (pRing r) 18 d3

/-! ### Reduction (R328) -/

def splitEvery (fuel n : Nat) (l : List Byte) : List (List Byte) :=
  match fuel with
  | 0 => []
  | k + 1 => if l.isEmpty then [] else l.take n :: splitEvery k n (l.drop n)

def combineVal (op : Nat) (a b : Val) : Val :=
  match op with | 0 => rn32 (addV a b) | 1 => maxV a b | _ => minV a b

/-- Elements of one width. -/
def reducePlain (op : Nat) (f : Fmt) (a b : List Byte) : List Byte × Nat :=
  let w := f.bits / 8
  let vs := ((splitEvery a.length w a).zip (splitEvery a.length w b)).map (fun (x, y) =>
    convert f .nearest (combineVal op (decodeFmt f (leNat x)) (decodeFmt f (leNat y))))
  (vs.flatMap (fun c => leBytes w c.bits), (vs.filter (·.nan)).length)

/-- One block of two MXFP8 frames. -/
def reduceBlock (op : Nat) (f : Fmt) (ceil : Bool) (x y : List Byte) (s t : Byte) : MxBlock :=
  trackBlock f ceil (fun _ => .nearest) ((x.zip y).map (fun (e : Byte × Byte) =>
    combineVal op (decodeMx f s.toNat e.1.toNat) (decodeMx f t.toNat e.2.toNat)))

/-- MXFP8 frames: elements, then one scale byte for each block of 32. -/
def reduceMx (op : Nat) (f : Fmt) (ceil : Bool) (n : Nat) (a b : List Byte) : List Byte × Nat :=
  let pairs := (splitEvery n 32 (a.take n)).zip (splitEvery n 32 (b.take n))
  let blocks : List MxBlock := (pairs.zip ((a.drop n).zip (b.drop n))).map (fun e =>
    reduceBlock op f ceil e.1.1 e.1.2 e.2.1 e.2.2)
  (blocks.flatMap (fun k => k.elems.map (fun c => BitVec.ofNat 8 c.bits)) ++ blocks.map (fun k => BitVec.ofNat 8 k.scale),
   (blocks.flatMap (fun k => k.elems.filter (fun c => c.nan))).length)

/-- The combined chunk, and its result elements that are NaN. -/
def reduceChunk (p : Pass) (a b : List Byte) : List Byte × Nat :=
  match fmtOf p.format with
  | none => (a, 0)
  | some f => if isMx p.format then reduceMx p.op f p.ceil (2 ^ p.chunkLog2) a b else reducePlain p.op f a b

/-- Usable reduction units of a die (R346). -/
def unitsUsable (side : Nat) (d : Dev) : List Nat := (List.range 8).filter (fun i => usable (uReduction (8 * side + i)) d)

/-! ### Staging (R345) -/

/-- A word of the die's staging is read with bits in error. -/
def meetStage (side a : Nat) (bits : WordNoise) (d : Dev) : Dev :=
  let w := stageWord a
  let at_ := 2 ^ 63 + 16 * w
  match judgeWord (d.net.stagePoison.contains w) bits with
  | .good corrected flips =>
    let d1 := if flips = 0 then d else stageWrite at_ (flipBytes (d.net.staging.read (16 * w) 16) flips) [] d
    if corrected then bump (rRed side 0x44) d1 else d1
  | .poisoned => if d.net.stagePoison.contains w then d else stageWrite at_ (zeros 16) [0] d
  | .uncorrectable => raise (pRed side) 17 (bump (rRed side 0x48) (stageWrite at_ (zeros 16) [0] d))

/-- The errors that the reads of a command meet in a die's staging. -/
def meetStaging (side : Nat) (l : DeviceErrors) (d : Dev) : Dev :=
  l.foldl (fun x e => match e with
    | .word a bits => if inStaging side a 1 then meetStage side a bits x else x
    | _ => x) d

/-! ### Ops (R319, R326, R329) -/

def modOp (r num : Nat) (f : RingOp → RingOp) (d : Dev) : Dev :=
  modRing r (fun x => { x with ops := x.ops.map (fun o => if o.num = num then f o else o) }) d

def dropOp (r num : Nat) (d : Dev) : Dev := modRing r (fun x => { x with ops := x.ops.filter (fun o => o.num != num) }) d

def hasStore (o : RingOp) : Bool := bitOf o.flags 16
def hasForward (o : RingOp) : Bool := bitOf o.flags 17
def hasSignal (o : RingOp) : Bool := bitOf o.flags 18
def hasPack (o : RingOp) : Bool := bitOf o.flags 15

/-- An op that fails takes its entry and its pass with it (R509, R339). -/
def failOp (r : Nat) (o : RingOp) (reason : Nat) (d : Dev) : Dev :=
  finishAbort r (abortPass r reason none (firingEnded (sideOf r) o.entry true (dropOp r o.num d)))

/-- The first reason of R334 that poisons a chunk a taking op handles, or 0. -/
def poisonKind (result : Nat) (operand staging store : Bool) : Nat :=
  if result = 1 ∨ result = 3 ∨ result = 4 then 1
  else if result = 2 then 2
  else if operand then 3
  else if staging then 4
  else if store then 5
  else 0

/-- A taking op takes the oldest arrival and moves its data (R326, R328, R329). -/
def takeChunk (r : Nat) (p : Pass) (o : RingOp) (a : ChunkArrival) (d : Dev) : Dev :=
  let reduce := o.op == 2
  let len := chunkLength p o.chunk
  let buf := bufferAddr p a.transfer
  let loc := chunkAddr p o.piece o.chunk
  if (reduce && netHeld loc len false d) || (hasStore o && netHeld loc len true d) then d else
  let units := unitsUsable (sideOf r) d
  let d0 := modRing r (fun x => { x with arrivals := x.arrivals.drop 1 }) (addWrap (rRing r 0xCC) 1 d)
  if reduce && units.isEmpty then failOp r o 5 d0 else
  let unit := if reduce then units[(drawFree d0).toNat % units.length]? else none
  let d1 := if reduce then tickFree d0 else d0
  let mine := netRead buf len d1
  let other := if reduce && a.result == 0 then netRead loc len mine.1 else (mine.1, [], [])
  let lost := hasStore o && (linesIn loc len).any (fun l => lineLost l other.1)
  let kind := poisonKind a.result (other.2.2 != []) (mine.2.2 != []) lost
  let d2 := other.1
  let good := kind == 0
  if !good && listHeld r p d then d else
  let out := if good && reduce then reduceChunk p mine.2.1 other.2.1 else (mine.2.1, 0)
  let d3 := if good then (if reduce then stageWrite buf out.1 [] d2 else d2)
    else listPoison r p o a.chunkId a.result kind (netPoison buf (passExtent p) d2)
  let d4 := if good && hasStore o then ringWrote loc out.1.length (memWrite loc out.1 [] d3) else d3
  let d5 := if reduce then addSat (rRed (sideOf r) 0x50) out.2 (addWrap (rRed (sideOf r) 0x4C) 1 d4) else d4
  let d6 := modOp r o.num (fun x => { x with arrival := some a, moved := true, poisoned := !good, unit_ := unit }) d5
  if hasSignal o then chunkSignal r p o.piece o.chunk good a.chunkId d6 else d6

/-- PACK builds the member's own piece before firing 0 sends (R336, R337). -/
def packPiece (p : Pass) (r : Nat) (rank : Nat) (d : Dev) : Dev :=
  let cap := p.pieceSize - 64
  let lr := netRead p.gatherLength 8 d
  let total := leNat lr.2.1
  let stored := min total cap
  let src := netRead p.gatherSrc stored lr.1
  let piece := p.base + p.position * p.stride
  let header := leBytes 8 total ++ leBytes 8 stored ++ leBytes 8 (total - stored) ++ leBytes 4 rank
    ++ leBytes 4 p.tag.toNat ++ zeros 32
  let body := header ++ src.2.1 ++ List.replicate (cap - stored) (BitVec.ofNat 8 p.pad)
  let marks := if lr.2.2 = [] then src.2.2.map (· + 4) else List.range (p.pieceSize / 16)
  add64 (rRing r 0xE8) (total - stored) (ringWrote piece body.length (memWrite piece body marks src.1))

/-- The chunk send of an op (R324). -/
def opSend (r : Nat) (p : Pass) (o : RingOp) (t src : Nat) : Send :=
  { num := 0, origin := .op r o.num, stream := ⟨sideOf r, p.channel, p.next⟩, type := 1, ctx := p.ctx, src := src,
    length := chunkLength p o.chunk, remote := bufferAddr p t, planes := 2 ^ r, notify := true,
    counter := p.nextCounter, chunk := true, chunkEnd := true, chunkId := chunkIdOf r p t, chunkOffset := 0,
    passTag := 0, notice := 0, sent := 0, poisoned := false, abandoned := false, rejected := none, ended := none }

/-- The op may start its send: the next member has a buffer, every earlier transfer has begun, and the network interface of the
ring's plane is not quiesced (R285, R326, R327). -/
def maySend (r : Nat) (p : Pass) (o : RingOp) (d : Dev) : Bool :=
  match o.transfer with
  | none => false
  | some t => o.sendNum.isNone && stateOf (pNi r) d != .quiesced && decide (t < rd (rRing r 0xD4) d + p.inFlight)
      && (ringSt r d).ops.all (fun x => match x.transfer with
        | some u => decide (t ≤ u) || x.sendNum.isSome
        | none => true)

/-- Starts the op's send. -/
def beginSend (r : Nat) (p : Pass) (o : RingOp) (d : Dev) : Dev :=
  match o.transfer with
  | none => d
  | some t =>
    let src := match o.arrival with | some a => bufferAddr p a.transfer | none => chunkAddr p o.piece o.chunk
    let pack := o.op == 1 && hasPack o && o.firing == 0
    if pack && (netHeld (p.base + p.position * p.stride) p.pieceSize true d || netHeld p.gatherSrc (p.pieceSize - 64) false d
        || netHeld p.gatherLength 8 false d) then d else
    let d1 := if pack then packPiece p r d.job.rank d else d
    let s := opSend r p o t src
    match judgeSend s d1 with
    | .done =>
      let n := d1.net.nextSend
      modOp r o.num (fun x => { x with moved := true, sendNum := some n }) (startSend s d1)
    | _ => failOp r o 3 d1

/-- Takes the oldest record of RING_WORK as an op (R326). -/
def startWork (r : Nat) (w : Work) (p : Pass) (d : Dev) : Dev :=
  let b := belayOf (sideOf r) w.entry d
  let pc := pieceChunk p b.firstPiece b.firstChunk w.firing
  let op := entryOp b.ctrl
  let sends := op == 1 || ((op == 2 || op == 3) && bitOf b.ctrl 17)
  let st := ringSt r d
  let o : RingOp :=
    { num := st.nextOp, entry := w.entry, firing := w.firing, op := op, flags := b.ctrl, piece := pc.1, chunk := pc.2,
      arrival := none, transfer := if sends then some st.nextTransfer else none, moved := false, sendNum := none,
      sendEnd := none, poisoned := false, unit_ := none }
  let poisoned := w.cells.any badCell
  let d1 := modRing r (fun x => { x with
    work := x.work.drop 1
    ops := x.ops ++ [o]
    nextOp := x.nextOp + 1
    nextTransfer := if sends ∧ !poisoned then x.nextTransfer + 1 else x.nextTransfer }) d
  let d2 := admitWork (ringSt r d1).waiting.length r d1
  if poisoned then failOp r o 5 (countParity (sideOf r) d2) else d2

/-- The op takes an arrival and has not yet. -/
def wantsArrival (o : RingOp) : Bool := !o.moved && (o.op == 2 || o.op == 3)

/-- An op that can go on: the earliest op that waits for an arrival finds the oldest, or the op may start its send (R326). -/
def canGo (r : Nat) (p : Pass) (o : RingOp) (d : Dev) : Bool :=
  ((ringSt r d).ops.find? wantsArrival == some o && !(ringSt r d).arrivals.isEmpty)
    || ((o.moved || o.op == 1) && maySend r p o d)

/-- One step of an op. -/
def goOn (r : Nat) (p : Pass) (o : RingOp) (d : Dev) : Dev :=
  if wantsArrival o then
    match (ringSt r d).arrivals with
    | a :: _ => takeChunk r p o a d
    | [] => d
  else beginSend r p o d

def firstThat (r : Nat) (p : Pass) (code : Nat) (d : Dev) : Option RingOp :=
  (ringSt r d).ops.find? (fun o => o.op == code && canGo r p o d)

/-- The ring runs its oldest op of a kind that can go on, or starts its oldest record, where that is of the kind
(R326, R332, R342): up to K ops run at once, and a quiesced page or a gated pass starts none. -/
def runOps (r code : Nat) (d : Dev) : Dev :=
  match (ringSt r d).pass with
  | none => d
  | some p =>
    if isRunning r d = false then d else
    let d1 :=
      match firstThat r p code d, (ringSt r d).work with
      | none, w :: _ =>
        if entryOp (belayOf (sideOf r) w.entry d).ctrl == code && !(ringSt r d).gated
            && decide ((ringSt r d).ops.length < p.inFlight) && stateOf (pRing r) d == .active then startWork r w p d
        else d
      | _, _ => d
    let d2 := match firstThat r p code d1 with | some o => goOn r p o d1 | none => d1
    match firstThat r p code d2 with | some o => goOn r p o d2 | none => d2

/-- A SIGNAL firing gives a good chunk signal and ends (R319, R330). -/
def runSignal (r : Nat) (d : Dev) : Dev :=
  match (ringSt r d).pass, (ringSt r d).work with
  | some p, w :: _ =>
    if isRunning r d && entryOp (belayOf (sideOf r) w.entry d).ctrl == 4 && !(ringSt r d).gated
        && decide ((ringSt r d).ops.length < p.inFlight) && stateOf (pRing r) d == .active then
      let num := (ringSt r d).nextOp
      let d1 := startWork r w p d
      match (ringSt r d1).ops.find? (fun o => o.num == num) with
      | some o =>
        progress r (firingEnded (sideOf r) o.entry false (chunkSignal r p o.piece o.chunk true 0 (dropOp r num d1)))
      | none => d1
    else d
  | _, _ => d

/-- A CREDIT to PREV_RANK (R326, R327). -/
def sendCredit (r : Nat) (p : Pass) (d : Dev) : Dev :=
  startSend {
    num := 0, origin := .credit r, stream := ⟨sideOf r, p.channel, p.prev⟩, type := 4, ctx := p.ctx, src := 0,
    length := 0, remote := 0, planes := 2 ^ r, notify := false, counter := 0, chunk := false, chunkEnd := false,
    chunkId := r, chunkOffset := 0, passTag := p.tag, notice := BitVec.ofNat 32 (ringSt r d).freed, sent := 0,
    poisoned := false, abandoned := false, rejected := none, ended := none } d

/-- An op whose data has moved and whose send has completed ends: a taking op frees its buffer (R326). -/
def endOp (r num : Nat) (d : Dev) : Dev :=
  match (ringSt r d).pass, (ringSt r d).ops.find? (fun o => o.num == num) with
  | some p, some o =>
    if !o.moved || (o.transfer.isSome && o.sendEnd.isNone) then d else
    let d1 := dropOp r num d
    let d2 := if o.arrival.isSome then
        sendCredit r p (modRing r (fun x => { x with freed := x.freed + 1 }) d1) else d1
    finishAbort r (firingEnded (sideOf r) o.entry false (progress r d2))
  | _, _ => d

/-! ### Ends of sends (R273, R290, R509) -/

/-- What the end of one send does to what started it. -/
def sendEnded (s : Send) (res : Result) (detail : Nat) (d : Dev) : Dev :=
  match s.origin with
  | .host p =>
    endCmdIf (pNi p) 0x40 (res == .done) (wr (rNi p 0x6C) (resultCode res + 16 * detail) d)
  | .op r num =>
    match (ringSt r d).pass, (ringSt r d).ops.find? (fun o => o.num == num) with
    | some p, some o =>
      if res = .done ∨ (res = .failed ∧ detail = 1) then
        let d1 := progress r (addWrap (rRing r 0xD0) 1 (modOp r num (fun x => { x with sendEnd := some (res, detail) }) d))
        if res = .failed ∧ o.op = 1 then listPoison r p o s.chunkId 0 3 d1 else d1
      else failOp r o (if res = .failed then 4 else 3) d
    | _, _ => d
  | .credit _ => d
  | .abort _ => d

/-- Acts on every send that has ended, in order. -/
def settleSends (fuel : Nat) (d : Dev) : Dev :=
  match fuel with
  | 0 => d
  | n + 1 =>
    match d.net.sends.find? (fun s => s.ended.isSome) with
    | none => d
    | some s =>
      let e := s.ended.getD (.done, 0)
      settleSends n (sendEnded s e.1 e.2
        (modNet (fun t => { t with sends := t.sends.filter (fun x => x.num != s.num) }) d))

def settleAll (d : Dev) : Dev := settleSends d.net.sends.length d

/-- A broken stream aborts every pass that uses it (R339). -/
def abortOnStream (k : StreamId) (d : Dev) : Dev :=
  (sidePlanes k.side).foldl (fun x r =>
    match (ringSt r x).pass with
    | some p => if p.channel = k.channel ∧ (p.next = k.peer ∨ p.prev = k.peer) then abortPass r 4 none x else x
    | none => x) d

/-- A reduction unit has failed: an op that it was combining ends FAILED, and so does its pass. Whether an op whose combination
the unit has run had come to the end of it is free (R346, R509; log entry 82). -/
def failUnitOps (side unit : Nat) (d : Dev) : Dev :=
  (sidePlanes side).foldl (fun x r =>
    ((ringSt r x).ops.filter (fun o => o.unit_ == some unit)).foldl (fun y o =>
      if isRunning r y && (ringSt r y).ops.any (fun z => z.num == o.num) then
        (if (drawFree y).getLsbD 0 then failOp r o 5 (tickFree y) else tickFree y)
      else y) x) d

/-- An op's records that a queue has lost end FAILED (R296 to R298). -/
def failRecords (r : Nat) (ws : List Work) (d : Dev) : Dev :=
  let d1 := ws.foldl (fun x w => firingEnded (sideOf r) w.entry true x) d
  if ws.isEmpty then d1 else abortPass r 5 none d1

/-! ### Records that a queue drops (R296 to R298) -/

/-- Producers that wait for the queue's credit write their records (R294). -/
def admitQueue (side q : Nat) (d : Dev) : Dev :=
  if 96 ≤ q then
    let r := 24 * side + (q - 96)
    admitWork (ringSt r d).waiting.length r d
  else admitHeaders side d

/-- Every record of a queue is dropped: its firings end FAILED; a packet to be sent stays unacknowledged, and a packet received
is as if lost. -/
def dropRecords (side q : Nat) (d : Dev) : Dev :=
  if 96 ≤ q then
    let r := 24 * side + (q - 96)
    failRecords r (ringSt r d).work (modRing r (fun x => { x with work := [] }) d)
  else putRecords side q [] d

/-- A queue is flushed, and its cells return as credit (R298). -/
def flushQueue (side q : Nat) (d : Dev) : Dev := admitQueue side q (dropRecords side q d)

/-- The queues and buffers of a port that is retired are emptied (R298). -/
def emptyPort (p : Nat) (d : Dev) : Dev :=
  let side := p / 24
  let d1 := modPool side (fun x => { x with waiting := x.waiting.filter (fun w => w.1 / 4 != p % 24) })
    (modPort p (fun x => { x with bufData := [], bufCtrl := [] }) d)
  (List.range 4).foldl (fun x i => flushQueue side (4 * (p % 24) + i) x) d1

end Sys2Proof.Machine
end

