-- ==== Sys2Proof/Machine/StreamOps.lean ====
section
/-!
DEFINITION. What arrives on a port (R255 to R278): the checks of frames, the halves of streams, and the receive halves of the
chunk check (R305 to R308).
-/

namespace Sys2Proof.Machine

/-! ### Receive halves of chunk slots -/

/-- The part of [a, a + n) that lies in [b, b + m). -/
def overlapOf (a n b m : Nat) : Nat × Nat := (max a b, min (a + n) (b + m) - max a b)

/-- Poisons the parts of a chunk's range that lie in the die's staging or in an open window of the chunk's context
(R308). -/
def poisonChunk (side ctx base bytes : Nat) (d : Dev) : Dev :=
  let st := overlapOf base bytes (stageBase side) (2 ^ 26)
  (d.net.windows.filter (fun w => w.2.ctx == ctx)).foldl (fun x w =>
    let o := overlapOf base bytes w.2.base w.2.length
    netPoison o.1 o.2 x) (netPoison st.1 st.2 d)

/-- The closing of a receive half with a result other than ABANDONED, up to the chunk signal (steps 1 and 2 of R308). -/
def closeHalf (h : Nat) (result : Nat) (d : Dev) : Dev :=
  let c := checkRx h d
  let r := h / 4
  let d1 := if result = 1 ∨ result = 3 ∨ result = 4 then poisonChunk (sideOf r) c.ctx c.base c.bytes d else d
  let d2 := bump (rChk r (match result with | 0 => 0x60 | 4 => 0x68 | _ => 0x64))
    (putCheckRx h { c with open_ := false, result := result } d1)
  ringArrival r c.chunkId result d2

/-- Step 4 of R308. -/
def closeEvent (h result : Nat) (d : Dev) : Dev :=
  if result = 0 then d else raise (pChk (h / 4)) (if result = 4 then 17 else 16) d

/-- An older chunk gives way to a newer one. -/
def reuseSlot (h chunkId : Nat) (d : Dev) : Dev :=
  let c := checkRx h d
  if c.open_ && c.chunkId != chunkId then closeEvent h 4 (closeHalf h 4 d) else d

/-- Folds an accepted packet; answers the result where it closes the half (R306, R307). -/
def foldPacket (p : RxPkt) (d : Dev) : Dev × Option Nat :=
  let h := slotOf p.chunkId
  let d1 := reuseSlot h p.chunkId d
  let c0 := checkRx h d1
  let c := if c0.open_ then { c0 with ctx := p.ctx }
    else { c0 with
      open_ := true, chunkId := p.chunkId, bytes := 0, value := crcInit, ctx := p.ctx, outOfOrder := false,
      poisoned := false, base := (p.address + 2 ^ 64 - p.chunkOffset) % 2 ^ 64 }
  let ooo := c.outOfOrder || p.chunkOffset != c.bytes
  let c1 := if ooo then { c with
      outOfOrder := true, bytes := max c.bytes (p.chunkOffset + p.payload.length), poisoned := c.poisoned || p.poison }
    else { c with
      value := crcReg c.value (zeros p.payload.length) ^^^ crcReg 0 p.payload, bytes := c.bytes + p.payload.length, poisoned := c.poisoned || p.poison }
  if p.lastOfChunk then
    let c2 := { c1 with received := p.check }
    let result := if ooo then 3 else if c2.poisoned then 2 else if c2.value ^^^ crcInit = p.check then 0 else 1
    (closeHalf h result (putCheckRx h c2 d1), some result)
  else (putCheckRx h c1 d1, none)

/-- What a rejected packet does to the half of its chunk (R306). -/
def abandonHalf (p : RxPkt) (d : Dev) : Dev :=
  if p.chunk && decide (p.chunkId / 2 ^ 26 < 48) then
    let h := slotOf p.chunkId
    let d1 := reuseSlot h p.chunkId d
    putCheckRx h { checkRx h d1 with open_ := false, chunkId := p.chunkId, result := 5 } d1
  else d

/-- The payloads of a message that has completed stand in their places (R274). -/
def land (l : List Landing) (d : Dev) : Dev :=
  l.foldl (fun x e =>
    if e.poison then x
    else
      let y := settleBytes e.address e.payload x
      if e.address < 2 ^ 63 then memWrote e.address e.payload.length y else y) d

/-- CUM_SEQ passes one packet: it folds, and the last packet of a message completes it (R272). The bytes of a rejected message
stay undefined (R270). -/
def passPacket (k : StreamId) (p : RxPkt) (d : Dev) : Dev :=
  let rejecting := (rxOf k d).rejecting || p.rejected
  let landing := (rxOf k d).landing
    ++ (if p.type = 1 ∧ p.rejected = false then [⟨p.address, p.payload, p.poison⟩] else [])
  let d1 := modRx k (fun x => { x with rejecting := rejecting && !p.eom, landing := if p.eom then [] else landing }) d
  let d0 := if p.eom && !rejecting then land landing d1 else d1
  if p.rejected then abandonHalf p d0
  else if rejecting then d0
  else if p.type ≠ 1 then ringNotice p.port p.type p.ring p.passTag p.notice.toNat d0
  else
    let y := if p.chunk then foldPacket p d0 else (d0, none)
    let d2 := if p.eom && p.notify then counterAddN k.side p.counter 1 y.1 else y.1
    match y.2 with
    | some result => closeEvent (slotOf p.chunkId) result d2
    | none => d2

/-- CUM_SEQ advances over every packet that now follows it (R272). -/
def advance (fuel : Nat) (k : StreamId) (d : Dev) : Dev :=
  match fuel with
  | 0 => d
  | n + 1 =>
    let r := rxOf k d
    let next := (r.cum + 1) % 2 ^ 32
    match r.pkts.find? (fun p => p.seq == next) with
    | none => d
    | some p =>
      advance n k (passPacket k p (modRx k (fun x => { x with
        cum := next
        pkts := x.pkts.filter (fun q => q.seq != next) }) d))

/-! ### Sequenced packets (R267, R270, R271, R275) -/

/-- The range lies in the die's staging, or in module memory within one open receive window of the context: no packet writes
the other die's staging (R267, R268). -/
def inReceiveWindow (side ctx a n : Nat) (d : Dev) : Bool :=
  inStaging side a n || (inMemory a n d && d.net.windows.any (fun w =>
    w.2.ctx == ctx && decide (w.2.base ≤ a) && decide (a + n ≤ w.2.base + w.2.length)))

/-- Steps 4 to 7 of R267: the reason that rejects a packet, or none. -/
def rejectReason (p : Nat) (f : Frame) (d : Dev) : Option Nat :=
  let data := f.type == 1
  let a := f.remoteAddr.toNat
  let ring := f.chunkId.toNat / 2 ^ 26
  if data && (decide (4096 < f.payloadLength) || f.payloadLength % 16 != 0 || f.payload.length != f.payloadLength
      || f.udpLength != 48 + f.payloadLength + (if f.lastOfChunk then 8 else 0) || a % 16 != 0) then some 1
  else if !d.job.open_.contains f.context then some 3
  else if data && f.chunk && (decide (47 < ring)
      || decide (chunkExtent ring d < f.chunkOffset.toNat + f.payloadLength)) then some 4
  else if data && f.lastOfChunk && (!f.chunk || !f.endOfMessage) then some 4
  else if data && f.payloadLength != 0 && !inReceiveWindow (sideOf p) f.context a f.payloadLength d then some 2
  else none

/-- The counter that bears a reason's name (R289). -/
def reasonCounter (reason : Nat) : Nat :=
  match reason with | 1 => 0x118 | 2 => 0x124 | 3 => 0x11C | 4 => 0x120 | _ => 0x128

/-- The packet as the receiving half keeps it. -/
def keptPacket (p now : Nat) (f : Frame) (rejected : Bool) : RxPkt :=
  { seq := f.seq.toNat, at_ := now, type := f.type, ctx := f.context, port := p, rejected := rejected,
    eom := f.endOfMessage || f.type != 1, lastOfChunk := f.lastOfChunk, notify := f.notify, counter := f.notifyCounter,
    chunk := f.chunk && f.type == 1, chunkId := f.chunkId.toNat, chunkOffset := f.chunkOffset.toNat,
    address := f.remoteAddr.toNat, payload := f.payload, check := f.check, poison := f.poison, passTag := f.passTag,
    notice := f.notice, ring := f.ring }

/-- A packet counts as received: CUM_SEQ advances, and an ACK leaves where one is due. -/
def keep (k : StreamId) (p : Nat) (f : Frame) (rejected : Bool) (d : Dev) : Dev :=
  let d1 := modRx k (fun x => { x with
    pkts := x.pkts ++ [keptPacket p d.now f rejected]
    sinceAck := x.sinceAck + 1
    firstAt := x.firstAt.or (some d.now)
    ce := x.ce || f.ce
    plane := p }) d
  let d2 := advance (rxOf k d1).pkts.length k d1
  let every := clampReg 1 1024 (rd (rNi 0 0x94) d)
  if f.ackRequest || f.ce || decide (every ≤ (rxOf k d2).sinceAck) then sendAck k d2 else d2

/-- What R267 makes of a sequenced packet. -/
inductive RxVerdict where
  | window | duplicate | held | reject (reason : Nat) | accept
deriving DecidableEq, Repr

/-- A packet of the stream with that number waits in a receive queue of its side. -/
def queuedSeq (k : StreamId) (seq : Nat) (d : Dev) : Bool :=
  (poolOf k.side d).records.any (fun e => decide (2 ≤ e.1 % 4) && e.2.any (fun r =>
    r.frame.type != 2 && r.frame.type != 3 && r.frame.channel == k.channel && r.frame.srcRank == k.peer
      && r.frame.seq.toNat == seq))

/-- The judgement of a sequenced packet (R267). -/
def judgePacket (k : StreamId) (p : Nat) (f : Frame) (d : Dev) : RxVerdict :=
  let r := rxOf k d
  let seq := f.seq.toNat
  let next := (r.cum + 1) % 2 ^ 32
  if seqLe next seq && decide (1024 < (seq + 2 ^ 32 - next) % 2 ^ 32) then .window
  else if seqLe seq r.cum || r.pkts.any (fun q => q.seq == seq) || queuedSeq k seq d then .duplicate
  else if stateOf (pPort p) d = .quiesced then .held
  else match rejectReason p f d with
    | some reason => .reject reason
    | none => .accept

/-- An accepted packet: its payload is written, undefined until its message completes (R271, R274), and its header goes to the
port's receive queue (R291). -/
def acceptPacket (p : Nat) (f : Frame) (d : Dev) : Dev :=
  let a := f.remoteAddr.toNat
  let n := f.payload.length
  let d1 := if f.type != 1 then d
    else if f.poison then netWrite a (zeros n) (List.range (n / 16)) d
    else netWrite a (freeList n d) [] { d with fresh := d.fresh + n }
  let d2 := if f.type = 1 ∧ a < 2 ^ 63 then memWrote a n d1 else d1
  let d3 := add64 (rNi p 0x100) 1 (if f.poison && f.type == 1 then bump (rNi p 0x12C) d2 else d2)
  pushRecord (sideOf p) (rxQueue p (isData f.type)) (headerRecord 2 f none) d3

/-- A packet with CE that is not kept: CE is remembered, and an ACK leaves with ECE (R275). -/
def answerCe (k : StreamId) (p : Nat) (f : Frame) (d : Dev) : Dev :=
  if f.ce then sendAck k (modRx k (fun x => { x with ce := true, plane := p }) d) else d

/-- A sequenced packet (R267). -/
def receiveSequenced (k : StreamId) (p : Nat) (f : Frame) (d : Dev) : Dev :=
  let seq := f.seq.toNat
  match judgePacket k p f d with
  | .window => answerCe k p f (bump (rNi p 0x110) d)
  | .duplicate => sendAck k (modRx k (fun x => { x with plane := p, ce := x.ce || f.ce }) (bump (rNi p 0x114) d))
  | .held =>
    let d1 := modRx k (fun x => { x with ce := x.ce || f.ce }) d
    answerCe k p f (bump (rNi p 0x128) (sendNack p k seq (if stopHeld p d then 5 else 6) d1))
  | .reject reason =>
    let d1 := modRx k (fun x => { x with ce := x.ce || f.ce }) d
    keep k p f true (raise (pNi p) 18 (bump (rNi p (reasonCounter reason)) (sendNack p k seq reason d1)))
  | .accept => acceptPacket p f d

/-! ### ACK and NACK (R273, R276, R277) -/

def noteEce (k : StreamId) (p : Nat) (f : Frame) (d : Dev) : Dev :=
  if f.ece then cutRate k (bump (rNi p 0x140) d) else d

/-- Whether SACK_BASE and SACK_MAP report a sequence number. -/
def sacked (f : Frame) (seq : Nat) : Bool :=
  let i := (seq + 2 ^ 32 - f.chunkOffset.toNat) % 2 ^ 32
  decide (i < 64) && f.remoteAddr.getLsbD i

def receiveAck (k : StreamId) (p : Nat) (f : Frame) (d : Dev) : Dev :=
  let t := txOf k d
  let cum := f.seq.toNat
  let d1 := noteEce k p f d
  if t.broken || !seqLe cum ((t.next + 2 ^ 32 - 1) % 2 ^ 32) then d1
  else
    settleStream k (modTx k (fun x => { x with
      cum := cum
      held := false
      unacked := (x.unacked.filter (fun o => !seqLe o.seq cum)).map (fun o =>
        if sacked f o.seq then { o with sacked := true } else o) }) d1)

/-- The send of a packet in flight. -/
def sendOfSeq (k : StreamId) (seq : Nat) (d : Dev) : Option Send :=
  match (txOf k d).unacked.find? (fun o => o.seq == seq) with
  | some o => findSend o.send d
  | none => none

def holdStream (k : StreamId) (p : Nat) (d : Dev) : Dev :=
  raise (pNi p) 19 (modTx k (fun x => { x with held := true, probeAt := if x.held then x.probeAt else d.now }) d)

def receiveNack (k : StreamId) (p : Nat) (f : Frame) (d : Dev) : Dev :=
  let d1 := noteEce k p f d
  let seq := f.seq.toNat
  match f.remoteAddr.toNat % 256, sendOfSeq k seq d1 with
  | 0, some _ => resend k seq none d1
  | 5, some _ => holdStream k p d1
  | 6, some s =>
    let plane := match (txOf k d1).unacked.find? (fun o => o.seq == seq) with | some o => o.plane | none => p
    if (sidePlanes k.side).any (fun q => bitOf s.planes q && q != plane) then resend k seq (some plane) d1
    else holdStream k p d1
  | n, some s =>
    if 1 ≤ n ∧ n ≤ 4 then
      raise (pNi p) 17 (modOut k seq (fun o => { o with sacked := true })
        (modSend s.num (fun x => { x with
          rejected := x.rejected.or (some (if n = 3 then Result.rejectedState else .rejectedRange)) }) d1))
    else d1
  | _, none => d1

/-! ### Frames (R257) -/

/-- The MAC check of R257 fails. -/
def macFails (f : Frame) : Bool := !f.fcsOk || decide (f.length < 64) || decide (4352 < f.length)

/-- Which check of R257 a transport frame fails first: the register that counts it. -/
def frameFails (p : Nat) (f : Frame) (d : Dev) : Option RegId :=
  let dport := rd (rPort p 0x80) d
  let own := if d.job.attached then f.dstAddr == addrOf p d.job.rank d else f.dstAddr / 2 ^ 64 == prefixOf p d
  if macFails f then some (rPort p 0xC0)
  else if f.etherType != 0x86DD || f.ipVersion != 6 || f.ipPayloadLength != f.udpLength
    || decide (f.length < f.ipPayloadLength + (if f.tagged then 62 else 58)) || f.nextHeader != 17 || !own then
    some (rPort p 0xC4)
  else if dport == 0 || f.udpDport != dport || decide (f.udpLength < 48) || !f.checksumOk then some (rPort p 0xC4)
  else if f.version != 1 || !(decide (1 ≤ f.type) && decide (f.type ≤ 5))
    || (d.job.attached && f.dstRank != d.job.rank) then some (rNi p 0x108)
  else if !d.job.attached then some (rNi p 0x10C)
  else if decide (d.job.rankCount ≤ f.srcRank) || f.srcAddr != addrOf p f.srcRank d then some (rNi p 0x108)
  else none

/-! ### Receive buffers and pause (R280, R294) -/

def bufferSize (ctrl : Bool) : Nat := if ctrl then 65536 else 524288

/-- The frames in a receive buffer of a port, oldest first, and their bytes. -/
def bufferOf (p : Nat) (ctrl : Bool) (d : Dev) : List Frame := if ctrl then (portOf p d).bufCtrl else (portOf p d).bufData
def bytesIn (l : List Frame) : Nat := l.foldl (fun n f => n + f.length) 0
def levelOf (p : Nat) (ctrl : Bool) (d : Dev) : Nat := bytesIn (bufferOf p ctrl d)

def putBuffer (p : Nat) (ctrl : Bool) (l : List Frame) (d : Dev) : Dev :=
  modPort p (fun x => if ctrl then { x with bufCtrl := l } else { x with bufData := l }) d

def xoffOf (p : Nat) (ctrl : Bool) (d : Dev) : Option Nat := if ctrl then (portOf p d).xoffCtrl else (portOf p d).xoffData

/-- A PFC frame leaves; a port whose UDP_DPORT is 0 sends nothing (R255, R280). -/
def sendPfc (p : Nat) (ctrl : Bool) (quanta : Nat) (d : Dev) : Dev :=
  if rd (rPort p 0x80) d = 0 ∨ carries p d = false then d else
  let tag := rd (rPort p 0x78) d
  let since := if quanta = 0 then none else some d.now
  bump (rPort p 0x8C) (putOut p (.pfc p (if ctrl then fieldOf tag 18 16 else fieldOf tag 14 12) quanta)
    (modPort p (fun x => if ctrl then { x with xoffCtrl := since } else { x with xoffData := since }) d))

/-- The buffer has grown, or a pause that is due has not been sent. -/
def judgeRise (p : Nat) (ctrl : Bool) (d : Dev) : Dev :=
  if (xoffOf p ctrl d).isNone && decide (3 * bufferSize ctrl < 4 * levelOf p ctrl d) then sendPfc p ctrl 0xFFFF d else d

/-- The buffer has shrunk. -/
def judgeFall (p : Nat) (ctrl : Bool) (d : Dev) : Dev :=
  if (xoffOf p ctrl d).isSome && decide (2 * levelOf p ctrl d < bufferSize ctrl) then sendPfc p ctrl 0 d else d

/-- The stream of a packet that arrives on a port. -/
def peerStream (p : Nat) (f : Frame) : StreamId := ⟨sideOf p, f.channel, f.srcRank⟩

/-- A packet that must wait in the receive buffer: its header finds no credit, or a controller holds its write (R207, R294). -/
def rxWaits (p : Nat) (f : Frame) (d : Dev) : Bool :=
  let full := decide (creditOf (sideOf p) (rxQueue p (isData f.type)) d < packetCells)
  if f.type = 2 ∨ f.type = 3 then full
  else judgePacket (peerStream p f) p f d == .accept
    && (full || (f.type == 1 && netHeld f.remoteAddr.toNat f.payload.length true d))

/-- The port's receiver takes a frame from its buffer. -/
def takeFrame (p : Nat) (f : Frame) (d : Dev) : Dev :=
  let d1 := if f.ce then bump (rNi p 0x144) d else d
  if f.type = 2 ∨ f.type = 3 then
    pushRecord (sideOf p) (rxQueue p false) (headerRecord 2 f none) (add64 (rNi p 0x100) 1 d1)
  else receiveSequenced (peerStream p f) p f d1

/-- The port's receiver takes the frames that need not wait. -/
def pumpBuffer (fuel p : Nat) (ctrl : Bool) (d : Dev) : Dev :=
  match fuel, bufferOf p ctrl d with
  | n + 1, f :: rest =>
    if rxWaits p f d then d else pumpBuffer n p ctrl (judgeFall p ctrl (takeFrame p f (putBuffer p ctrl rest d)))
  | _, _ => d

def pumpPort (p : Nat) (ctrl : Bool) (d : Dev) : Dev := pumpBuffer (bufferOf p ctrl d).length p ctrl d

/-- A frame that has passed the checks of R257 enters the port's buffer, where it is lost if it does not fit (log entry 83). -/
def bufferFrame (p : Nat) (f : Frame) (d : Dev) : Dev :=
  let ctrl := !isData f.type
  if bufferSize ctrl < levelOf p ctrl d + f.length then d
  else pumpPort p ctrl (judgeRise p ctrl (putBuffer p ctrl (bufferOf p ctrl d ++ [f]) d))

/-- A frame with a transport packet arrives on a port. -/
def receiveFrame (p : Nat) (bytes : List Byte) (d : Dev) : Dev :=
  if !carries p d then d else
  let f := readFrame bytes
  let d1 := add64 (rPort p 0xB0) 1 d
  match frameFails p f d1 with
  | some r => bump r d1
  | none => settleAll (bufferFrame p f d1)

/-- The network interface takes the oldest record of a receive queue; a poisoned one is discarded as if lost (R296). -/
def consumeRx (side q : Nat) (d : Dev) : Dev :=
  match packetRecords side q d with
  | [] => d
  | r :: rest =>
    let d1 := putRecords side q rest d
    if r.cells.any badCell then countParity side d1
    else
      let p := 24 * side + q / 4
      let k := peerStream p r.frame
      match r.frame.type with
      | 2 => receiveAck k p r.frame d1
      | 3 => receiveNack k p r.frame d1
      | _ => keep k p r.frame false d1

end Sys2Proof.Machine
end

