-- ==== Sys2Proof/Machine/RetireOps.lean ====
section
/-!
DEFINITION. Retirement within a session (R18, R365, R367, R426) with what it does to the work of each unit, the cairn record
(R360 to R362), and the reports to management (R455, R460).
-/

namespace Sys2Proof.Machine

/-! ### Reports to management -/

/-- The lead's I3C front end answers: control firmware or the ROM of bivouac mode runs, and the module is not in the safe
state (R443, R451, R479). -/
def portAlive (d : Dev) : Bool := (d.boot.phase == .running || d.boot.phase == .bivouac) && !d.lead.safe

def modMgmt (f : Mgmt → Mgmt) (d : Dev) : Dev := { d with mgmt := f d.mgmt }

def setPins (f : Pins → Pins) (d : Dev) : Dev := { d with pins := f d.pins }

/-- ALERT_N (R455, R401, R442); while no control firmware runs it holds its level, but for a hard trip (R425). -/
def settleAlert (d : Dev) : Dev :=
  let cond := d.always.hardTrip || coolantStopped d || d.lead.safe || d.boot.phase == .bivouac || d.boot.phase == .dead
    || d.mgmt.events != 0
  setPins (fun p => { p with alert := if d.boot.phase = .waiting then p.alert || d.always.hardTrip else cond }) d

/-- The in-band interrupt that tells management of a message, unless DISEC has switched interrupts off (R450, R452). -/
def interruptFor (m : Mgmt) : List MgmtOut := if bitOf m.eventsOn 0 then [.interrupt 0xAE] else []

/-- A PlatformEventMessage of the event of one bit (R455; its bytes: log entry 23). -/
def eventMessage (d : Dev) (bit : Nat) : MgmtOut :=
  .message 1 [0x80, 0x02, 0x0A, 0x01, BitVec.ofNat 8 d.mgmt.tid, 0xF0, BitVec.ofNat 8 bit]

/-- An event of R460: its bit is set, and the receiver that SetEventReceiver named is told. -/
def mgmtEvent (bit : Nat) (d : Dev) : Dev :=
  settleAlert (modMgmt (fun m => { m with
    events := orBit m.events bit
    out := if m.receiver.isSome && portAlive d then m.out ++ interruptFor m ++ [eventMessage d bit] else m.out }) d)

/-! ### Fuse map and cairn record -/

/-- Units that a variant fuses off (R352). -/
def variantFused (variant u : Nat) : Bool :=
  let i := unitIndex u
  match variant, unitClass u with
  | 0, _ => false
  | 1, 0x8 | 1, 0x9 => (20 ≤ i && i ≤ 23) || (44 ≤ i && i ≤ 47)
  | 1, _ => false
  | _, 0xA => i == 2 || i == 5
  | _, 0x8 | _, 0x9 => (16 ≤ i && i ≤ 23) || (40 ≤ i && i ≤ 47)
  | _, 0x5 | _, 0x7 => i % 3 == 1
  | _, 0x6 => i / 16 % 3 == 1
  | _, _ => false

/-- The variant in force: a VX4-C when both copies of the variant word fail (R351). -/
def variantOf (d : Dev) : Nat := if d.boot.fuseError then 2 else d.fused.variant

/-- The fuse map lists the unit (R351, R352, R360). -/
def isFused (u : Nat) (d : Dev) : Bool :=
  variantFused (variantOf d) u || d.fused.manufacture.contains u || d.boot.lostFuses.contains u

def inCairn (u : Nat) (d : Dev) : Bool := d.flash.cairn.any (fun e => e.unit == u)

/-- An addition to the cairn record; a unit listed once is not listed again (R361, R362). -/
def addCairn (u : Nat) (c : Cause) (d : Dev) : Dev :=
  if inCairn u d ∨ 16384 ≤ d.flash.cairn.length then d
  else { d with flash := { d.flash with cairn := d.flash.cairn ++ [⟨u, causeCode c, d.flash.powerOns⟩] } }

/-! ### Guarantees (R365) -/

def usableCores (d : Dev) : Nat := countBelow 2560 (fun k => usable (uCore k) d)
def usablePorts (d : Dev) : Nat := countBelow 48 (fun p => usable (uPort p) d)
def usableChannels (d : Dev) : Nat := countBelow 384 (fun n => usable (uChannel n) d)

/-- Guaranteed cores, ports and channels of a variant (R1, R365). -/
def guaranteeOf (variant : Nat) : Nat × Nat × Nat :=
  match variant with
  | 0 => (2432, 48, 384)
  | 1 => (2304, 40, 384)
  | _ => (2048, 32, 256)

/-- Sets BELOW for the counts that are judged, and reports. -/
def judgeGuarantee (coresPorts memory : Bool) (d : Dev) : Dev :=
  let g := guaranteeOf (variantOf d)
  let b0 := coresPorts && decide (usableCores d < g.1)
  let b1 := coresPorts && decide (usablePorts d < g.2.1)
  let b2 := memory && decide (usableChannels d < g.2.2)
  let old := rd (rModule 0x74) d
  if b0 || b1 || b2 then
    mgmtEvent 1 (raise pModule 17 (wr (rModule 0x74) (old ||| (b2n b0 + 2 * b2n b1 + 4 * b2n b2)) d))
  else d

/-! ### What falls with a unit (R18, R175, R211, R213) -/

def clusterCores (i : Nat) : List Nat :=
  (List.range 16).map (fun j => coreAt (4 * (i % 16) + j % 4) (4 * (i / 16) + j / 4))


/-- The die whose controller owns a unit; 10 for what the lead owns (R15). -/
def dieOfUnit (u : Nat) : Nat :=
  let i := unitIndex u
  match unitClass u with
  | 0x1 | 0x2 => dieOfCore i
  | 0x3 => dieOfCore (i % 4096)
  | 0x4 => dieOfCluster i
  | 0x5 | 0x7 => i / 3
  | 0x6 => i / 48
  | 0x8 | 0x9 => 8 + i / 24
  | 0xA => 8 + i / 3
  | 0xB => 8 + i / 8
  | _ => 10

/-- Every unit of the module that a die controller owns. -/
def dieUnits (die : Nat) : List Nat :=
  let all := if die < 8 then
      (List.range 2560).map uCore ++ (List.range 2560).map uRouter
        ++ (List.range 16384).map (fun i => 0x300000 + i) ++ (List.range 160).map uSupervisor
        ++ (List.range 24).map uController ++ (List.range 384).map uChannel ++ (List.range 24).map uEngine
    else
      (List.range 48).map uPort ++ (List.range 48).map uNetwork ++ (List.range 6).map uOptical
        ++ (List.range 16).map uReduction
  all.filter (fun u => unitExists u && dieOfUnit u == die)

/-- Pages of an I/O die that have no unit code. -/
def diePages (die : Nat) : List PageId :=
  if die < 8 then []
  else
    let side := die - 8
    [pPool side, pRed side, pBelay side, pCounters side]
      ++ (sidePlanes side).flatMap (fun r => [pChk r, pRing r]) ++ (if side = 0 then [pLua] else [])

/-- A unit with the cause it takes, and whether the cairn record lists it. -/
structure Loss where
  unit : Nat
  cause : Cause
  listed : Bool
deriving DecidableEq, Repr

/-- Channels of a controller that are usable. -/
def liveChannels (c : Nat) (d : Dev) : List Nat :=
  ((List.range 16).map (fun j => 16 * c + j)).filter (fun n => usable (uChannel n) d)

/-- A unit and all that its loss takes with it, but for the cores that are then without a route. -/
def lossesOf (u : Nat) (c : Cause) (d : Dev) : List Loss :=
  let i := unitIndex u
  let more : List Loss :=
    match unitClass u with
    | 0x2 => [⟨uCore i, c, false⟩]
    | 0x4 => (clusterCores i).map (fun k => ⟨uCore k, .ownerLost, false⟩)
    | 0x5 => (List.range 16).map (fun j => ⟨uChannel (16 * i + j), .ownerLost, false⟩) ++ [⟨uEngine i, .ownerLost, false⟩]
    | 0x6 =>
      if (liveChannels (i / 16) d).all (fun n => n == i) then
        [⟨uController (i / 16), c, true⟩, ⟨uEngine (i / 16), .ownerLost, false⟩] else []
    | 0xC => (dieUnits i).map (fun x => ⟨x, .ownerLost, false⟩)
    | _ => []
  ((⟨u, c, true⟩ : Loss) :: more).filter (fun l => usable l.unit d)

/-! ### Work of a unit that is retired (R426) -/

/-- What a unit does when its retirement begins. -/
def stopWork (u : Nat) (d : Dev) : Dev :=
  let i := unitIndex u
  match unitClass u with
  | 0x1 => abandonKernel i d
  | 0x2 | 0x3 => loseIn u d
  | 0x7 => tearRun i d
  | 0x8 => emptyPort i (takeDown i (abortPass i 7 none d))
  | 0xB => failUnitOps (i / 8) (i % 8) (raise (pRed (i / 8)) 16 d)
  | 0xD => { d with complexes := d.complexes.set i { d.complexes.get ⟨.none_, 0, 0⟩ i with role := .fenced } }
  | _ => d

/-- A lost channel trains no more. -/
def endTraining (n : Nat) (d : Dev) : Dev :=
  let m := memCtl (n / 16) d
  putMemCtl (n / 16) { m with
    wanted := m.wanted.filter (· != n % 16)
    retraining := if m.retraining = some (n % 16) then none else m.retraining } d

/-- What follows once the unit is RETIRED: a lost channel is logged, and what its controller holds for it ends (R211). -/
def afterLoss (u : Nat) (d : Dev) : Dev :=
  let i := unitIndex u
  if unitClass u = 0x6 then
    releaseAll (i / 16) (endTraining i (raise (pMem (i / 16)) 16 (logPoison (i / 16) 0 2 i none d)))
  else d

/-! ### The decision (R367) -/

/-- Writes a unit's entry in a decision, without its event; a command in progress on its page, RETIRE apart, ends FAILED
first (log entry 74). -/
def writeLoss (l : Loss) (d : Dev) : Dev :=
  let d1 := match unitPage l.unit with
    | some p =>
      let d2 := match (pageOf p d).cmd with
        | some ⟨4, _⟩ => d
        | _ => endCmd p false d
      setStateQuiet p .retired l.cause d2
    | none => setUnit l.unit .retired l.cause d
  let die := dieOfUnit l.unit
  let d3 := if die < 10 then addWrap (rDie die 0 0x50) 1 d1 else d1
  markRetired l.unit d3

/-- Events of the pages that a decision changed. -/
def announce (l : Loss) (d : Dev) : Dev :=
  match unitPage l.unit with
  | some p => raise p 0 d
  | none => d

/-- Steps 1 to 6 of R367 for a list of losses and of pages without unit codes, whose commands in progress end FAILED (log
entry 74). -/
def applyLosses (ls : List Loss) (ps : List PageId) (d : Dev) : Dev :=
  if ls.isEmpty then d else
  let d1 := addWrap (rModule 0x54) 1 (addWrap (rModule 0x58) 1 d)
  let d2 := ps.foldl (fun x p => setStateQuiet p .retired .ownerLost (endCmd p false x)) (ls.foldl (fun x l => writeLoss l x) d1)
  let d3 := addWrap (rModule 0x58) 1 d2
  let d4 := ps.foldl (fun x p => raise p 0 x) (ls.foldl (fun x l => announce l x) d3)
  let d5 := mgmtEvent 0 (raise pModule 16 d4)
  (ls.filter (·.listed)).foldl (fun x l => addCairn l.unit l.cause x) d5

/-- Every router and link of the compute dies (R364). -/
def meshUnits : List Nat :=
  (List.range 2560).map uRouter
    ++ ((List.range 4).flatMap (fun s => (List.range 2560).map (fun k => uLink s k))).filter unitExists

def isMesh (u : Nat) : Bool := unitClass u == 2 || unitClass u == 3

/-- The detours that the die controllers install for a decision, and the cores that none then reaches (R175): firmware's,
where the command does not give them. -/
structure DetourPlan where
  detours : List Detour
  cut : List Nat

def planFor (ls : List Loss) (d : Dev) : DetourPlan :=
  let lost := (ls.map (·.unit)).filter isMesh
  if lost.isEmpty then ⟨[], []⟩
  else
    let all := lost ++ meshUnits.filter (fun u => !usable u d)
    ⟨Config.detourPlan all, Config.cutOff all⟩

/-- Cores cut off carry the cause of the retirement that cut them off (R175). -/
def cutLosses (ls : List Loss) (cut : List Nat) (d : Dev) : List Loss :=
  match ls.find? (fun l => isMesh l.unit) with
  | none => []
  | some m => ((cut.eraseDups.map (fun k => (⟨uCore k, m.cause, false⟩ : Loss))).filter (fun l =>
      unitExists l.unit && usable l.unit d && !ls.any (fun x => x.unit == l.unit)))

/-- Installs detour entries, at most 16 in a router. -/
def installDetours (l : List Detour) (d : Dev) : Dev :=
  l.foldl (fun x e =>
    let r := routerOf e.router x
    { x with routers := x.routers.set e.router { r with detours := (r.detours ++ [e]).take 16 } }) d

/-- Losses without repeats: the first of a unit stands. -/
def onceEach (l : List Loss) : List Loss :=
  l.foldl (fun a x => if a.any (fun y => y.unit == x.unit) then a else a ++ [x]) []

/-- The windows of R186 run from the retirement of a router or a link. -/
def noteMeshLoss (ls : List Loss) (d : Dev) : Dev :=
  if ls.any (fun l => isMesh l.unit) then { d with meshLosses := d.meshLosses ++ [(fpGen d, d.now)] } else d

/-- Retires units by one decision (R367, R426), with the detours and the cores that it cuts off (R175). -/
def retireAll (roots : List (Nat × Cause)) (given : Option DetourPlan) (d : Dev) : Dev :=
  let ls0 := onceEach (roots.flatMap (fun r => lossesOf r.1 r.2 d))
  let plan := given.getD (planFor ls0 d)
  let ls := ls0 ++ cutLosses ls0 plan.cut d
  let ps := roots.flatMap (fun r => if unitClass r.1 = 0xC then diePages (unitIndex r.1) else [])
  let d1 := ls.foldl (fun x l => stopWork l.unit x) (if ps.contains pLua then { d with link := { d.link with phase := .detect } } else d)
  let d2 := applyLosses ls ps d1
  let d3 := noteMeshLoss ls (installDetours plan.detours (ls.foldl (fun x l => afterLoss l.unit x) d2))
  settleAll (if ls.isEmpty then d3 else judgeGuarantee d.boot.coreGuaranteed d.boot.memGuaranteed d3)

def retireUnit (u : Nat) (c : Cause) (d : Dev) : Dev := retireAll [(u, c)] none d

/-! ### The floor plan's links (R187, R366) -/

/-- A link that failed its run at start or was retired; one that waits for its run is not yet off. -/
def linkOff (u : Nat) (d : Dev) : Bool :=
  match (unitRec u d).state with
  | .retired => true
  | .off => !((unitRec u d).cause == .powerOn || (unitRec u d).cause == .reset)
  | _ => false

/-- LINKS_OFF: bit 0 west, 1 south, 2 east, 3 north. -/
def linksOff (k : Nat) (d : Dev) : Nat :=
  (List.range 4).foldl (fun n s => n + 2 ^ s * b2n (linkOff (linkCode k s) d)) 0

end Sys2Proof.Machine
end

