-- ==== Sys2Proof/Machine/PageOps.lean ====
section
/-!
DEFINITION. The common commands of pages and what they need (R33, R37, R38, R51, R507, R508), for rows and for the register
window alike.
-/

namespace Sys2Proof.Machine

/-! ### How a command acts on the state -/

/-- Without its 48 V input the module does nothing (R493). -/
def powered (f : Dev → Dev) (d : Dev) : Dev := if d.boot.phase = .unpowered then d else f d

/-- A command that acts on everything but the queue, the fuse array and the measurement log. -/
def onDev (f : Dev → Dev) (s : State) : Host.Outcome State Fault Refusal := .next { s with dev := powered f s.dev }

/-- A new entry of the measurement log; a full log takes none (R480). -/
def logEntry (e : LogEntry) (l : List LogEntry) : List LogEntry := if l.length < 256 then l ++ [e] else l

/-- A part that starts to run for the first time since its set was activated (R476, R480). -/
def partEntry (part : Nat) (d : Dev) : LogEntry :=
  let m := (loadSet d.flash).manifest
  { event := 1, part := part, svn := partSvn m part, time := d.now, hash := partHash m part }

/-- A command that may start a part of the active set. -/
def onDevPart (part : Nat) (starts : Dev → Bool) (f : Dev → Dev) (s : State) : Host.Outcome State Fault Refusal :=
  let d := s.dev
  if d.unrun.contains part && starts d && d.boot.phase != .unpowered then
    .next { s with
      mlog := logEntry (partEntry part d) s.mlog
      dev := powered (fun x => f { x with unrun := x.unrun.filter (· != part) }) d }
  else onDev f s

/-! ### Transitions -/

/-- Pages that are ACTIVE while a job is attached (R200, R250, R290, R310, R312, R316, R321, R408). -/
def followsJob (t : BlockType) : Bool :=
  match t with
  | .power | .memoryController | .port | .networkInterface | .queuePool | .checkContexts | .belay | .counters => true
  | _ => false

/-- The state of work that a usable page stands in. -/
def workState (p : PageId) (d : Dev) : PState :=
  if followsJob p.ty then (if d.job.attached then .active else .ready)
  else if p.ty = .updateEngine then (if (engOf p.inst d).plans.isEmpty then .ready else .active)
  else .ready

/-- A transition; a port page that leaves READY, ACTIVE and QUIESCED takes its link down (R249). -/
def moveTo (p : PageId) (st : PState) (c : Cause) (d : Dev) : Dev :=
  let up := fun x : PState => x == .ready || x == .active || x == .quiesced
  let d1 := if p.ty = .port && up (stateOf p d) && !up st then takeDown p.inst d else d
  setState p st c d1

def holdCause (h : Hold) : Cause :=
  match h with | .host => .hostCommand | .coolant => .coolant | .thermal => .thermalTrip | .powerOff => .mgmtOrder

/-- A hold begins: a READY or ACTIVE page goes to QUIESCED; a page in TESTING, TRAINING, LOADING or FAULT keeps the hold for
its return (R508). -/
def addHold (p : PageId) (h : Hold) (d : Dev) : Dev :=
  let g := pageOf p d
  if g.state = .off ∨ g.state = .retired then d
  else
    let d1 := putPage p { g with holds := h :: g.holds.filter (· != h) } d
    if g.state = .ready ∨ g.state = .active then
      moveTo p .quiesced (holdCause h) (putPage p { pageOf p d1 with before := g.state } d1)
    else d1

/-- What a page does when it becomes usable again: a controller applies the accesses that it held and need hold no more (R213 to
R215). -/
def afterHold (p : PageId) (d : Dev) : Dev := if p.ty = .memoryController then releaseAll p.inst d else d

/-- A hold ends: the page leaves QUIESCED once no hold stands (R508). -/
def dropHold (p : PageId) (h : Hold) (c : Cause) (d : Dev) : Dev :=
  let g := pageOf p d
  let d1 := putPage p { g with holds := g.holds.filter (· != h) } d
  if g.holds.contains h && g.state == .quiesced && (g.holds.filter (· != h)).isEmpty then
    afterHold p (moveTo p g.before c d1)
  else d1

/-- A page becomes usable: READY, then at once QUIESCED where a hold stands, or ACTIVE where work is assigned (R33, R213,
R508). -/
def becomeReady (p : PageId) (c : Cause) (d : Dev) : Dev :=
  let d1 := moveTo p .ready c d
  let w := workState p d1
  match (pageOf p d1).holds with
  | h :: _ => afterHold p (moveTo p .quiesced (holdCause h) (putPage p { pageOf p d1 with before := .ready } d1))
  | [] => afterHold p (if w = .ready then d1 else setState p w .work d1)

/-- Back to the state and cause held before TRAINING or LOADING, as the holds that stand now allow (R33, R507, R508). -/
def returnBack (p : PageId) (d : Dev) : Dev :=
  let g := pageOf p d
  let now := if g.back = .quiesced then g.before else g.back
  match g.holds with
  | h :: _ =>
    afterHold p (moveTo p .quiesced (if g.back = .quiesced then g.backCause else holdCause h)
      (putPage p { g with before := now } d))
  | [] => afterHold p (moveTo p now g.backCause d)

/-- Into TRAINING or LOADING, with the way back kept. -/
def leaveFor (p : PageId) (st : PState) (c : Cause) (d : Dev) : Dev :=
  let g := pageOf p d
  moveTo p st c (putPage p { g with back := g.state, backCause := g.cause } d)

/-! ### Negotiation (R51, R370) -/

/-- The newest minor that a block type implements for a major. -/
def minorOf (v : Version) (major : Nat) : Nat :=
  if major = v.major then v.minor else ((v.olderMinors.find? (fun m => m.1 == major)).map (·.2)).getD 0

/-- A write of PAGE_NEGOTIATE, whose bits 15:0 are reserved or read only and ignored (R8); answers whether the page
accepted. -/
def negotiate (p : PageId) (value : Nat) (d : Dev) : Dev × Bool :=
  let g := pageOf p d
  let v := versionOf p.ty d
  let major := fieldOf value 31 24
  if pageSilent p d then (d, false)
  else if g.cmd.isSome || d.lead.latches.any (fun e => e.1 == p) then (classError p 4 0 d, false)
  else if fieldOf value 31 16 = 0 then (putPage p { g with negotiated := false, major := 0, minor := 0 } d, true)
  else if v.oldest ≤ major ∧ major ≤ v.major then
    (putPage p { g with negotiated := true, major := major, minor := min (fieldOf value 23 16) (minorOf v major) } d, true)
  else (classError p 3 0 (putPage p { g with negotiated := false, major := 0, minor := 0 } d), false)

/-- The versions of a block type change to those of a release: each negotiated page is told, and a negotiation that lies
outside them is withdrawn (R53). -/
def changeVersion (release : Nat) (t : BlockType) (d : Dev) : Dev :=
  let v := versionIn release t
  if v = versionOf t d then d
  else
    (List.range (instances t)).foldl (fun x i =>
      let p : PageId := ⟨t, i⟩
      let g := pageOf p x
      if !g.negotiated then x
      else raise p 4 (if v.oldest ≤ g.major ∧ g.major ≤ v.major then x
        else putPage p { g with negotiated := false, major := 0, minor := 0 } x)) { d with versions := d.versions.set t v }

/-- A write of NEGOTIATE_ALL: every page is judged within the command, so BUSY is never seen set (R370). -/
def negotiateEvery (value : Nat) (d : Dev) : Dev :=
  match typeOfCode (value % 2 ^ 16) with
  | none => blockError pModule 0x10 d
  | some t =>
    if t = .module then blockError pModule 0x10 d else
    let v := value / 2 ^ 16 % 2 ^ 16 * 2 ^ 16
    let r := (List.range (instances t)).foldl (fun (x : Dev × Nat × Nat) i =>
      let y := negotiate ⟨t, i⟩ v x.1
      (y.1, if y.2 then (x.2.1 + 1, x.2.2) else (x.2.1, x.2.2 + 1))) (d, 0, 0)
    raise pModule 19 (wr (rModule 0x84) (2 ^ 16 * r.2.2 + r.2.1) r.1)

/-- A write to a block register needs a negotiated page: else it has no effect, and the error is recorded (R51, R46). A
write while a reset acts on the block has none at all (R54). -/
def whenNegotiated (p : PageId) (f : Dev → Dev) (d : Dev) : Dev :=
  if pageSilent p d then d
  else if (pageOf p d).negotiated then f d
  else classError p 3 0 d

/-! ### Which common commands a block type defines (R55) -/

def definesCommon (t : BlockType) (code : Nat) : Bool :=
  match t with
  | .dieController => code == 4
  | .memoryController | .port => code == 1 || code == 2 || code == 3 || code == 4 || code == 6
  | .updateEngine | .core => 1 ≤ code && code ≤ 5
  | .networkInterface | .ring => code == 1 || code == 2
  | .reduction => code == 3
  | .luawick => code == 6
  | _ => false

/-! ### QUIESCE and RESUME -/

/-- The block has come to its safe point: a core at an instruction boundary with no command in its engines (R134), an engine
with no chunk running (R242), a port with no packet of a send to transmit (R285); the other blocks finish what they do within a
command (R285, R342). -/
def atSafePoint (p : PageId) (d : Dev) : Bool :=
  match p.ty with
  | .core => enginesEmpty (coreOf p.inst d)
  | .updateEngine => (engOf p.inst d).running.isNone
  | .port => (packetRecords (p.inst / 24) (txQueue p.inst true) d ++ packetRecords (p.inst / 24) (txQueue p.inst false) d).all
      (fun r => r.send.isNone)
  | _ => true

/-- A page command for a core's runtime raises SUPERVISOR_CMD (R104). -/
def tellRuntime (p : PageId) (d : Dev) : Dev := if p.ty = .core then setPending p.inst 19 true d else d

def cmdQuiesce (p : PageId) (arg : Nat) (d : Dev) : Dev :=
  pageCommand p 1 arg (definesCommon p.ty 1) (inState p [.ready, .active] d) true (tellRuntime p) d

/-- A command of that code is in progress on the page. -/
def inProgress (p : PageId) (code : Nat) (d : Dev) : Bool :=
  match (pageOf p d).cmd with | some c => c.code == code | none => false

def reachSafePoint (p : PageId) (d : Dev) : Dev :=
  if inProgress p 1 d && inState p [.ready, .active, .quiesced] d && atSafePoint p d then endCmd p true (addHold p .host d)
  else d

def cmdResume (p : PageId) (arg : Nat) (d : Dev) : Dev :=
  pageCommand p 2 arg (definesCommon p.ty 2) (inState p [.quiesced] d && !d.mgmt.powerOff) true
    (doneAtOnce p (fun x => dropHold p .host .hostCommand (tellRuntime p x))) d

/-! ### RETEST -/

/-- SRAM after a core's run is undefined: free values (R134; log entry 7). -/
def freeSram (k : Nat) (d : Dev) : Dev :=
  let n := d.fresh
  let lo := sramAddr k 0
  let bytes : Mem := (List.range sramSize).filterMap (fun i =>
    let b := (Config.freeBits (n + i / 8)).toNat / 2 ^ (8 * (i % 8)) % 256
    if b = 0 then none else some (lo + i, BitVec.ofNat 8 b))
  { d with
    sram := d.sram.filter (fun c => decide (c.1 < lo)) ++ bytes ++ d.sram.filter (fun c => decide (lo + sramSize ≤ c.1))
    sramPoison := d.sramPoison.filter (fun w => w / 2 ^ 17 != k)
    fresh := n + sramSize / 8 }

/-- Flags after the run of a RETEST are undefined (R134). -/
def freeFlags (k : Nat) (d : Dev) : Dev :=
  modCore k (fun c => { c with flags := (List.range 64).map (fun f => (f, (Config.freeBits (d.fresh + f)).setWidth 32)) })
    { d with fresh := d.fresh + 64 }

/-- What a retest does to the block's work before its run (R134, R243, R346). -/
def beforeRun (p : PageId) (d : Dev) : Dev :=
  match p.ty with
  | .updateEngine => clearEngine p.inst d
  | .core =>
    if stateOf p d = .quiesced ∧ (coreOf p.inst d).kernel.isSome then
      writeExit p.inst 5 0 ((coreOf p.inst d).kernel.getD 0) (beginEnd p.inst 5 0 d)
    else d
  | .reduction => { d with boot := { d.boot with retesting := unitsUsable p.inst d } }
  | _ => d

/-- Starts a retest; a host RETEST releases the host hold (R508). -/
def startRetest (p : PageId) (host : Bool) (d : Dev) : Dev :=
  let d1 := beforeRun p d
  let g := pageOf p d1
  let d2 := if host then putPage p { g with holds := g.holds.filter (· != .host) } d1 else d1
  moveTo p .testing (if host then .hostCommand else g.cause) d2

def cmdRetest (p : PageId) (arg : Nat) (d : Dev) : Dev :=
  let legal := if p.ty = .reduction then inState p [.ready] d else inState p [.ready, .quiesced, .fault] d
  pageCommand p 3 arg (definesCommon p.ty 3) legal true (startRetest p true) d

/-! ### RETIRE -/

/-- Classes that a die controller's RETIRE accepts (R372). -/
def dieAccepts (die u : Nat) : Bool :=
  unitExists u && dieOfUnit u == die
    && (if die < 8 then unitClass u == 2 || unitClass u == 3 || unitClass u == 4 || unitClass u == 6 else unitClass u == 0xB)

/-- The unit code of a page that is a unit. -/
def unitOfPage (p : PageId) : Option Nat :=
  match p.ty with
  | .core => some (uCore p.inst)
  | .memoryController => some (uController p.inst)
  | .updateEngine => some (uEngine p.inst)
  | .port => some (uPort p.inst)
  | .networkInterface => some (uNetwork p.inst)
  | .dieController => some (uDie p.inst)
  | .controlComplex => some (uComplex p.inst)
  | _ => none

/-- RETIRE; on a die controller page ARG names the unit, judged for range before its state (R372). -/
def cmdRetire (p : PageId) (arg : Nat) (d : Dev) : Dev :=
  if p.ty = .dieController then
    let u := arg % 2 ^ 24
    let page := inState p [.testing, .training, .loading, .ready, .active, .quiesced, .fault] d
    let legal := page && (!dieAccepts p.inst u || usable u d)
    pageCommand p 4 arg true legal (dieAccepts p.inst u) (doneAtOnce p (retireUnit u .hostCommand)) d
  else
    pageCommand p 4 arg (definesCommon p.ty 4) (!inState p [.off, .retired] d) true
      (doneAtOnce p (fun x => match unitOfPage p with | some u => retireUnit u .hostCommand x | none => x)) d

/-! ### LOAD -/

def cmdLoad (p : PageId) (arg : Nat) (d : Dev) : Dev :=
  pageCommand p 5 arg (definesCommon p.ty 5) (inState p [.ready, .quiesced] d) (arg % 2 ^ 24 == 0)
    (leaveFor p .loading .hostCommand) d

/-! ### RETRAIN -/

/-- Channels of a controller that train. -/
def trainingChannels (c : Nat) (d : Dev) : List Nat :=
  ((List.range 16).map (fun j => 16 * c + j)).filter (fun n => (unitRec (uChannel n) d).state == .training)

/-- A channel goes to TRAINING, with its way back kept (R38, R507). -/
def trainChannel (n : Nat) (c : Cause) (d : Dev) : Dev :=
  let r := unitRec (uChannel n) d
  { d with
    units := d.units.set (uChannel n) { r with
      state := .training, cause := c, gen := fpGen d % 65536,
      back := r.state, backCause := r.cause } }

/-- Starts the retrain of a controller's channels; no automatic retrain of theirs is wanted any more. -/
def trainNow (c arg : Nat) (d : Dev) : Dev :=
  let m := memCtl c d
  if bitOf arg 8 then
    (liveChannels c d).foldl (fun x n => trainChannel n .hostCommand x)
      (leaveFor (pMem c) .training .hostCommand (putMemCtl c { m with retraining := some 16, wanted := [], behind := false } d))
  else trainChannel (16 * c + arg % 256) .hostCommand
    (putMemCtl c { m with retraining := some (arg % 256), wanted := m.wanted.filter (· != arg % 256), behind := false } d)

/-- A RETRAIN starts, waits behind a retrain that runs (R206), or ends with the one that follows self-refresh (R216). -/
def startRetrain (c arg : Nat) (d : Dev) : Dev :=
  if (memCtl c d).selfRefresh then d
  else if (trainingChannels c d).isEmpty then trainNow c arg d
  else putMemCtl c { memCtl c d with behind := true } d

/-- The Luawick link leaves ACTIVE and trains from DETECT; messages, credits and replay buffers stay (R63, R87). -/
def dropLink (d : Dev) : Dev :=
  { d with
    link := { d.link with
      phase := .detect
      oldLanes := if d.link.phase = .active then d.link.lanes else d.link.oldLanes
      oldRate := if d.link.phase = .active then d.link.rate else d.link.oldRate
      leftAt := if d.link.phase = .active then some d.now else d.link.leftAt } }

def cmdRetrain (p : PageId) (arg : Nat) (d : Dev) : Dev :=
  let a := arg % 2 ^ 24
  let up := inState p [.ready, .active, .quiesced] d
  match p.ty with
  | .memoryController =>
    let ok := decide (a < 512) && !(bitOf a 8 && a % 256 != 0) && decide (a % 256 < 16)
    let legal := up && (!ok || bitOf a 8 || (unitRec (uChannel (16 * p.inst + a % 256)) d).state == .ready)
    pageCommand p 6 arg true legal ok (startRetrain p.inst a) d
  | .port => pageCommand p 6 arg true up (a == 0) (leaveFor p .training .hostCommand) d
  | .luawick => pageCommand p 6 arg true up (a == 0) (fun x => dropLink (leaveFor p .training .hostCommand x)) d
  | _ => pageCommand p 6 arg false true true (fun x => x) d

/-- The common commands by code. -/
def commonCommand (p : PageId) (code arg : Nat) (d : Dev) : Dev :=
  match code with
  | 1 => cmdQuiesce p arg d
  | 2 => cmdResume p arg d
  | 3 => cmdRetest p arg d
  | 4 => cmdRetire p arg d
  | 5 => cmdLoad p arg d
  | _ => cmdRetrain p arg d

end Sys2Proof.Machine
end

