-- ==== Sys2Proof/Machine/PowerOps.lean ====
section
/-!
DEFINITION. Shade, limits, operating points, hot spots and coolant (13_pace_power_thermal.md): what the rows of that chapter share.
Powers are in 1/8000 W unless a name says otherwise, temperatures in 0.1 °C.
-/

namespace Sys2Proof.Machine

def modPower (f : PowerSt → PowerSt) (d : Dev) : Dev := { d with power := f d.power }

/-- Control firmware runs. -/
def firmwareRuns (d : Dev) : Bool := d.boot.phase == .running

/-- Control firmware runs and is not cut off in the safe state (R442). -/
def leadWatches (d : Dev) : Bool := firmwareRuns d && !d.lead.safe

/-- A lead runs: control firmware is up, and no takeover stands before its check. -/
def leadRuns (d : Dev) : Option Nat :=
  if !leadWatches d then none
  else match d.lead.takeover with
    | some t => if t.passed || d.lead.handover then d.always.leadSelect else none
    | none => d.always.leadSelect

/-! ### Clusters -/

def supervisorUsable (i : Nat) (d : Dev) : Bool := usable (uSupervisor i) d
def usableClusters (d : Dev) : List Nat := (List.range 160).filter (fun i => supervisorUsable i d)

/-! ### Limits (R379, R380, R405) -/

def jobPace (d : Dev) : Nat := rd (rPower 0x48) d % 2 ^ 16
def hostTarget (d : Dev) : Nat := fieldOf (rd (rPower 0x48) d) 31 16

/-- The ceiling of management: POWER_CEILING, or the silence ceiling while it is engaged (R462). -/
def mgmtLimit (d : Dev) : Nat :=
  if d.mgmt.silenced then min d.power.ceilings.power d.power.silenceCeiling else d.power.ceilings.power

/-- The effective limit in W. -/
def effectiveLimit (d : Dev) : Nat :=
  let m := min (mgmtLimit d) (designPower (variantOf d))
  if hostTarget d = 0 then m else min m (hostTarget d)

/-- The cause code of what sets the effective limit; a ceiling that equals the host target binds. -/
def limitSetter (d : Dev) : Nat :=
  if mgmtLimit d ≤ effectiveLimit d then 1 else if hostTarget d ≠ 0 ∧ hostTarget d ≤ effectiveLimit d then 2 else 0

/-- The step rates of the latest period. -/
def latestRates (d : Dev) : List Nat := match d.power.history with | s :: _ => s.rates | [] => []

/-- A source of R405 is active. -/
def limitActive (code : Nat) (d : Dev) : Bool :=
  match code with
  | 1 => (d.power.sPower != 0 && d.power.boundBy == 1)
      || (hostTarget d != 0 && decide (d.power.ceilings.power < hostTarget d))
  | 2 => d.power.sPower != 0 && d.power.boundBy == 2
  | 3 => d.always.hardTrip || (List.range 44).any (fun h => (hotSpot h d).sTh != 0 || sensorSafety h d)
  | 4 => d.power.sPower != 0 && d.power.boundBy == 4
  | 5 => d.power.filler != 0
  | 6 => jobPace d != 0 && (usableClusters d).any (fun i => match (latestRates d)[i]? with
      | some r => decide (r < jobPace d)
      | none => false)
  | 7 => coolantStopped d || d.coolant.tripped
  | 8 => d.lead.safe
  | _ => false

/-- The first active source in the priority order of R405. -/
def limitCause (d : Dev) : Nat := (([7, 8, 3, 1, 2, 4, 6, 5].find? (fun c => limitActive c d))).getD 0

/-- Filler may run on a cluster: it is not shaded above its pace, and a usable core of it has an idle matrix engine (R387,
R388). -/
def takesFiller (i : Nat) (d : Dev) : Bool :=
  supervisorUsable i d && decide (appliedShade i d ≤ d.power.sPace.getD i 0)
    && (clusterCores i).any (fun k => usable (uCore k) d && engineIdle (coreOf k d) 0)

/-- The cause of one cluster by the same rule. -/
def clusterCause (i : Nat) (d : Dev) : Nat :=
  let own := fun c => match c with
    | 3 => d.always.hardTrip || (governing i).any (fun h => (hotSpot h d).sTh != 0 || sensorSafety h d)
    | 6 => jobPace d != 0 && (match (latestRates d)[i]? with | some r => decide (r < jobPace d) | none => false)
    | 5 => d.power.filler != 0 && takesFiller i d
    | _ => limitActive c d
  ([7, 8, 3, 1, 2, 4, 6, 5].find? own).getD 0

/-- LIMIT_CAUSE as it reads. -/
def limitWord (d : Dev) : Nat :=
  limitCause d + ([1, 2, 3, 4, 5, 6, 7, 8].foldl (fun n c => n + 2 ^ (16 + c) * b2n (limitActive c d)) 0)

/-- LIMIT_CAUSE follows its sources; a change of CAUSE raises LIMIT_CHANGED. -/
def settleLimit (d : Dev) : Dev :=
  let d1 := wr (rPower 0x58) (limitWord d) d
  if rd (rPower 0x58) d % 16 = limitCause d then d1 else raise pPower 16 d1

/-! ### Pages that a stop or a trip holds (R285, R401, R402) -/

def everyPage (t : BlockType) : List PageId := (List.range (instances t)).map (fun i => ⟨t, i⟩)

def coolantPages : List PageId :=
  everyPage .core ++ everyPage .memoryController ++ everyPage .updateEngine ++ everyPage .port ++ everyPage .networkInterface
    ++ everyPage .ring

def portPages : List PageId := everyPage .port ++ everyPage .networkInterface

/-- The hard trip (R401, R404): the latch, and with firmware running the pages and the reports. -/
def tripModule (d : Dev) : Dev :=
  if d.always.hardTrip then d else
  let d1 := settleAlert { d with always := { d.always with hardTrip := true } }
  if firmwareRuns d1 then
    mgmtEvent 2 (raise pPower 21 (portPages.foldl (fun x p => addHold p .thermal x) d1))
  else d1

/-! ### Trims (R392 to R395) -/

/-- The operating point in force. -/
def opPoint (d : Dev) : Nat := d.power.ceilings.opPoint

def trimOf (i o : Nat) (d : Dev) : Nat := d.flash.trims.get 0 (3 * i + o)

/-- The place of a cluster in its die's tables (R371, R395). -/
def placeOnDie (i : Nat) : Nat := 4 * (i / 16 % 5) + i % 4

end Sys2Proof.Machine
end

