-- ==== Sys2Proof/Machine/Power.lean ====
section
/-!
DEFINITION. The power loop, pace, afterglow, sensors, trims and coolant (R373 to R409).
-/

namespace Sys2Proof.Machine

def sumNat (l : List Nat) : Nat := l.foldl (· + ·) 0

/-! ### Barriers (R386, R387) -/

/-- A core is idle: it runs no kernel, or it waits and its engines hold no command. -/
def coreIdle (k : Nat) (d : Dev) : Bool :=
  let c := coreOf k d
  c.kernel.isNone || (c.waiting.isSome && enginesEmpty c)

def mostIdle (d : Dev) : Bool :=
  let n := usableCores d
  decide (9 * n ≤ 10 * countBelow 2560 (fun k => usable (uCore k) d && coreIdle k d))

/-- The mean of P_est over the last `n` periods. -/
def meanEst (n : Nat) (h : List PowerSample) : Nat :=
  let l := h.take n
  if l.isEmpty then 0 else sumNat (l.map (·.est)) / l.length

/-- AFTERGLOW_MAX_HOLD, in ms, has passed since the module entered the barrier (R387). -/
def holdPassed (d : Dev) : Bool :=
  d.power.inBarrier && decide (1000000 * d.power.ceilings.glowHold ≤ d.now - d.power.barrierAt)

/-- The barrier after this period: length of the idle run, the mean before it, in a barrier, hold ended. -/
def nextBarrier (d : Dev) : Nat × Nat × Bool × Bool :=
  let p := d.power
  if mostIdle d then
    let run := p.idleRun + 1
    let mean := if run = 1 then meanEst 25000 p.history else p.runMean
    (run, mean, p.inBarrier || decide (50 ≤ run), p.inBarrier && (p.holdEnded || holdPassed d))
  else (0, p.runMean, false, false)

/-! ### One period (R377, R382 to R389) -/

/-- s_pace of a cluster at a step rate (R383). -/
def paceLevel (pace rate : Nat) : Nat := if pace = 0 ∨ rate ≤ pace then 0 else min 255 (256 - 256 * pace / rate)

/-- Filler may run: afterglow is on, no reset or stop acts, and some cluster takes it. -/
def fillerAllowed (d : Dev) : Bool :=
  d.power.ceilings.glowOn && d.reset.level != some 0 && !d.mgmt.powerOff && !limitActive 7 d && !limitActive 8 d && !limitActive 3 d
    && (usableClusters d).any (fun i => takesFiller i d)

/-- The weights of the operating point in force, in pJ (R376, R391). -/
def weightOf (n : Nat) (d : Dev) : Nat := (d.fused.weights.getD (opPoint d) []).getD n 0

/-- The leakage of one core in a period: scaled at each control cycle for the control value of the cluster's hot spot. -/
def leakageOf (i : Nat) (d : Dev) : Nat :=
  let w := weightOf 11 d
  let t := d.power.cycleTemps.getD (spotOfCluster i) none
  if t = some 600 then w else Config.leakage w t

/-- What a cluster supervisor's counts weigh, with the leakage of its usable cores, in 1/8000 W: 250 pJ in 2 µs (R376). -/
def clusterFigure (i : Nat) (c : ClusterActivity) (d : Dev) : Nat :=
  let counts := [(0, c.matrixFp4), (1, c.matrix8), (2, c.matrix16), (3, c.matrixFp32), (5, c.vector), (6, c.functions),
    (7, c.scalar), (8, c.sram), (9, c.sent), (10, c.hops)]
  let cores := ((clusterCores i).filter (fun k => usable (uCore k) d)).length
  if supervisorUsable i d then (sumNat (counts.map (fun x => x.2 * weightOf x.1 d)) + cores * leakageOf i d) / 250 else 0

/-- The sum of the cluster figures (R377). -/
def clusterSum (l : List ClusterActivity) (d : Dev) : Nat := sumNat ((l.take 160).zipIdx.map (fun x => clusterFigure x.2 x.1 d))

/-- The module's own load from the activity of the period, with the conversion loss of 5 % and OFFSET (R377). -/
def ownLoad (a : Activity) (d : Dev) : Nat :=
  ((105 * (clusterSum a.clusters d + 500 * sumNat a.dies) / 100 : Nat) + 500 * d.power.offset).toNat

/-- s_power after a period (R382). -/
def nextPowerLevel (est bound level : Nat) : Nat :=
  if bound < est then min 255 (level + (est - bound + 127999) / 128000)
  else if est * 100 < 98 * bound then level - 1
  else level

/-- The envelope after a period (R385). -/
def nextEnvelope (est bound level env rise fall : Nat) : Nat :=
  if 0 < level ∧ 98 * bound ≤ est * 100 then bound else max (env - fall) (min est (env + rise))

/-- The filler of a period, its floor, and the bound with what set it. -/
structure PeriodPlan where
  bound : Nat
  setter : Nat
  floor : Nat
  filler : Nat

def planPeriod (own env : Nat) (bar : Nat × Nat × Bool × Bool) (d : Dev) : PeriodPlan :=
  let c := d.power.ceilings
  let limit := 8000 * effectiveLimit d
  let bound := min limit (env + 16 * c.rise)
  let floor := if bar.2.2.1 && !bar.2.2.2 then c.glowFloor * bar.2.1 / 100 else 0
  let target := min bound (max (env - 16 * c.fall) floor)
  { bound := bound, setter := if limit ≤ bound then limitSetter d else 4, floor := floor,
    filler := if fillerAllowed d then target - own else 0 }

/-- The work rate of a cluster in a sample, times 256. -/
def workRate (s : PowerSample) (i : Nat) : Nat := s.rates.getD i 0 * (256 - s.shades.getD i 0)

/-- Clusters whose work rate in a sample lies more than 0.5 % below the job pace, each since when (R384). -/
def laggards (s : PowerSample) (d : Dev) : Tbl Nat Nat :=
  (List.range 160).filterMap (fun i =>
    if supervisorUsable i d && jobPace d != 0 && decide (1000 * workRate s i < 995 * 256 * jobPace d)
    then some (i, d.power.belowSince.get d.now i) else none)

def powerPeriod (a : Activity) (d : Dev) : Dev :=
  if !firmwareRuns d then d else
  let p := d.power
  let own := ownLoad a d
  let env := p.envelope.getD own
  let bar := nextBarrier d
  let plan := planPeriod own env bar d
  let est := own + plan.filler
  let level := nextPowerLevel est plan.bound p.sPower
  let rates := (List.range 160).map (fun i => if supervisorUsable i d then a.stepRates.getD i 0 else 0)
  let d1 := modPower (fun p => { p with
    est := est, filler := plan.filler, sPower := level, boundBy := plan.setter,
    envelope := some (nextEnvelope est plan.bound level env (16 * p.ceilings.rise) (16 * p.ceilings.fall)),
    sPace := rates.map (paceLevel (jobPace d)), idleRun := bar.1, runMean := bar.2.1, inBarrier := bar.2.2.1,
    barrierAt := if p.inBarrier then p.barrierAt else d.now,
    holdEnded := bar.2.2.2, floor := plan.floor, cycleSum := p.cycleSum + est, cycleCount := p.cycleCount + 1 }) d
  let sample : PowerSample :=
    { est := est, rates := rates, shades := (List.range 160).map (fun i => appliedShade i d1),
      limits := (List.range 160).map (fun i => limitShade i d1) }
  let glow := d.always.afterglowRest + 20 * plan.filler
  settleLimit (modPower (fun p => { p with
    history := (sample :: p.history).take 50000, belowSince := laggards sample d1 }) { d1 with
    always := { d1.always with afterglow := d1.always.afterglow + glow / 84000000, afterglowRest := glow % 84000000 } })

/-- POWER_PERIOD (R376, R377, R382 to R389). The activity of the clusters and dies is an operand, without filler. -/
def execPowerPeriod (a : Activity) (s : State) : Host.Outcome State Fault Refusal := onDev (powerPeriod a) s

/-- The hold ends and the floor lapses. -/
def holdEnds (d : Dev) : Dev :=
  if holdPassed d then modPower (fun p => { p with holdEnded := true, floor := 0 }) d else d

/-- AFTERGLOW_MAX_HOLD (R387). -/
def execAfterglowMaxHold (s : State) : Host.Outcome State Fault Refusal := onDev holdEnds s

/-- A usable cluster has stayed more than 0.5 % below a job pace for 10 ms. -/
def belowPace (i : Nat) (d : Dev) : Dev :=
  match d.power.belowSince.find? (fun e => e.1 == i) with
  | some e => if supervisorUsable i d ∧ jobPace d ≠ 0 ∧ 10000000 ≤ d.now - e.2 then raise pPower 17 d else d
  | none => d

/-- PACE_BELOW_JOB (R384). -/
def execPaceBelowJob (i : Nat) (s : State) : Host.Outcome State Fault Refusal := onDev (belowPace i) s

def cmdApplyTargets (arg : Nat) (d : Dev) : Dev :=
  let j := rd (rPower 0x40) d
  let h := rd (rPower 0x44) d
  pageCommand pPower 0x40 arg true (inState pPower [.ready, .active] d)
    ((j == 0 || (decide (100 ≤ j) && decide (j ≤ 4000)))
      && (h == 0 || (decide (1000 ≤ h) && decide (h ≤ designPower (variantOf d)))))
    (doneAtOnce pPower (fun x => settleLimit (wr (rPower 0x48) (2 ^ 16 * h + j) x))) d

/-- APPLY_TARGETS (R379, R409). -/
def execApplyTargets (s : State) : Host.Outcome State Fault Refusal := onDev (cmdApplyTargets 0) s

/-! ### What a control cycle does here (R377, R389, R399) -/

/-- A quarter of the difference between the measured power and the mean estimate joins OFFSET, in 1/16 W. -/
def nextOffset (measured : Nat) (p : PowerSt) : Int :=
  if p.cycleCount = 0 then p.offset
  else
    let mean : Int := (p.cycleSum / (500 * p.cycleCount) : Nat)
    max (-6400) (min 6400 (p.offset + ((measured : Int) - mean) / 4))

/-- s_th of a hot spot after a control cycle. -/
def nextThermal (throttle : Nat) (t : Int) (s : Nat) : Nat :=
  let limit : Int := 10 * throttle
  if limit ≤ t then min 255 (s + 4 + 4 * ((t - limit) / 10).toNat)
  else if t < limit - 20 then s - 1
  else s

def cycleSpot (h : Nat) (d : Dev) : Dev :=
  match controlValue h d with
  | none => d
  | some t =>
    let x := hotSpot h d
    let s := nextThermal d.power.ceilings.throttle t x.sTh
    if s = x.sTh then d
    else
      let d1 := putSpot h { x with sTh := s } d
      if x.sTh = 0 then raise pPower 18 d1 else d1

/-- The figures that the sensors of R454 repeat until the next cycle. -/
def noteReadings (d : Dev) : Dev :=
  modPower (fun p => { p with
    cycleTemps := (List.range 44).map (fun h => controlValue h d)
    cycleLimit := effectiveLimit d
    cycleGlow := d.always.afterglow
    cycleEnergy := d.always.energy }) d

/-- The measured input energy of 100 µs, in mJ, counts whether or not control firmware runs (R389). -/
def countEnergy (m : CycleInputs) (d : Dev) : Dev :=
  let rest := d.always.energyRest + m.measured
  { d with always := { d.always with energy := d.always.energy + rest / 160, energyRest := rest % 160 } }

def cyclePower (m : CycleInputs) (d : Dev) : Dev :=
  let d1 := modPower (fun p => { p with
    offset := nextOffset m.measured p, measured := m.measured, volts := m.volts, amps := m.amps, cycleSum := 0,
    cycleCount := 0 }) d
  noteReadings (settleLimit ((List.range 44).foldl (fun x h => cycleSpot h x) d1))

/-! ### Sensors (R396 to R401) -/

/-- A sensor becomes faulted: its own SUSPECT clears. -/
def faultSensor (n : Nat) (d : Dev) : Dev :=
  let x := sensorOf n d
  if x.faulted then putSensor n { x with plausibleSince := none } d
  else
    let h := n / 2
    let s := hotSpot h d
    let d1 := putSpot h { s with suspect := if s.suspect = some n then none else s.suspect, closeSince := none }
      (putSensor n { x with faulted := true, plausibleSince := none } d)
    if leadWatches d then mgmtEvent 12 (raise pPower 20 d1) else d1

/-- Whether the sensors of a hot spot, both valid, differ by more than 6 °C. -/
def sensorsApart (h : Nat) (d : Dev) : Option Bool :=
  match validReading (2 * h) d, validReading (2 * h + 1) d with
  | some a, some b => some (decide (60 < (a - b).natAbs))
  | _, _ => none

/-- The hot spot keeps since when its sensors have been apart. -/
def noteApart (h : Nat) (d : Dev) : Dev :=
  let s := hotSpot h d
  putSpot h { s with apartSince := if sensorsApart h d = some true then some (s.apartSince.getD d.now) else none } d

/-- Row 3 of R398 first holds, or both conditions of its end are met; the lead judges both (R431, R442). -/
def settleSpot (h : Nat) (d : Dev) : Dev :=
  let s := hotSpot h d
  if leadWatches d = false then d else
  match suspectPair h d with
  | some n =>
    if s.suspect = some n then d
    else mgmtEvent 12 (raise pPower 19 (putSpot h { s with suspect := some n, split := true, closeSince := none } d))
  | none =>
    let since := if sensorsApart h d = some false then some (s.closeSince.getD d.now) else none
    let over50 := since.any (fun t => decide (50000000 ≤ d.now - t))
    if (s.suspect.isSome || s.split) && over50 then putSpot h { s with suspect := none, split := false, closeSince := since } d
    else putSpot h { s with closeSince := since } d

/-- A plausible reading is kept; plausible readings for 100 ms end a fault. -/
def keepReading (n : Nat) (reading : Int) (d : Dev) : Dev :=
  let x := sensorOf n d
  let since := x.plausibleSince.getD d.now
  let still := x.faulted && decide (d.now - since < 100000000)
  putSensor n { x with
    reading := some reading, faulted := still, plausibleSince := if still then some since else none, convertedAt := d.now } d

/-- A sensor that has made no conversion for 1 ms is faulted (R397). -/
def ageSensor (n : Nat) (d : Dev) : Dev :=
  if d.now - max (sensorOf n d).convertedAt d.reset.releasedAt < 1000000 then d else noteApart (n / 2) (faultSensor n d)

/-- The other sensor of the same hot spot. -/
def partner (n : Nat) : Nat := if n % 2 = 0 then n + 1 else n - 1

/-- Hardware applies the plausible range and the stale limit at every conversion (R400). -/
def convertSensor (n : Nat) (reading : Int) (d0 : Dev) : Dev :=
  if 88 ≤ n then d0 else
  let d := ageSensor (partner n) (ageSensor n d0)
  let d1 := if -200 ≤ reading ∧ reading ≤ 1400 then keepReading n reading d
    else faultSensor n (putSensor n { sensorOf n d with reading := some reading, convertedAt := d.now } d)
  let d2 := settleSpot (n / 2) (noteApart (n / 2) d1)
  settleLimit (if spotTrips (n / 2) d2 then tripModule d2 else d2)

/-- SENSOR_CONVERSION (R396 to R401). -/
def execSensorConversion (n : Nat) (reading : Int) (s : State) : Host.Outcome State Fault Refusal :=
  onDev (convertSensor n reading) s

/-- A sensor that has made no conversion for 1 ms is faulted, and the stale limit also applies to the trip, at once (R397,
R400). -/
def staleSensor (n : Nat) (d : Dev) : Dev :=
  if 88 ≤ n then d else
  let d1 := ageSensor n d
  settleLimit (if spotTrips (n / 2) d1 then tripModule d1 else d1)

/-- SENSOR_FAULT (R397). -/
def execSensorFault (n : Nat) (s : State) : Host.Outcome State Fault Refusal := onDev (staleSensor n) s

/-- The two sensors of a hot spot have differed by more than 6 °C for 50 ms. -/
def splitSpot (h : Nat) (d : Dev) : Dev :=
  match (hotSpot h d).apartSince with
  | some t =>
    if h < 44 ∧ leadWatches d = true ∧ sensorsApart h d = some true ∧ 50000000 < d.now - t ∧ (hotSpot h d).split = false then
      mgmtEvent 12 (raise pPower 19 (putSpot h { hotSpot h d with split := true, closeSince := none } d))
    else d
  | none => d

/-- SENSOR_SPLIT (R398). -/
def execSensorSplit (h : Nat) (s : State) : Host.Outcome State Fault Refusal := onDev (splitSpot h) s

/-! ### Trims and operating points (R391 to R395) -/

/-- Four shadow failures within 10 ms, and no change of the trim for 10 ms (R392). -/
def trimDue (i : Nat) (d : Dev) : Bool :=
  (match (d.power.shadow.get [] i)[3]? with | some t => decide (d.now - t ≤ 10000000) | none => false)
    && (match d.power.trimAt.find? (fun e => e.1 == i) with | some e => decide (10000000 ≤ d.now - e.2) | none => true)

/-- The trim of a cluster is one step longer; beyond 32 its supervisor is retired. -/
def lengthenTrim (i : Nat) (d0 : Dev) : Dev :=
  if 160 ≤ i ∨ supervisorUsable i d0 = false ∨ trimDue i d0 = false then d0
  else
    let d := modPower (fun p => { p with trimAt := p.trimAt.set i d0.now }) d0
    let o := opPoint d
    if 32 ≤ trimOf i o d then retireUnit (uSupervisor i) .selfFault d
    else
      let d1 := { d with flash := { d.flash with trims := d.flash.trims.set (3 * i + o) (trimOf i o d + 1) } }
      raise pPower 24 (addWrap (rDie (dieOfCluster i) 2 0x200) 1 d1)

/-- TRIM_CHANGED (R392, R393). -/
def execTrimChanged (i : Nat) (s : State) : Host.Outcome State Fault Refusal := onDev (lengthenTrim i) s

/-- The cluster keeps when its latest shadow failures came. -/
def noteShadow (i : Nat) (d : Dev) : Dev :=
  modPower (fun p => { p with shadow := p.shadow.set i ((d.now :: p.shadow.get [] i).take 4) }) d

/-- SHADOW_FAILURE (R392, R395). -/
def execShadowFailure (i : Nat) (s : State) : Host.Outcome State Fault Refusal :=
  onDev (fun d => if i < 160 then noteShadow i (bump (rDie (dieOfCluster i) 2 (0x100 + 4 * placeOnDie i)) d) else d) s

/-- The rails have reached the new point: steps 3 to 5 of R391. -/
def pointReached (d : Dev) : Dev :=
  match d.power.opChange with
  | some o => raise pPower 25 (modPower (fun p => { p with
      opChange := none, ceilings := { p.ceilings with opPoint := o } }) d)
  | none => d

/-- OP_POINT_CHANGED (R391). -/
def execOpPointChanged (s : State) : Host.Outcome State Fault Refusal := onDev pointReached s

/-! ### Coolant (R402 to R404) -/

def setCoolant (f : Coolant → Coolant) (d : Dev) : Dev := { d with coolant := f d.coolant }

/-- COOLANT_OK_FALL (R402). -/
def execCoolantOkFall (s : State) : Host.Outcome State Fault Refusal :=
  onDev (fun d => setCoolant (fun c => { c with
    ok := false, falling := if c.ok then some d.now else c.falling, rising := none }) d) s

/-- COOLANT_OK_RISE (R403): the filter of a return starts after a drop. -/
def execCoolantOkRise (s : State) : Host.Outcome State Fault Refusal :=
  onDev (fun d => setCoolant (fun c => { c with
    ok := true, falling := none
    rising := if c.dropAt.isNone then none else if c.ok then c.rising else some d.now }) d) s

/-- A drop is accepted. -/
def acceptDrop (d : Dev) : Dev :=
  let d1 := modPower (fun p => { p with filler := 0 })
    (setCoolant (fun c => { c with falling := none, dropAt := some d.now }) d)
  let d2 := if firmwareRuns d1 then
      mgmtEvent 3 (raise pPower 22 (coolantPages.foldl (fun x p => addHold p .coolant x) d1))
    else settleAlert d1
  settleLimit d2

/-- A low of 20 µs is a drop; a second one before a return is part of the same stop (R404). -/
def coolantDrop (d : Dev) : Dev :=
  match d.coolant.falling with
  | some t =>
    if d.now - t < 20000 then d
    else if d.coolant.dropAt.isSome then setCoolant (fun c => { c with falling := none }) d
    else acceptDrop d
  | none => d

/-- COOLANT_STOP (R402). -/
def execCoolantStop (s : State) : Host.Outcome State Fault Refusal := onDev coolantDrop s

/-- A controller whose devices are in self-refresh retrains as under WHOLE before it goes back (R215). -/
def wakeMemory (c : Nat) (d : Dev) : Dev :=
  let g := pageOf (pMem c) d
  if (memCtl c d).selfRefresh && (g.state == .off || g.state == .retired) then
    putMemCtl c { memCtl c d with selfRefresh := false } d
  else if (memCtl c d).selfRefresh && !g.holds.contains .powerOff then
    let d1 := raise (pMem c) 20 <| putMemCtl c { memCtl c d with selfRefresh := false, retraining := some 16, wanted := [] }
      (putPage (pMem c) { g with holds := g.holds.filter (· != .coolant) } d)
    (liveChannels c d1).foldl (fun x n =>
        if (unitRec (uChannel n) x).state = .training then x else trainChannel n (unitRec (uChannel n) x).cause x)
      (if g.state = .training then d1 else leaveFor (pMem c) .training g.cause d1)
  else dropHold (pMem c) .coolant .coolant d

def releaseCoolant (p : PageId) (d : Dev) : Dev :=
  if p.ty = .memoryController then wakeMemory p.inst d else dropHold p .coolant .coolant d

/-- A high of 1 ms is a return; after the trip at COOLANT_GRACE it changes nothing. -/
def coolantBack (d : Dev) : Dev :=
  if d.coolant.tripped || d.coolant.dropAt.isNone || !(d.coolant.rising.any (fun t => decide (1000000 ≤ d.now - t))) then d
  else
    let d1 := setCoolant (fun c => { c with rising := none, dropAt := none }) d
    let d2 := coolantPages.foldl (fun x p => releaseCoolant p x) d1
    settleLimit (if firmwareRuns d2 then mgmtEvent 4 (raise pPower 23 d2) else settleAlert d2)

/-- COOLANT_RETURN (R403, R215). -/
def execCoolantReturn (s : State) : Host.Outcome State Fault Refusal := onDev coolantBack s

/-- No return has come within COOLANT_GRACE: step 3 of R401, and the report. -/
def coolantTrips (d : Dev) : Dev :=
  if d.coolant.tripped || !(d.coolant.dropAt.any (fun t => decide (1000000 * d.power.ceilings.grace ≤ d.now - t))) then d
  else
    let d1 := settleAlert (setCoolant (fun c => { c with tripped := true }) d)
    settleLimit (if firmwareRuns d1 then mgmtEvent 2 (raise pPower 21 d1) else d1)

/-- COOLANT_GRACE (R402). -/
def execCoolantGrace (s : State) : Host.Outcome State Fault Refusal := onDev coolantTrips s

end Sys2Proof.Machine
end

