-- ==== Sys2Proof/Machine/Luawick.lean ====
section
/-!
DEFINITION. The Luawick host link (R56 to R72, R79 to R87): training, flits, the shared window and event rings.
-/

namespace Sys2Proof.Machine

/-! ### Sample slots (R88, R91, R93) -/

/-- Bytes of a sample unit (R88). -/
def unitBytes (u : Nat) : Nat := match u with | 0 => 1 | 1 => 2 | _ => 4

def slotAddr (n : Nat) (j : Job) : Nat := j.slotBase + n * (64 + roundUp (j.slotCapacity * unitBytes j.slotUnit) 64)

/-- The data area of a slot whose fill ends without success is undefined (R93). -/
def spoilSlot (r : DmaRun) (d : Dev) : Dev :=
  if r.op = 3 ∧ r.length ≠ 0 ∧ (r.stage = .data ∨ r.stage = .pad ∨ r.stage = .oldHeader ∨ r.result = .failed) then
    freeMemory [(slotAddr r.slot d.job + 64, d.job.slotCapacity * unitBytes d.job.slotUnit)] d
  else d

/-! ### The link (R57, R58, R62, R63, R84, R87) -/

/-- Width and rate at which the link comes up: at least x8 at 64 Gb/s (R58). -/
def linkOk (lanes rate : Nat) : Bool := (lanes == 16 || lanes == 8) && (rate == 128 || rate == 64)

def isDegraded (lanes rate : Nat) : Bool := decide (lanes * rate < 2048)

/-- LINK_STATUS as it reads (R85): 0 while the link is not ACTIVE (log entry 36). -/
def linkStatus (l : Link) : Nat :=
  if l.phase = .active then 16 * (l.lanes / 4) + 4 * (l.rate / 64) + 2 * b2n (isDegraded l.lanes l.rate) + 1 else 0

/-- The LINK entry of R84. -/
def linkEntry (reason duration : Nat) (d : Dev) : Entry :=
  let g := pageOf pLua d
  ⟨4, 0x50, 0, g.events.toNat, stateWord g, 2 ^ 32 * min m32 duration + 2 ^ 8 * reason + linkStatus d.link⟩

/-- Writes a LINK entry where the Luawick group's ring is enabled. -/
def noteLink (reason duration : Nat) (d : Dev) : Dev :=
  if (ringOf (routeOf 4 d) d).enabled then deliver 4 (linkEntry reason duration d) d else d

/-- The reason of the entry for a link that is back within LINK_LOST_TIMEOUT. -/
def linkReason (old : Link) (lanes rate : Nat) : Nat :=
  if lanes < old.oldLanes ∨ rate < old.oldRate then 2
  else if isDegraded old.oldLanes old.oldRate ∧ !isDegraded lanes rate then 3
  else 1

/-- Pages that are READY from the moment Luawick is up (R366, R428, R484). -/
def pagesWithLink : List PageId := [⟨.floorPlan, 0⟩, pReset, ⟨.managementView, 0⟩]

/-- The link comes up for the first time since a power-on, a module reset or a cold reset. -/
def firstUp (d : Dev) : Dev :=
  pagesWithLink.foldl (fun x p => if stateOf p x = .off then setState p .ready .testPassed x else x)
    (setState pLua .ready .testPassed d)

/-- LINK_LOST_TIMEOUT in ns, within its bounds (R45, R85). -/
def lossLimit (d : Dev) : Nat := 1000000 * clampReg 1 10000 (rd (rLua 0 0x60) d)

/-- The link has not been ACTIVE for LINK_LOST_TIMEOUT, and its loss has not been declared (R63). -/
def lossDue (d : Dev) : Bool :=
  match d.link.leftAt with
  | some t => d.link.phase != .active && !d.link.lost && decide (t + lossLimit d ≤ d.now)
  | none => false

/-- What a lost link takes with it (R63), commands in progress among it (log entry 36). -/
def declareLost (d : Dev) : Dev :=
  let dropped := (d.window.lines.filter (fun l => l.state == .modified)).length
  let status := rd (rLua 0 0x5C) d / 2 ^ 16
  let d0 := d.dma.foldl (fun x r => spoilSlot r x) d
  let d1 := wr (rLua 0 0x5C) (2 ^ 16 * min 0xFFFF (status + dropped)) { d0 with
    link := { d0.link with
      lost := true, replay := [], txSeq := 0, rxSeq := 0, heard := false, awaiting := false, askTries := 0, replayTries := 0,
      credit0 := 0, credit1 := 0, credit2 := 0, owed0 := 0, owed1 := 0, owed2 := 0 }
    hostWait := []
    window := { d0.window with enabled := false, lines := [], requests := [], writebacks := [], waiting := [] }
    queues := d0.queues.map (fun q => (q.1, { q.2 with enabled := false, disabling := false }))
    rings := d0.rings.map (fun r => (r.1, { r.2 with enabled := false, signalPending := false, held := false, lost := 0 }))
    dma := []
    job := { d0.job with load := none } }
  raise pLua 18 (endCmd pLua false (if d0.job.load.isSome then endCmdIf pJob 0x40 false d1 else d1))

/-- The phases of R57 that training passes before ACTIVE. -/
def trainingPhases : List LinkPhase := [.lock, .equalize, .deskew, .config]

/-- A phase of R57 begins; CONFIG exchanges width and rate, and from ACTIVE flits flow. -/
def enterPhase (lanes rate : Nat) (l : Link) (p : LinkPhase) : Link :=
  match p with
  | .config => { l with phase := p, lanes := lanes, rate := rate }
  | .active => { l with phase := p, leftAt := none, lost := false }
  | _ => { l with phase := p }

/-- Training passes its phases and ends with the link ACTIVE; a loss that is due comes first (R63). The LINK entry
is written before its events (log entry 36). -/
def linkUp (lanes rate : Nat) (d : Dev) : Dev :=
  if d.link.phase = .active ∨ stateOf pLua d ≠ .training ∨ !linkOk lanes rate then d else
  let d := if lossDue d then declareLost d else d
  let l := d.link
  let d1 := { d with link := (trainingPhases ++ [LinkPhase.active]).foldl (enterPhase lanes rate) l }
  let d2 := match l.leftAt with
    | none => firstUp d1
    | some t =>
      let us := (d.now - t) / 1000
      let d3 := endCmdIf pLua 6 true (returnBack pLua d1)
      if l.lost then { d3 with link := { d3.link with returned := some us } }
      else raise pLua 17 (noteLink (linkReason l lanes rate) us d3)
  let d4 := if isDegraded lanes rate then raise pLua 16 d2 else d2
  pump d4.hostWait.length d4

/-- LINK_TRAINED (R57, R58, R63, R84, R87). -/
def execLinkTrained (lanes : Nat) (rate : Nat) (s : State) : Host.Outcome State Fault Refusal := onDev (linkUp lanes rate) s

/-- LINK_TRAINING_FAILED (R87, R359): training starts again from DETECT, without limit. -/
def execLinkTrainingFailed (s : State) : Host.Outcome State Fault Refusal :=
  onDev (fun d => if d.link.phase = .active then d else { d with link := { d.link with phase := .detect } }) s

/-- The link leaves ACTIVE on its own; the page keeps its cause (R63, R87, R507). -/
def linkDrop (d : Dev) : Dev :=
  if d.link.phase = .active then dropLink (leaveFor pLua .training (pageOf pLua d).cause d) else d

/-- LINK_FAILURE (R63). -/
def execLinkFailure (s : State) : Host.Outcome State Fault Refusal := onDev linkDrop s

/-- The link is declared lost once LINK_LOST_TIMEOUT has passed (R6, R63). -/
def loseLink (d : Dev) : Dev := if lossDue d then declareLost d else d

/-- LINK_LOST_TIMEOUT (R63). -/
def execLinkLostTimeout (s : State) : Host.Outcome State Fault Refusal := onDev loseLink s

/-! ### Flits (R60 to R62) -/

/-- Data flits up to and with `ack` leave the replay buffer. -/
def ackReplay (ack : Nat) (l : List LinkFlit) : List LinkFlit :=
  if l.any (fun f => f.seq == ack) then (l.dropWhile (fun f => f.seq != ack)).drop 1 else l

/-- What a good header brings: an acknowledgement and credits (R61). -/
def takeHeader (h : LinkFlit) (d : Dev) : Dev :=
  let l := d.link
  let d1 := { d with
    link := { l with
      replay := if h.ackValid then ackReplay h.ack l.replay else l.replay
      replayTries := if h.ackValid && l.replay.any (fun f => f.seq == h.ack) then 0 else l.replayTries
      credit0 := if h.creditClass = 0 then l.credit0 + h.creditCount else l.credit0
      credit1 := if h.creditClass = 1 then l.credit1 + h.creditCount else l.credit1
      credit2 := if h.creditClass = 2 then l.credit2 + h.creditCount else l.credit2 } }
  pump d1.hostWait.length d1

/-- Asks for a replay, naming the last good flit; after four requests for one SEQ without progress the module retrains the link
(R62). -/
def askReplay (d : Dev) : Dev :=
  let l := d.link
  let tries := if l.askedAt = l.rxSeq ∧ l.askTries ≠ 0 then l.askTries + 1 else 1
  let d1 := { d with link := { sendFlit .replayRequest 0 [] l with awaiting := true, askedAt := l.rxSeq, askTries := tries } }
  if 4 ≤ tries then linkDrop { d1 with link := { d1.link with askTries := 0 } } else d1

/-- A data flit in order; where nothing else leaves to acknowledge it, an idle flit does (log entry 17). -/
def takeInOrder (f : LinkFlit) (d : Dev) : Dev :=
  let d1 := takeHeader f { d with
    link := { d.link with rxSeq := (d.link.rxSeq + 1) % 4096, heard := true, awaiting := false, askTries := 0 } }
  if d1.link.sent.length = d.link.sent.length then { d1 with link := sendFlit .idle 0 [] d1.link } else d1

/-- A data flit out of order is discarded until the replay comes (R62). -/
def takeData (f : LinkFlit) (d : Dev) : Dev :=
  if f.seq = d.link.rxSeq then takeInOrder f d else if d.link.awaiting then d else askReplay d

/-- Sends the data flits that are not acknowledged again, with what their headers carry now (R62). -/
def replayAll (d : Dev) : Dev :=
  { d with link := d.link.replay.foldl (fun l f => sendFlit .data f.seq f.payload l) d.link }

/-- A replay request: what it acknowledges is free, the rest is sent again; the fourth for one SEQ without progress
retrains the link (R62). -/
def takeReplayRequest (f : LinkFlit) (d : Dev) : Dev :=
  let tries := if d.link.replayAt = f.ack ∧ d.link.replayTries ≠ 0 then d.link.replayTries + 1 else 1
  let d1 := bump (rLua 0 0x44) (takeHeader f { d with link := { d.link with replay := ackReplay f.ack d.link.replay } })
  let d2 := { d1 with link := { d1.link with replayAt := f.ack, replayTries := tries } }
  if 4 ≤ tries then linkDrop { d2 with link := { d2.link with replayTries := 0 } } else replayAll d2

/-- A flit arrives: `good` for its header and payload, `bad` where its CRC fails after correction (R60). -/
def whenFlit (flit : List Byte) (e : FlitErrors) (good : LinkFlit → Dev → Dev) (bad : Dev → Dev) (d : Dev) : Dev :=
  if d.link.phase ≠ .active then d
  else match readFlit flit e with
    | none => bad d
    | some f => good f (if corrected e then bump (rLua 0 0x48) d else d)

/-- DATA_FLIT (R60, R62); the messages that it carries come as commands of their own. A link control flit has a header alone. -/
def execDataFlit (flit : List Byte) (errors : FlitErrors) (s : State) : Host.Outcome State Fault Refusal :=
  onDev (whenFlit flit errors (fun f d => match f.kind with
    | .data => takeData f d
    | .linkControl => takeHeader f d
    | _ => d) askReplay) s

/-- IDLE_FLIT (R61). -/
def execIdleFlit (received : ReceivedFlit) (s : State) : Host.Outcome State Fault Refusal :=
  onDev (whenFlit received.flit received.errors (fun f d => if f.kind = .idle then takeHeader f d else d) (fun d => d)) s

/-- REPLAY_REQUEST (R62). -/
def execReplayRequest (received : ReceivedFlit) (s : State) : Host.Outcome State Fault Refusal :=
  onDev (whenFlit received.flit received.errors (fun f d => if f.kind = .replayRequest then takeReplayRequest f d else d)
    (fun d => d)) s

/-! ### Messages from the host (R64 to R67) -/

/-- A message of a class comes over the ACTIVE link: the payload slots that it held are to be returned (R61). -/
def hostMessage (cls slots : Nat) (f : Dev → Dev) (d : Dev) : Dev :=
  if d.link.phase = .active then f { d with link := owe cls slots d.link } else d

/-- UNUSED_OPCODE (R65). -/
def execUnusedOpcode (message : UnusedMessage) (s : State) : Host.Outcome State Fault Refusal :=
  onDev (hostMessage (classOf message.opcode) (slotsFor message.length)
    (fun d => if usedOpcode message.opcode then d else bump (rLua 0 0x4C) d)) s

/-! ### The shared window (R68 to R72) -/

/-- COH_SNOOP_RESP with a state code in STATUS [11:10]: it waits behind no message (R70). -/
def snoopReply (tag a code : Nat) (data : List Byte) (d : Dev) : Dev :=
  hostSendFirst { msg 0x2C a data with tag := tag, status := 4 * code } d

/-- The state code beside modified data is not stated: one of the codes of R65. -/
def freeReply (d : Dev) : Nat := match (drawFree d).toNat % 3 with | 0 => 0 | 1 => 1 | _ => 3

/-- A snoop, answered from the state that the line holds (R70). -/
def snoop (tag a : Nat) (invalidate : Bool) (d : Dev) : Dev :=
  let a := lineOf a
  if writingBack a d.window then snoopReply tag a 3 [] d
  else match findLine a d.window with
    | none => snoopReply tag a 0 [] d
    | some l =>
      let w := if invalidate then dropLine a d.window else putLine { l with state := .shared } d.window
      let d1 := { d with window := w }
      if l.state = .modified then snoopReply tag a (freeReply d1) l.data (tickFree d1) else snoopReply tag a 1 [] d1

/-- COH_SNOOP_INV (R70). -/
def execCohSnoopInv (header : CohHeader) (s : State) : Host.Outcome State Fault Refusal :=
  onDev (hostMessage 2 1 (snoop header.tag header.addr.toNat true)) s

/-- COH_SNOOP_SHARE (R70). -/
def execCohSnoopShare (header : CohHeader) (s : State) : Host.Outcome State Fault Refusal :=
  onDev (hostMessage 2 1 (snoop header.tag header.addr.toNat false)) s

/-- The module gives a line up: COH_WRITEBACK from M, COH_EVICT_CLEAN from S or E (R70). -/
def evict (a : Nat) (d : Dev) : Dev :=
  match findLine (lineOf a) d.window with
  | none => d
  | some l =>
    let w := dropLine l.addr d.window
    if l.state = .modified then
      match freeCohTag w with
      | some t =>
        hostSend { msg 0x22 l.addr l.data with tag := t }
          { d with window := { w with writebacks := w.writebacks ++ [(l.addr, t)] } }
      | none => d
    else hostSend (msg 0x23 l.addr []) { d with window := w }

/-- LINE_EVICTION (R70). -/
def execLineEviction (addr : DWord) (s : State) : Host.Outcome State Fault Refusal := onDev (evict addr.toNat) s

/-- Writes back and gives up every line. -/
def evictAll (d : Dev) : Dev := d.window.lines.foldl (fun x l => evict l.addr x) d

def luaUp (d : Dev) : Bool := inState pLua [.ready, .active] d

/-- A window of another base or size gives up every line that the old one held (log entry 37). -/
def startWindow (base n : Nat) (d : Dev) : Dev :=
  let x := if d.window.base = base ∧ d.window.sizeLog2 = n then d else evictAll d
  { x with window := { x.window with enabled := true, base := base, sizeLog2 := n } }

def cmdSharedEnable (arg : Nat) (d : Dev) : Dev :=
  let n := rd (rLua 0 0x58) d
  let base := rd64 (rLua 0 0x50) d
  pageCommand pLua 0x40 arg true (luaUp d) (decide (26 ≤ n) && decide (n ≤ 32) && aligned base n)
    (doneAtOnce pLua (startWindow base n)) d

/-- SHARED_ENABLE (R72). -/
def execSharedEnable (s : State) : Host.Outcome State Fault Refusal := onDev (cmdSharedEnable 0) s

/-- Some DMA queue or event ring is enabled. -/
def windowUsed (d : Dev) : Bool := d.queues.any (fun q => q.2.enabled) || d.rings.any (fun r => r.2.enabled)

/-- Ends a SHARED_DISABLE once what waits for the window is written and no request is outstanding (R70, R72). -/
def settleStop (d : Dev) : Dev :=
  match (pageOf pLua d).cmd with
  | some ⟨0x41, _⟩ =>
    if d.window.waiting.isEmpty && d.window.requests.isEmpty then
      let x := evictAll d
      endCmd pLua true { x with window := { x.window with enabled := false } }
    else d
  | _ => d

def cmdSharedDisable (arg : Nat) (d : Dev) : Dev :=
  pageCommand pLua 0x41 arg true (luaUp d && !windowUsed d) true settleStop d

/-- SHARED_DISABLE (R72). -/
def execSharedDisable (s : State) : Host.Outcome State Fault Refusal := onDev (cmdSharedDisable 0) s

/-- A line is installed; the cache holds 32,768 lines, and the oldest gives way (R68). -/
def install (l : Line) (d : Dev) : Dev :=
  let x := match d.window.lines with
    | old :: _ => if 32768 ≤ d.window.lines.length then evict old.addr d else d
    | [] => d
  { x with window := putLine l x.window }

/-- The window goes on: what waits is applied, and a SHARED_DISABLE that waited for it may end. -/
def windowGoesOn (d : Dev) : Dev := settleStop (drainWindow d.window.waiting.length d)

/-- A grant for the request of its TAG (R66, R70); one for no request is discarded. -/
def grant (tag a : Nat) (exclusive : Bool) (data : List Byte) (d : Dev) : Dev :=
  let a := lineOf a
  if !d.window.requests.any (fun r => r.addr == a && r.tag == tag) then bump (rLua 0 0x4C) d
  else windowGoesOn (install ⟨a, if exclusive then .exclusive else .shared, (data ++ zeros 64).take 64⟩
    { d with window := { d.window with requests := d.window.requests.filter (fun r => r.tag != tag) } })

/-- COH_GRANT (R70). -/
def execCohGrant (header : CohHeader) (exclusive : Bool) (data : List Byte) (s : State) :
    Host.Outcome State Fault Refusal :=
  onDev (hostMessage 2 5 (grant header.tag header.addr.toNat exclusive data)) s

/-- A writeback is complete; an acknowledgement of none is discarded. -/
def writebackDone (tag a : Nat) (d : Dev) : Dev :=
  if d.window.writebacks.contains (lineOf a, tag) then
    windowGoesOn { d with window := { d.window with writebacks := d.window.writebacks.filter (· != (lineOf a, tag)) } }
  else bump (rLua 0 0x4C) d

/-- COH_WB_ACK (R70). -/
def execCohWbAck (header : CohHeader) (s : State) : Host.Outcome State Fault Refusal :=
  onDev (hostMessage 2 1 (writebackDone header.tag header.addr.toNat)) s

/-! ### Event rings (R79 to R86) -/

/-- A ring is enabled: an OVERFLOW entry for what was lost comes first, then an owed LINK entry (R83, R84). -/
def enableRing (n base log2 : Nat) (d : Dev) : Dev :=
  let r := ringOf n d
  let d1 := payOverflow n { d with
    rings := d.rings.set n { r with enabled := true, base := base, sizeLog2 := log2, lost := rd (rEvt n 0x14) d } }
  match d1.link.returned with
  | some us =>
    if routeOf 4 d1 = n then noteLink 4 us { d1 with link := { d1.link with returned := none } } else d1
  | none => d1

def cmdRingEnable (arg : Nat) (d : Dev) : Dev :=
  let n := arg % 2 ^ 24
  let base := rd64 (rEvt n 0) d
  let log2 := rd (rEvt n 8) d
  pageCommand pLua 0x44 arg true (luaUp d && d.window.enabled)
    (decide (n < 8) && decide (6 ≤ log2) && decide (log2 ≤ 16) && aligned base 12 && inWindow base (32 * 2 ^ log2) d)
    (doneAtOnce pLua (enableRing n base log2)) d

/-- RING_ENABLE (R83, R86). -/
def execRingEnable (arg : Nat) (s : State) : Host.Outcome State Fault Refusal := onDev (cmdRingEnable arg) s

def cmdRingDisable (arg : Nat) (d : Dev) : Dev :=
  let n := arg % 2 ^ 24
  pageCommand pLua 0x45 arg true (luaUp d) (decide (n < 8))
    (doneAtOnce pLua (fun x =>
      { x with rings := x.rings.set n { ringOf n x with enabled := false, signalPending := false, held := false } })) d

/-- RING_DISABLE (R86). -/
def execRingDisable (arg : Nat) (s : State) : Host.Outcome State Fault Refusal := onDev (cmdRingDisable arg) s

/-- The host's write of a ring's consumer index: it frees space and clears the pending signal (R82). -/
def writeConsumer (n value : Nat) (d : Dev) : Dev :=
  wr (rEvt n 0x0C) value { d with rings := d.rings.set n { ringOf n d with signalPending := false, held := false } }

/-- E_CONSUMER (R82). -/
def execEConsumer (n : Nat) (value : Word) (s : State) : Host.Outcome State Fault Refusal :=
  onDev (fun d => if n < 8 then whenNegotiated pLua (writeConsumer n value.toNat) d else d) s

/-- The hold-off since the last signal ends: a signal that waits leaves (R82). -/
def holdoffEnds (n : Nat) (d : Dev) : Dev :=
  if (ringOf n d).held then
    hostSend (msg 0x18 n []) { d with rings := d.rings.set n { ringOf n d with held := false, lastSignal := some d.now } }
  else d

/-- INT_HOLDOFF (R82). -/
def execIntHoldoff (n : Nat) (s : State) : Host.Outcome State Fault Refusal := onDev (holdoffEnds n) s

end Sys2Proof.Machine
end

