-- ==== Sys2Proof/Machine/Dma.lean ====
section
/-!
DEFINITION. DMA queues and descriptors (R73 to R78) with their accesses over the mesh (R13, R181), sample slots (R91 to R93), and
what ATTACH moves (R89).
-/

namespace Sys2Proof.Machine

def freshQueue : DmaQueue := ⟨false, 0, 4, 0, false⟩
def queueOf (q : Nat) (d : Dev) : DmaQueue := d.queues.get freshQueue q
def putQueue (q : Nat) (x : DmaQueue) (d : Dev) : Dev := { d with queues := d.queues.set q x }

def producerOf (q : Nat) (d : Dev) : Nat := rd (rQueue q 0x10) d
def consumerOf (q : Nat) (d : Dev) : Nat := rd (rQueue q 0x14) d

/-! ### Queue commands -/

def cmdQueueEnable (arg : Nat) (d : Dev) : Dev :=
  let q := arg % 2 ^ 24
  let base := rd64 (rQueue q 0) d
  let n := rd (rQueue q 8) d
  pageCommand pLua 0x42 arg true (luaUp d && d.window.enabled)
    (decide (q < 16) && decide (4 ≤ n) && decide (n ≤ 12) && aligned base 6 && inWindow base (64 * 2 ^ n) d)
    (doneAtOnce pLua (fun x =>
      putQueue q ⟨true, base, n, if (queueOf q x).enabled then (queueOf q x).next else consumerOf q x, false⟩ x)) d

/-- QUEUE_ENABLE (R86); the indices stay as they are (log entry 38). -/
def execQueueEnable (arg : Nat) (s : State) : Host.Outcome State Fault Refusal := onDev (cmdQueueEnable arg) s

/-- Ends a QUEUE_DISABLE once every descriptor has ended (R78). -/
def settleQueue (q : Nat) (d : Dev) : Dev :=
  let x := queueOf q d
  if x.disabling && x.next == producerOf q d && !d.dma.any (fun r => r.queue == q) then
    let d1 := putQueue q { x with enabled := false, disabling := false } d
    match (pageOf pLua d1).cmd with
    | some ⟨0x43, a⟩ => if a % 2 ^ 24 = q then endCmd pLua true d1 else d1
    | _ => d1
  else d

def cmdQueueDisable (arg : Nat) (d : Dev) : Dev :=
  let q := arg % 2 ^ 24
  pageCommand pLua 0x43 arg true (luaUp d) (decide (q < 16))
    (fun x =>
      if (queueOf q x).enabled then settleQueue q (putQueue q { queueOf q x with disabling := true } x)
      else endCmd pLua true x) d

/-- QUEUE_DISABLE (R78); of a queue that is not enabled it is DONE (log entry 38). -/
def execQueueDisable (arg : Nat) (s : State) : Host.Outcome State Fault Refusal := onDev (cmdQueueDisable arg) s

/-- A write of DOORBELL (R73). -/
def ring (q value : Nat) (d : Dev) : Dev :=
  let v := value % 2 ^ 16
  let n := if (queueOf q d).enabled then (queueOf q d).sizeLog2 else rd (rQueue q 8) d
  if 2 ^ n < (v + 2 ^ 16 - consumerOf q d) % 2 ^ 16 then raise pLua 20 (blockError pLua (0x10 + q) d)
  else wr (rQueue q 0x10) v d

/-- DOORBELL (R73). -/
def execDoorbell (q : Nat) (value : Word) (s : State) : Host.Outcome State Fault Refusal :=
  onDev (fun d => if q < 16 then whenNegotiated pLua (ring q value.toNat) d else d) s

/-! ### Accesses over the mesh (R13, R168, R181) -/

/-- The words of a range as the I/O die cuts them into packets: at every 512 bytes and where the controller changes. -/
def dmaPieces (a n : Nat) (d : Dev) : List (Nat × Nat) :=
  let lo := a / 16 * 16
  (cutMemory d lo (roundUp (a + n) 16 - lo)).map (fun p =>
    let first := max a (lo + p.1)
    (first, min (a + n) (lo + p.1 + p.2) - first))

/-- A packet of the west I/O die for a memory address, from row (ADDRESS div 64) mod 40 (R167, R181). -/
def dmaPacket (id ctx a : Nat) (d : Dev) : Packet :=
  let q := controllerPort ((controllerAt a d).getD 0) a
  { emptyPacket with sx := 0x7F, sy := a / 64 % 40, dx := q.1, dy := q.2, ctx := ctx, msgId := id, address := a }

/-- PUT_MEM packets for bytes, with every word poisoned where the data is (log entry 78). -/
def dmaPuts (id ctx a : Nat) (bs : List Byte) (bad : Bool) (d : Dev) : List Packet :=
  if bs.isEmpty then [] else
  (dmaPieces a bs.length d).map (fun p => { dmaPacket id ctx p.1 d with
    kind := .putMem, payload := (bs.drop (p.1 - a)).take p.2, poison := if bad then List.range ((p.2 + 15) / 16) else [] })

/-- GET_REQ packets for a range; the data comes back at its offset (R177). -/
def dmaGets (id ctx a n : Nat) (d : Dev) : List Packet :=
  if n = 0 then [] else
  (dmaPieces a n d).map (fun p => { dmaPacket id ctx p.1 d with kind := .getReq, amount := p.2, returnAddr := p.1 - a })

/-- A packet carries a MSG_ID of the DMA engines. -/
def dmaCarries (id : Nat) (p : Packet) : Bool := p.die.isNone && (p.sx == 0x7F || p.dx == 0x7F) && p.msgId == id

/-- A MSG_ID that no descriptor, no packet in the mesh and no access held by a controller has. -/
def freeMsgId (d : Dev) : Nat :=
  (firstBelow 256 (fun i => !d.dma.any (fun r => r.msgId == i) && !d.packets.any (dmaCarries i)
    && !d.memCtls.any (fun m => m.2.held.any (dmaCarries i))
    && !(match d.job.load with | some l => l.msgId == i | none => false))).getD 0

/-! ### Starting a descriptor (R74, R75) -/

/-- The range lies within one host DMA region (R75, R89). -/
def inRegion (a n : Nat) (d : Dev) : Bool :=
  (List.range 16).any (fun h =>
    let base := rd64 (rLua 1 (0x40 + 16 * h)) d
    let size := rd64 (rLua 1 (0x48 + 16 * h)) d
    size != 0 && decide (base ≤ a) && decide (a + n ≤ base + size))

/-- The run that a descriptor describes, before it is judged. -/
def runOf (q index : Nat) (b : List Byte) (d : Dev) : DmaRun :=
  let j := d.job
  let w := leAt b 0 4
  let op := w % 256
  let slot := fieldOf w 23 16
  let len := leAt b 8 8
  let unit := unitBytes j.slotUnit
  { queue := q, index := index, op := op, slot := slot, context := fieldOf w 10 8, signalFlag := bitOf w 13,
    event := bitOf w 11, length := if op = 0 then 0 else if op = 3 then len * unit else len,
    hostAddr := leAt b 0x10 8, moduleAddr := if op = 3 then slotAddr slot j + 64 else leAt b 0x18 8,
    flagTarget := leAt b 0x20 4, increment := leAt b 0x24 4, asked := 0, moved := 0, tag := none, poisonAddr := none,
    result := .done, detail := 0, stage := .data, msgId := freeMsgId d, startGen := fpGen d, awaited := 0, parts := [] }

/-- Steps 1 to 4 of R75; steps 3 and 4 also judge a LENGTH of 0, which step 5 then ends (log entry 38). -/
def judgeRun (r : DmaRun) (d : Dev) : Result :=
  if !d.job.attached || !ctxOpen r.context d then .rejectedState
  else if r.signalFlag && decide (39 < fieldOf r.flagTarget 13 8) then .rejectedRange
  else if r.op != 0 && !inRegion r.hostAddr r.length d then .rejectedRange
  else if (r.op == 1 || r.op == 2) && !inMemory r.moduleAddr r.length d then .rejectedRange
  else .done

/-- Bytes that a run moves: a slot fill reads no dropped unit (R92). -/
def bytesOf (r : DmaRun) (j : Job) : Nat :=
  if r.op = 3 then min r.length (j.slotCapacity * unitBytes j.slotUnit) else r.length

def modRun (q index : Nat) (f : DmaRun → DmaRun) (d : Dev) : Dev :=
  { d with dma := d.dma.map (fun r => if r.queue = q ∧ r.index = index then f r else r) }

def runAt (q index : Nat) (d : Dev) : Option DmaRun := d.dma.find? (fun r => r.queue == q && r.index == index)

/-- A TAG that no request of the DMA class holds (R66). -/
def freeTag (d : Dev) : Nat :=
  (firstBelow 4096 (fun t => !d.dma.any (fun r => r.tag == some t)
    && !(match d.job.load with | some l => l.tag == some t | none => false))).getD 0

/-- Sends a run's packets and awaits `n` more answers: COMPLETIONs of writes, bytes of reads. -/
def sendRun (q index n : Nat) (ps : List Packet) (d : Dev) : Dev :=
  sendPackets ps (modRun q index (fun x => { x with awaited := x.awaited + n }) d)

/-! ### A run's stages (R76, R77, R92, R93) -/

/-- Bytes of one host page, at most 4,096 (R65, R67). -/
def nextPiece (r : DmaRun) (j : Job) : Nat :=
  min (bytesOf r j - r.moved) (4096 - (r.hostAddr + r.moved) % 4096)

/-- The next DMA_READ_REQ of a run: at most 4,096 bytes, within one 4 KiB page of the companion (R65, R67). -/
def askCompanion (r : DmaRun) (d : Dev) : Dev :=
  let t := freeTag d
  let n := nextPiece r d.job
  hostSend { msg 0x11 (r.hostAddr + r.moved) [] with tag := t, context := r.context, readLength := n }
    (modRun r.queue r.index (fun x => { x with tag := some t, asked := n }) d)

/-- The next piece of a MODULE_TO_HOST is read from memory. -/
def askMemory (r : DmaRun) (d : Dev) : Dev :=
  let n := nextPiece r d.job
  sendRun r.queue r.index n (dmaGets r.msgId r.context (r.moduleAddr + r.moved) n d)
    (modRun r.queue r.index (fun x => { x with asked := n, parts := [] }) d)

/-- SLOT_PAD over the units that a fill leaves (R92). -/
def padBytes (unit pad n : Nat) : List Byte := (List.replicate n (leBytes unit pad)).flatten

/-- Units that a fill brings, and units that it stores (R92). -/
def fillUnits (r : DmaRun) (j : Job) : Nat × Nat :=
  let l := r.length / unitBytes j.slotUnit
  (l, min l j.slotCapacity)

/-- Header bytes 0x00 to 0x1F after a fill, for the header as it was (R91, R92). -/
def slotHeader (r : DmaRun) (j : Job) (old : List Byte) : List Byte :=
  let u := fillUnits r j
  let dropped := u.1 - u.2
  leBytes 8 u.1 ++ leBytes 4 u.2 ++ leBytes 4 (leAt old 0x0C 4 + 1) ++ leBytes 8 dropped
    ++ leBytes 8 (min m64 (leAt old 0x18 8 + dropped))

/-- The bytes of a run's parts, in order; poisoned words read as zeros (R195). -/
def gathered (n : Nat) (parts : List DmaPart) : List Byte :=
  parts.foldl (fun bs p => overlay bs p.offset p.bytes) (zeros n)

/-- A stage of a run begins with its accesses. -/
def enterStage (r : DmaRun) (g : DmaStage) (d : Dev) : Dev :=
  let j := d.job
  let unit := unitBytes j.slotUnit
  let u := fillUnits r j
  let d1 := modRun r.queue r.index (fun x => { x with stage := g }) d
  let put := fun a bs => let ps := dmaPuts r.msgId r.context a bs false d; sendRun r.queue r.index ps.length ps d1
  match g with
  | .pad => put (slotAddr r.slot j + 64 + u.2 * unit) (padBytes unit j.slotPad (j.slotCapacity - u.2))
  | .oldHeader =>
    sendRun r.queue r.index 64 (dmaGets r.msgId r.context (slotAddr r.slot j) 64 d)
      (modRun r.queue r.index (fun x => { x with parts := [] }) d1)
  | .header =>
    put (slotAddr r.slot j) (slotHeader r j (gathered 64 r.parts) ++ leBytes 8 r.context ++ zeros 24)
  | _ => d1

/-- The stage that follows when nothing of a run is awaited: the header is written only after data and padding are in place, and
not at all where the fill fails (R92, R93). -/
def stageAfter (r : DmaRun) : DmaStage :=
  if r.op = 3 ∧ r.result = .done then
    match r.stage with | .data => .pad | .pad => .oldHeader | .oldHeader => .header | _ => .ended
  else .ended

/-- A run goes on: more data is asked for, or its next stage begins. -/
def runOn (fuel q index : Nat) (d : Dev) : Dev :=
  match fuel, runAt q index d with
  | k + 1, some r =>
    if r.tag.isSome then d
    else if r.stage = .data ∧ r.result = .done ∧ r.moved < bytesOf r d.job then
      if r.op ≠ 2 then askCompanion r d else if r.awaited = 0 then askMemory r d else d
    else if r.awaited ≠ 0 ∨ r.stage = .ended ∨ r.stage = .record ∨ r.stage = .status then d
    else runOn k q index (enterStage r (stageAfter r) d)
  | _, _ => d

/-- Cuts of a range at the lines of module memory. -/
def lineCuts (fuel mem n : Nat) : List (Nat × Nat) :=
  match fuel with
  | 0 => []
  | k + 1 =>
    if n = 0 then []
    else
      let step := min n (64 - mem % 64)
      (mem, step) :: lineCuts k (mem + step) (n - step)

/-- Joins cuts that are all clean or all poisoned into one message. -/
def joinCuts (bad : Nat → Bool) (l : List (Nat × Nat)) (acc : List (Nat × Nat × Bool)) : List (Nat × Nat × Bool) :=
  match l with
  | [] => acc.reverse
  | (a, n) :: r =>
    match acc with
    | (b, m, was) :: t =>
      if was = bad (a / 64) then joinCuts bad r ((b, m + n, was) :: t) else joinCuts bad r ((a, n, bad (a / 64)) :: acc)
    | [] => joinCuts bad r [(a, n, bad (a / 64))]

/-- A piece of MODULE_TO_HOST is here: it leaves in DMA_WRITEs, a poisoned line as zeros with POISON set (R77). -/
def pushOut (r : DmaRun) (d : Dev) : Dev :=
  let a := r.moduleAddr + r.moved
  let bs := gathered r.asked r.parts
  let badLines := r.parts.flatMap (fun p => p.poisoned.map (fun i => (a + p.offset + 16 * i) / 64))
  let cuts := joinCuts (fun l => badLines.contains l) (lineCuts (r.asked + 1) a r.asked) []
  let d1 := cuts.foldl (fun x (m, n, bad) =>
    let data := if bad then zeros n else (bs.drop (m - a)).take n
    hostSend { msg 0x10 (r.hostAddr + r.moved + (m - a)) data with context := r.context, poison := bad } x) d
  let first := (cuts.find? (fun c => c.2.2)).map (fun c => c.1 / 64 * 64)
  modRun r.queue r.index (fun x => { x with
    moved := x.moved + x.asked
    parts := []
    poisonAddr := x.poisonAddr.or first }) d1

/-- The whole of a MODULE_TO_HOST has moved: one that met poison ends FAILED and POISONED (R77). -/
def closeOut (q index : Nat) (d : Dev) : Dev :=
  match runAt q index d with
  | some r =>
    if r.op = 2 ∧ r.poisonAddr.isSome ∧ bytesOf r d.job ≤ r.moved then
      modRun q index (fun x => { x with result := .failed, detail := 1 }) d
    else d
  | none => d

/-! ### Answers over the mesh -/

/-- The first line of a range that lies on a channel lost in the session (R77, R211). -/
def firstLost (a n : Nat) (d : Dev) : Option Nat := ((linesIn a n).find? (fun l => lineLost l d)).map (64 * ·)

/-- Where a run writes at its stage. -/
def stageRange (r : DmaRun) (j : Job) : Nat × Nat :=
  match r.stage with
  | .data => (r.moduleAddr, r.moved)
  | .pad => (slotAddr r.slot j + 64, j.slotCapacity * unitBytes j.slotUnit)
  | _ => (slotAddr r.slot j, 64)

/-- A COMPLETION for a write of a run: on a lost channel the run fails with POISONED (R77). -/
def runAnswered (r : DmaRun) (p : Packet) (d : Dev) : Dev :=
  let w := stageRange r d.job
  let lost := if p.result = .done then none else firstLost w.1 w.2 d
  runOn 4 r.queue r.index (modRun r.queue r.index (fun x => { x with
    awaited := x.awaited - 1
    poisonAddr := x.poisonAddr.or lost
    result := if lost.isSome then .failed else x.result
    detail := if lost.isSome then 1 else x.detail }) d)

/-- GET_DATA for a run. -/
def runData (r : DmaRun) (p : Packet) (d : Dev) : Dev :=
  let d1 := modRun r.queue r.index (fun x => { x with
    awaited := x.awaited - p.payload.length, parts := x.parts ++ [⟨p.address, p.payload, p.poison⟩] }) d
  match runAt r.queue r.index d1 with
  | none => d1
  | some y =>
    if y.awaited ≠ 0 then d1
    else if y.stage = .data then runOn 4 r.queue r.index (closeOut r.queue r.index (pushOut y d1))
    else runOn 4 r.queue r.index d1

/-- The run whose packets carry a MSG_ID. -/
def runWith (id : Nat) (d : Dev) : Option DmaRun := d.dma.find? (fun r => r.msgId == id && r.awaited != 0)

/-- GET_DATA reaches the west I/O die; data for no run is discarded. -/
def dmaData (p : Packet) (d : Dev) : Dev :=
  match runWith p.msgId d with
  | some r => runData r p d
  | none => d

/-! ### The rank table and the slot headers of ATTACH (R89) -/

/-- What the network forgets at ATTACH: streams with the packets still queued for them, chunk halves, counters, passes and what they count (R263, R309, R315, R321,
R347); a SEND that still runs ends FAILED (log entry 24). -/
def freshStreams (d : Dev) : Dev :=
  let d1 := (List.range 48).foldl (fun x p => endCmdIf (pNi p) 0x40 false x) d
  let d2 := modNet (fun n => { n with
    tx := [], rx := [], sends := [], checkTx := [], checkRx := [], rings := [],
    ports := n.ports.map (fun e => (e.1, { e.2 with bufData := [], bufCtrl := [] })),
    pools := n.pools.map (fun e => (e.1, { e.2 with records := [], waiting := [] })),
    belay := n.belay.map (fun e => (e.1, { e.2 with state := EntryState.idle })) }) d1
  let d3 := regsReset (fun r => (r.ty == .counters && decide (0x100 ≤ r.off))
    || (r.ty == .ring && decide (0xC0 ≤ r.off) && decide (r.off ≤ 0xF4))) d2
  settleReduction 1 (settleReduction 0 ((List.range 48).foldl (fun x r => settlePage (pRing r) .ready .work x) d3))

/-- Every page that is ACTIVE while a job is attached. -/
def jobPages : List PageId :=
  (blockTypes.filter followsJob).flatMap (fun t => (List.range (instances t)).map (fun i => ⟨t, i⟩))

/-- The job is attached: the slot layout is fixed and the pages go to ACTIVE. -/
def attachJob (l : RankLoad) (d : Dev) : Dev :=
  let j := d.job
  let table := (List.range j.rankCount).map (fun i => BitVec.ofNat 64 (leAt l.table (8 * i) 8))
  let stride := 64 + roundUp (j.slotCapacity * unitBytes j.slotUnit) 64
  let d1 := wr (rJob 0x78) stride (freshStreams { d with job := { j with attached := true, rankTable := table, load := none } })
  (pJob :: jobPages).foldl (fun x p => settlePage p .active .work x) d1

def putLoad (l : RankLoad) (d : Dev) : Dev := { d with job := { d.job with load := some l } }

/-- The job's ATTACH is in progress. -/
def attaching (d : Dev) : Bool := match (pageOf pJob d).cmd with | some c => c.code == 0x40 | none => false

/-- ATTACH ends. -/
def endAttach (l : RankLoad) (ok : Bool) (d : Dev) : Dev :=
  let gone := { d with job := { d.job with load := none } }
  if !attaching d then gone
  else if ok then endCmd pJob true (attachJob l d) else endCmd pJob false gone

/-- The header line of every slot is zeroed, over the mesh. -/
def zeroHeaders (l : RankLoad) (d : Dev) : Dev :=
  let ps := (List.range 256).flatMap (fun n => dmaPuts l.msgId 0 (slotAddr n d.job) (zeros 64) false d)
  sendPackets ps (putLoad { l with tag := none, awaited := ps.length } d)

/-- The next DMA_READ_REQ for the rank table, or, once it is whole, the zeros of the headers; a table that came poisoned or not at
all fails the command (log entry 37). -/
def loadMore (l : RankLoad) (d : Dev) : Dev :=
  let left := 8 * d.job.rankCount - l.table.length
  if l.poisoned then endAttach l false d
  else if left = 0 then zeroHeaders l d
  else
    let a := rd64 (rJob 0x50) d + l.table.length
    let n := min left (4096 - a % 4096)
    let t := freeTag d
    hostSend { msg 0x11 a [] with tag := t, readLength := n } (putLoad { l with tag := some t, asked := n } d)

/-- A piece of the rank table comes. -/
def loadData (l : RankLoad) (status : Nat) (poison : Bool) (data : List Byte) (d : Dev) : Dev :=
  if status = 1 then endAttach l false d
  else if data.length ≠ l.asked then bump (rLua 0 0x4C) d
  else loadMore { l with table := l.table ++ data, tag := none, poisoned := poison || status == 2 } d

/-- A COMPLETION reaches the west I/O die: for a run's write, or for a header line. -/
def dmaAnswer (p : Packet) (d : Dev) : Dev :=
  match runWith p.msgId d with
  | some r => runAnswered r p d
  | none =>
    match d.job.load with
    | some l =>
      if l.msgId ≠ p.msgId ∨ l.awaited = 0 then d
      else if l.awaited = 1 then endAttach l true d
      else putLoad { l with awaited := l.awaited - 1 } d
    | none => d

/-! ### Starting (R73, R75, R76, R93) -/

/-- The queue's next descriptor, where it is posted and the module holds its line. -/
def nextDescriptor (q : Nat) (d : Dev) : Option (List Byte) :=
  let x := queueOf q d
  windowRead (x.base + 64 * (x.next % 2 ^ x.sizeLog2)) 64 d

/-- The queue is enabled and has a descriptor that has not started. -/
def hasPosted (q : Nat) (d : Dev) : Bool :=
  let x := queueOf q d
  x.enabled && x.next != producerOf q d

/-- The descriptor may start now: no FENCE holds it, one of the eight engines is free, and no fill of its slot runs
(R74, R73, R93). -/
def mayStart (q : Nat) (r : DmaRun) (b : List Byte) (d : Dev) : Bool :=
  let fenced := bitOf (leAt b 0 4) 12 && d.dma.any (fun y => y.queue == q)
  let busy := decide (8 ≤ (d.dma.filter (fun y => y.stage != .ended && y.stage != .record && y.stage != .status)).length)
  let slotBusy := r.op == 3 && d.dma.any (fun y => y.op == 3 && y.slot == r.slot)
  !(queueOf q d).disabling && !fenced && !busy && !slotBusy

/-- The queue could start its next descriptor. -/
def couldStart (d : Dev) (q : Nat) : Bool :=
  hasPosted q d && (match nextDescriptor q d with
    | some b => mayStart q (runOf q (queueOf q d).next b d) b d
    | none => false)

/-- The queue whose turn it is: the first after the last served that could start (R73). -/
def queueTurn (d : Dev) : Option Nat := ((List.range 16).map (fun i => (d.dmaTurn + 1 + i) % 16)).find? (couldStart d)

/-- A descriptor starts: judged, and its transfer begins. -/
def beginRun (q : Nat) (r : DmaRun) (d : Dev) : Dev :=
  let verdict := judgeRun r d
  let stop := fun res det => { r with result := res, detail := det, stage := DmaStage.ended }
  let add := fun y => putQueue q { queueOf q d with next := ((queueOf q d).next + 1) % 2 ^ 16 }
    { d with dma := d.dma ++ [y], dmaTurn := q }
  if d.job.closing.contains r.context then add (stop .failed 3)
  else if verdict ≠ .done then add (stop verdict 0)
  else if r.op = 0 ∨ r.length = 0 then add (stop .done 0)
  else runOn 4 q r.index (add r)

/-- Starts the queue's next descriptor where it is the queue's turn and the op is the one named; its line is requested where the
module does not hold it. -/
def startRun (q op : Nat) (d : Dev) : Dev :=
  let x := queueOf q d
  if !hasPosted q d || x.disabling then d
  else match nextDescriptor q d with
    | none => requestLine (lineOf (x.base + 64 * (x.next % 2 ^ x.sizeLog2))) false d
    | some b =>
      let r := runOf q x.next b d
      if r.op = op ∧ queueTurn d = some q then beginRun q r d else d

/-- NOP (R75). -/
def execNop (q : Nat) (s : State) : Host.Outcome State Fault Refusal := onDev (startRun q 0) s

/-- HOST_TO_MODULE (R75). -/
def execHostToModule (q : Nat) (s : State) : Host.Outcome State Fault Refusal := onDev (startRun q 1) s

/-- MODULE_TO_HOST (R75, R77). -/
def execModuleToHost (q : Nat) (s : State) : Host.Outcome State Fault Refusal := onDev (startRun q 2) s

/-- SLOT_FILL (R75, R92, R93). -/
def execSlotFill (q : Nat) (s : State) : Host.Outcome State Fault Refusal := onDev (startRun q 3) s

/-! ### Data from the companion (R65, R77) -/

/-- Data for a run: it goes to memory over the mesh, poisoned where it came so (R77). -/
def takeForRun (r : DmaRun) (status : Nat) (poison : Bool) (data : List Byte) (d : Dev) : Dev :=
  if status = 1 then
    runOn 4 r.queue r.index (modRun r.queue r.index (fun x => { x with tag := none, result := .failed }) d)
  else if data.length ≠ r.asked then bump (rLua 0 0x4C) d
  else
    let bad := poison || status == 2
    let a := r.moduleAddr + r.moved
    let ps := dmaPuts r.msgId r.context a (if bad then zeros data.length else data) bad d
    runOn 4 r.queue r.index (sendRun r.queue r.index ps.length ps (modRun r.queue r.index (fun x => { x with
      moved := x.moved + data.length
      tag := none
      poisonAddr := x.poisonAddr.or (if bad then some (a / 64 * 64) else none) }) d))

/-- Data for the request that holds the TAG; other data is discarded and counted. -/
def companionData (tag status : Nat) (poison : Bool) (data : List Byte) (d : Dev) : Dev :=
  match d.dma.find? (fun r => r.tag == some tag) with
  | some r => takeForRun r status poison data d
  | none =>
    match d.job.load with
    | some l => if l.tag = some tag then loadData l status poison data d else bump (rLua 0 0x4C) d
    | none => bump (rLua 0 0x4C) d

/-- DMA_READ_DATA (R65, R77). -/
def execDmaReadData (tag : Nat) (status : Nat) (poison : Bool) (data : List Byte) (s : State) :
    Host.Outcome State Fault Refusal :=
  onDev (hostMessage 1 (slotsFor data.length) (companionData tag status poison data)) s

/-! ### Completion (R76, R92) -/

/-- Bytes of the window, line by line. -/
def windowPut (a : Nat) (bs : List Byte) (d : Dev) : Dev :=
  (lineCuts (bs.length + 1) a bs.length).foldl (fun x c => windowWrite c.1 ((bs.drop (c.1 - a)).take c.2) x) d

/-- The window has taken every write of a range. -/
def windowTook (a n : Nat) (d : Dev) : Bool :=
  !d.window.waiting.any (fun w => match w with
    | .write b bs => decide (b < a + n) && decide (a < b + bs.length)
    | .signal _ => false)

/-- Where a descriptor lies. -/
def descriptorAddr (r : DmaRun) (d : Dev) : Nat := (queueOf r.queue d).base + 64 * (r.index % 2 ^ (queueOf r.queue d).sizeLog2)

/-- A fill has been applied. -/
def filled (r : DmaRun) : Bool := r.op == 3 && r.result == .done && r.length != 0

/-- Step 2 of R76: the slot record of a fill, with TRUNCATED where units were dropped (R91, R92). -/
def writeRecord (r : DmaRun) (d : Dev) : Dev :=
  let u := fillUnits r d.job
  let cut := filled r && decide (u.2 < u.1)
  let d1 := modRun r.queue r.index (fun x => { x with stage := .record, detail := if cut then 4 else x.detail })
    (if filled r then windowPut (d.job.slotRecord + 32 * r.slot) (slotHeader r d.job (gathered 64 r.parts)) d else spoilSlot r d)
  if cut then raise pJob 16 d1 else d1

/-- Steps 3 and 4: the flag, then TRANSFERRED, POISON_ADDR and the status. -/
def writeStatus (r : DmaRun) (d : Dev) : Dev :=
  let t := coreAt (fieldOf r.flagTarget 5 0) (fieldOf r.flagTarget 13 8)
  let d1 := if r.signalFlag && r.result != .rejectedState && r.result != .rejectedRange && coreTakes t d then
    addFlag t (fieldOf r.flagTarget 21 16) (BitVec.ofNat 32 r.increment) d else d
  let status := 2 ^ 31 + 16 * r.detail + resultCode r.result
  modRun r.queue r.index (fun x => { x with stage := .status })
    (windowPut (descriptorAddr r d + 0x28) (leBytes 8 r.moved ++ leBytes 8 (r.poisonAddr.getD 0) ++ leBytes 4 status) d1)

/-- The descriptor is complete: Q_CONSUMER counts it, and step 5 delivers its event. -/
def retireRun (r : DmaRun) (d : Dev) : Dev :=
  let d1 := wr (rQueue r.queue 0x14) ((r.index + 1) % 2 ^ 16) { d with
    dma := d.dma.filter (fun y => !(y.queue == r.queue && y.index == r.index)) }
  let d2 := if r.event then
    deliver 4 { pageEntry pLua d1 with kind := 2, detail := 2 ^ 16 * r.queue + r.index } d1 else d1
  settleQueue r.queue d2

/-- Steps 2 to 5 of R76, each after the window has taken what the one before wrote. -/
def finishRunDma (fuel q index : Nat) (d : Dev) : Dev :=
  match fuel, runAt q index d with
  | k + 1, some r =>
    match r.stage with
    | .ended => finishRunDma k q index (writeRecord r d)
    | .record => if windowTook (d.job.slotRecord + 32 * r.slot) 32 d then finishRunDma k q index (writeStatus r d) else d
    | .status => if windowTook (descriptorAddr r d + 0x28) 20 d then retireRun r d else d
    | _ => d
  | _, _ => d

/-- A posted descriptor of a queue that is being disabled, or of a context that is closing, ends FAILED and CANCELLED
without starting (R78, R89), its flag incremented (log entry 38). -/
def cancelNext (q : Nat) (d : Dev) : Dev :=
  let x := queueOf q d
  if !hasPosted q d then settleQueue q d
  else match nextDescriptor q d with
    | none => requestLine (lineOf (x.base + 64 * (x.next % 2 ^ x.sizeLog2))) false d
    | some b =>
      let r := { runOf q x.next b d with stage := DmaStage.ended, result := .failed, detail := 3 }
      if x.disabling || d.job.closing.contains r.context then
        finishRunDma 3 q r.index (putQueue q { x with next := (x.next + 1) % 2 ^ 16 } { d with dma := d.dma ++ [r] })
      else d

/-- Accesses that a retired router or link took with it end their run, as a source ends its messages (R186; log entry 78). -/
def runStale (r : DmaRun) (d : Dev) : Bool := r.awaited != 0 && windowPassed r.startGen 2000000 d

/-- The queue's oldest descriptor completes once its work has ended; with none started, one that waits may be
cancelled. -/
def completeNext (q : Nat) (d : Dev) : Dev :=
  match d.dma.find? (fun r => r.queue == q) with
  | some r =>
    let d1 := if runStale r d then
      modRun q r.index (fun x => { x with awaited := 0, tag := none, result := .failed, stage := .ended }) d else d
    finishRunDma 3 q r.index d1
  | none => cancelNext q d

/-- DESCRIPTOR_COMPLETE (R76, R78). -/
def execDescriptorComplete (q : Nat) (s : State) : Host.Outcome State Fault Refusal := onDev (completeNext q) s

end Sys2Proof.Machine
end

