-- ==== Sys2Proof/Machine/StartOps.lean ====
section
/-!
DEFINITION. What bring-up and every reset share: units that wait for their run, loads, the end of each part of the start
(R349 to R359, R365, R371), and the acceptance of a reset (R414 to R424).
-/

namespace Sys2Proof.Machine

/-- The core runtime of the firmware set that loads read: at most the runtime region. -/
def runtimeImage (d : Dev) : List Byte :=
  let s := loadSet d.flash
  s.body.read (partOffset s.manifest 3) (min 65536 (partSize s.manifest 3))

/-- Writes the core runtime into the runtime region. -/
def loadRuntime (k : Nat) (d : Dev) : Dev := sramWrite k kernelWindow (runtimeImage d) [] d

/-! ### Units that wait for bring-up -/

def freshCause (c : Cause) : Bool := c == .powerOn || c == .reset

def unitCause (u : Nat) (d : Dev) : Cause :=
  match unitPage u with
  | some p => (pageOf p d).cause
  | none => (unitRec u d).cause

/-- The unit is OFF and waits for its own bring-up. -/
def awaits (u : Nat) (d : Dev) : Bool := unitState u d == .off && freshCause (unitCause u d)

/-- The unit is in its bring-up, in one of the states named. -/
def starting (u : Nat) (st : PState) (d : Dev) : Bool := unitState u d == st && freshCause (unitCause u d)

def pageAwaits (p : PageId) (d : Dev) : Bool := stateOf p d == .off && freshCause (pageOf p d).cause

/-- A step of bring-up keeps the cause (R507). -/
def stepUnit (u : Nat) (st : PState) (d : Dev) : Dev := setUnit u st (unitCause u d) d

/-- The unit fails its run or its training at bring-up: OFF, flagged and listed (R358, R361). -/
def failUnit (u : Nat) (c : Cause) (d : Dev) : Dev := addCairn u c (markFailed u (setUnit u .off c d))

/-- A unit whose owner failed at bring-up. -/
def orphan (u : Nat) (d : Dev) : Dev := if awaits u d then setUnit u .off .ownerLost d else d

/-- A die controller's units and pages, when it does not start. -/
def orphanDie (die : Nat) (d : Dev) : Dev :=
  let d1 := (dieUnits die).foldl (fun x u => orphan u x) d
  (diePages die).foldl (fun x p => if pageAwaits p x then setState p .off .ownerLost x else x) d1

/-- A core at reset values; after its run its SRAM is undefined. The watch of its beacons begins anew. -/
def afterStartRun (k : Nat) (d : Dev) : Dev := freeSram k (putCore k freshCore (wr (rCore k 0xE4) 0 d))

/-- After the run of a RETEST its flags are undefined too, and the runtime is loaded again (R134). -/
def afterRetest (k : Nat) (d : Dev) : Dev := loadRuntime k (freeFlags k (afterStartRun k d))

/-! ### Parts of the start that are done -/

/-- A unit is still in bring-up, or works toward READY. -/
def unsettled (u : Nat) (d : Dev) : Bool :=
  match unitState u d with
  | .off => freshCause (unitCause u d)
  | .testing | .loading | .training => true
  | _ => false

/-- A port waits for light (R359). -/
def lightWait (p : Nat) (d : Dev) : Bool :=
  let o := opticOf (p / 8) d
  let low := laserLow (p / 8) d
  stateOf (pPort p) d == .training && d.net.optics.any (fun e => e.1 == p / 8) && decide (o.power0 < low) && decide (o.power1 < low)

def unitDone (u : Nat) (d : Dev) : Bool := !unsettled u d || (unitClass u == 8 && lightWait (unitIndex u) d)

/-- The start-up test of a die has ended. -/
def dieDone (die : Nat) (d : Dev) : Bool := (dieUnits die).all (fun u => unitDone u d)

/-- Blocks of an I/O die without runs of their own. -/
def plainPages (side : Nat) : List PageId :=
  [pPool side, pRed side, pBelay side, pCounters side] ++ (sidePlanes side).flatMap (fun r => [pChk r, pRing r])

/-- The network interfaces and reduction units of a side have had their runs. -/
def sideTested (side : Nat) (d : Dev) : Bool :=
  (sidePlanes side).all (fun p => unitDone (uNetwork p) d)
    && (List.range 8).all (fun i => unitDone (uReduction (8 * side + i)) d)

/-- A page that has no run of its own becomes READY (R507). -/
def readyPage (p : PageId) (d : Dev) : Dev :=
  if pageAwaits p d || (stateOf p d == .testing && freshCause (pageOf p d).cause) then becomeReady p .testPassed d else d

/-- The I/O-die blocks of both sides are READY: JOB and POWER follow (R349). -/
def settleIo (d : Dev) : Dev :=
  let d1 := [0, 1].foldl (fun x s =>
    if stateOf ⟨.dieController, 8 + s⟩ x == .testing && sideTested s x then
      (plainPages s).foldl (fun y p => readyPage p y) x else x) d
  let status := rd (rModule 0x5C) d1
  if !bitOf status 0 && sideTested 0 d1 && sideTested 1 d1 then
    readyPage pPower (readyPage pJob (wr (rModule 0x5C) (orBit status 0) d1))
  else d1

/-- Cores of a wave (R354). -/
def waveClusters (die w : Nat) : List Nat :=
  (List.range 4).map (fun j => 16 * (5 * (die / 4) + w) + 4 * (die % 4) + j)

def waveEnded (w : Nat) (d : Dev) : Bool :=
  (List.range 8).all (fun die => inState ⟨.dieController, die⟩ [.off, .retired] d
    || (decide (w < d.boot.waves.get 0 die) && (waveClusters die w).all (fun i =>
        unitDone (uSupervisor i) d && (clusterCores i).all (fun k => unitDone (uCore k) d))))

/-- CORE_WAVE of START_STATUS: waves that have ended. -/
def wavesEnded (d : Dev) : Nat := (firstBelow 5 (fun w => !waveEnded w d)).getD 5

def portsTrained (d : Dev) : Bool :=
  (List.range 48).all (fun p => unitDone (uPort p) d) && !(List.range 10).any (fun i =>
    8 ≤ i && stateOf ⟨.dieController, i⟩ d == .off && freshCause (pageOf ⟨.dieController, i⟩ d).cause)

/-- START_STATUS follows the start, but for the bits that never clear. -/
def startWord (d : Dev) : Nat :=
  let s := rd (rModule 0x5C) d
  putField (putField (putField s 2 2 (b2n (bitOf s 2 || portsTrained d))) 7 7
    (b2n ((List.range 48).any (fun p => lightWait p d)))) 6 4 (max (fieldOf s 6 4) (wavesEnded d))

/-- Every unit has left bring-up (R358); Luawick stands among the units of the floor plan. -/
def startDone (d : Dev) : Bool :=
  (List.range 10).all (fun die => dieDone die d && unitDone (uDie die) d)
    && unitDone (uComplex 0) d && unitDone (uComplex 1) d && !inState pLua [.training, .testing, .loading] d
    && !(stateOf pLua d == .off && freshCause (pageOf pLua d).cause)

/-- START_COMPLETE (R358, R365, R423). -/
def completeStart (d : Dev) : Dev :=
  let d1 := wr (rModule 0x60) (d.now / 1000000) (wr (rModule 0x5C) (orBit (rd (rModule 0x5C) d) 31)
    { d with
      boot := { d.boot with complete := true, coreGuaranteed := true }
      reset := { d.reset with level := if d.reset.level = some 0 then some 0 else none } })
  judgeGuarantee true false (mgmtEvent 13 (raise pModule 18 (setState pModule .ready .testPassed d1)))

/-- The start goes on by itself where it can. -/
def settleStart (d : Dev) : Dev :=
  if d.boot.phase != .running || d.reset.phase != .starting then d else
  let d1 := settleIo d
  let d2 := (List.range 10).foldl (fun x die =>
    let p : PageId := ⟨.dieController, die⟩
    if stateOf p x == .testing && dieDone die x then
      becomeReady p .testPassed (wr (rDie die 0 0x44) (putField (rd (rDie die 0 0x44) x) 3 0 4) x) else x) d1
  let d3 := wr (rModule 0x5C) (startWord d2) d2
  if !d3.boot.complete && startDone d3 then completeStart d3 else d3

/-! ### Failures and the cores' load (R353 to R355, R361, R415) -/

/-- What the owner's absence takes with it at bring-up (R18, R361). -/
def orphansOf (u : Nat) (d : Dev) : Dev :=
  let i := unitIndex u
  match unitClass u with
  | 0x4 => (clusterCores i).foldl (fun x k => orphan (uCore k) x) d
  | 0x5 => orphan (uEngine i) ((List.range 16).foldl (fun x j => orphan (uChannel (16 * i + j)) x) d)
  | 0xC => orphanDie i d
  | _ => d

/-- A compute reset acts: a unit that fails its run is retired (R415). -/
def underL0 (d : Dev) : Bool := d.reset.level == some 0

/-- Retires units by one decision, the ones that wait for their run among them. -/
def retireStart (ls : List Loss) (d : Dev) : Dev :=
  let ls := ls.filter (fun l => usable l.unit d || awaits l.unit d)
  if ls.isEmpty then d else
  let d1 := applyLosses ls [] (ls.foldl (fun x l => stopWork l.unit x) d)
  settleAll (judgeGuarantee d.boot.coreGuaranteed d.boot.memGuaranteed d1)

/-- A run of bring-up fails. -/
def failRun (u : Nat) (d : Dev) : Dev :=
  if underL0 d then
    retireStart (⟨u, .testFailed, true⟩ :: (if unitClass u = 4 then
      (clusterCores (unitIndex u)).map (fun k => (⟨uCore k, .ownerLost, false⟩ : Loss)) else [])) d
  else orphansOf u (failUnit u .testFailed d)

/-- The wave's runs have ended, and cores of it wait for their runtime. -/
def waveWaits (die w : Nat) (d : Dev) : Bool :=
  let cs := waveClusters die w
  let ks := cs.flatMap clusterCores
  cs.all (fun i => inState ⟨.dieController, die⟩ [.off, .retired] d || unitDone (uSupervisor i) d)
    && ks.all (fun k => unitState (uCore k) d != .testing && !awaits (uCore k) d)
    && ks.any (fun k => starting (uCore k) .loading d)

/-- The die controller sends the runtime to a wave: four rows of its 16 columns (R354, R355). -/
def sendRuntime (die w : Nat) (d : Dev) : Dev :=
  let x := 16 * (die % 4)
  let y := 20 * (die / 4) + 4 * w
  relayFrom die x (x + 15) y (y + 3) kernelWindow (runtimeImage d) emptyPacket
    { d with boot := { d.boot with relayed := addOnce (5 * die + w) d.boot.relayed } }

/-- Sends the runtime to every wave that waits for it. -/
def settleWaves (d : Dev) : Dev :=
  (List.range 40).foldl (fun x n =>
    if !x.boot.relayed.contains n && waveWaits (n / 5) (n % 5) x then sendRuntime (n / 5) (n % 5) x else x) d

/-! ### Resets (R414 to R424) -/

/-- The level that RESET_MAP gives a source, 3 for NONE (R419). -/
def mappedLevel (source : Nat) (d : Dev) : Nat := if source = 0 then 2 else fieldOf d.fused.resetMap (2 * source + 1) (2 * source)

/-- The always-on record of an accepted reset (R424). -/
def stampReset (level source : Nat) (d : Dev) : Dev :=
  { d with
    always := { d.always with
      cause := 2 ^ 24 * source + 2 ^ 16 * level, count := (d.always.count + 1) % 65536,
      session := if level = 0 then d.always.session else (d.always.session + 1) % 65536, time := d.now }
    reset := { d.reset with
      level := some level, accepted := d.now, phase := if level = 0 then .draining else .asserted, driving := true,
      fellAt := none } }

/-- Cores that a compute reset reaches. -/
def coresReached (d : Dev) : List Nat := (List.range 2560).filter (fun k => usable (uCore k) d)

/-- A core's page at its reset values, OFF with cause RESET. -/
def resetPage (p : PageId) (d : Dev) : Dev := putPage p (freshPage .reset (fpGen d)) d

/-- Data that a message from a core had partly written to memory when a compute reset came is undefined (R417). -/
def spoilMemory (d : Dev) : Dev :=
  let l := (inFlight d).filter (fun o => (msgDesc o.2.desc).toMemory && (coresReached d).contains o.1)
  if l.isEmpty then d
  else
    let d1 := freeMemory (l.flatMap (fun o => (msgDesc o.2.desc).there)) d
    let spoil := fun (base : Nat) (ps : List Packet) => ps.zipIdx.map (fun x =>
      if x.1.kind = .putMem then
        { x.1 with payload := freeList x.1.payload.length { d1 with fresh := d1.fresh + base + 512 * x.2 } }
      else x.1)
    let n := 512 * d1.packets.length
    { d1 with
      fresh := d1.fresh + n + 512 * 4096 * 24
      packets := spoil 0 d1.packets
      memCtls := d1.memCtls.map (fun x => (x.1, { x.2 with held := spoil (n + 512 * 4096 * x.1) x.2.held })) }

/-- A compute reset is accepted: cores stop and take their reset values (R414, R415, R416). -/
def resetCompute (dev : Dev) : Dev :=
  let d := spoilMemory dev
  let ks := coresReached d
  let hit := fun k => ks.contains k
  let d1 := regsReset (fun r => r.ty == .core && hit r.inst) d
  let d2 := ks.foldl (fun x k => resetPage (pCore k) x) d1
  { d2 with
    cores := d2.cores.drop hit
    sram := d2.sram.filter (fun c => !hit (c.1 / 2 ^ 21))
    sramPoison := d2.sramPoison.filter (fun w => !hit (w / 2 ^ 17))
    boot := if d2.boot.complete then { d2.boot with relayed := [] } else { d2.boot with waves := [], relayed := [] } }

/-- What a module reset leaves of the management port: the pending event bits; no message, no address, no order, no open
scope (R418, R463, R483, and the reset values of R484). -/
def resetMgmt (m : Mgmt) : Mgmt := { freshMgmt with events := m.events, discarded := m.discarded, heard := m.heard }

/-- A module reset or cold reset: everything but what R414 keeps returns to its reset value. -/
def resetModule (level : Nat) (d : Dev) : Dev :=
  let flash := d.flash
  let power := if level = 2 then freshPower flash.ceilings flash.silenceTime flash.silenceCeiling
    else freshPower d.power.ceilings d.power.silenceTime d.power.silenceCeiling
  { Dev.atPowerOn d.fused flash d.pins.slotId d.pins.bivouacN d.coolant.ok with
    fresh := d.fresh
    now := d.now
    always := { d.always with leadSelect := none }
    reset := d.reset
    startCause := .reset
    fused := d.fused
    boot := { freshBoot with
      fuseError := level = 1 && d.boot.fuseError, lostFuses := if level = 1 then d.boot.lostFuses else [] }
    power := power
    sensors := d.sensors
    coolant := d.coolant
    mgmt := resetMgmt d.mgmt
    pins := { d.pins with alert := level = 1 && d.pins.alert }
    jtag := d.jtag }

/-- A reset is accepted (R422 to R425). -/
def acceptReset (level source : Nat) (d : Dev) : Dev :=
  let d1 := stampReset level source d
  settleAlert (if level = 0 then resetCompute d1 else resetModule level d1)

/-- The source of the reset accepted last. -/
def resetSource (d : Dev) : Nat := d.always.cause / 2 ^ 24

/-- Another source has asked in the instant of the acceptance: the two are one request (R423). -/
def sameInstant (source : Nat) (d : Dev) : Bool :=
  d.reset.level.isSome && d.reset.accepted == d.now && resetSource d != source && resetSource d != 0

/-- A request of the same instant joins the one accepted: at the same level RESET_CAUSE keeps the lower source. -/
def joinReset (level source : Nat) (d : Dev) : Dev :=
  { d with
    always := { d.always with
      cause := if d.reset.level = some level then 2 ^ 24 * min source (resetSource d) + 2 ^ 16 * level else d.always.cause } }

/-- A higher level of the same instant: one accepted reset, counted once. -/
def raiseLevel (level source : Nat) (d : Dev) : Dev :=
  acceptReset level source { d with
    always := { d.always with
      count := (d.always.count + 65535) % 65536
      session := if d.reset.level = some 0 then d.always.session else (d.always.session + 65535) % 65536 } }

/-- A source asks for a reset (R419, R423); in the safe state only RESET_N and power-on, beside DOUBLE_FAILURE itself, are
heard (R442). -/
def requestReset (source : Nat) (d : Dev) : Dev :=
  let l := mappedLevel source d
  if 3 ≤ l ∨ (d.lead.safe = true ∧ 2 < source) then d
  else match d.reset.level with
    | some p =>
      if sameInstant source d then (if l ≤ p then joinReset l source d else raiseLevel l source d)
      else if l ≤ p then bump (rReset 0x64) d
      else acceptReset l source d
    | none => acceptReset l source d

end Sys2Proof.Machine
end

