-- ==== Sys2Proof/Machine/Mesh.lean ====
section
/-!
DEFINITION. Messages: the messenger's starts (R111, R116 to R120), the delivery of packets (R176 to R185), the hop of a flit from
router to router (R171 to R174) and the windows that follow a retirement (R186).
-/

namespace Sys2Proof.Machine

/-! ### Starting messages -/

/-- MESSAGE_PUT: a PUT to a core or to memory (R117, R118). -/
def execMessagePut (core : Nat) (s : State) : Host.Outcome State Fault Refusal :=
  onDev (startMessage core (fun m => !m.get && decide (m.target ≤ 1))
    (fun c m => if m.target = 0 then putCoreMsg core c m else putMemMsg core c m)) s

/-- MESSAGE_GET (R117, R177). -/
def execMessageGet (core : Nat) (s : State) : Host.Outcome State Fault Refusal :=
  onDev (startMessage core (fun m => m.get) (fun c m => getMsg core c m)) s

/-- ROW_MULTICAST (R118, R183). -/
def execRowMulticast (core : Nat) (s : State) : Host.Outcome State Fault Refusal :=
  onDev (startMessage core (fun m => !m.get && m.target == 4) (fun c m => multicastMsg core c m true)) s

/-- COLUMN_MULTICAST (R118, R183). -/
def execColumnMulticast (core : Nat) (s : State) : Host.Outcome State Fault Refusal :=
  onDev (startMessage core (fun m => !m.get && m.target == 5) (fun c m => multicastMsg core c m false)) s

/-- COUNTER_MESSAGE (R118, R182). -/
def execCounterMessage (core : Nat) (s : State) : Host.Outcome State Fault Refusal :=
  onDev (startMessage core (fun m => !m.get && m.target == 3) (fun c m => counterMsg core c m)) s

/-- UPDATE_QUEUE_MESSAGE (R118, R235). -/
def execUpdateQueueMessage (core : Nat) (s : State) : Host.Outcome State Fault Refusal :=
  onDev (startMessage core (fun m => !m.get && m.target == 2) (fun c m => updateMsg core c m)) s

/-! ### Delivery -/

/-- Packet `n`, where it is of that kind and its way is open, taken out of the mesh: the flits whose hops no ROUTER_FLIT
reported have passed without error (log entry 77). -/
def takePacket (n : Nat) (kind : PacketKind) (f : Packet → Dev → Dev) (d : Dev) : Dev :=
  match d.packets[n]? with
  | some p => if p.kind = kind && reaches p d then f p { d with packets := d.packets.eraseIdx n } else d
  | none => d

/-- The packet goes to a core of the grid. -/
def toCore (p : Packet) : Bool := p.die.isNone && portAt p.dx p.dy == .localPort

/-- The packet goes to the west I/O die, whose DMA engines it answers (R181). -/
def toDma (p : Packet) : Bool := p.dx == 0x7F

/-- While a compute reset acts, packets to cores are discarded at their last router (R416). -/
def atCore (f : Nat → Packet → Dev → Dev) (p : Packet) (d : Dev) : Dev :=
  if resetActs .core d then d else f (coreAt p.dx p.dy) p d

/-- A COMPLETION reaches the source; one of a GET reports an end without data. -/
def takeCompletion (k : Nat) (p : Packet) (d : Dev) : Dev :=
  match findMsg (coreOf k d) p.msgId with
  | some c => answer k p.msgId p.place p.result p.detail (if (msgDesc c.desc).get then 0 else 1) d
  | none => d

/-- A core's answer to a relay reaches its die controller: a load that did not complete leaves the core OFF (R355). -/
def relayAnswered (p : Packet) (d : Dev) : Dev :=
  let u := uCore (coreAt p.sx p.sy)
  if p.result ≠ .done ∧ starting u .loading d then settleStart (failRun u d) else d

/-- An addition on the I/O die that the packet enters (R182); a die that is OFF or RETIRED adds nothing. -/
def addAtSide (p : Packet) (d : Dev) : Dev :=
  let side := if p.dx = 0x7F then 0 else 1
  if inState (pCounters side) [.off, .retired] d then sendPackets [answerTo p .failed 5] d
  else sendPackets [answerTo p .done 0] (counterAddN side p.address p.amount d)

/-- Records of a payload (R234); word i of it is record i. -/
def recordsOf (p : Packet) : List (Trigger × Bool) :=
  (List.range (p.payload.length / 16)).map (fun i =>
    let w := leAt p.payload (16 * i) 4
    (⟨fieldOf w 23 20, w % 2 ^ 18, leAt p.payload (16 * i + 4) 4, bitOf w 24⟩, p.poison.contains i))

/-- The controller whose edge router a coordinate names (R12, R167). -/
def controllerOf (x y : Nat) : Nat :=
  let k := x % 16
  3 * ((if y = 0x7F then 0 else 4) + x / 16) + (if k < 5 then 0 else if k < 11 then 1 else 2)

/-- Records of an UPDATE_QUEUE message reach an engine (R167, R235, R236). -/
def updateArrive (p : Packet) (d : Dev) : Dev :=
  let c := controllerOf p.dx p.dy
  if inState (pUpd c) [.off, .retired] d then sendPackets [answerTo p .failed 5] d
  else
    let b := landed (racedOf (senderOf p) p.msgId d) p.address p.payload d
    let d1 := (recordsOf { p with payload := b.1 }).foldl
      (fun x r => if r.2 then bump (rUpd c 0 0x64) x else takeTrigger c p.ctx r.1 x) b.2
    sendPackets [if p.poison = [] then answerTo p .done 0 else answerTo p .failed 1] d1

/-- PUT at its core (R176). -/
def execPut (n : Nat) (s : State) : Host.Outcome State Fault Refusal :=
  onDev (takePacket n .put (atCore (fun t p => arrive t p true 0))) s

/-- A memory request comes to its controller, which may hold it or leave it in the mesh (R207). -/
def deliverMem (n : Nat) (p : Packet) (d : Dev) : Dev := if reaches p d then memArrive n p d else d

/-- PUT_MEM at its controller (R176, R207). -/
def execPutMem (n : Nat) (s : State) : Host.Outcome State Fault Refusal :=
  onDev (fun d => match d.packets[n]? with
    | some p => if p.kind = .putMem then deliverMem n p d else d
    | none => d) s

/-- GET_REQ at a core or a controller (R177). -/
def execGetReq (n : Nat) (s : State) : Host.Outcome State Fault Refusal :=
  onDev (fun d => match d.packets[n]? with
    | some p => if p.kind ≠ .getReq then d
      else if toCore p then takePacket n .getReq (atCore getAtCore) d
      else deliverMem n p d
    | none => d) s

/-- GET_DATA at the requester: a core, or a DMA engine of the west I/O die (R177, R181). -/
def execGetData (n : Nat) (s : State) : Host.Outcome State Fault Refusal :=
  onDev (takePacket n .getData (fun p d => if toDma p then dmaData p d else atCore dataAtCore p d)) s

/-- COMPLETION at the source (R176): a core, a die controller or a DMA engine. -/
def execCompletion (n : Nat) (s : State) : Host.Outcome State Fault Refusal :=
  onDev (takePacket n .completion (fun p d =>
    if p.die.isSome then relayAnswered p d else if toDma p then dmaAnswer p d else atCore takeCompletion p d)) s

/-- COUNTER_ADD (R182). -/
def execCounterAdd (n : Nat) (s : State) : Host.Outcome State Fault Refusal := onDev (takePacket n .counterAdd addAtSide) s

/-- UPDATE_PUT (R235); a controller whose hold is full takes nothing from the mesh (R207). -/
def execUpdatePut (n : Nat) (s : State) : Host.Outcome State Fault Refusal :=
  onDev (takePacket n .updatePut (fun p d => if holdFull (controllerOf p.dx p.dy) d then sendPackets [p] d else updateArrive p d)) s

/-- A packet's whole run; while a compute reset acts its copies are discarded. -/
def deliverRun (p : Packet) (d : Dev) : Dev := if resetActs .core d then d else runDeliver p d

/-- MC_PUT: the whole run (R183, R184). -/
def execMcPut (n : Nat) (s : State) : Host.Outcome State Fault Refusal := onDev (takePacket n .mcPut deliverRun) s

/-- RELAY_PUT (R185). -/
def execRelayPut (n : Nat) (s : State) : Host.Outcome State Fault Refusal := onDev (takePacket n .relayPut deliverRun) s

/-! ### A flit's hop (R171 to R174) -/

def countResent (k : Nat) (d : Dev) : Dev :=
  let r := routerOf k d
  { d with routers := d.routers.set k { r with resent := min 255 (r.resent + 1) } }

/-- A word fails a router's check. -/
def fails (v : Verdict) : Bool := v == .uncorrectable

def corrects (v : Verdict) : Bool := match v with | .good c _ => c | _ => false

/-- The two words of flit `f` of a packet as a router's decoders find them. -/
def judgeFlit (p : Packet) (f : Nat) (e : FlitNoise) : Verdict × Verdict :=
  let bad := fun i => f != 0 && p.poison.contains i
  (judgeWord (bad (2 * f - 2)) e.word0, judgeWord (bad (2 * f - 1)) e.word1)

/-- What the check of a flit came to: the words as passed on, and what the router counted. -/
structure FlitResult where
  first : Verdict
  second : Verdict
  corrected : Nat
  resent : Bool

/-- The check, with one resend where a word fails (R171). -/
def checkFlit (p : Packet) (f : Nat) (once again : FlitNoise) : FlitResult :=
  let a := judgeFlit p f once
  let n := fun (v : Verdict × Verdict) => b2n (corrects v.1) + b2n (corrects v.2)
  if fails a.1 || fails a.2 then
    let b := judgeFlit p f again
    ⟨b.1, b.2, n a + n b, true⟩
  else ⟨a.1, a.2, n a, false⟩

/-- A word of the payload as it is passed on: poisoned where it failed again, else with what the word code let pass. On a branch
of a run the change is kept for the routers beyond `k`. -/
def passWord (k i : Nat) (branch : Bool) (v : Verdict) (p : Packet) : Packet :=
  if payWords p ≤ i then p
  else match v with
    | .good _ flips =>
      if flips.setWidth 128 = 0 then p
      else if branch then { p with hurt := p.hurt ++ [⟨k, i, some flips⟩] }
      else hurtAt k { p with hurt := [⟨k, i, some flips⟩], poison := p.poison.filter (· != i) }
    | .poisoned => p
    | .uncorrectable =>
      if branch then { p with hurt := p.hurt ++ [⟨k, i, none⟩] }
      else if p.poison.contains i then p else { p with poison := p.poison ++ [i] }

/-- A header flit as it is passed on, where neither word failed: errors that the word code let pass change its fields, and an
unlisted KIND counts as a failure (R170). -/
def passHeader (v w : Verdict) (p : Packet) : Option Packet :=
  match v, w with
  | .good _ a, .good _ b =>
    if a.setWidth 128 = 0 && b.setWidth 128 = 0 then some p
    else withHeader (headerWord0 p ^^^ a.setWidth 128) (headerWord1 p ^^^ b.setWidth 128) p
  | _, _ => none

/-- The flit's place at the receiving router: the packet with the hop that takes it, the flit's number, and whether the hop is a
branch of a run. -/
structure FlitHop where
  packet : Packet
  flit : Nat
  branch : Bool
deriving DecidableEq, Repr

/-- The hop of the receiving port, one flit further. -/
def advanceHop (k : Nat) (port : MeshPort) (p : Packet) : Packet :=
  match (List.range p.trail.length).find? (fun i => match p.trail[i]? with
      | some h => h.router == k && h.port == port && decide (h.got < flitCount p)
      | none => false) with
  | some i => { p with trail := p.trail.modify i (fun h => { h with got := h.got + 1 }) }
  | none => p

/-- Flits that stand ready to cross to a hop: what the hop before it has, all of them at the source. -/
def readyFor (p : Packet) (i : Nat) (h : MeshHop) : Nat :=
  if h.vc = .mc then
    match nextRouter h.router h.port with
    | some up => (p.trail.filter (fun x => x.router == up && (x.vc == .mc || up == routerAt p.dx p.dy))).foldl (fun n x => max n x.got) 0
    | none => 0
  else match p.trail[i + 1]? with
    | some x => x.got
    | none => flitCount p

/-- The next flit of a packet whose header has passed: there is one to cross, and a free place in the channel's buffer (R172). -/
def bodyHop (k : Nat) (port : MeshPort) (p : Packet) (d : Dev) : Option FlitHop :=
  (buffered p d).zipIdx.findSome? (fun b =>
    let h := b.1.1
    if h.router == k && h.port == port && h.got < flitCount p && h.got < readyFor p b.2 h && b.1.2 < 4 then
      some ⟨p, h.got, h.vc == .mc⟩
    else none)

/-- The header's hop: into the mesh at its source, along its way, or along its run on MC (R173, R174, R183). -/
def headHop (k : Nat) (port : MeshPort) (p : Packet) (d : Dev) : Option FlitHop :=
  let into := fun (vc : Vc) (q : Packet) (branch : Bool) =>
    (⟨{ q with trail := ⟨k, port, vc, 0⟩ :: q.trail }, 0, branch⟩ : FlitHop)
  match p.trail with
  | [] =>
    if k == routerAt p.sx p.sy && port == portAt p.sx p.sy && mayInject p d then
      let space := fun (_ : MeshPort) vc => freeSpace k port (isResponse p.kind) vc d
      (mostFree space [(port, .a0), (port, .a1)]).map (fun c => into c.2 p false)
    else none
  | h :: _ =>
    if runsOn p && (atLast p || p.trail.any (fun x => x.vc == .mc)) then
      let from_ := p.trail.any (fun x => (x.vc == .mc || x.router == routerAt p.dx p.dy) && decide (0 < x.got)
        && !p.cutAt.contains x.router && (onward p x.router d).contains (k, port))
      if from_ && gotAt p k port == 0 && freeSpace k port false .mc d != 0 then some (into .mc p true) else none
    else if atLast p || h.got == 0 then none
    else match nextMove h.router h.vc p (spaceAround h.router (isResponse p.kind) d) d with
      | some m =>
        if nextRouter h.router m.port = some k ∧ otherEnd m.port = port then some (into m.vc m.packet false) else none
      | none => none

/-- The router has passed the whole packet on: its hop is done with. -/
def pruneTrail (p : Packet) (d : Dev) : Packet :=
  if runsOn p then p
  else { p with trail := ((buffered p d).zipIdx.filter (fun b =>
    b.2 == 0 || !(b.1.1.got == flitCount p && b.1.2 == 0))).map (fun b => b.1.1) }

/-- A header that failed again: the packet, or the branch of its run, is discarded, and the link is reported and retired (R171);
the local port's link is no unit of the floor plan. -/
def headerLost (k : Nat) (port : MeshPort) (n : Nat) (h : FlitHop) (d : Dev) : Dev :=
  let d1 := if h.branch then { d with packets := d.packets.set n { h.packet with cutAt := h.packet.cutAt ++ [k] } }
    else { d with packets := d.packets.eraseIdx n }
  match linkOfPort k port with
  | some u => retireUnit u .selfFault d1
  | none => d1

/-- A router receives the next flit of packet `n` at a port: it checks both words, and keeps the flit in the channel's buffer. -/
def receiveFlit (k : Nat) (port : MeshPort) (n : Nat) (h : FlitHop) (once again : FlitNoise) (d : Dev) : Dev :=
  let r := checkFlit h.packet h.flit once again
  let d1 := countCorrected k r.corrected (if r.resent then countResent k d else d)
  let keep := fun q => { d1 with packets := d1.packets.set n (pruneTrail (advanceHop k port q) d1) }
  if h.flit = 0 then
    match passHeader r.first r.second h.packet with
    | some q => keep q
    | none => headerLost k port n h d1
  else keep (passWord k (2 * h.flit - 1) h.branch r.second (passWord k (2 * h.flit - 2) h.branch r.first h.packet))

/-- The next flit of packet `n` crosses to a router, where that router is usable and the flit can come. -/
def routerFlit (k : Nat) (port : MeshPort) (n : Nat) (once again : FlitNoise) (d : Dev) : Dev :=
  match d.packets[n]? with
  | none => d
  | some p =>
    if 2560 ≤ k ∨ usable (uRouter k) d = false ∨ linkUsable k port d = false then d
    else match bodyHop k port p d with
      | some h => receiveFlit k port n h once again d
      | none => match headHop k port p d with
        | some h => receiveFlit k port n h once again d
        | none => d

/-- ROUTER_FLIT (R171): the noise of the flit as first sent, and as sent once more. -/
def execRouterFlit (router : Nat) (port : MeshPort) (n : Nat) (first second : FlitNoise) (s : State) :
    Host.Outcome State Fault Refusal := onDev (routerFlit router port n first second) s

/-! ### The windows after a retirement (R186) -/

/-- An incomplete entry opened under a lower generation, 1 ms after the retirement. -/
def staleArrival (d : Dev) (a : Arrival) : Bool := a.opened && !arrivalFull a && windowPassed a.openGen 1000000 d

/-- A target frees its stale entries: no flag, a COMPLETION with FAILED goes back, and what they wrote is undefined. -/
def freeEntries (t : Nat) (d : Dev) : Dev :=
  if coreTakes t d = false then d
  else
    let stale := (coreOf t d).arrivals.filter (staleArrival d)
    let d1 := freeBytes t (stale.flatMap (·.wrote))
      (modCore t (fun c => { c with arrivals := c.arrivals.filter (fun a => !staleArrival d a) }) d)
    let d2 := sendPackets (stale.map (fun a => completionPacket a.source a.msgId a.place t .failed 5)) d1
    applyOutcomes (coreOf t d2).arrivals.length t d2

/-- TARGET_ENTRY_TIMEOUT (R186). -/
def execTargetEntryTimeout (core : Nat) (s : State) : Host.Outcome State Fault Refusal := onDev (freeEntries core) s

/-- A message started under a lower generation that has not ended, 2 ms after the retirement. -/
def staleMessage (d : Dev) (c : EngCmd) : Bool := c.started && c.ended.isNone && windowPassed c.startGen 2000000 d

/-- The entries of an ended message that no packet has opened are gone: what its source started later goes on (R179). -/
def dropExpected (k id : Nat) (d : Dev) : Dev :=
  (d.cores.filter (fun x => x.2.arrivals.any (fun a => a.source == k && a.msgId == id && !a.opened))).foldl (fun x t =>
    let y := modCore t.1 (fun c => { c with arrivals := c.arrivals.filter (fun a => !(a.source == k && a.msgId == id && !a.opened)) }) x
    applyOutcomes (coreOf t.1 y).arrivals.length t.1 y) d

/-- Data that an ended message wrote is undefined. -/
def spoilTarget (k : Nat) (m : MsgDesc) (d : Dev) : Dev :=
  if m.get then freeBytes k m.here d
  else if m.toMemory then freeMemory m.there d
  else (m.cores.filter (fun t => coreTakes t d)).foldl (fun x t => freeBytes t m.there x) d

/-- A source ends its stale messages with FAILED and TARGET_UNUSABLE. -/
def endStale (k : Nat) (d : Dev) : Dev :=
  ((engineOf (coreOf k d) 2).cmds.filter (staleMessage d)).foldl (fun x c =>
    endWork k 2 c.ticket .failed 5 (dropExpected k c.msgId (spoilTarget k (msgDesc c.desc) x))) d

/-- SOURCE_MESSAGE_TIMEOUT (R186). -/
def execSourceMessageTimeout (core : Nat) (s : State) : Host.Outcome State Fault Refusal := onDev (endStale core) s

end Sys2Proof.Machine
end

