-- ==== Sys2Proof/Machine/Resets.lean ====
section
/-!
DEFINITION. The commands of resets (R414 to R424): requests, RESET_N, the drain of the mesh, and the end of a compute reset.
-/

namespace Sys2Proof.Machine

/-- A request for a level meets a reset in progress that is as high (R420, R423). -/
def mergesWith (source : Nat) (d : Dev) : Bool :=
  match d.reset.level with | some p => decide (mappedLevel source d ≤ p) | none => false

def cmdRequestReset (arg : Nat) (d : Dev) : Dev :=
  let source := 3 + arg % 4
  pageCommand pReset 0x40 arg true (inState pReset [.ready] d && (decide (1 < arg % 4) || !mergesWith source d))
    (decide (arg % 4 ≤ 1) && mappedLevel source d != 3) (requestReset source) d

/-- REQUEST_RESET (R420). -/
def execRequestReset (arg : Nat) (s : State) : Host.Outcome State Fault Refusal := onDev (cmdRequestReset arg) s

def setReset (f : ResetCtl → ResetCtl) (d : Dev) : Dev := { d with reset := f d.reset }

/-- The module ignores its own input while it drives RESET_N and for 50 µs after (R422). -/
def pinIgnored (d : Dev) : Bool := d.reset.driving || decide (d.now < d.reset.releasedAt + 50000)

/-- RESET_N_FALL (R421). -/
def execResetNFall (s : State) : Host.Outcome State Fault Refusal :=
  onDev (fun d => setReset (fun r => { r with
    pinHigh := false
    fellAt := if pinIgnored d then none else some d.now }) d) s

/-- The low level has lasted 10 µs (R421). -/
def acceptPin (d : Dev) : Dev :=
  if d.reset.fellAt.any (fun t => decide (10000 ≤ d.now - t)) && !d.reset.pinHigh && !d.reset.pinTaken && !pinIgnored d then
    setReset (fun r => { r with pinTaken := true }) (requestReset 1 (setReset (fun r => { r with fellAt := none }) d))
  else d

/-- PIN_RESET (R421). -/
def execPinReset (s : State) : Host.Outcome State Fault Refusal := onDev acceptPin s

/-- A packet to an edge block. -/
def forEdge (p : Packet) : Bool := p.die.isNone && portAt p.dx p.dy != .localPort

/-- A packet that the drain takes to its edge block; what goes to cores is discarded at its last router, and what an edge block
holds stays (R416). -/
def drainPacket (d : Dev) (p : Packet) : Dev :=
  if !forEdge p then d
  else if p.heldBack then { d with packets := d.packets ++ [p] }
  else match p.kind with
    | .putMem | .getReq => memArrive d.packets.length p { d with packets := d.packets ++ [p] }
    | .counterAdd => addAtSide p d
    | .updatePut => updateArrive p d
    | .getData => dmaData p d
    | .completion => dmaAnswer p d
    | _ => d

/-- The mesh has drained; packets to edge blocks that have no room for them, and those that edge blocks hold, wait. -/
def drainMesh (d : Dev) : Dev :=
  if d.reset.level = some 0 ∧ d.reset.phase = .draining then
    let d1 := d.packets.foldl drainPacket { d with packets := [] }
    setReset (fun r => { r with phase := .asserted }) { d1 with packets := d1.packets.filter forEdge }
  else d

/-- MESH_DRAINED (R416). -/
def execMeshDrained (s : State) : Host.Outcome State Fault Refusal := onDev drainMesh s

/-- Routers, links and supervisors that a compute reset reaches go to OFF with cause RESET, and the mesh test begins (R415,
R416). -/
def startCompute (d : Dev) : Dev :=
  let off := fun (x : Dev) u => if usable u d then setUnit u .off .reset x else x
  let test := fun (x : Dev) u => if usable u d then setUnit u .testing .reset x else x
  let d1 := ((List.range 160).map uSupervisor ++ meshUnits).foldl off d
  let d2 := meshUnits.foldl test d1
  setReset (fun r => { r with phase := .starting }) { d2 with
    routers := []
    boot := { d2.boot with meshTested := false }
    lead := { d2.lead with watchFrom := d2.now, missed := d2.lead.missed.drop (fun k => decide (k < 160)), heard := d2.lead.heard.drop (fun k => decide (k < 160)) } }

/-- RESET_N is no longer held: the blocks of a compute reset start again, and the ROM of another may. -/
def pinFree (d : Dev) : Dev :=
  if d.reset.level = some 0 then startCompute d else setReset (fun r => { r with phase := .asserted }) d

/-- The reset in progress stands with its blocks in reset. -/
def heldInReset (d : Dev) : Bool :=
  d.reset.level.isSome && (d.reset.phase == .asserted || d.reset.phase == .pinHeld)

/-- The reset in progress is a power-on, which holds RESET_N until the ROM starts (R422). -/
def atPowerOn (d : Dev) : Bool := d.always.cause / 2 ^ 24 == 0

/-- 2 ms have passed since the acceptance (R422). -/
def releasePin (d : Dev) : Dev :=
  if heldInReset d && d.reset.driving && !atPowerOn d && decide (2000000 ≤ d.now - d.reset.accepted) then
    let d1 := setReset (fun r => { r with driving := false, releasedAt := d.now }) d
    if d1.reset.pinHigh then pinFree d1 else d1
  else d

/-- RESET_N_RELEASE (R422). -/
def execResetNRelease (s : State) : Host.Outcome State Fault Refusal := onDev releasePin s

/-- RESET_N_HELD_BY_TRAY (R422): the blocks stay in reset until the pin rises. -/
def execResetNHeldByTray (s : State) : Host.Outcome State Fault Refusal :=
  onDev (fun d => if heldInReset d && !pinIgnored d && !d.reset.pinHigh then
    setReset (fun r => { r with phase := .pinHeld }) d else d) s

/-- The pin rises; EXTEST drives no pin from then on (R500). -/
def risePin (d : Dev) : Dev :=
  let d1 := setReset (fun r => { r with pinHigh := true, pinTaken := false, fellAt := none })
    { d with jtag := { d.jtag with drives := false } }
  if heldInReset d && !d.reset.driving && !d.reset.pinHigh then pinFree d1 else d1

/-- RESET_N_RISE (R422). -/
def execResetNRise (s : State) : Host.Outcome State Fault Refusal := onDev risePin s

/-- Every core of the compute reset is READY, or has failed its run (R416). -/
def recovered (d : Dev) : Bool :=
  d.reset.level == some 0 && d.reset.phase == .starting && d.boot.meshTested
    && (List.range 2560).all (fun k => !unsettled (uCore k) d)

def finishRecovery (d : Dev) : Dev :=
  if recovered d then
    endCmdIf pReset 0x40 true (raise pReset 17 (wr (rReset 0x60) ((d.now - d.reset.accepted) / 1000000)
      (setReset (fun r => { r with level := none }) d)))
  else d

/-- RECOVERY_DONE (R416, R423). -/
def execRecoveryDone (s : State) : Host.Outcome State Fault Refusal := onDev finishRecovery s

end Sys2Proof.Machine
end

