-- ==== Sys2Proof/Machine/BringUp.lean ====
section
/-!
DEFINITION. Input power, the ROM, and bring-up (R349 to R367, R493): runs, the mesh test, core waves and retirement.
-/

namespace Sys2Proof.Machine

/-! ### Firmware (R350, R475, R478, R480) -/

/-- The seven BOOT entries of the measurement log. -/
def bootLog (f : Flash) (now : Nat) : List LogEntry :=
  [1, 2, 3, 4, 5, 6, 7].map (fun k =>
    { event := 0, part := k, svn := partSvn f.active.manifest k, time := now, hash := partHash f.active.manifest k })

/-- Writes a commit record in the slot that does not hold the latest one. -/
def writeCommit (st : Nat) (hash : List Byte) (f : Flash) : Flash :=
  let c : Commit := ⟨(latestCommit f).sequence + 1, st, hash⟩
  if f.commit0.sequence < f.commit1.sequence then { f with commit0 := c } else { f with commit1 := c }

/-- Staging is copied over the active set. -/
def copyStaging (f : Flash) : Flash :=
  match f.staged with
  | some s => { f with active := s }
  | none => f

/-- Step 4 of R350: an activation that INTENT left open is completed from staging; staging also serves where the active set
does not verify. -/
def rollForward (r : RomResults) (f : Flash) : Flash :=
  if (latestCommit f).state = 1 ∧ f.staged.isSome ∧ r.stagingVerifies then writeCommit 2 (latestCommit f).hash (copyStaging f)
  else if !r.activeVerifies ∧ r.stagingVerifies then copyStaging f
  else f

/-- The set that is verified at step 5, or staging, verifies. -/
def someSetVerifies (r : RomResults) (f : Flash) : Bool := r.activeVerifies || (r.stagingVerifies && f.staged.isSome)

/-- A stored setting whose FORMAT differs from the schema's. -/
def settingStale (f : Flash) (key : Nat) : Bool :=
  match f.formats.find? (fun e => e.1 == key) with
  | some e => e.2 != Config.schemaFormat (releaseOf f.active.manifest) key
  | none => false

/-- A setting at its default. -/
def defaultSetting (variant : Nat) (key : Nat) (f : Flash) : Flash :=
  let g := { f with formats := f.formats.filter (fun e => e.1 != key) }
  match key with
  | 1 => { g with ceilings := defaultCeilings (designPower variant) }
  | 2 => { g with silenceTime := 0, silenceCeiling := 0 }
  | _ => { g with mapLocal := 0 }

abbrev pView : PageId := ⟨.managementView, 0⟩

/-- The check of the stored settings against the schema (R478). -/
def checkSettings (d : Dev) : Dev :=
  let stale := [1, 2, 3].filter (settingStale d.flash)
  if stale.isEmpty then d
  else
    mgmtEvent 8 (raise pView 20 (modMgmt (fun m => { m with settingsReset := m.settingsReset + stale.length })
      { d with flash := stale.foldl (fun f k => defaultSetting (variantOf d) k f) d.flash }))

/-! ### Orders (R445, R460) -/

/-- A management order runs. -/
def orderRuns (d : Dev) : Bool := d.mgmt.orderState == 1

/-- A long order of that kind ends. -/
def endOrder (kind : Nat) (ok : Bool) (d : Dev) : Dev :=
  if orderRuns d && d.mgmt.orderKind == kind then
    mgmtEvent 7 (raise pView 18 (modMgmt (fun m => { m with orderState := if ok then 2 else 3 }) d))
  else d

/-! ### The bad set (R351, R352, R360) -/

/-- Units that a variant fuses off. -/
def variantUnits (variant : Nat) : List Nat :=
  ((List.range 24).map uController ++ (List.range 384).map uChannel ++ (List.range 24).map uEngine
    ++ (List.range 48).map uPort ++ (List.range 48).map uNetwork ++ (List.range 6).map uOptical).filter (variantFused variant)

/-- A unit of the bad set is held OFF: PAGE_STATE changes, its STATE does not (log entry 74). -/
def holdOff (u : Nat) (c : Cause) (d : Dev) : Dev := setUnit u .off c d

def holdBadSet (d : Dev) : Dev :=
  let fused := (variantUnits (variantOf d) ++ d.fused.manufacture ++ d.boot.lostFuses).filter unitExists
  let listed := (d.boot.cairnRead.filter unitExists).filter (fun u => unitClass u != 0xD && !isFused u d)
  let d1 := listed.foldl (fun x u => holdOff u .cairn x) (fused.foldl (fun x u => holdOff u .fused x) d)
  (fused ++ listed).foldl (fun x u => orphansOf u x) d1

/-! ### The ROM (R350, R351) -/

abbrev pComplex (i : Nat) : PageId := ⟨.controlComplex, i⟩

def complexOf (i : Nat) (d : Dev) : Complex := d.complexes.get ⟨.none_, 0, 0⟩ i
def putComplex (i : Nat) (c : Complex) (d : Dev) : Dev := { d with complexes := d.complexes.set i c }
def setRole (i : Nat) (r : Role) (d : Dev) : Dev := putComplex i { complexOf i d with role := r } d

def romPasses (r : RomResults) (i : Nat) : Bool := if i = 0 then r.westPasses else r.eastPasses

/-- The complex that becomes the lead: the default if it passed, else the other. One that the cairn record lists counts as
one that failed (R435). -/
def chooseLead (r : RomResults) (d : Dev) : Option Nat :=
  let a := d.fused.defaultLead % 2
  let good := fun i => romPasses r i && !inCairn (uComplex i) d
  if good a then some a else if good (1 - a) then some (1 - a) else none

/-- A complex that runs the control firmware of the set that loads read. -/
def loadComplex (i : Nat) (role : Role) (d : Dev) : Dev :=
  let m := (loadSet d.flash).manifest
  putComplex i ⟨role, releaseOf m, partCompat m 1⟩ d

/-- The ROM's self-test is a complex's known-answer run; control firmware is then loaded (R33, R350). -/
def testComplex (i : Nat) (d : Dev) : Dev := setState (pComplex i) .testing d.startCause d
def loadTested (i : Nat) (role : Role) (d : Dev) : Dev :=
  setState (pComplex i) .loading d.startCause (loadComplex i role (testComplex i d))

/-- The other complex rejoins, or takes no part. -/
def startOther (r : RomResults) (i : Nat) (d : Dev) : Dev :=
  if !romPasses r i then setState (pComplex i) .off .testFailed (markFailed (uComplex i) (testComplex i d))
  else if inCairn (uComplex i) d then setState (pComplex i) .off .cairn d
  else loadTested i .rejoining d

/-- The lead's control firmware runs: its page is READY, and ACTIVE with its work (R33, R507). -/
def startLead (i : Nat) (d : Dev) : Dev :=
  setState (pComplex i) .active .work (setState (pComplex i) .ready .testPassed (loadTested i .lead d))

/-- PAGE_VERSION of every block type is the firmware's that starts (R51). -/
def loadVersions (d : Dev) : Dev :=
  let r := releaseOf (loadSet d.flash).manifest
  if r = 0 then { d with versions := [] } else { d with versions := allTypes.map (fun t => (t, versionIn r t)) }

/-- COOLANT_OK that reads low when the ROM starts counts as a drop (R498). -/
def dropAtStart (d : Dev) : Dev := if d.coolant.ok || d.coolant.dropAt.isSome then d else acceptDrop d

/-- Step 6 of R350, and what control firmware does as it starts (R358, R360, R362, R394, R478, R498). -/
def startFirmware (r : RomResults) (lead : Nat) (d : Dev) : Dev :=
  let d0 := startOther r (1 - lead) (startLead lead (loadVersions d))
  let d1 := setState pModule .testing d.startCause { d0 with
    boot := { d0.boot with phase := .running }
    lead := { d0.lead with watchFrom := d.now, beaconAt := d.now, cycleEnd := d.now, recordAt := d.now }
    always := { d0.always with leadSelect := some lead } }
  let d2 := if r.cairnOk then d1 else
    mgmtEvent 9 (raise pModule 20 (wr (rModule 0x5C) (orBit (rd (rModule 0x5C) d1) 8)
      { d1 with flash := { d1.flash with cairn := [] } }))
  let d3 := if r.trimOk then d2 else mgmtEvent 10 { d2 with flash := { d2.flash with trims := [] } }
  let d4 := checkSettings d3
  let f := d4.flash
  let d5 := if d.reset.level = some 2 then modPower (fun p => { p with
      ceilings := f.ceilings, silenceTime := f.silenceTime, silenceCeiling := f.silenceCeiling }) d4 else d4
  let d6 := holdBadSet { d5 with boot := { d5.boot with cairnRead := d5.flash.cairn.map (·.unit) } }
  let d7 := dropAtStart d6
  settleLimit (settleAlert (modMgmt (fun m => { m with heard := d.now }) d7))

/-- Bivouac mode, or no control complex at all; the reset has then done what it can. -/
def endBoot (phase : BootPhase) (lead : Option Nat) (d : Dev) : Dev :=
  let d1 := match lead with | some i => setRole i .lead d | none => d
  settleAlert (dropAtStart { d1 with
    boot := { d1.boot with phase := phase }
    always := { d1.always with leadSelect := lead }
    reset := { d1.reset with level := none } })

/-- A module or cold reset stands, and RESET_N is free. -/
def romReady (d : Dev) : Bool :=
  d.boot.phase == .waiting && d.reset.phase == .asserted && (d.reset.level == some 1 || d.reset.level == some 2)
    && (atPowerOn d || !d.reset.driving)

/-- A power-on whose RESET_N the tray holds low: the pin is released, and the start waits for its rise (R422). -/
def romWaits (d : Dev) : Bool := atPowerOn d && d.reset.driving && !d.reset.pinHigh

/-- RESET_N is released, the fuses are read, and the activation is rolled forward. -/
def romPrepare (r : RomResults) (fuses : Fuses) (d : Dev) : Dev :=
  let cold := d.reset.level == some 2
  { d with
    reset := { d.reset with
      phase := .starting, driving := false, releasedAt := if d.reset.driving then d.now else d.reset.releasedAt }
    pins := { d.pins with powerGood := true, slotId := if cold && !atPowerOn d then r.slotId else d.pins.slotId }
    fused := if cold then fuses else d.fused
    boot := if cold then { d.boot with fuseError := !r.variantFuseOk, lostFuses := r.failedFuseUnits } else d.boot
    flash := rollForward r d.flash }

/-- The control firmware starts. -/
def romStarts (r : RomResults) (d : Dev) : Bool :=
  someSetVerifies r d.flash && (chooseLead r d).isSome && (!atPowerOn d || d.pins.bivouacN)

def romBoot (r : RomResults) (fuses : Fuses) (d : Dev) : Dev :=
  let d1 := romPrepare r fuses d
  match chooseLead r d1 with
  | none => endBoot .dead none d1
  | some lead => if romStarts r d then startFirmware r lead d1 else endBoot .bivouac (some lead) d1

def releaseOnly (d : Dev) : Dev :=
  { d with reset := { d.reset with phase := .pinHeld, driving := false, releasedAt := d.now } }

/-- ROM_START (R350, R351, R422, R479, R480). What the self-tests, hashes and fuse words give is an operand. -/
def execRomStart (r : RomResults) (s : State) : Host.Outcome State Fault Refusal :=
  let d := s.dev
  if d.boot.phase = .unpowered ∨ romReady d = false then .next s
  else if romWaits d then .next { s with dev := releaseOnly d }
  else
    let f := rollForward r d.flash
    .next { s with
      mlog := if someSetVerifies r d.flash && (!atPowerOn d || d.pins.bivouacN) then bootLog f d.now else []
      dev := romBoot r s.fuses d }

/-! ### Input power (R493) -/

/-- Everything but fuses and flash as at a power-on, the counter of free values apart. -/
def repower (fuses : Fuses) (flash : Flash) (slotId : Nat) (bivouacN coolantOk : Bool) (d : Dev) : Dev :=
  { Dev.atPowerOn fuses flash slotId bivouacN coolantOk with fresh := d.fresh }

/-- POWER_ON (R349, R493). -/
def execPowerOn (pins : PinLevels) (s : State) : Host.Outcome State Fault Refusal :=
  if s.dev.boot.phase = .unpowered then
    .next { s with
      mlog := []
      dev := repower s.fuses { s.dev.flash with powerOns := s.dev.flash.powerOns + 1 } pins.slotId pins.bivouacN pins.coolantOk
        s.dev }
  else .next s

/-- INPUT_DIP (R493): ridden through. -/
def execInputDip (s : State) : Host.Outcome State Fault Refusal := .next s

/-- All rails stop, and every state but that of fuses and flash is lost. -/
def loseInput (s : State) : State :=
  let d := repower s.fuses s.dev.flash s.dev.pins.slotId s.dev.pins.bivouacN s.dev.coolant.ok s.dev
  { s with
    mlog := []
    dev := { d with boot := { d.boot with phase := .unpowered } } }

/-- POWER_LOSS (R493, R496). -/
def execPowerLoss (s : State) : Host.Outcome State Fault Refusal := .next (loseInput s)

/-- OVERVOLTAGE (R493): acts as a power loss. -/
def execOvervoltage (s : State) : Host.Outcome State Fault Refusal := .next (loseInput s)

/-! ### Die controllers (R349, R353, R371) -/

/-- Bring-up goes on: control firmware runs, and no coolant stop holds it (R402). -/
def bringsUp (d : Dev) : Bool := d.boot.phase == .running && !d.lead.safe && !coolantStopped d

def startUnit (u : Nat) (st : PState) (d : Dev) : Dev := if awaits u d then stepUnit u st d else d

/-- A page without a unit code goes into bring-up, with its cause. -/
def startPage (p : PageId) (st : PState) (d : Dev) : Dev := if pageAwaits p d then setState p st (pageOf p d).cause d else d

/-- The start-up test of a die begins. Of the pages without unit codes, QUEUE_POOL and REDUCTION have runs (R353); the others
go from OFF to READY with their side, and Luawick trains (R33). -/
def startDie (die : Nat) (d : Dev) : Dev :=
  let i := die - 8
  if die < 8 then
    let mesh := (dieUnits die).filter (fun u => unitClass u == 2 || unitClass u == 3)
    let ctls := (List.range 3).map (fun k => 3 * die + k)
    (mesh ++ ctls.map uController ++ ctls.map uEngine).foldl (fun x u => startUnit u .testing x) d
  else
    let d1 := (dieUnits die).foldl (fun x u =>
      match unitClass u with
      | 0x8 => startUnit u .training x
      | 0xA => if awaits u x then setUnit u .ready .testPassed x else x
      | _ => startUnit u .testing x) d
    let d2 := [pPool i, pRed i].foldl (fun x p => startPage p .testing x) d1
    if i = 0 then startPage pLua .training d2 else d2

def releaseDie (die : Nat) (passed : Bool) (d : Dev) : Dev :=
  if decide (10 ≤ die) || !bringsUp d || d.always.hardTrip || !awaits (uDie die) d then d
  else if passed then
    settleStart (startDie die (stepUnit (uDie die) .testing
      (wr (rDie die 0 0x44) (putField (rd (rDie die 0 0x44) d) 3 0 3) d)))
  else settleStart (orphanDie die (failUnit (uDie die) .testFailed d))

/-- DIE_CONTROLLER_RELEASE (R349, R361). -/
def execDieControllerRelease (d : Nat) (passed : Bool) (s : State) : Host.Outcome State Fault Refusal :=
  onDev (releaseDie d passed) s

/-! ### Runs (R353, R357, R358, R415) -/

/-- A unit without a page comes into use. -/
def readyUnit (u : Nat) (d : Dev) : Dev :=
  match unitPage u with
  | some p => becomeReady p .testPassed d
  | none => setUnit u .ready .testPassed d

/-- Trains the channels of a controller that bring-up holds; a controller with none left has failed its training. -/
def trainController (c : Nat) (d : Dev) : Dev :=
  let ns := ((List.range 16).map (fun j => 16 * c + j)).filter (fun n => awaits (uChannel n) d)
  if ns.isEmpty then orphansOf (uController c) (failUnit (uController c) .trainingFailed d)
  else ns.foldl (fun x n => stepUnit (uChannel n) .training x) (stepUnit (uController c) .training d)

/-- What a run that passed at bring-up leads to. -/
def passRun (u : Nat) (d : Dev) : Dev :=
  let i := unitIndex u
  match unitClass u with
  | 0x1 => afterStartRun i (stepUnit u .loading d)
  | 0x4 => (clusterCores i).foldl (fun x k => if usable (uRouter k) x then startUnit (uCore k) .testing x else x) (readyUnit u d)
  | 0x5 => trainController i d
  | 0x7 => stepUnit u .loading d
  | _ => readyUnit u d

/-- Counts a run of the unit's die. -/
def countRun (u : Nat) (passed : Bool) (d : Dev) : Dev :=
  let die := dieOfUnit u
  let d1 := addWrap (rDie die 0 0x48) 1 d
  if passed then d1 else addWrap (rDie die 0 0x4C) 1 d1

/-- The run of a RETEST ends (R37, R134, R213, R243). -/
def endRetest (u : Nat) (p : PageId) (passed : Bool) (d : Dev) : Dev :=
  if passed then
    let d1 := if p.ty = .core then afterRetest p.inst d else d
    endCmdIf p 3 true (becomeReady p .testPassed d1)
  else retireUnit u .testFailed (endCmdIf p 3 false d)

/-- One reduction unit of a RETEST of its page has had its run (R346). -/
def endReduction (u : Nat) (passed : Bool) (d : Dev) : Dev :=
  let side := unitIndex u / 8
  let d1 := { d with boot := { d.boot with retesting := d.boot.retesting.filter (· != u) } }
  let d2 := if passed then d1 else retireUnit u .testFailed d1
  let rest := d2.boot.retesting.filter (fun x => unitIndex x / 8 == side)
  if rest.isEmpty && stateOf (pRed side) d2 == .testing then
    let ok := (List.range 8).any (fun k => usable (uReduction (8 * side + k)) d2)
    endCmdIf (pRed side) 3 ok (becomeReady (pRed side) .testPassed d2)
  else d2

/-- Classes with known-answer runs of their own. -/
def hasRun (u : Nat) : Bool :=
  unitExists u && [0x1, 0x4, 0x5, 0x7, 0x9, 0xB].contains (unitClass u)

/-- Runs that belong to a compute reset wait for it (R416). -/
def runMayEnd (u : Nat) (d : Dev) : Bool :=
  bringsUp d && (d.reset.phase == .starting || (unitClass u != 1 && unitClass u != 4))

/-- Firmware decides: the end of a RETEST also under a coolant stop (R213). -/
def decides (d : Dev) : Bool := d.boot.phase == .running && !d.lead.safe

/-- Errors that a run corrected are counted where the unit counts such errors: a core's SRAM words, a reduction unit's staging
words (R353). -/
def countRunErrors (u corrected : Nat) (d : Dev) : Dev :=
  match unitClass u with
  | 0x1 => addSat (rCore (unitIndex u) 0xC0) corrected d
  | 0xB => addSat (rRed (unitIndex u / 8) 0x44) corrected d
  | _ => d

def endRun (u : Nat) (passed : Bool) (corrected : Nat) (d0 : Dev) : Dev :=
  if !hasRun u || !decides d0 then d0 else
  let d := if unitState u d0 = .testing then countRunErrors u corrected d0 else d0
  if unitClass u = 0xB ∧ d.boot.retesting.contains u then endReduction u passed d
  else if starting u .testing d then
    if runMayEnd u d then settleStart (settleWaves ((if passed then passRun u else failRun u) (countRun u passed d))) else d
  else match unitPage u with
    | some p => if stateOf p d = .testing then settleStart (endRetest u p passed d) else d
    | none => d

/-- KNOWN_ANSWER_RUN_END (R353, R354); a core of a compute reset may start a new runtime (R476). -/
def execKnownAnswerRunEnd (unit : Nat) (outcome : RunOutcome) (s : State) : Host.Outcome State Fault Refusal :=
  onDevPart 3 (fun d => unitClass unit == 1 && outcome.passed && hasRun unit && runMayEnd unit d && starting unit .testing d)
    (endRun unit outcome.passed outcome.corrected) s

/-! ### The mesh test and the core waves (R354 to R356, R416) -/

/-- The core of a router that is OFF, and a core that no detour reaches (R356). -/
def coreWithoutRoute (k : Nat) (d : Dev) : Dev :=
  if awaits (uCore k) d then setUnit (uCore k) .off .testFailed d else d

/-- The losses of a mesh test under a compute reset: failed routers and links, the routers' cores, cores cut off. -/
def meshLosses (failed cut : List Nat) : List Loss :=
  failed.flatMap (fun u => ⟨u, .testFailed, true⟩ ::
      (if unitClass u = 2 then [(⟨uCore (unitIndex u), .testFailed, false⟩ : Loss)] else []))
    ++ cut.map (fun k => ⟨uCore k, .testFailed, false⟩)

/-- The mesh test has begun on every compute die whose controller starts, and has not ended (R349, R353). -/
def meshTestRuns (d : Dev) : Bool :=
  bringsUp d && d.reset.phase == .starting && !d.boot.meshTested && !(List.range 8).any (fun die => awaits (uDie die) d)

def endMeshTest (failed corrected : List Nat) (detours : Detours) (cut : List Nat) (d : Dev) : Dev :=
  if !meshTestRuns d then d else
  let tested := meshUnits.filter (fun u => starting u .testing d)
  let bad := tested.filter (fun u => failed.contains u)
  let good := tested.filter (fun u => !failed.contains u)
  let cores := (List.range 2560).filter (fun k => !usable (uRouter k) d || cut.contains k || bad.contains (uRouter k))
  let d0 := (corrected.filter (fun k => tested.contains (uRouter k))).foldl (fun x k => countCorrected k 1 x) d
  let d1 := tested.foldl (fun x u => countRun u (!failed.contains u) x) d0
  let d2 := if underL0 d then retireStart (meshLosses bad (cut.filter (fun k => awaits (uCore k) d))) d1
    else bad.foldl (fun x u => failUnit u .testFailed x) d1
  let d3 := installDetours detours (good.foldl (fun x u => setUnit u .ready .testPassed x) d2)
  let d4 := cores.foldl (fun x k => coreWithoutRoute k x) d3
  let d5 := { d4 with
    boot := { d4.boot with meshTested := true }
    packets := d4.packets.map (fun p => { p with heldBack := false }) }
  settleStart (if d5.boot.complete then (List.range 160).foldl (fun x i => startUnit (uSupervisor i) .testing x) d5 else d5)

/-- MESH_TEST_END (R353, R356, R415, R416). The units that failed, a router for each error corrected, the detours and the cores that
none reaches are operands. -/
def execMeshTestEnd (outcome : MeshOutcome) (detours : Detours) (cut : List Nat) (s : State) : Host.Outcome State Fault Refusal :=
  onDev (endMeshTest outcome.failed outcome.corrected detours cut) s

def startWave (die w : Nat) (d : Dev) : Dev :=
  if !bringsUp d || d.reset.phase != .starting || !d.boot.meshTested || d.boot.complete || decide (8 ≤ die) || decide (5 ≤ w)
      || d.boot.waves.get 0 die != w || inState ⟨.dieController, die⟩ [.off, .retired] d then d
  else
    let d1 := wr (rDie die 0 0x44) (putField (rd (rDie die 0 0x44) d) 11 8 w)
      { d with boot := { d.boot with waves := d.boot.waves.set die (w + 1) } }
    settleStart ((waveClusters die w).foldl (fun x i => startUnit (uSupervisor i) .testing x) d1)

/-- CORE_WAVE (R354). -/
def execCoreWave (d : Nat) (w : Nat) (s : State) : Host.Outcome State Fault Refusal := onDev (startWave d w) s

/-! ### Loads (R33, R37, R136, R354) -/

/-- Which part a block loads: the core runtime, the update-engine microcode (R476). -/
def loadedPart (ty : BlockType) : Nat := if ty = .core then 3 else 4

/-- A core's LOAD replaces its runtime region (R136); one that fails leaves the core in FAULT, its kernel abandoned where it stands
(R33, R134). -/
def endLoadCmd (p : PageId) (passed : Bool) (d : Dev) : Dev :=
  if passed then endCmd p true (returnBack p (if p.ty = .core then loadRuntime p.inst d else d))
  else endCmd p false (moveTo p .fault .selfFault (if p.ty = .core then abandonKernel p.inst d else d))

/-- A load ends: one that LOAD started, or, where it does not complete, a core's at bring-up (R354). -/
def endLoad (p : PageId) (passed : Bool) (d : Dev) : Dev :=
  if inProgress p 5 d && stateOf p d == .loading then endLoadCmd p passed d
  else if p.ty = .core ∧ starting (uCore p.inst) .loading d ∧ passed = false ∧ runMayEnd (uCore p.inst) d then
    settleStart (failRun (uCore p.inst) d)
  else d

/-- LOAD_COMPLETE (R33, R354, R476). -/
def execLoadComplete (ty : BlockType) (inst : Nat) (passed : Bool) (s : State) : Host.Outcome State Fault Refusal :=
  onDevPart (loadedPart ty) (fun d => passed && inProgress ⟨ty, inst⟩ 5 d) (endLoad ⟨ty, inst⟩ passed) s

/-! ### Retirement within a session (R367, R426) -/

def retireNow (u : Nat) (c : Cause) (detours : Detours) (cut : List Nat) (d : Dev) : Dev :=
  if !firmwareRuns d || d.lead.safe || !unitExists u || !usable u d
      || d.always.leadSelect.map uComplex == some u then d
  else settleStart (settleWaves (retireAll [(u, c)] (some ⟨detours, cut⟩) d))

/-- IN_SESSION_RETIREMENT (R175, R367, R426). -/
def execInSessionRetirement (unit : Nat) (cause : Cause) (detours : Detours) (cut : List Nat) (s : State) :
    Host.Outcome State Fault Refusal :=
  onDev (retireNow unit cause detours cut) s

end Sys2Proof.Machine
end

