-- ==== Sys2Proof/Machine/Job.lean ====
section
/-!
DEFINITION. The JOB page (R88 to R91): a job is attached and detached, contexts are opened and closed.
-/

namespace Sys2Proof.Machine

/-- SLOT_STRIDE for the registers as they stand (R88). -/
def strideOf (d : Dev) : Nat := 64 + roundUp (rd (rJob 0x60) d * unitBytes (rd (rJob 0x5C) d)) 64

/-- The checks of ATTACH (R89). -/
def attachInRange (d : Dev) : Bool :=
  let count := rd (rJob 0x4C) d
  decide (1 ≤ count) && decide (count ≤ 4096) && decide (rd (rJob 0x48) d < count) && decide (rd (rJob 0x5C) d ≤ 2)
    && decide (rd (rJob 0x60) d ≤ 16777216) && rd64 (rJob 0x68) d % 64 == 0
    && inRegion (rd64 (rJob 0x50) d) (8 * count) d
    && inMemory (rd64 (rJob 0x68) d) (256 * strideOf d) d
    && inWindow (rd64 (rJob 0x70) d) 8192 d

/-- The job as ATTACH fixes it, with nothing of its rank table yet. -/
def newJob (d : Dev) : Job :=
  { attached := false, rank := rd (rJob 0x48) d, rankCount := rd (rJob 0x4C) d, rankTable := [],
    slotUnit := rd (rJob 0x5C) d, slotCapacity := rd (rJob 0x60) d, slotPad := rd (rJob 0x64) d,
    slotBase := rd64 (rJob 0x68) d, slotRecord := rd64 (rJob 0x70) d, open_ := [], closing := [], load := none }

/-- ATTACH loads the rank table from the companion. -/
def beginAttach (d : Dev) : Dev :=
  loadMore ⟨[], 0, none, false, freeMsgId d, 0⟩ { d with job := newJob d }

def cmdAttach (arg : Nat) (d : Dev) : Dev :=
  pageCommand pJob 0x40 arg true (inState pJob [.ready] d) (attachInRange d) beginAttach d

/-- ATTACH (R89). -/
def execAttach (arg : Nat) (s : State) : Host.Outcome State Fault Refusal := onDev (cmdAttach arg) s

/-- No job: the pages go back to READY, and no target is in force (R88, R379). -/
def detachJob (d : Dev) : Dev :=
  let d1 := wr (rPower 0x48) 0 { d with job := { d.job with attached := false } }
  (pJob :: jobPages).foldl (fun x p => settlePage p .ready .work x) d1

def cmdDetach (arg : Nat) (d : Dev) : Dev :=
  pageCommand pJob 0x41 arg true (inState pJob [.active] d && d.job.open_.isEmpty) true (doneAtOnce pJob detachJob) d

/-- DETACH (R89). -/
def execDetach (s : State) : Host.Outcome State Fault Refusal := onDev (cmdDetach 0) s

def cmdOpenContext (arg : Nat) (d : Dev) : Dev :=
  let a := arg % 2 ^ 24
  pageCommand pJob 0x42 arg true (inState pJob [.active] d && (decide (7 < a) || !ctxOpen a d)) (decide (a ≤ 7))
    (doneAtOnce pJob (fun x => { x with job := { x.job with open_ := x.job.open_ ++ [a] } })) d

/-- OPEN_CONTEXT (R89). -/
def execOpenContext (arg : Nat) (s : State) : Host.Outcome State Fault Refusal := onDev (cmdOpenContext arg) s

/-! ### Closing a context (R78, R89, R126, R244, R269) -/

/-- A RING page is ACTIVE with a pass launched in the context. -/
def ringUses (ctx : Nat) (d : Dev) : Bool :=
  (List.range 48).any (fun r => stateOf (pRing r) d == .active
    && (match (ringSt r d).pass with | some p => p.ctx == ctx | none => false))

/-- Every plan of the context is disabled (R244). -/
def closePlans (ctx : Nat) (d : Dev) : Dev :=
  (List.range 24).foldl (fun x c =>
    let ns := ((engOf c x).plans.filter (fun q => q.2.context == ctx)).map (·.1)
    if ns.isEmpty then x else settleEngine c (ns.foldl (fun y n => disablePlan c n y) x)) d

/-- What CTX_CLOSE does on a core: the interrupt, the end of the context's kernel, and its commands that have not started
(R126). -/
def closeOnCore (ctx k : Nat) (d : Dev) : Dev :=
  if coreTakes k d then
    let d1 := setPending k 18 true d
    let d2 := if (coreOf k d1).kernel = some ctx then beginEnd k 4 0 d1 else d1
    dropAllUnstarted k (fun c => c.ctx == ctx) d2
  else d

/-- The descriptors of the context that a queue still holds; one that the module cannot read yet may be one. -/
def queueHolds (ctx q : Nat) (d : Dev) : Bool :=
  let x := queueOf q d
  x.enabled && (List.range ((producerOf q d + 2 ^ 16 - x.next) % 2 ^ 16)).any (fun i =>
    match windowRead (x.base + 64 * ((x.next + i) % 2 ^ x.sizeLog2)) 64 d with
    | some b => fieldOf (leAt b 0 4) 10 8 == ctx
    | none => true)

/-- Work of a closing context that still runs. -/
def contextBusy (ctx : Nat) (d : Dev) : Bool :=
  d.dma.any (fun r => r.context == ctx) || (List.range 16).any (fun q => queueHolds ctx q d)
    || (List.range 24).any (fun c => match (engOf c d).running with | some r => r.copy.context == ctx | none => false)

/-- Ends CLOSE_CONTEXT once none of its work remains. -/
def drainContext (ctx : Nat) (d : Dev) : Dev :=
  if d.job.closing.contains ctx && !contextBusy ctx d then
    endCmdIf pJob 0x43 true { d with job := { d.job with closing := d.job.closing.filter (· != ctx) } }
  else d

/-- The context is closed. -/
def beginClose (ctx : Nat) (d : Dev) : Dev :=
  let d1 := { d with
    job := { d.job with open_ := d.job.open_.filter (· != ctx), closing := d.job.closing ++ [ctx] }
    net := { d.net with windows := d.net.windows.filter (fun w => w.2.ctx != ctx) } }
  drainContext ctx ((List.range 2560).foldl (fun x k => closeOnCore ctx k x) (closePlans ctx d1))

def cmdCloseContext (arg : Nat) (d : Dev) : Dev :=
  let a := arg % 2 ^ 24
  pageCommand pJob 0x43 arg true (inState pJob [.active] d && (decide (7 < a) || (ctxOpen a d && !ringUses a d)))
    (decide (a ≤ 7)) (beginClose a) d

/-- CLOSE_CONTEXT (R89). -/
def execCloseContext (arg : Nat) (s : State) : Host.Outcome State Fault Refusal := onDev (cmdCloseContext arg) s

/-- CONTEXT_DRAINED (R89). -/
def execContextDrained (ctx : Nat) (s : State) : Host.Outcome State Fault Refusal := onDev (drainContext ctx) s

end Sys2Proof.Machine
end

