-- ==== Sys2Proof/Machine/Transport.lean ====
section
/-!
DEFINITION. The commands of network interfaces and of the transport (R257 to R283, R289, R290).
-/

namespace Sys2Proof.Machine

/-! ### Packets that arrive -/

/-- DATA (R257, R258, R267 to R272): what the frame is, its bytes say. -/
def execData (p : Nat) (frame : List Byte) (s : State) : Host.Outcome State Fault Refusal := onDev (receiveFrame p frame) s

/-- ACK (R257, R258, R273). -/
def execAck (p : Nat) (frame : List Byte) (s : State) : Host.Outcome State Fault Refusal := onDev (receiveFrame p frame) s

/-- NACK (R257, R258, R260, R276, R277). -/
def execNack (p : Nat) (frame : List Byte) (s : State) : Host.Outcome State Fault Refusal := onDev (receiveFrame p frame) s

/-- CREDIT (R258, R259, R327). -/
def execCredit (p : Nat) (frame : List Byte) (s : State) : Host.Outcome State Fault Refusal := onDev (receiveFrame p frame) s

/-- ABORT_PACKET (R258, R259, R339). -/
def execAbortPacket (p : Nat) (frame : List Byte) (s : State) : Host.Outcome State Fault Refusal :=
  onDev (receiveFrame p frame) s

/-! ### Sends -/

/-- The send that the SEND registers of an interface name (R289). -/
def hostSendOf (p : Nat) (d : Dev) : Send :=
  let g := fun off => rd (rNi p off) d
  let c := g 0x64
  { num := 0, origin := .host p, stream := ⟨sideOf p, fieldOf c 13 12, c % 2 ^ 12⟩, type := 1, ctx := fieldOf c 18 16,
    src := rd64 (rNi p 0x50) d, length := g 0x60, remote := rd64 (rNi p 0x58) d, planes := g 0x68 * 2 ^ (24 * sideOf p),
    notify := bitOf c 19, counter := fieldOf c 28 20, chunk := bitOf c 29, chunkEnd := bitOf c 30, chunkId := g 0x70,
    chunkOffset := g 0x74, passTag := 0, notice := 0, sent := 0, poisoned := false, abandoned := false, rejected := none,
    ended := none }

/-- The command is judged as a send: its page is ACTIVE, and nothing rejects or ignores the command first. -/
def sendJudged (p : Nat) (d : Dev) : Bool :=
  !pageSilent (pNi p) d && !d.lead.safe && (pageOf (pNi p) d).negotiated && (pageOf (pNi p) d).cmd.isNone
    && inState (pNi p) [.active] d

/-- SEND_STATUS gives the result of a send that is rejected as well. -/
def cmdSend (p arg : Nat) (d : Dev) : Dev :=
  let s := hostSendOf p d
  let r := judgeSend s d
  let d1 := if sendJudged p d && r != .done then wr (rNi p 0x6C) (resultCode r) d else d
  pageCommand (pNi p) 0x40 arg true (inState (pNi p) [.active] d && r != .rejectedState) (r != .rejectedRange)
    (fun x => settleAll (startSend s x)) d1

/-- SEND (R264, R290, R304). -/
def execSend (p : Nat) (s : State) : Host.Outcome State Fault Refusal := onDev (cmdSend p 0) s

/-- PACKET_SEND (R265, R266, R283): the errors are those that its read of staging meets (R345). -/
def execPacketSend (read : StreamRead) (s : State) : Host.Outcome State Fault Refusal :=
  onDev (fun d => settleAll (sendPacket read.stream (meetStaging read.stream.side read.errors d))) s

/-! ### Timers (R275 to R278, R283): each acts once its threshold has passed (R6) -/

/-- A module-wide threshold of the network interfaces in ns: a register in µs, taken within its range (R45, R289). -/
def netLimit (off lo hi : Nat) (d : Dev) : Nat := 1000 * clampReg lo hi (rd (rNi 0 off) d)

def retxLimit (d : Dev) : Nat := netLimit 0x88 5 10000 d

/-- A packet has waited ACK_DELAY for its acknowledgement. -/
def delayedAck (k : StreamId) (d : Dev) : Dev :=
  match (rxOf k d).firstAt with
  | some t => if t + netLimit 0x98 1 1000 d ≤ d.now then sendAck k d else d
  | none => d

/-- ACK_DELAY (R275). -/
def execAckDelay (k : StreamId) (s : State) : Host.Outcome State Fault Refusal := onDev (delayedAck k) s

/-- NACK GAP for the lowest missing number, unless the last for that number left less than RETX_TIMEOUT ago (R276). -/
def nackGap (k : StreamId) (d : Dev) : Dev :=
  let r := rxOf k d
  let missing := (r.cum + 1) % 2 ^ 32
  let recent := match r.lastNack with
    | some (n, t) => n == missing && decide (d.now < t + retxLimit d)
    | none => false
  if r.pkts.isEmpty || recent then d
  else modRx k (fun x => { x with lastNack := some (missing, d.now) }) (sendNack r.plane k missing 0 d)

/-- A later packet has waited NACK_DELAY. -/
def firstNack (k : StreamId) (d : Dev) : Dev :=
  if (rxOf k d).pkts.any (fun p => decide (p.at_ + netLimit 0x90 1 1000 d ≤ d.now)) then nackGap k d else d

/-- NACK_DELAY (R276). -/
def execNackDelay (k : StreamId) (s : State) : Host.Outcome State Fault Refusal := onDev (firstNack k) s

/-- The lowest packet that no ACK has reported. -/
def lowestUnreported (k : StreamId) (d : Dev) : Option OutPkt := (txOf k d).unacked.find? (fun o => !o.sacked)

/-- The packets whose timers have passed RETX_TIMEOUT. -/
def timedOut (k : StreamId) (d : Dev) : List OutPkt :=
  if (txOf k d).held || (txOf k d).broken then []
  else (txOf k d).unacked.filter (fun o => !o.sacked && !o.due && decide (retxLimit d ≤ o.age))

/-- A retransmission caused by the timeout is counted on the port of its plane. -/
def timeoutResend (k : StreamId) (d : Dev) : Dev :=
  (timedOut k d).foldl (fun x o =>
    let y := resend k o.seq none x
    match (txOf k y).unacked.find? (fun q => q.seq == o.seq) with
    | some q => bump (rNi q.plane 0x13C) y
    | none => y) d

/-- The NACK GAP that stands is repeated. -/
def repeatNack (k : StreamId) (d : Dev) : Dev :=
  if (rxOf k d).lastNack.any (fun n => n.1 == ((rxOf k d).cum + 1) % 2 ^ 32) then nackGap k d else d

/-- RETX_TIMEOUT (R276). -/
def execRetxTimeout (k : StreamId) (s : State) : Host.Outcome State Fault Refusal :=
  onDev (fun d => repeatNack k (timeoutResend k d)) s

/-- In HELD, HOLD_PROBE has passed since the last probe. -/
def probe (k : StreamId) (d : Dev) : Dev :=
  let t := txOf k d
  match t.held && decide (t.probeAt + netLimit 0xA4 10 100000 d ≤ d.now), t.unacked with
  | true, o :: _ => resend k o.seq none (modTx k (fun x => { x with probeAt := d.now }) d)
  | _, _ => d

/-- HOLD_PROBE (R277). -/
def execHoldProbe (k : StreamId) (s : State) : Host.Outcome State Fault Refusal := onDev (probe k) s

/-- The oldest unacknowledged packet has gained no acknowledgement for STREAM_GIVEUP. -/
def givenUp (k : StreamId) (d : Dev) : Bool :=
  match (lowestUnreported k d).or (txOf k d).unacked.head? with
  | some o => !(txOf k d).broken && decide (o.firstAt + 1000000 * clampReg 1 60000 (rd (rNi 0 0x8C) d) ≤ d.now)
  | none => false

def giveUp (k : StreamId) (d : Dev) : Dev :=
  if givenUp k d then abortOnStream k (settleAll (raise (pNi (txOf k d).lastPlane) 16 (breakStream k d))) else d

/-- STREAM_GIVEUP (R278, R339). -/
def execStreamGiveup (k : StreamId) (s : State) : Host.Outcome State Fault Refusal := onDev (giveUp k) s

/-- An interval of RATE_RISE has ended: without ECE the rate rises by RATE_STEP, to the cap at most. -/
def raiseRate (k : StreamId) (d : Dev) : Dev :=
  let c := rd (rNi 0 0x9C) d
  let t := txOf k d
  if t.rate.isNone || decide (d.now < t.riseAt + 1000 * fieldOf c 23 16) then d
  else refreshRate k (modTx k (fun x => { x with
    rate := if x.eceSeen then x.rate else x.rate.map (· + 2 ^ 16 * fieldOf c 31 24)
    eceSeen := false
    riseAt := d.now }) d)

/-- RATE_RISE (R283). -/
def execRateRise (k : StreamId) (s : State) : Host.Outcome State Fault Refusal := onDev (raiseRate k) s

/-! ### Receive windows and queries (R269, R289, R290) -/

/-- A window's range lies in one range of R268. -/
def windowFits (base n : Nat) (d : Dev) : Bool := inMemory base n d || inStaging 0 base n || inStaging 1 base n

def overlaps (a n b m : Nat) : Bool := decide (a < b + m) && decide (b < a + n)

def windowOpen (w : Nat) (d : Dev) : Bool := d.net.windows.any (fun e => e.1 == w)

def cmdOpenWindow (p arg : Nat) (d : Dev) : Dev :=
  let w := arg % 256
  let base := rd64 (rNi p 0xB0) d
  let n := rd64 (rNi p 0xB8) d
  let ctx := rd (rNi p 0xC0) d
  pageCommand (pNi p) 0x41 arg true
    (inState (pNi p) [.active] d && !windowOpen w d && ctxOpen ctx d)
    (n == 0 || (windowFits base n d && !d.net.windows.any (fun e => overlaps base n e.2.base e.2.length)))
    (doneAtOnce (pNi p) (fun x => if n = 0 then x else modNet (fun t => { t with windows := t.windows.set w ⟨ctx, base, n⟩ }) x)) d

/-- OPEN_WINDOW (R269). -/
def execOpenWindow (p : Nat) (arg : Nat) (s : State) : Host.Outcome State Fault Refusal := onDev (cmdOpenWindow p arg) s

def cmdCloseWindow (p arg : Nat) (d : Dev) : Dev :=
  let w := arg % 256
  pageCommand (pNi p) 0x42 arg true (inState (pNi p) [.active] d && windowOpen w d) true
    (doneAtOnce (pNi p) (modNet (fun t => { t with windows := t.windows.drop (· == w) }))) d

/-- CLOSE_WINDOW (R269): every packet accepted is visible within its own command. -/
def execCloseWindow (p : Nat) (arg : Nat) (s : State) : Host.Outcome State Fault Refusal := onDev (cmdCloseWindow p arg) s

/-- WIN_QUERY (R289). -/
def execWinQuery (p : Nat) (value : Word) (s : State) : Host.Outcome State Fault Refusal :=
  onDev (whenNegotiated (pNi p) (wr (rNi p 0xC4) (value.toNat % 256))) s

/-- STREAM_QUERY (R289). -/
def execStreamQuery (p : Nat) (value : Word) (s : State) : Host.Outcome State Fault Refusal :=
  onDev (whenNegotiated (pNi p) (wr (rNi p 0x180) (value.toNat % 2 ^ 14))) s

end Sys2Proof.Machine
end

