-- ==== Sys2Proof/Machine/Queues.lean ====
section
/-!
DEFINITION. The commands of the queue pools (R291 to R299, R310, R311) and of the check contexts (R303, R309, R313).
-/

namespace Sys2Proof.Machine

/-! ### Queue pools -/

/-- A write of PLANES_EXCLUDED counts every cap afresh (R283). -/
def excludePlanes (v : Nat) (d : Dev) : Dev := refreshRates (wr64 (rNi 0 0x80) v d)

def cmdFlush (side arg : Nat) (d : Dev) : Dev :=
  let q := arg % 128
  pageCommand (pPool side) 0x40 arg true (inState (pPool side) [.ready, .active] d) (decide (q ≤ 119))
    (doneAtOnce (pPool side) (flushQueue side q)) d

/-- FLUSH (R298, R311). -/
def execFlush (side : Nat) (arg : Nat) (s : State) : Host.Outcome State Fault Refusal := onDev (cmdFlush side arg) s

/-- The RESERVE registers of the 120 queues. -/
def reserveRegs (side : Nat) (d : Dev) : List Nat := (List.range 120).map (fun q => rd (rQueueBlock side q 4) d)

def setReserves (side : Nat) (d : Dev) : Dev :=
  modPool side (fun x => { x with reserves := (List.range 120).map (fun q => (q, rd (rQueueBlock side q 4) d)) }) d

def cmdApplyReserves (side arg : Nat) (d : Dev) : Dev :=
  let rs := reserveRegs side d
  pageCommand (pPool side) 0x41 arg true (inState (pPool side) [.ready] d)
    (decide (rs.foldl (· + ·) 0 ≤ 262144) && rs.all (· != 0)) (doneAtOnce (pPool side) (setReserves side)) d

/-- APPLY_RESERVES (R295, R311). -/
def execApplyReserves (side : Nat) (s : State) : Host.Outcome State Fault Refusal := onDev (cmdApplyReserves side 0) s

/-- A write of INJECT_CTRL: ARMED is set by 1 and left by 0. -/
def writeInjectCtrl (side value : Nat) (d : Dev) : Dev :=
  let armed := bitOf value 31 || bitOf (rd (rPool side 0 0x50) d) 31
  wr (rPool side 0 0x50) (fieldOf value 22 16 * 2 ^ 16 + value % 8 + 2 ^ 31 * b2n armed) d

/-- POOL_INJECT (R310). -/
def execPoolInject (side : Nat) (value : Word) (s : State) : Host.Outcome State Fault Refusal :=
  onDev (whenNegotiated (pPool side) (writeInjectCtrl side value.toNat)) s

/-- A link entry of a queue is read with bits in error (R293, R297): the word code corrects a single bit; an uncorrectable error
breaks the queue, whose cells stay out of reach until they are reclaimed. -/
def breakQueue (side q : Nat) (error : WordNoise) (d : Dev) : Dev :=
  if pageSilent (pPool side) d || decide (119 < q) then d else
  match judgeWord false error with
  | .good _ _ => d
  | _ =>
    let lost := depthOf side q d
    let d1 := raise (pPool side) 18 (bump (rPool side 0 0x4C) d)
    dropRecords side q (modPool side (fun x => { x with lostCells := x.lostCells.set q (x.lostCells.get 0 q + lost) }) d1)

/-- QUEUE_LINK_LOST (R297). -/
def execQueueLinkLost (side : Nat) (error : LinkEntryError) (s : State) : Host.Outcome State Fault Refusal :=
  onDev (breakQueue side error.queue error.bits) s

/-- The cells come back as credit, and firings that waited for it become records. -/
def reclaim (side q : Nat) (d : Dev) : Dev :=
  if decide (2 ≤ side) || decide (119 < q) then d else
  admitQueue side q (modPool side (fun x => { x with lostCells := x.lostCells.drop (· == q) }) d)

/-- CELL_RECLAIM (R297). -/
def execCellReclaim (side : Nat) (q : Nat) (s : State) : Host.Outcome State Fault Refusal := onDev (reclaim side q) s

/-! ### Check contexts -/

/-- The half that ARG [2:0] names is OPEN. -/
def halfOpen (r arg : Nat) (d : Dev) : Bool :=
  let h := 4 * r + arg % 4
  if bitOf arg 2 then (checkRx h d).open_ else (checkTx h d).open_

/-- The range checks of SET_HALF. -/
def halfInRange (r arg : Nat) (d : Dev) : Bool :=
  let id := rd (rChk r 0x40) d
  let bytes := rd (rChk r 0x44) d
  id / 2 ^ 26 == r && id % 4 == arg % 4 && bytes % 16 == 0 && decide (bytes ≤ chunkExtent r d)
    && (!bitOf arg 2 || windowFits (rd64 (rChk r 0x50) d) (chunkExtent r d) d)

/-- The half opens with the loaded values; a receive half judges windows by the ring's context until a packet of its chunk
gives one. -/
def openHalf (r arg : Nat) (d : Dev) : Dev :=
  let h := 4 * r + arg % 4
  let id := rd (rChk r 0x40) d
  let bytes := rd (rChk r 0x44) d
  let value := BitVec.ofNat 64 (rd64 (rChk r 0x48) d)
  if bitOf arg 2 then
    putCheckRx h { checkRx h d with
      open_ := true, chunkId := id, bytes := bytes, value := value, base := rd64 (rChk r 0x50) d, outOfOrder := false,
      poisoned := false, ctx := fieldOf (rd (rRing r 0x40) d) 18 16 } d
  else putCheckTx h ⟨true, id, bytes, value, none⟩ d

def cmdSetHalf (r arg : Nat) (d : Dev) : Dev :=
  pageCommand (pChk r) 0x40 arg true (inState (pChk r) [.active] d && !halfOpen r arg d) (halfInRange r arg d)
    (doneAtOnce (pChk r) (openHalf r arg)) d

/-- SET_HALF (R313). -/
def execSetHalf (r : Nat) (arg : Nat) (s : State) : Host.Outcome State Fault Refusal := onDev (cmdSetHalf r arg) s

def clearHalf (r arg : Nat) (d : Dev) : Dev :=
  let h := 4 * r + arg % 4
  if bitOf arg 2 then
    let c := checkRx h d
    putCheckRx h { c with open_ := false, result := if c.open_ then 5 else c.result } d
  else putCheckTx h { checkTx h d with open_ := false } d

def cmdClearHalf (r arg : Nat) (d : Dev) : Dev :=
  pageCommand (pChk r) 0x41 arg true (inState (pChk r) [.active] d) true (doneAtOnce (pChk r) (clearHalf r arg)) d

/-- CLEAR_HALF (R313). -/
def execClearHalf (r : Nat) (arg : Nat) (s : State) : Host.Outcome State Fault Refusal := onDev (cmdClearHalf r arg) s

end Sys2Proof.Machine
end

