-- ==== Sys2Proof/Machine/Rings.lean ====
section
/-!
DEFINITION. The commands of counters, belay entries and rings (R314 to R339, R347, R348).
-/

namespace Sys2Proof.Machine

/-! ### Counters and belay entries -/

def writeCounter (side c value : Nat) (d : Dev) : Dev :=
  if 512 ≤ c then d else afterChange side c (wr (rCounter side c) value d)

/-- COUNTER_WRITE (R314, R315). -/
def execCounterWrite (side : Nat) (c : Nat) (value : Word) (s : State) : Host.Outcome State Fault Refusal :=
  onDev (whenNegotiated (pCounters side) (writeCounter side c value.toNat)) s

def cmdArmEntry (side arg : Nat) (d : Dev) : Dev :=
  let e := arg % 1024
  let ctrl := rd (rBelay side e 0) d
  let last := rd (rBelay side e 0x28) d + rd (rBelay side e 0x14) d
  pageCommand (pBelay side) 0x40 arg true
    (inState (pBelay side) [.ready, .active] d && (belayOf side e d).state != .armed && !ringOpCode (entryOp ctrl)
      && entryRing ctrl == 0x3F && ctxOpen (fieldOf ctrl 21 19) d)
    (decide (entryOp ctrl ≤ 5) && (entryOp ctrl != 5 || decide (last ≤ 262144)))
    (doneAtOnce (pBelay side) (fun x => judgeArmed side [e] (armOne side e x))) d

/-- ARM_ENTRY (R318, R320). -/
def execArmEntry (side : Nat) (arg : Nat) (s : State) : Host.Outcome State Fault Refusal := onDev (cmdArmEntry side arg) s

/-- The entry belongs to a pass that is RUNNING. -/
def inRunningPass (side e : Nat) (d : Dev) : Bool :=
  (sidePlanes side).any (fun r => match (ringSt r d).pass with
    | some p => (ringSt r d).result == 1 && (passEntries p).contains e
    | none => false)

def cmdDisarmEntry (side arg : Nat) (d : Dev) : Dev :=
  let e := arg % 1024
  pageCommand (pBelay side) 0x41 arg true (inState (pBelay side) [.ready, .active] d && !inRunningPass side e d) true
    (doneAtOnce (pBelay side) (fun x => putBelay side e { belayOf side e x with state := .idle } x)) d

/-- DISARM_ENTRY (R320). -/
def execDisarmEntry (side : Nat) (arg : Nat) (s : State) : Host.Outcome State Fault Refusal := onDev (cmdDisarmEntry side arg) s

/-! ### Ring ops -/

/-- SEND_OP (R319, R324, R326, R336). -/
def execSendOp (r : Nat) (s : State) : Host.Outcome State Fault Refusal := onDev (fun d => settleAll (runOps r 1 d)) s

/-- REDUCE_SEND (R319, R326, R328, R329, R345). -/
def execReduceSend (read : RingRead) (s : State) : Host.Outcome State Fault Refusal :=
  onDev (fun d => settleAll (runOps read.ring 2 (meetStaging (sideOf read.ring) read.errors d))) s

/-- COPY_OP (R319, R326, R329, R345). -/
def execCopyOp (read : RingRead) (s : State) : Host.Outcome State Fault Refusal :=
  onDev (fun d => settleAll (runOps read.ring 3 (meetStaging (sideOf read.ring) read.errors d))) s

/-- SIGNAL_OP (R319, R330). -/
def execSignalOp (r : Nat) (s : State) : Host.Outcome State Fault Refusal := onDev (fun d => settleAll (runSignal r d)) s

/-- OP_END (R326). -/
def execOpEnd (r : Nat) (op : Nat) (s : State) : Host.Outcome State Fault Refusal := onDev (fun d => settleAll (endOp r op d)) s

/-! ### LAUNCH (R331) -/

/-- Flags that R319 allows an op. -/
def flagsOk (ctrl : Nat) : Bool :=
  let pack := bitOf ctrl 15
  let store := bitOf ctrl 16
  let forward := bitOf ctrl 17
  let signal := bitOf ctrl 18
  match entryOp ctrl with
  | 1 => !store && !forward && !signal
  | 2 | 3 => !pack && (store || forward) && (!signal || store)
  | 0 | 4 | 5 => !pack && !store && !forward && !signal
  | _ => false

/-- The checks of one entry. -/
def entryOk (r : Nat) (p : Pass) (e : Nat) (d : Dev) : Bool :=
  let g := fun off => rd (rBelay (sideOf r) e off) d
  let ctrl := g 0
  let c := chunksPer p
  entryRing ctrl == r && flagsOk ctrl
    && (!ringOpCode (entryOp ctrl) || (decide (g 0x18 < p.members) && (c == 0 || decide (g 0x1C < c))))
    && (!bitOf ctrl 15
      || (decide (p.format ≤ 1) && decide (64 ≤ p.pieceSize) && inMemory p.gatherSrc (p.pieceSize - 64) d
        && inMemory p.gatherLength 8 d))

/-- Step 2 of R331. -/
def launchInRange (r : Nat) (p : Pass) (d : Dev) : Bool :=
  (p.format == 0 || p.format == 1 || p.format == 6 || p.format == 7) && decide (p.op ≤ 2)
    && decide (16 ≤ p.chunkLog2) && decide (p.chunkLog2 ≤ 20)
    && decide (1 ≤ p.members) && decide (p.members ≤ d.job.rankCount) && decide (p.position < p.members)
    && decide (p.next < d.job.rankCount) && decide (p.prev < d.job.rankCount)
    && p.base % 16 == 0 && p.pieceSize % 16 == 0 && p.stride % 16 == 0 && decide (p.pieceSize ≤ p.stride)
    && (!isMx p.format || p.pieceSize % passExtent p == 0)
    && inMemory p.base ((p.members - 1) * p.stride + p.pieceSize) d
    && p.buffers % 16 == 0 && p.inFlight != 0 && inStaging (sideOf r) p.buffers (p.inFlight * passExtent p)
    && decide (p.first + p.count ≤ 1024) && (passEntries p).all (fun e => entryOk r p e d)
    && (p.listCapacity == 0 || inMemory p.listBase (16 * p.listCapacity) d)

/-- Step 1 of R331. -/
def launchLegal (r : Nat) (p : Pass) (d : Dev) : Bool :=
  inState (pRing r) [.ready] d && d.job.attached && ctxOpen p.ctx d
    && (passEntries p).all (fun e => (belayOf (sideOf r) e d).state != .armed)
    && !inState (pPort r) [.off, .retired] d

/-- The pass counts and LIST_COUNT. -/
def zeroPass (r : Nat) (d : Dev) : Dev :=
  [0xD0, 0xD4, 0xD8, 0xDC, 0xE4, 0xE8, 0xEC].foldl (fun x off => wr (rRing r off) 0 x) d

/-- The pass is counted and stands at its start. -/
def beginPassAt (r : Nat) (p : Pass) (gated : Bool) (result : Nat) (d : Dev) : Dev :=
  modRing r (fun x => { x with
    pass := some p, launched := (x.launched + 1) % 65536, gated := gated, aborting := false, remote := false, reason := 0,
    result := result, work := [], waiting := [], ops := [], nextTransfer := 0, freed := 0, begun := false,
    lastProgress := d.now, timer := 0 }) (zeroPass r d)

/-- Steps 3 and 4 of R331. -/
def launchPass (r : Nat) (d : Dev) : Dev :=
  let p := readPass r d
  if p.pieceSize = 0 ∨ p.count = 0 then
    raise (pRing r) 16 (settlePage (pRing r) .active .work (beginPassAt r p false 2 d))
  else
    let side := sideOf r
    let gated := bitOf (rd (rRing r 0xBC) d) 31
    let d1 := (passEntries p).foldl (fun x e => armOne side e x) (beginPassAt r p gated 1 d)
    let d2 := settleReduction side (settlePage (pRing r) .active .work d1)
    judgeGate r (judgeArmed side (passEntries p) d2)

def cmdLaunch (r arg : Nat) (d : Dev) : Dev :=
  let p := readPass r d
  pageCommand (pRing r) 0x40 arg true (launchLegal r p d) (launchInRange r p d) (doneAtOnce (pRing r) (launchPass r)) d

/-- LAUNCH (R331, R332). -/
def execLaunch (r : Nat) (s : State) : Host.Outcome State Fault Refusal := onDev (cmdLaunch r 0) s

/-! ### The end of a pass (R333, R335, R338, R339) -/

def cmdAbort (r arg : Nat) (d : Dev) : Dev :=
  pageCommand (pRing r) 0x41 arg true (inState (pRing r) [.active] d && (ringSt r d).result == 1) true
    (fun x => settleAll (abortPass r 2 none x)) d

/-- ABORT (R339, R348). -/
def execAbort (r : Nat) (s : State) : Host.Outcome State Fault Refusal := onDev (cmdAbort r 0) s

def acknowledgePass (r : Nat) (d : Dev) : Dev :=
  settlePage (pRing r) .ready .work
    (wr (rRing r 0xC8) 0 (wr (rRing r 0xCC) 0 (modRing r (fun x => { x with result := 0, arrivals := [] }) d)))

def cmdAcknowledge (r arg : Nat) (d : Dev) : Dev :=
  pageCommand (pRing r) 0x42 arg true (inState (pRing r) [.active] d && (ringSt r d).result != 1) true
    (doneAtOnce (pRing r) (acknowledgePass r)) d

/-- ACKNOWLEDGE (R335). -/
def execAcknowledge (r : Nat) (s : State) : Host.Outcome State Fault Refusal := onDev (cmdAcknowledge r 0) s

/-- Every entry is DONE, every op has ended and every send of the pass has completed. -/
def passOver (r : Nat) (p : Pass) (d : Dev) : Bool :=
  let st := ringSt r d
  isRunning r d && (passEntries p).all (fun e => (belayOf (sideOf r) e d).state == .done) && st.work.isEmpty
    && st.waiting.isEmpty && st.ops.isEmpty
    && d.net.sends.all (fun s => match s.origin with | .op k _ => k != r | _ => true)

def endPass (r : Nat) (d : Dev) : Dev :=
  match (ringSt r d).pass with
  | some p =>
    if passOver r p d then
      let result := if rd (rRing r 0xE4) d = 0 then 2 else 3
      settleReduction (sideOf r) (raise (pRing r) 16 (modRing r (fun x => { x with result := result, gated := false }) d))
    else d
  | none => d

/-- PASS_END (R333). -/
def execPassEnd (r : Nat) (s : State) : Host.Outcome State Fault Refusal := onDev (endPass r) s

/-- The step timer of a running pass has passed STEP_TIMEOUT. -/
def stepTimedOut (r : Nat) (d : Dev) : Bool :=
  isRunning r d && (ringSt r d).begun && stateOf (pRing r) d != .quiesced
    && decide (1000000 * clampReg 1 60000 (rd (rRing r 0x7C) d) < (ringSt r d).timer)

/-- STEP_TIMEOUT (R338, R339). -/
def execStepTimeout (r : Nat) (s : State) : Host.Outcome State Fault Refusal :=
  onDev (fun d => if stepTimedOut r d then settleAll (abortPass r 1 none d) else d) s

end Sys2Proof.Machine
end

