-- ==== Sys2Proof/Machine/Update.lean ====
section
/-!
DEFINITION. Commands of the update engines (R230 to R246).
-/

namespace Sys2Proof.Machine

/-- The range that ARM_FIRST and ARM_COUNT name. -/
def armFirst (c : Nat) (d : Dev) : Nat := rd (rUpd c 0 0x48) d
def armCount (c : Nat) (d : Dev) : Nat := rd (rUpd c 0 0x4C) d
def armRange (c : Nat) (d : Dev) : List Nat := (List.range (armCount c d)).map (armFirst c d + ·)

def cmdEnablePlan (c arg : Nat) (d : Dev) : Dev :=
  let n := arg % 16
  let p := readPlan c n d
  pageCommand (pUpd c) 0x40 arg true (inState (pUpd c) [.ready, .active] d && (planOf c n d).isNone && ctxOpen p.context d)
    (planInRange c n p d)
    (doneAtOnce (pUpd c) (fun x => settleEngine c (modEng c (fun g => { g with plans := g.plans.set n p }) x))) d

/-- ENABLE_PLAN (R230, R231). -/
def execEnablePlan (c : Nat) (arg : Nat) (s : State) : Host.Outcome State Fault Refusal :=
  onDev (fun d => if c < 24 then cmdEnablePlan c arg d else d) s

def cmdDisablePlan (c arg : Nat) (d : Dev) : Dev :=
  let n := arg % 16
  pageCommand (pUpd c) 0x41 arg true (inState (pUpd c) [.ready, .active, .quiesced] d && (planOf c n d).isSome) true
    (fun x => settleUpdCmd c (settleEngine c (disablePlan c n x))) d

/-- DISABLE_PLAN (R246). -/
def execDisablePlan (c : Nat) (arg : Nat) (s : State) : Host.Outcome State Fault Refusal :=
  onDev (fun d => if c < 24 then cmdDisablePlan c arg d else d) s

/-- The state that the range of ARM must not hold, or all it touches with SKIPPED_ONLY. -/
def armChunks (c n : Nat) (skippedOnly : Bool) (d : Dev) : Dev :=
  match planOf c n d with
  | none => d
  | some p => (armRange c d).foldl (fun x k =>
      let st := chunkAt c p k x
      if skippedOnly && st.1 != .skipped then x else setChunk c (p.stateBase + k) .armed 0 x) d

/-- The range lies within the plan's chunks. -/
def armInRange (c n : Nat) (d : Dev) : Bool :=
  match planOf c n d with | some p => decide (armFirst c d + armCount c d ≤ p.chunks) | none => true

def cmdArm (c arg : Nat) (d : Dev) : Dev :=
  let n := arg % 16
  let busy := match planOf c n d with
    | some p => armInRange c n d && !bitOf arg 4 && (armRange c d).any (fun k =>
        let st := (chunkAt c p k d).1
        st == .armed || st == .pending || st == .running)
    | none => true
  pageCommand (pUpd c) 0x42 arg true (inState (pUpd c) [.active, .quiesced] d && !busy) (armInRange c n d || armCount c d == 0)
    (doneAtOnce (pUpd c) (armChunks c n (bitOf arg 4))) d

/-- ARM (R233). -/
def execArm (c : Nat) (arg : Nat) (s : State) : Host.Outcome State Fault Refusal :=
  onDev (fun d => if c < 24 then cmdArm c arg d else d) s

/-- ARMED and PENDING chunks of the range become IDLE. -/
def disarmChunks (c n : Nat) (d : Dev) : Dev :=
  match planOf c n d with
  | none => d
  | some p => (armRange c d).foldl (fun x k =>
      let st := (chunkAt c p k x).1
      if st = .armed ∨ st = .pending then setChunk c (p.stateBase + k) .idle 0 x else x) d

def cmdDisarm (c arg : Nat) (d : Dev) : Dev :=
  let n := arg % 16
  pageCommand (pUpd c) 0x43 (disarmArg arg (armFirst c d) (armCount c d)) true
    (inState (pUpd c) [.active, .quiesced] d && (planOf c n d).isSome) (armInRange c n d || armCount c d == 0)
    (fun x => settleUpdCmd c (disarmChunks c n x)) d

/-- DISARM (R233). -/
def execDisarm (c : Nat) (arg : Nat) (s : State) : Host.Outcome State Fault Refusal :=
  onDev (fun d => if c < 24 then cmdDisarm c arg d else d) s

/-- FIRE: one record for the plan, in its own context (R235); a plan that is not enabled has none and the record is
discarded. -/
def cmdFire (c arg : Nat) (d : Dev) : Dev :=
  let n := arg % 16
  let ctx := ((planOf c n d).map (·.context)).getD 0
  pageCommand (pUpd c) 0x44 arg true (inState (pUpd c) [.active, .quiesced] d) true
    (doneAtOnce (pUpd c) (fun x => takeTrigger c ctx ⟨n, armFirst c x % 2 ^ 18, 0, false⟩ x)) d

/-- FIRE (R235, R246). -/
def execFire (c : Nat) (arg : Nat) (s : State) : Host.Outcome State Fault Refusal :=
  onDev (fun d => if c < 24 then cmdFire c arg d else d) s

/-- STATE_QUERY: a write names the entry that the register then shows (R245). -/
def execStateQuery (c : Nat) (value : Word) (s : State) : Host.Outcome State Fault Refusal :=
  onDev (fun d => if c < 24 then whenNegotiated (pUpd c) (wr (rUpd c 0 0x50) (value.toNat % 2 ^ 18)) d else d) s

/-- The state code that STATE_QUERY reads. -/
def chunkCode (s : ChunkState) : Nat :=
  match s with | .idle => 0 | .armed => 1 | .pending => 2 | .running => 3 | .applied => 4 | .skipped => 5

/-- CHUNK_RUN (R237): the engine starts its next chunk; a QUIESCE in progress starts none. -/
def execChunkRun (c : Nat) (s : State) : Host.Outcome State Fault Refusal :=
  onDev (fun d => if inProgress (pUpd c) 1 d then d else startChunk c d) s

/-- CHUNK_END (R240). -/
def execChunkEnd (c : Nat) (s : State) : Host.Outcome State Fault Refusal :=
  onDev (fun d => if inState (pUpd c) [.ready, .active, .quiesced] d then endChunkRun c d else d) s

end Sys2Proof.Machine
end

