-- ==== Sys2Proof/Machine/Views.lean ====
section
/-!
DEFINITION. Registers that a read works out from the state, page by page; every other register reads what it stores.
-/

namespace Sys2Proof.Machine

/-- A signed number in 16 bits. -/
def s16 (n : Int) : Nat := (BitVec.ofInt 16 n).toNat

/-! ### Module, job, reset and control (R88, R366, R369, R413, R428, R449, R484) -/

/-- ENTRY_LO of a unit (R366). -/
def entryLo (u : Nat) (d : Dev) : Nat :=
  match unitPage u with
  | some p => stateWord (pageOf p d)
  | none => let r := unitRec u d; stateCode r.state + 2 ^ 8 * causeCode r.cause + 2 ^ 16 * r.gen

/-- Trim of a cluster at the point in force, for a supervisor's entry. -/
def entryTrim (u : Nat) (d : Dev) : Nat := if unitClass u = 4 then trimOf (unitIndex u) (opPoint d) d else 0

def entryLinks (u : Nat) (d : Dev) : Nat := if unitClass u = 2 then linksOff (unitIndex u) d else 0

/-- ENTRY_HI of a unit (R366). -/
def entryHi (u : Nat) (d : Dev) : Nat :=
  2 ^ 31 * b2n (isFused u d) + 2 ^ 30 * b2n (inCairn u d) + 2 ^ 29 * b2n (unitFlags u d).failedAtStart
    + 2 ^ 28 * b2n (unitFlags u d).retiredInSession + 2 ^ 24 * entryLinks u d + 2 ^ 16 * entryTrim u d

/-- The unit whose entry lies at a place of the floor plan. -/
def floorUnit (page off : Nat) : Option Nat :=
  let at_ := fun first => (off - first) / 8
  if page < 40 then
    (if off < 0x300 then some (uCore (coreAt (at_ 0x100) page)) else some (uRouter (coreAt (at_ 0x400) page)))
  else if page = 40 then
    (if off < 0x800 then some (uSupervisor (at_ 0x100)) else if off < 0x880 then some (uDie (at_ 0x800))
     else if off < 0x890 then some (uComplex (at_ 0x880)) else if off = 0x890 then none else some (uReduction (at_ 0x900)))
  else if page = 41 then (if off < 0x200 then some (uController (at_ 0x100)) else some (uEngine (at_ 0x200)))
  else if page = 42 then some (uChannel (at_ 0x100))
  else if page = 43 then some (uChannel (192 + at_ 0x100))
  else if off < 0x300 then some (uPort (at_ 0x100))
  else if off < 0x500 then some (uNetwork (at_ 0x300))
  else some (uOptical (at_ 0x500))

def viewFloor (page off : Nat) (d : Dev) : Option Nat :=
  match floorUnit page off with
  | some u => some (entryLo u d + 2 ^ 32 * entryHi u d)
  | none => some (stateWord (pageOf pLua d))

def viewModule (off : Nat) (d : Dev) : Option Nat :=
  let g := guaranteeOf (variantOf d)
  match off with
  | 0x40 => some (2 ^ 16 * b2n d.boot.fuseError + 2 ^ 8 * d.fused.build + variantOf d)
  | 0x48 => some d.fused.serial
  | 0x64 => some (usableCores d)
  | 0x68 => some (usablePorts d)
  | 0x6C => some (usableChannels d)
  | 0x70 => some (2 ^ 20 * g.1 + 2 ^ 14 * g.2.1 + g.2.2)
  | 0x78 => some d.flash.cairn.length
  | _ => none

/-- CONTEXTS_OPEN. -/
def viewJob (off : Nat) (d : Dev) : Option Nat :=
  if off = 0x58 then some ((List.range 8).foldl (fun n i => n + 2 ^ i * b2n (ctxOpen i d)) 0) else none

/-- Usable cores whose latch register is VALID with a context. -/
def latchedCores (off ctx : Nat) (d : Dev) : Nat :=
  countBelow 2560 (fun k => bitOf (rd (rCore k off) d) 31 && fieldOf (rd (rCore k off) d) 30 28 == ctx && usable (uCore k) d)

def viewReset (off : Nat) (d : Dev) : Option Nat :=
  match off with
  | 0x40 => some d.always.cause
  | 0x44 => some (2 ^ 16 * d.always.session + d.always.count)
  | 0x48 => some d.always.time
  | 0x50 => some d.fused.resetMap
  | 0x54 => some d.flash.powerOns
  | 0x5C => match d.reset.level with
    | some l => some (2 ^ 31 + 2 ^ 16 * l + min 0xFFFF ((d.now - d.reset.accepted) / 1000000))
    | none => some 0
  | _ =>
    if 0x80 ≤ off ∧ off < 0xC0 then
      let n := (off - 0x80) / 8
      some (if off % 8 = 0 then 2 ^ 16 * latchedCores 0x80 n d + latchedCores 0xB4 n d else latchedCores 0xA0 n d)
    else none

def roleCode (r : Role) : Nat := match r with | .none_ => 0 | .lead => 1 | .second => 2 | .rejoining => 3 | .fenced => 4

def viewComplex (i off : Nat) (d : Dev) : Option Nat :=
  let c := complexOf i d
  match off with
  | 0x40 => some (roleCode c.role)
  | 0x44 => some (2 ^ 16 * (c.release % 2 ^ 16) + 2 ^ 8 * (c.format % 256) + (c.format - 1) % 256)
  | 0x5C => some (2 ^ 16 * (d.always.plannedTakeovers % 2 ^ 16) + d.always.otherTakeovers % 2 ^ 16)
  | 0x60 => some d.always.lastTakeover
  | 0x68 => some d.always.lastTakeoverTime
  | _ => none

/-- STATE of staging (R473): 0 EMPTY, 1 RECEIVING, 2 COMPLETE, 3 ACTIVATING. -/
def stagingState (d : Dev) : Nat :=
  match d.flash.staged with
  | none => 0
  | some s => if d.mgmt.activation.isSome then 3 else if d.flash.pieces.length = setPieces s.manifest then 2 else 1

/-- MGMT_STAGING (R484). -/
def stagingWord (d : Dev) : Nat :=
  2 ^ 28 * stagingState d
    + (match d.flash.staged with | some s => 2 ^ 16 * setPieces s.manifest + d.flash.pieces.length | none => 0)

/-- Time since the last well-formed request, in ms. -/
def silentMs (d : Dev) : Nat := min m32 ((d.now - d.mgmt.heard) / 1000000)

def viewMgmt (fz : Fuses) (logs off : Nat) (d : Dev) : Option Nat :=
  let c := d.power.ceilings
  let svn := fun k => fz.svn.getD k 0
  match off with
  | 0x40 => some (4 * b2n d.mgmt.silenced + 2 * b2n (d.mgmt.eid != 0) + b2n d.mgmt.address.isSome)
  | 0x44 => some (silentMs d)
  | 0x48 => some (2 ^ 16 * d.power.silenceTime + d.power.silenceCeiling)
  | 0x4C => some (2 ^ 24 * c.throttle + 2 ^ 16 * c.opPoint + c.grace)
  | 0x50 => some c.glowHold
  | 0x54 => some (2 ^ 8 * d.mgmt.orderKind + d.mgmt.orderState)
  | 0x58 => some (releaseOf d.flash.active.manifest)
  | 0x5C => some (stagingWord d)
  | 0x60 => some (2 ^ 24 * svn 3 + 2 ^ 16 * svn 2 + 2 ^ 8 * svn 1 + svn 0)
  | 0x64 => some (2 ^ 16 * svn 6 + 2 ^ 8 * svn 5 + svn 4)
  | 0x68 => some (2 ^ 31 * b2n (d.mgmt.scope != 0) + d.mgmt.scope)
  | 0x6C => some d.mgmt.settingsReset
  | 0x70 => some logs
  | _ => none

/-! ### Power, heat and coolant (R384, R408) -/

/-- The latest samples over a time of `n` periods. -/
def samples (n : Nat) (d : Dev) : List PowerSample := d.power.history.take n

/-- The mean of a list of numbers, rounding down. -/
def meanOf (l : List Nat) : Nat := if l.isEmpty then 0 else sumNat l / l.length

/-- A cluster's step rate × (256 − s_lim) ÷ 256, averaged over the last 100 ms. -/
def attainable (i : Nat) (d : Dev) : Nat :=
  meanOf ((samples 50000 d).map (fun s => s.rates.getD i 0 * (256 - s.limits.getD i 0))) / 256

/-- The cluster of least value, the lowest-numbered first, and its value. -/
def leastBy (f : Nat → Nat) (l : List Nat) : Option (Nat × Nat) :=
  l.foldl (fun x i => match x with
    | some (j, v) => if f i < v then some (i, f i) else some (j, v)
    | none => some (i, f i)) none

def attainableWord (d : Dev) : Nat :=
  match leastBy (fun i => attainable i d) (usableClusters d) with
  | some (i, v) => 2 ^ 16 * i + v % 2 ^ 16
  | none => 0

/-- Usable cores of a cluster. -/
def clusterUsable (i : Nat) (d : Dev) : Nat := ((clusterCores i).filter (fun k => usable (uCore k) d)).length

/-- Mean work rate of usable cores over the last 1 ms. -/
def meanWork (d : Dev) : Nat :=
  let n := usableCores d
  if n = 0 then 0
  else meanOf ((samples 500 d).map (fun s =>
    sumNat ((List.range 160).map (fun i => clusterUsable i d * workRate s i)) / n)) / 256

def shadeWord (d : Dev) : Nat :=
  let l := (usableClusters d).map (fun i => appliedShade i d)
  let hi := l.foldl max 0
  let th := (List.range 44).foldl (fun n h => max n (hotSpot h d).sTh) 0
  2 ^ 24 * hi + 2 ^ 16 * (if l.isEmpty then 0 else l.foldl min 255) + 2 ^ 8 * th + d.power.sPower

def afterglowWord (d : Dev) : Nat :=
  let p := d.power
  2 ^ 31 * b2n p.ceilings.glowOn + 2 ^ 30 * b2n p.inBarrier + 2 ^ 29 * b2n (p.filler != 0) + 2 ^ 28 * b2n p.holdEnded
    + 2 ^ 16 * p.ceilings.glowFloor + (if p.inBarrier && !p.holdEnded then p.floor / 8000 % 2 ^ 16 else 0)

/-- The hot spot of highest control value, the lowest-numbered first. -/
def hottest (d : Dev) : Option (Nat × Int) :=
  (List.range 44).foldl (fun x h => match controlValue h d, x with
    | some v, some (g, w) => if w < v then some (h, v) else some (g, w)
    | some v, none => some (h, v)
    | none, y => y) none

def hottestWord (d : Dev) : Nat := match hottest d with | some (h, v) => 2 ^ 16 * h + s16 v | none => 0

def coolantWord (d : Dev) : Nat :=
  2 ^ 31 * b2n d.coolant.ok + 2 ^ 30 * b2n (coolantStopped d) + 2 ^ 29 * b2n (d.coolant.tripped || d.always.hardTrip)
    + (match d.coolant.dropAt with | some t => min 0xFFFF ((d.now - t) / 1000000) | none => 0)

def sensorWord (n : Nat) (d : Dev) : Nat := s16 ((sensorOf n d).reading.getD 0)

def spotWord (h : Nat) (d : Dev) : Nat :=
  let x := hotSpot h d
  2 ^ 31 * b2n x.split + 2 ^ 30 * b2n x.suspect.isSome + 2 ^ 29 * b2n (sensorOf (2 * h + 1) d).faulted
    + 2 ^ 28 * b2n (sensorOf (2 * h) d).faulted + x.sTh

def clusterWord (i : Nat) (d : Dev) : Nat :=
  let rate := if supervisorUsable i d && !resetActs .core d then meanOf ((samples 500 d).map (fun s => s.rates.getD i 0)) else 0
  2 ^ 24 * appliedShade i d + 2 ^ 20 * clusterCause i d + rate % 2 ^ 16

/-- POWER_EST: measured power in 1/16 W, P_est in 1/8000 W. -/
def estWord (d : Dev) : Nat := 2 ^ 16 * (d.power.measured / 16 % 2 ^ 16) + d.power.est / 8000 % 2 ^ 16

def viewPower (off : Nat) (d : Dev) : Option Nat :=
  let c := d.power.ceilings
  match off with
  | 0x4C => some (attainableWord d)
  | 0x50 => some (meanWork d)
  | 0x54 => some (shadeWord d)
  | 0x58 => some (limitWord d)
  | 0x5C => some (effectiveLimit d)
  | 0x60 => some c.power
  | 0x64 => some (2 ^ 16 * c.fall + c.rise)
  | 0x68 => some (afterglowWord d)
  | 0x6C => some c.opPoint
  | 0x70 => some (estWord d)
  | 0x74 => some (meanEst 25000 d.power.history / 8000)
  | 0x78 => some (d.power.envelope.getD 0 / 8000)
  | 0x7C => some (s16 ((d.power.offset + 8) / 16))
  | 0x80 => some d.always.energy
  | 0x88 => some d.always.afterglow
  | 0x90 => some d.now
  | 0x98 => some (hottestWord d)
  | 0x9C => some (coolantWord d)
  | _ =>
    if 0x100 ≤ off ∧ off < 0x260 then
      let h := (off - 0x100) / 8
      some (if off % 8 = 0 then sensorWord (2 * h) d + 2 ^ 16 * sensorWord (2 * h + 1) d else spotWord h d)
    else if 0x300 ≤ off ∧ off < 0x580 then some (clusterWord ((off - 0x300) / 4) d)
    else none

/-! ### Die controllers (R187, R371, R395) -/

def routerWord (k : Nat) (d : Dev) : Nat :=
  let r := routerOf k d
  2 ^ 24 * min 0xFF r.corrected + 2 ^ 16 * min 0xFF r.resent + 2 ^ 11 * r.detours.length + 2 ^ 4 * linksOff k d
    + stateCode (unitState (uRouter k) d)

/-- The cluster at a place of a die's tables. -/
def clusterOnDie (die l : Nat) : Nat := 16 * (5 * (die / 4) + l / 4) + 4 * (die % 4) + l % 4

def viewDie (i page off : Nat) (d : Dev) : Option Nat :=
  if page = 0 then
    match off with
    | 0x40 => some (2 ^ 8 * b2n (decide (8 ≤ i)) + i)
    | 0x48 | 0x4C | 0x50 => some (rd (rDie i 0 off) d % 2 ^ 16)
    | _ => none
  else if page = 1 then
    if off < 0x600 then
      let e := (off - 0x40) / 4
      some (routerWord (coreAt (16 * (i % 4) + e % 16) (20 * (i / 4) + e / 16)) d)
    else some (entryLo (uSupervisor (clusterOnDie i ((off - 0x600) / 4))) d)
  else if off < 0x100 then
    let t := clusterOnDie i ((off - 0x40) / 4)
    some (2 ^ 16 * trimOf t 2 d + 2 ^ 8 * trimOf t 1 d + trimOf t 0 d)
  else none

/-! ### Memory and update engines (R217, R220, R229, R245) -/

def ctrlStatus (c : Nat) (d : Dev) : Nat :=
  let m := memCtl c d
  2 ^ 16 * (liveChannels c d).length + 2 ^ 13 * b2n m.retraining.isSome
    + 2 ^ 8 * (match m.retraining with | some j => j % 16 | none => 0)
    + 4 * b2n m.selfRefresh + 2 * b2n m.scrubbing + b2n d.memMap.isSome

def viewMap (c off : Nat) (m : MemMap) : Option Nat :=
  let die := c / 3
  match off with
  | 0x44 => some m.share
  | 0x4C => some (2 ^ 16 * (dieList m die).length + m.usable.length)
  | 0x50 => some (globalSize m)
  | 0x58 => some (localBase m die)
  | 0x60 => some (localSize m die)
  | 0x90 => some (mapSize m)
  | _ => none

def viewMemory (c page off : Nat) (d : Dev) : Option Nat :=
  if page = 0 then
    if off = 0x40 then some (ctrlStatus c d)
    else if off = 0x48 then some d.flash.mapLocal
    else match d.memMap with
      | some m => viewMap c off m
      | none => none
  else if 0x40 ≤ off ∧ off < 0x80 then some (entryLo (uChannel (16 * c + (off - 0x40) / 4)) d)
  else none

/-- Chunks of every enabled plan in the states named. -/
def allChunks (c : Nat) (l : List ChunkState) (d : Dev) : Nat :=
  sumNat ((engOf c d).plans.map (fun q => countChunks c q.2 l d))

def planCount (c n : Nat) (l : List ChunkState) (d : Dev) : Nat :=
  match planOf c n d with | some p => countChunks c p l d | none => 0

def engineStatus (c : Nat) (d : Dev) : Nat :=
  let g := engOf c d
  (match g.running with | some r => 2 ^ 24 * r.plan + 2 ^ 17 | none => 0) + 2 ^ 16 * b2n (engineHeld c d)
    + (List.range 16).foldl (fun n i => n + 2 ^ i * b2n (planOf c i d).isSome) 0

def viewUpdate (c page off : Nat) (d : Dev) : Option Nat :=
  let g := engOf c d
  if page = 0 then
    match off with
    | 0x40 => some (engineStatus c d)
    | 0x44 => some (match g.running with | some r => r.chunk | none => 0)
    | 0x50 => let e := rd (rUpd c 0 0x50) d; some (e + 2 ^ 24 * chunkCode (g.table.get (.idle, 0) e).1)
    | 0x54 => some (allChunks c [.pending] d)
    | _ => none
  else if page = 1 then
    let n := (off - 0x40) / 0xC0
    match (off - 0x40) % 0xC0 with
    | 0x28 => some (planCount c n [.armed, .pending, .running] d)
    | 0x2C => some (planCount c n [.applied] d)
    | 0x30 => some (planCount c n [.skipped] d)
    | _ => none
  else none

/-! ### Ports and the network (R287, R289, R310, R312, R321, R346, R347) -/

def portStatus (p : Nat) (d : Dev) : Nat :=
  let x := portOf p d
  let o := opticOf (p / 8) d
  let ok := fun i : Nat => decide (laserLow (p / 8) d ≤ (if i = 0 then o.power0 else o.power1))
  2 ^ 11 * b2n (ok (1 - o.input)) + 2 ^ 10 * b2n (ok o.input) + 2 ^ 8 * o.input + 2 ^ 4 * x.lanes
    + 8 * b2n x.pausedCtrl.isSome + 4 * b2n x.pausedData.isSome + 2 * b2n x.degraded + b2n x.up

def viewPort (p off : Nat) (d : Dev) : Option Nat :=
  let o := opticOf (p / 8) d
  match off with
  | 0x40 => some (portStatus p d)
  | 0x68 => some (d.fused.macs.getD p 0)
  | 0x9C => some (2 ^ 16 * s16 o.power1 + s16 o.power0)
  | _ => none

def queriedWindow (p : Nat) (d : Dev) : Option RecvWindow :=
  (d.net.windows.find? (fun e => e.1 == rd (rNi p 0xC4) d)).map (·.2)

def queriedStream (p : Nat) (d : Dev) : StreamId :=
  let q := rd (rNi p 0x180) d
  ⟨p / 24, fieldOf q 13 12, q % 2 ^ 12⟩

def streamState (k : StreamId) (d : Dev) : Nat :=
  let t := txOf k d
  if t.broken then 3 else if t.held then 2 else if t.used || d.net.rx.any (fun e => e.1 == k) then 1 else 0

def viewNetwork (p off : Nat) (d : Dev) : Option Nat :=
  let k := queriedStream p d
  match off with
  | 0xC4 => some (rd (rNi p 0xC4) d + (match queriedWindow p d with | some w => 2 ^ 31 + 2 ^ 8 * w.ctx | none => 0))
  | 0xC8 => some (match queriedWindow p d with | some w => w.base | none => 0)
  | 0xD0 => some (match queriedWindow p d with | some w => w.length | none => 0)
  | 0x180 => some (rd (rNi p 0x180) d + 2 ^ 30 * streamState k d)
  | 0x184 => some (txOf k d).next
  | 0x188 => some (txOf k d).cum
  | 0x18C => some (rxOf k d).cum
  | 0x190 => some (match (txOf k d).rate with | some r => r / 2 ^ 16 | none => 0)
  | _ => none

def viewPool (side page off : Nat) (d : Dev) : Option Nat :=
  if page = 0 then
    match off with
    | 0x40 => some (262144 - sumNat ((List.range 120).map (fun q => depthOf side q d + (poolOf side d).lostCells.get 0 q)))
    | 0x44 => some (sumNat ((List.range 120).map (fun q => reserveOf side q d)))
    | _ => none
  else if (off - 0x40) % 0x10 = 0 then some (depthOf side ((off - 0x40) / 0x10) d)
  else none

def viewReduction (side off : Nat) (d : Dev) : Option Nat :=
  if off = 0x40 then
    let l := unitsUsable side d
    some (2 ^ 16 * l.length + l.foldl (fun n i => n + 2 ^ i) 0)
  else none

def viewCheck (r off : Nat) (d : Dev) : Option Nat :=
  if off < 0x100 then none else
  let h := 4 * r + (off - 0x100) / 0x40
  let t := checkTx h d
  let x := checkRx h d
  match (off - 0x100) % 0x40 with
  | 0x00 => some (2 ^ 30 * b2n t.open_ + t.chunkId % 2 ^ 26)
  | 0x04 => some (t.bytes % 2 ^ 21)
  | 0x08 => some t.value.toNat
  | 0x10 => some (2 ^ 30 * b2n x.open_ + 2 ^ 27 * x.result + x.chunkId % 2 ^ 26)
  | 0x14 => some (x.bytes % 2 ^ 21)
  | 0x18 => some x.value.toNat
  | 0x20 => some x.received.toNat
  | 0x28 => some x.base
  | _ => none

def passStatus (r : Nat) (d : Dev) : Nat :=
  let x := ringSt r d
  2 ^ 16 * x.launched + 2 ^ 14 * b2n x.gated + 2 ^ 13 * b2n x.aborting + 2 ^ 12 * b2n x.remote + 2 ^ 8 * x.reason + x.result

def viewRing (r off : Nat) (d : Dev) : Option Nat :=
  match off with
  | 0xC0 => some (passStatus r d)
  | 0xF0 => some (if (ringSt r d).begun then (d.now - (ringSt r d).lastProgress) / 1000000 else 0)
  | _ => none

def entryCode (s : EntryState) : Nat := match s with | .idle => 0 | .armed => 1 | .done => 2 | .failed => 3

def viewBelay (side page off : Nat) (d : Dev) : Option Nat :=
  if off < 0x100 then
    (if off = 0x40 then
      some (d.net.belay.filter (fun x => x.1 / 1024 == side && x.2.state == .armed)).length
     else none)
  else
    let b := belayOf side (8 * page + (off - 0x100) / 0x100) d
    match off % 0x100 with
    | 0x04 => some (2 ^ 30 * entryCode b.state + b.fired % 2 ^ 24)
    | 0x2C => some b.work.toNat
    | _ => none

/-! ### Luawick and cores (R85, R135) -/

def viewLuawick (page off : Nat) (d : Dev) : Option Nat :=
  if page = 0 then
    match off with
    | 0x40 => some (linkStatus d.link)
    | 0x5C => some (rd (rLua 0 0x5C) d + b2n d.window.enabled)
    | _ => none
  else if page = 2 ∧ (off - 0x40) % 32 = 0x18 then
    some (b2n (d.queues.any (fun q => q.1 == (off - 0x40) / 32 && q.2.enabled)))
  else if page = 3 ∧ off < 0x140 ∧ (off - 0x40) % 32 = 0x18 then
    some (rd (rLua 3 off) d + 2 * b2n (ringOf ((off - 0x40) / 32) d).enabled)
  else none

/-- Commands that an engine holds. -/
def commandsHeld (c : Core) (e : Nat) : Nat := ((engineOf c e).cmds.filter (fun x => !x.completed)).length

def viewCore (k off : Nat) (d : Dev) : Option Nat :=
  let c := coreOf k d
  match off with
  | 0x40 => some (coordWord k)
  | 0x44 => some (2 ^ 24 * commandsHeld c 2 + 2 ^ 16 * commandsHeld c 1 + 2 ^ 8 * commandsHeld c 0
      + 16 * b2n c.waiting.isSome + 8 * b2n c.kernel.isSome + c.vxctx)
  | 0x48 => some (appliedShade (clusterOf k) d)
  | _ => none

/-! ### The value of a register -/

/-- What a read works out, for a 32-bit register or a whole pair at its _LO offset. -/
def viewOf (fz : Fuses) (logs : Nat) (r : RegId) (d : Dev) : Option Nat :=
  match r.ty with
  | .module => viewModule r.off d
  | .job => viewJob r.off d
  | .power => viewPower r.off d
  | .reset => viewReset r.off d
  | .floorPlan => viewFloor r.page r.off d
  | .controlComplex => viewComplex r.inst r.off d
  | .managementView => viewMgmt fz logs r.off d
  | .dieController => viewDie r.inst r.page r.off d
  | .memoryController => viewMemory r.inst r.page r.off d
  | .updateEngine => viewUpdate r.inst r.page r.off d
  | .port => viewPort r.inst r.off d
  | .networkInterface => viewNetwork r.inst r.off d
  | .queuePool => viewPool r.inst r.page r.off d
  | .reduction => viewReduction r.inst r.off d
  | .checkContexts => viewCheck r.inst r.off d
  | .ring => viewRing r.inst r.off d
  | .belay => viewBelay r.inst r.page r.off d
  | .counters => none
  | .luawick => viewLuawick r.page r.off d
  | .core => viewCore r.inst r.off d

/-- What the registers of lead-owned pages read, of those that a read works out (R443). Of the management view only the time
of silence could change while no lead runs. -/
def frozenViews (d : Dev) : List (RegId × Nat) :=
  let pages : List PageId := [pModule, pJob, pPower, pReset, pComplex 0, pComplex 1]
  (⟨.managementView, 0, 0, 0x44⟩ :: pages.flatMap (fun p => (List.range 0x160).map (fun i => (⟨p.ty, p.inst, 0, 0x40 + 4 * i⟩ : RegId)))).filterMap
    (fun r => (viewOf d.fused 0 r d).map (fun v => (r, v)))

/-- What a read works out: in the safe state the frozen value, LIMIT_CAUSE apart, which reads with SAFE_STATE (R443). -/
def readView (fz : Fuses) (logs : Nat) (r : RegId) (d : Dev) : Option Nat :=
  match if d.lead.safe then d.lead.frozen.find? (fun e => e.1 == r && r != rPower 0x58) else none with
  | some e => some e.2
  | none => viewOf fz logs r d

/-- The 64 bits of the pair whose _LO half is `r`. -/
def pairValue (fz : Fuses) (logs : Nat) (r : RegId) (d : Dev) : Nat :=
  match readView fz logs r d with
  | some v => v % 2 ^ 64
  | none => rd64 r d

/-- The value of a block register: reserved offsets and write-only registers read 0 (R8). -/
def blockValue (fz : Fuses) (logs : Nat) (r : RegId) (d : Dev) : Nat :=
  match rowAt r with
  | some row =>
    if row.acc = .wo then 0
    else if row.wide then pairValue fz logs r d % 2 ^ 32
    else match readView fz logs r d with
      | some v => v % 2 ^ 32
      | none => rd r d
  | none => if isHi r then pairValue fz logs { r with off := r.off - 4 } d / 2 ^ 32 else 0

end Sys2Proof.Machine
end

