-- ==== Sys2Proof/Machine/Complexes.lean ====
section
/-!
DEFINITION. The control cycle, the rope, surrender, takeover and the safe state (R430 to R449).
-/

namespace Sys2Proof.Machine

def modLead (f : Lead → Lead) (d : Dev) : Dev := { d with lead := f d.lead }

/-- The complex in a role. -/
def inRole (r : Role) (d : Dev) : Option Nat := [0, 1].find? (fun i => (complexOf i d).role == r)

/-! ### Commands on pages of the lead (R39, R432) -/

/-- A command that a block type does not define. -/
def undefinedCommand (p : PageId) (code arg : Nat) (d : Dev) : Dev := pageCommand p code arg false true true (fun x => x) d

/-- The judgement of one command that waited in the latch of its page. -/
def leadCommand (p : PageId) (c : PageCmd) (d : Dev) : Dev :=
  match p.ty, c.code with
  | .job, 0x40 => cmdAttach c.arg d
  | .job, 0x41 => cmdDetach c.arg d
  | .job, 0x42 => cmdOpenContext c.arg d
  | .job, 0x43 => cmdCloseContext c.arg d
  | .power, 0x40 => cmdApplyTargets c.arg d
  | .reset, 0x40 => cmdRequestReset c.arg d
  | .dieController, 4 => cmdRetire p c.arg d
  | _, _ => undefinedCommand p c.code c.arg d

def judgeLatch (d : Dev) (e : PageId × PageCmd) : Dev := leadCommand e.1 e.2 d

/-! ### The safe state and surrender (R438, R442) -/

/-- The record of the last takeover: reason, outcome, time (R449). -/
def recordTakeover (reason outcome us since : Nat) (d : Dev) : Dev :=
  { d with
    always := { d.always with
      lastTakeover := 2 ^ 28 * reason + 2 ^ 24 * outcome + min us 0xFFFF, lastTakeoverTime := since } }

/-- Always-on hardware takes over: both complexes are fenced, the pages of the lead keep their last values (R443), and source
DOUBLE_FAILURE is raised. -/
def enterSafe (reason since : Nat) (d : Dev) : Dev :=
  let d1 := recordTakeover reason 1 0 since { d with always := { d.always with leadSelect := none } }
  let d2 := setRole 1 .fenced (setRole 0 .fenced
    (modLead (fun l => { l with safe := true, frozen := frozenViews d, cycle := none, takeover := none, handover := false }) d1))
  requestReset 2 (settleLimit (settleAlert (modMgmt (fun m => { m with incoming := none, attest := none }) d2)))

/-- The commands of a cycle that was not released wait again (R438, R444). -/
def dropCycle (l : Lead) : Lead :=
  { l with
    latches := (match l.cycle with | some c => c.judged | none => []) ++ l.latches
    cycle := none }

/-- The lead gives up: the second takes over, or there is none. -/
def surrender (lead reason : Nat) (d : Dev) : Dev :=
  let d1 := if reason ≤ 4 then wr (rComplex lead 0x74) reason d else d
  let first := match d.lead.takeover with | some t => t.passed | none => false
  match inRole .second d1 with
  | some _ =>
    if first then enterSafe reason d.now d1
    else
      endOrder 2 false (setRole lead .fenced (modMgmt (fun m => { m with incoming := none, attest := none })
        (modLead (fun l => { dropCycle l with takeover := some ⟨lead, reason, d.now, false, false⟩, handover := false })
          { d1 with always := { d1.always with leadSelect := none } })))
  | none => enterSafe reason d.now d1

/-! ### The cycle (R431 to R435, R440, R444) -/

/-- The new lead's first cycle ends (R440). -/
def finishTakeover (lead : Nat) (t : TakeoverSt) (d : Dev) : Dev :=
  let d1 := modLead (fun l => { l with takeover := none, missed := [], heard := [], watchFrom := d.now })
    { d with always := { d.always with otherTakeovers := (d.always.otherTakeovers + 1) % 65536 } }
  let d2 := recordTakeover t.reason 0 ((d.now - t.since) / 1000) t.since d1
  let cause : Cause := if t.reason = 4 ∨ t.reason = 5 then .hang else .selfFault
  mgmtEvent 5 (raise (pComplex lead) 16 (retireUnit (uComplex t.old) cause d2))

/-- The outputs of a cycle are released. -/
def releaseCycle (lead : Nat) (m : CycleInputs) (judged : List (PageId × PageCmd)) (d : Dev) : Dev :=
  let d1 := judged.foldl judgeLatch (cyclePower m (addWrap (rComplex lead 0x48) 1 (modLead (fun l => { l with cycleEnd := d.now }) d)))
  match d1.lead.takeover with
  | some t => if t.passed && !d1.lead.handover then finishTakeover lead t d1 else d1
  | none => d1

/-- The mirror record goes out: its number, and its size, which the manual does not fix (log entry 7). -/
def sendRecord (lead : Nat) (m : CycleInputs) (d : Dev) : Dev :=
  let size := (drawFree d).toNat % 8193
  tickFree (wr (rComplex lead 0x58) size (addWrap (rComplex lead 0x50) 1
    (modLead (fun l => { l with cycle := some ⟨m, l.latches, false, d.now⟩, latches := [] }) d)))

/-- A lead that has lost its second releases the outputs that waited for its acknowledgement (R432). -/
def freeCycle (lead : Nat) (d : Dev) : Dev :=
  match d.lead.cycle, inRole .second d with
  | some c, none => releaseCycle lead c.inputs c.judged (modLead (fun l => { l with cycle := none }) d)
  | _, _ => d

def runCycle (m : CycleInputs) (d0 : Dev) : Dev :=
  match leadRuns d0 with
  | none => d0
  | some i =>
    let d := freeCycle i d0
    if d.lead.cycle.isSome then d else
    let d1 := (if m.overrun then bump (rComplex i 0x4C) else id) (addSat (rComplex i 0x70) m.corrected d)
    match m.failedCheck with
    | some code => surrender i code d1
    | none =>
      if (inRole .second d1).isSome then sendRecord i m d1
      else releaseCycle i m d1.lead.latches (modLead (fun l => { l with latches := [] }) d1)

/-- CONTROL_CYCLE (R431, R432, R434, R437). -/
def execControlCycle (m : CycleInputs) (s : State) : Host.Outcome State Fault Refusal :=
  onDev (fun d => runCycle m (countEnergy m d)) s

/-- The second is fenced and retired, and the module goes on without (R435). -/
def loseSecond (lead second : Nat) (d : Dev) : Dev :=
  mgmtEvent 6 (raise (pComplex lead) 17 (retireUnit (uComplex second) .selfFault (setRole second .fenced d)))

/-- The second acknowledges the record, and the cycle's outputs are released. -/
def takeRecord (crcOk : Bool) (d0 : Dev) : Dev :=
  match leadRuns d0, d0.lead.cycle, inRole .second d0 with
  | some i, some c, some j =>
    let d := modLead (fun l => { l with recordAt := d0.now }) d0
    if crcOk then
      let n := rd (rComplex i 0x50) d
      releaseCycle i c.inputs c.judged (modLead (fun l => { l with cycle := none }) (wr (rComplex j 0x50) n d))
    else d
  | _, _, _ => d0

/-- MIRROR_RECORD (R435). -/
def execMirrorRecord (crcOk : Bool) (s : State) : Host.Outcome State Fault Refusal := onDev (takeRecord crcOk) s

/-- The acknowledgement does not come within 10 µs: the record goes once more, then the second is lost. -/
def resendRecord (d : Dev) : Dev :=
  match leadRuns d, d.lead.cycle, inRole .second d with
  | some i, some c, some j =>
    if d.now - c.sentAt < 10000 then d
    else if c.resent then loseSecond i j (releaseCycle i c.inputs c.judged (modLead (fun l => { l with cycle := none }) (setRole j .fenced d)))
    else bump (rComplex i 0x54) (modLead (fun l => { l with cycle := some { c with resent := true, sentAt := d.now } }) d)
  | _, _, _ => d

/-- ROPE_RESEND (R435). -/
def execRopeResend (s : State) : Host.Outcome State Fault Refusal := onDev resendRecord s

/-! ### Takeover (R437 to R441, R446) -/

/-- 300 µs pass without a cycle end. -/
def watchdogTrips (d : Dev) : Dev :=
  match leadRuns d with
  | some i => if 300000 ≤ d.now - d.lead.cycleEnd then surrender i 4 d else d
  | none => d

/-- WATCHDOG (R437, R438). -/
def execWatchdog (s : State) : Host.Outcome State Fault Refusal := onDev watchdogTrips s

/-- No record has arrived for 300 µs. -/
def silenceHeard (d : Dev) : Dev :=
  match leadRuns d, inRole .second d with
  | some i, some _ => if 300000 ≤ d.now - d.lead.recordAt then surrender i 5 d else d
  | _, _ => d

/-- SILENCE (R439). -/
def execSilence (s : State) : Host.Outcome State Fault Refusal := onDev silenceHeard s

def claimLead (d : Dev) : Dev :=
  match d.lead.takeover with
  | some t =>
    if d.lead.handover || t.claimed then d
    else modLead (fun l => { l with takeover := some { t with claimed := true } })
      { d with always := { d.always with leadSelect := some (1 - t.old) } }
  | none => d

/-- TAKEOVER (R439, R440). -/
def execTakeover (s : State) : Host.Outcome State Fault Refusal := onDev claimLead s

/-- A complex becomes the lead; its watchdog starts. -/
def becomeLead (i : Nat) (d : Dev) : Dev :=
  setState (pComplex i) .active .work (setRole i .lead { d with lead := { d.lead with cycleEnd := d.now }, always := { d.always with leadSelect := some i } })

/-- The takeover check of a planned handover ends (R446). -/
def endHandover (t : TakeoverSt) (passed : Bool) (d : Dev) : Dev :=
  let new := 1 - t.old
  let d1 := modLead (fun l => { l with takeover := none, handover := false }) d
  if passed then
    let d2 := recordTakeover 6 0 ((d.now - t.since) / 1000) t.since
      { d1 with always := { d1.always with plannedTakeovers := (d1.always.plannedTakeovers + 1) % 65536 } }
    let d3 := setState (pComplex t.old) .loading .mgmtOrder (loadComplex t.old .rejoining
      ((allTypes.filter leadOwned).foldl (fun x ty => changeVersion (complexOf new d).release ty x) (becomeLead new d2)))
    endOrder 2 true (modLead (fun l => { dropCycle l with missed := [], heard := [], watchFrom := d.now }) d3)
  else
    endOrder 2 false (raise (pComplex t.old) 19 (loseSecond t.old new (recordTakeover 6 2 0 t.since d1)))

def endCheck (passed : Bool) (d : Dev) : Dev :=
  if !firmwareRuns d || d.lead.safe then d else
  match d.lead.takeover with
  | none => d
  | some t =>
    if d.lead.handover then endHandover t passed d
    else if !t.claimed || t.passed then d
    else if passed then
      becomeLead (1 - t.old) (modLead (fun l => { l with takeover := some { t with passed := true } }) d)
    else enterSafe t.reason t.since d

/-- The new lead's control firmware is one that has not run since its set was activated (R476, R480). -/
def handoverLog (d : Dev) : List LogEntry :=
  { event := 2, part := 0, svn := 0, time := d.now, hash := zeros 32 } ::
    (if d.unrun.contains 1 then [partEntry 1 d] else [])

/-- TAKEOVER_CHECK_END (R441, R442, R446, R480). -/
def execTakeoverCheckEnd (passed : Bool) (s : State) : Host.Outcome State Fault Refusal :=
  let d := s.dev
  if d.boot.phase != .unpowered && firmwareRuns d && !d.lead.safe && d.lead.takeover.isSome && d.lead.handover && passed then
    .next { s with
      mlog := (handoverLog d).foldl (fun l e => logEntry e l) s.mlog
      dev := endCheck passed { d with unrun := d.unrun.filter (· != 1) } }
  else onDev (endCheck passed) s

/-! ### Rejoining (R436, R447, R448) -/

/-- Control firmware reads its own RECORD_FORMAT and the one before it. -/
def readsFormat (reader writer : Complex) : Bool := writer.format == reader.format || writer.format + 1 == reader.format

def rejoin (d : Dev) : Dev :=
  match leadRuns d, inRole .rejoining d with
  | some i, some j =>
    if readsFormat (complexOf j d) (complexOf i d) then
      settleStart (endOrder 3 true (raise (pComplex j) 18 (setState (pComplex j) .ready .testPassed (setRole j .second
        (modLead (fun l => { l with recordAt := d.now }) d)))))
    else settleStart (endOrder 3 false (loseSecond i j d))
  | _, _ => d

/-- REJOINED (R436, R448). -/
def execRejoined (s : State) : Host.Outcome State Fault Refusal := onDev rejoin s

end Sys2Proof.Machine
end

