-- ==== Sys2Proof/Machine/Memory.lean ====
section
/-!
DEFINITION. The commands of the memory controllers (R200 to R221): the address map, scrubbing, retraining, injection and
self-refresh.
-/

namespace Sys2Proof.Machine

/-! ### Scrub passes (R202, R204) -/

/-- Groups of a channel (R199). -/
def channelGroups : Nat := 15625000

/-- SCRUB_PERIOD as it acts (R45). -/
def scrubPeriod (c : Nat) (d : Dev) : Nat := clampReg 0 168 (rd (rMem c 0 0x68) d)

/-- A pass begins from the first group, with the counts of R204 at 0. -/
def beginPass (c : Nat) (fast on : Bool) (d : Dev) : Dev :=
  putMemCtl c { memCtl c d with scrubbing := on, fast := fast, position := 0, passCount := [], passRetrained := [] } d

/-- A write of SCRUB_PERIOD: 0 ends the pass in progress; a SCRUB_NOW whose pass it ends has FAILED (log entry 64). -/
def periodWritten (c : Nat) (d : Dev) : Dev :=
  let m := memCtl c d
  if d.memMap.isNone then d
  else if scrubPeriod c d = 0 then endCmdIf (pMem c) 0x40 false (putMemCtl c { m with scrubbing := false, fast := false } d)
  else if m.scrubbing then d else beginPass c false true d

/-- A pass runs: the controller is in use, and neither QUIESCED nor in self-refresh. -/
def passRuns (c : Nat) (d : Dev) : Bool :=
  decide (c < 24) && (memCtl c d).scrubbing && !(memCtl c d).selfRefresh && inState (pMem c) [.ready, .active, .training] d

/-- Groups that the pass reads now: one of each READY channel that the map uses (R202). -/
def scrubbedGroups (c : Nat) (d : Dev) : List (Nat × Nat) :=
  ((List.range 16).filter (fun j => (unitRec (uChannel (16 * c + j)) d).state == .ready)).map
    (fun j => (16 * c + j, (memCtl c d).position))

/-- The pass is complete. -/
def endScrubPass (c : Nat) (d : Dev) : Dev :=
  let d1 := bump (rMem c 0 0x6C) d
  if (memCtl c d1).fast then endCmdIf (pMem c) 0x40 true (beginPass c false (scrubPeriod c d1 != 0) d1)
  else beginPass c false (scrubPeriod c d1 != 0) d1

def scrubStep (c : Nat) (errors : DeviceErrors) (dev : Dev) : Dev :=
  let d := errors.foldl addError dev
  if !passRuns c d then d else
  let d1 := (scrubbedGroups c d).foldl (fun x g => scrubGroup g.1 g.2 x) d
  let m := memCtl c d1
  let d2 := putMemCtl c { m with position := m.position + 1 } d1
  if channelGroups ≤ m.position + 1 then endScrubPass c d2 else d2

/-- SCRUB_STEP (R202 to R204): errors that have come about in the devices since the last step are an operand. -/
def execScrubStep (c : Nat) (errors : DeviceErrors) (s : State) : Host.Outcome State Fault Refusal := onDev (scrubStep c errors) s

def cmdScrubNow (c arg : Nat) (d : Dev) : Dev :=
  pageCommand (pMem c) 0x40 arg true (inState (pMem c) [.ready, .active] d) true (beginPass c true true) d

/-- SCRUB_NOW (R202, R221). -/
def execScrubNow (c : Nat) (s : State) : Host.Outcome State Fault Refusal := onDev (cmdScrubNow c 0) s

/-! ### The address map (R198, R200, R201) -/

/-- The controller has finished its training, or takes no part. -/
def trained (c : Nat) (d : Dev) : Bool :=
  match stateOf (pMem c) d with
  | .training => (trainingChannels c d).isEmpty
  | .off => !freshCause (pageOf (pMem c) d).cause
  | .retired => true
  | _ => false

/-- Engines whose controller is now in use. -/
def readyEngine (c : Nat) (d : Dev) : Dev :=
  if starting (uEngine c) .loading d then becomeReady (pUpd c) .testPassed d else d

def fixMap (d : Dev) : Dev :=
  if !bringsUp d || d.memMap.isSome || !(List.range 24).all (fun c => trained c d) then d else
  let ctls := (List.range 24).filter (fun c => starting (uController c) .training d)
  let map : MemMap :=
    { share := if 1000 < d.flash.mapLocal then 0 else d.flash.mapLocal,
      usable := (List.range 384).filter (fun n => (unitRec (uChannel n) d).state == .ready && ctls.contains (n / 16)) }
  let d1 := if 1000 < d.flash.mapLocal then blockError (pMem 0) 2 d else d
  let d2 := { d1 with
    memMap := some map
    boot := { d1.boot with memGuaranteed := true } }
  let d3 := ctls.foldl (fun x c => readyEngine c (beginPass c false (scrubPeriod c x != 0) (becomeReady (pMem c) .testPassed x))) d2
  settleStart (judgeGuarantee false true (wr (rModule 0x5C) (orBit (rd (rModule 0x5C) d3) 1) d3))

/-- MAP_FIXED (R200, R201, R365). -/
def execMapFixed (s : State) : Host.Outcome State Fault Refusal := onDev fixMap s

/-- A write of MAP_LOCAL_NEXT (R218, R478). -/
def setMapLocal (value : Nat) (d : Dev) : Dev :=
  { d with
    flash := { d.flash with
      mapLocal := value % 1024
      formats := d.flash.formats.set 3 (Config.schemaFormat (releaseOf d.flash.active.manifest) 3) } }

/-- MAP_LOCAL_NEXT (R218). -/
def execMapLocalNext (value : Word) (s : State) : Host.Outcome State Fault Refusal :=
  onDev (whenNegotiated (pMem 0) (setMapLocal value.toNat)) s

/-! ### Retraining (R204 to R211) -/

/-- The controller is in use, with its devices awake. -/
def devicesAwake (c : Nat) (d : Dev) : Bool :=
  decide (c < 24) && inState (pMem c) [.ready, .active, .quiesced] d && !(memCtl c d).selfRefresh

def readDrift (c : Nat) (drifted : List Nat) (d : Dev) : Dev :=
  if !devicesAwake c d then d else
  let js := drifted.filter (fun j => decide (j < 16) && (unitRec (uChannel (16 * c + j)) d).state == .ready)
  putMemCtl c { memCtl c d with wanted := js.foldl (fun l j => addOnce j l) (memCtl c d).wanted } d

/-- WCK2DQ_READ (R189, R206): channels that ask for a retrain. -/
def execWck2dqRead (c : Nat) (drifted : List Nat) (s : State) : Host.Outcome State Fault Refusal := onDev (readDrift c drifted) s

def readMr4 (c rate : Nat) (hot : Bool) (d : Dev) : Dev :=
  if !devicesAwake c d then d else
  let d1 := putMemCtl c { memCtl c d with refreshRate := rate } d
  if hot then raise (pMem c) 21 d1 else d1

/-- MR4_READ (R205). -/
def execMr4Read (c : Nat) (rate : Nat) (hot : Bool) (s : State) : Host.Outcome State Fault Refusal := onDev (readMr4 c rate hot) s

/-- An automatic retrain of a channel may start (R206). -/
def mayRetrain (c j : Nat) (d : Dev) : Bool :=
  devicesAwake c d && decide (j < 16) && (memCtl c d).wanted.contains j && (pageOf (pMem c) d).cmd.isNone
    && (trainingChannels c d).isEmpty && (unitRec (uChannel (16 * c + j)) d).state == .ready

def startChannel (c j : Nat) (d : Dev) : Dev :=
  if mayRetrain c j d then
    putMemCtl c { memCtl c d with wanted := (memCtl c d).wanted.filter (· != j), retraining := some j }
      (trainChannel (16 * c + j) (unitRec (uChannel (16 * c + j)) d).cause d)
  else d

/-- CHANNEL_RETRAIN_START (R206, R476). -/
def execChannelRetrainStart (c : Nat) (j : Nat) (s : State) : Host.Outcome State Fault Refusal :=
  onDevPart 6 (mayRetrain c j) (startChannel c j) s

/-- A channel's training ends at bring-up (R210). -/
def endFirstTraining (failed : List Nat) (n : Nat) (d : Dev) : Dev :=
  if failed.contains (n % 16) then failUnit (uChannel n) .trainingFailed d else setUnit (uChannel n) .ready .testPassed d

/-- A channel's retrain ends (R207, R209): the channel is back as it was, or lost. -/
def endChannel (failed : List Nat) (n : Nat) (d : Dev) : Dev :=
  if failed.contains (n % 16) then retireUnit (uChannel n) .trainingFailed d
  else setUnit (uChannel n) (unitRec (uChannel n) d).back (unitRec (uChannel n) d).backCause d

/-- What a RETRAIN names can still train. -/
def canTrain (c arg : Nat) (d : Dev) : Bool :=
  inState (pMem c) [.ready, .active, .quiesced] d
    && (bitOf arg 8 || (unitRec (uChannel (16 * c + arg % 256)) d).state == .ready)

/-- A retrain of channels `ns` has ended, or its last channel was lost: the RETRAIN that waited behind it starts, or the one in
progress ends, FAILED where a channel that it included was lost (R206, R209, R216). -/
def endRetrainCmd (c : Nat) (failed : List Nat) (d : Dev) : Dev :=
  match (pageOf (pMem c) d).cmd with
  | some ⟨6, arg⟩ =>
    if (memCtl c d).behind then
      if canTrain c arg d then trainNow c arg d else endCmd (pMem c) false (putMemCtl c { memCtl c d with behind := false } d)
    else
      let lost := if bitOf arg 8 then !failed.isEmpty
        else failed.contains (arg % 256) || (unitRec (uChannel (16 * c + arg % 256)) d).state == .retired
      endCmd (pMem c) (!lost) d
  | _ => d

def endRetrain (c : Nat) (failed : List Nat) (d : Dev) : Dev :=
  let ns := trainingChannels c d
  if 24 ≤ c ∨ (memCtl c d).selfRefresh then d
  else if ns.isEmpty then
    if starting (uController c) .training d then d
    else endRetrainCmd c [] (if stateOf (pMem c) d = .training then returnBack (pMem c) d else d)
  else if starting (uController c) .training d then
    let d1 := ns.foldl (fun x n => endFirstTraining failed n x) d
    settleStart (if (liveChannels c d1).isEmpty then orphansOf (uController c) (failUnit (uController c) .trainingFailed d1) else d1)
  else
    let bad := (ns.map (· % 16)).filter (fun j => failed.contains j)
    let d1 := bump (rMem c 0 0x74) (putMemCtl c { memCtl c d with retraining := none } d)
    let d2 := ns.foldl (fun x n => endChannel failed n x) d1
    let d3 := if bad.length = ns.length then d2 else raise (pMem c) 19 d2
    let d4 := if stateOf (pMem c) d3 = .training then returnBack (pMem c) d3 else d3
    releaseAll c (endRetrainCmd c bad d4)

/-- CHANNEL_RETRAIN_END (R200, R207, R209, R210). The channels that failed, by their number on the controller, are an
operand. -/
def execChannelRetrainEnd (c : Nat) (failed : List Nat) (s : State) : Host.Outcome State Fault Refusal :=
  onDev (endRetrain c failed) s

/-! ### Injection (R219) -/

/-- The checks of an injection. -/
def injectOk (c value : Nat) (d : Dev) : Bool :=
  let a := rd64 (rMem c 0 0x80) d
  let kind := fieldOf value 9 8
  let bit := value % 256
  inMemory a 1 d && decide (bit ≤ 143) && (kind != 1 || decide (bit ≤ 142))
    && (match channelAt a d with
      | some n => n / 16 == c && (unitRec (uChannel n) d).state == .ready
      | none => false)

/-- A write of INJECT_CTRL: ARMED is set by writing 1 where the checks hold. -/
def writeInject (c value : Nat) (d : Dev) : Dev :=
  let armed := bitOf (rd (rMem c 0 0x88) d) 31
  if bitOf value 31 = false then wr (rMem c 0 0x88) (value % 1024 + 2 ^ 31 * b2n armed) d
  else if injectOk c value d then wr (rMem c 0 0x88) (value % 1024 + 2 ^ 31) d
  else blockError (pMem c) 1 (wr (rMem c 0 0x88) (value % 1024) d)

/-- INJECT_CTRL (R219). -/
def execInjectCtrl (c : Nat) (value : Word) (s : State) : Host.Outcome State Fault Refusal :=
  onDev (whenNegotiated (pMem c) (writeInject c value.toNat)) s

/-! ### Self-refresh (R215, R464) -/

/-- Every usable controller's devices are in self-refresh. -/
def memoryAsleep (d : Dev) : Bool :=
  (List.range 24).all (fun c => inState (pMem c) [.off, .retired] d || (memCtl c d).selfRefresh)

/-- ORDER_POWER_OFF is done once memory sleeps: flash work is done within its command (R464). -/
def settlePowerOff (d : Dev) : Dev := if d.mgmt.powerOff && memoryAsleep d then endOrder 1 true d else d

def enterSelfRefresh (c : Nat) (d : Dev) : Dev :=
  let g := pageOf (pMem c) d
  if decide (c < 24) && (g.holds.contains .coolant || g.holds.contains .powerOff) && !inState (pMem c) [.off, .retired] d
      && !(memCtl c d).selfRefresh then
    settlePowerOff (raise (pMem c) 20 (putMemCtl c { memCtl c d with selfRefresh := true } d))
  else d

/-- SELF_REFRESH_ENTRY (R215, R464). -/
def execSelfRefreshEntry (c : Nat) (s : State) : Host.Outcome State Fault Refusal := onDev (enterSelfRefresh c) s

end Sys2Proof.Machine
end

