-- ==== Sys2Proof/Machine/Pages.lean ====
section
/-!
DEFINITION. The commands that every kind of page shares (02_register_pages.md): the common commands, their ends, faults, and the
registers of the header.
-/

namespace Sys2Proof.Machine

/-! ### Common commands -/

/-- QUIESCE (R37, R508). -/
def execQuiesce (ty : BlockType) (inst : Nat) (s : State) : Host.Outcome State Fault Refusal :=
  onDev (cmdQuiesce ⟨ty, inst⟩ 0) s

/-- QUIESCED_AT_SAFE_POINT (R37, R508). -/
def execQuiescedAtSafePoint (ty : BlockType) (inst : Nat) (s : State) : Host.Outcome State Fault Refusal :=
  onDev (reachSafePoint ⟨ty, inst⟩) s

/-- RESUME (R508, R464). -/
def execResume (ty : BlockType) (inst : Nat) (s : State) : Host.Outcome State Fault Refusal :=
  onDev (cmdResume ⟨ty, inst⟩ 0) s

/-- RETEST (R37, R508); a port's retest may start new port firmware (R476). -/
def execRetest (ty : BlockType) (inst : Nat) (s : State) : Host.Outcome State Fault Refusal :=
  onDevPart 5 (fun d => ty == .port && stateOf ⟨ty, inst⟩ (cmdRetest ⟨ty, inst⟩ 0 d) == .testing)
    (cmdRetest ⟨ty, inst⟩ 0) s

/-- RETIRE (R37, R43, R372). -/
def execRetire (ty : BlockType) (inst : Nat) (arg : Nat) (s : State) : Host.Outcome State Fault Refusal :=
  onDev (cmdRetire ⟨ty, inst⟩ arg) s

/-- LOAD (R37, R136, R243). -/
def execLoad (ty : BlockType) (inst : Nat) (arg : Nat) (s : State) : Host.Outcome State Fault Refusal :=
  onDev (cmdLoad ⟨ty, inst⟩ arg) s

/-- RETRAIN (R38, R87, R208, R288); it may start new port or memory-training firmware (R476). -/
def execRetrain (ty : BlockType) (inst : Nat) (arg : Nat) (s : State) : Host.Outcome State Fault Refusal :=
  onDevPart (if ty = .port then 5 else 6)
    (fun d => (ty == .port || ty == .memoryController) && inProgress ⟨ty, inst⟩ 6 (cmdRetrain ⟨ty, inst⟩ arg d))
    (cmdRetrain ⟨ty, inst⟩ arg) s

/-! ### Faults (R16, R131, R213, R243, R250) -/

/-- A page that is in use goes to FAULT; a command in progress ends FAILED. -/
def pageFault (p : PageId) (c : Cause) (d : Dev) : Dev :=
  if inState p [.ready, .active, .quiesced] d then moveTo p .fault c (endCmd p false d) else d

/-- A command of a core's engines that runs fails its engine's self-check: FAILED, completed before the page moves (R131). Which
command that is, or whether the fault lies elsewhere in the core, is free (log entry 79). -/
def failCheck (k : Nat) (d : Dev) : Dev :=
  let l := [0, 1, 2].flatMap (fun e => ((engineOf (coreOf k d) e).cmds.filter (fun c => c.started && !c.completed)).map (fun c => (e, c.ticket)))
  match l[(drawFree d).toNat % (l.length + 1)]? with
  | some x => completeCmd k x.1 x.2 (endWork k x.1 x.2 .failed 0 (tickFree d))
  | none => tickFree d

/-- The owner's answer to a block's report: FAULT where the block has a RETEST to follow, else retirement. -/
def reportFault (u : Nat) (d : Dev) : Dev :=
  let i := unitIndex u
  if !unitExists u then d else
  match unitClass u with
  | 0x1 => if coreTakes i d then coreFault i .selfFault (failCheck i d) else d
  | 0x5 => pageFault (pMem i) .selfFault d
  | 0x7 => if inState (pUpd i) [.ready, .active, .quiesced] d then pageFault (pUpd i) .selfFault (tearRun i d) else d
  | 0x8 => pageFault (pPort i) .selfFault d
  | 0xD => d
  | _ => retireUnit u .selfFault d

/-- SELF_FAULT (R16). A control complex finds its own faults by R437. -/
def execSelfFault (unit : Nat) (s : State) : Host.Outcome State Fault Refusal := onDev (reportFault unit) s

/-- The owner's own retest of a block in FAULT (R213, R243, R250). -/
def ownRetest (u : Nat) (d : Dev) : Dev :=
  match unitPage u with
  | some p =>
    let g := pageOf p d
    if g.state = .fault ∧ (g.cause = .selfFault ∨ g.cause = .trainingFailed)
        ∧ (p.ty = .memoryController ∨ p.ty = .updateEngine ∨ p.ty = .port) then startRetest p false d
    else d
  | none => d

/-- OWNER_RETEST (R213, R243, R250). -/
def execOwnerRetest (unit : Nat) (s : State) : Host.Outcome State Fault Refusal := onDev (ownRetest unit) s

/-! ### Header registers -/

/-- PAGE_NEGOTIATE (R51). -/
def execPageNegotiate (ty : BlockType) (inst : Nat) (value : Word) (s : State) : Host.Outcome State Fault Refusal :=
  onDev (fun d => (negotiate ⟨ty, inst⟩ value.toNat d).1) s

/-- A write of PAGE_ERROR: any bit set clears the whole register (R31). -/
def writeError (p : PageId) (value : Word) (d : Dev) : Dev :=
  if pageSilent p d || value == 0 then d else putPage p { pageOf p d with errCount := 0, errFirst := 0 } d

/-- PAGE_ERROR (R31). -/
def execPageError (ty : BlockType) (inst : Nat) (value : Word) (s : State) : Host.Outcome State Fault Refusal :=
  onDev (writeError ⟨ty, inst⟩ value) s

/-- Bits of PAGE_EVENTS and of its mask. -/
def eventBits : Word := 0xFFFF001F

/-- A write of PAGE_EVENTS: the bits written as 1 clear, and an event of the same instant prevails (R49). -/
def writeEvents (p : PageId) (value coincident : Word) (d : Dev) : Dev :=
  if pageSilent p d then d else
  let g := pageOf p d
  (List.range 32).foldl (fun x b => if (coincident &&& eventBits).getLsbD b then raise p b x else x)
    (putPage p { g with events := g.events &&& ~~~(value &&& eventBits) } d)

/-- PAGE_EVENTS (R49). -/
def execPageEvents (ty : BlockType) (inst : Nat) (value : Word) (coincident : Word) (s : State) :
    Host.Outcome State Fault Refusal :=
  onDev (writeEvents ⟨ty, inst⟩ value coincident) s

/-- A write of PAGE_EVENT_MASK: a bit set over an event that already stands delivers an entry (R48). -/
def writeMask (p : PageId) (value : Word) (d : Dev) : Dev :=
  if pageSilent p d then d else
  let g := pageOf p d
  let mask := value &&& eventBits
  let d1 := putPage p { g with mask := mask } d
  if mask &&& ~~~g.mask &&& g.events = 0 then d1 else deliver (routeGroup p.ty) (pageEntry p d1) d1

/-- PAGE_EVENT_MASK (R48). -/
def execPageEventMask (ty : BlockType) (inst : Nat) (value : Word) (s : State) : Host.Outcome State Fault Refusal :=
  onDev (writeMask ⟨ty, inst⟩ value) s

/-- NEGOTIATE_ALL (R52, R370). -/
def execNegotiateAll (value : Word) (s : State) : Host.Outcome State Fault Refusal :=
  onDev (whenNegotiated pModule (negotiateEvery value.toNat)) s

end Sys2Proof.Machine
end

