-- ==== Sys2Proof/Machine/Ports.lean ====
section
/-!
DEFINITION. The commands of optical ports (R247 to R253, R256, R280, R281): training, links, laser inputs, frames that are not
the transport's, and pause.
-/

namespace Sys2Proof.Machine

/-! ### Training and links (R249, R250) -/

def endPortTraining (p : Nat) (passed : Bool) (d : Dev) : Dev :=
  if 48 ≤ p then d
  else if starting (uPort p) .training d then
    if !bringsUp d || lightWait p d then d
    else settleStart (if passed then becomeReady (pPort p) .testPassed (countRun (uPort p) true d)
      else failUnit (uPort p) .trainingFailed (countRun (uPort p) false d))
  else if stateOf (pPort p) d = .training then
    if passed then endCmdIf (pPort p) 6 true (returnBack (pPort p) d)
    else endCmdIf (pPort p) 6 false (moveTo (pPort p) .fault .trainingFailed d)
  else if stateOf (pPort p) d = .testing then endRetest (uPort p) (pPort p) passed d
  else d

/-- PORT_TRAINING_DONE (R250, R359). -/
def execPortTrainingDone (p : Nat) (passed : Bool) (s : State) : Host.Outcome State Fault Refusal :=
  onDev (endPortTraining p passed) s

/-- The port's page lets its link be up. -/
def linkWanted (p : Nat) (d : Dev) : Bool := decide (p < 48) && inState (pPort p) [.ready, .active, .quiesced] d

/-- Alignment or FEC lock has been lost for `lasted` µs: a loss longer than LINK_DOWN_HOLD takes the link down; a shorter one
only loses frames. -/
def loseLock (p lasted lanes : Nat) (d : Dev) : Dev :=
  if linkWanted p d && decide (clampReg 10 100000 (rd (rPort p 0x58) d) < lasted) then loseCarrier p (lanes % 16) d else d

/-- LINK_DOWN (R249). -/
def execLinkDown (loss : LockLoss) (s : State) : Host.Outcome State Fault Refusal :=
  onDev (loseLock loss.port loss.lasted loss.lanes) s

/-- The link returns with light on its four lanes. -/
def bringLinkUp (p : Nat) (d : Dev) : Dev :=
  if linkWanted p d && !(portOf p d).up then
    refreshRates (raise (pPort p) 16 (modPort p (fun x => { x with up := true, lanes := 15 }) d))
  else d

/-- LINK_UP (R249). -/
def execLinkUp (p : Nat) (s : State) : Host.Outcome State Fault Refusal := onDev (bringLinkUp p) s

/-- What a port has counted in 100 ms, and signal detect of its lanes at the end. -/
def countFec (p corrected uncorrected lanes : Nat) (d : Dev) : Dev :=
  if !linkWanted p d then d else
  let many := decide (rd (rPort p 0x54) d < uncorrected)
  let d1 := modPort p (fun x => { x with degraded := many, lanes := lanes % 16 })
    (addSat (rPort p 0x50) uncorrected (add64 (rPort p 0x48) corrected d))
  if many then raise (pPort p) 18 d1 else d1

/-- FEC_INTERVAL (R251). -/
def execFecInterval (light : PortLight) (corrected : Nat) (uncorrected : Nat) (s : State) :
    Host.Outcome State Fault Refusal :=
  onDev (countFec light.port corrected uncorrected light.lanes) s

/-! ### Laser inputs (R252, R253, R359) -/

/-- The power at one input of an engine. -/
def inputPower (o : Optic) (i : Nat) : Int := if i = 0 then o.power0 else o.power1

def putOptic (e : Nat) (o : Optic) (d : Dev) : Dev := modNet (fun n => { n with optics := n.optics.set e o }) d

def enginePorts (e : Nat) : List Nat := (List.range 8).map (8 * e + ·)

/-- One measurement of an engine: the first since a start chooses the input. -/
def measureOptic (powers : List Int) (e : Nat) (d : Dev) : Dev :=
  if !usable (uOptical e) d then d else
  let p0 := powers.getD (2 * e) 0
  let p1 := powers.getD (2 * e + 1) 0
  let low := laserLow e d
  let o := opticOf e d
  let input := if d.net.optics.any (fun x => x.1 == e) then o.input else if low ≤ p0 then 0 else 1
  let lost := decide (p0 < low) && decide (p1 < low)
  let low_ := decide ((if input = 0 then p0 else p1) < low)
  let d1 := putOptic e ⟨input, p0, p1, lost, if low_ then (if input = o.input then o.lowSince else none).or (some d.now) else none⟩ d
  if lost && !o.lost then (enginePorts e).foldl (fun x p => raise (pPort p) 20 x) d1 else d1

/-- LASER_CHECK (R252, R253). -/
def execLaserCheck (powers : List Int) (s : State) : Host.Outcome State Fault Refusal :=
  onDev (fun d => settleStart ((List.range 6).foldl (fun x e => measureOptic powers e x) d)) s

/-- The active input has stayed below LASER_LOW for 10 µs, and the spare is at or above it. -/
def switchLaser (e : Nat) (d : Dev) : Dev :=
  let o := opticOf e d
  if decide (e < 6) && usable (uOptical e) d && o.lowSince.any (fun t => decide (t + 10000 ≤ d.now))
      && decide (laserLow e d ≤ inputPower o (1 - o.input)) then
    (enginePorts e).foldl (fun x p => raise (pPort p) 19 x)
      (bump (rPort (8 * e) 0xA0) (putOptic e { o with input := 1 - o.input, lowSince := none } d))
  else d

/-- LASER_SWITCHED (R252). -/
def execLaserSwitched (e : Nat) (s : State) : Host.Outcome State Fault Refusal := onDev (switchLaser e) s

def cmdLaserSelect (p arg : Nat) (d : Dev) : Dev :=
  let e := p / 8
  let i := arg % 2
  pageCommand (pPort p) 0x40 arg true
    (inState (pPort p) [.ready, .active, .quiesced] d && decide (laserLow e d ≤ inputPower (opticOf e d) i))
    true (doneAtOnce (pPort p) (fun x => putOptic e { opticOf e x with input := i, lowSince := none } x)) d

/-- LASER_SELECT (R253, R288). -/
def execLaserSelect (p : Nat) (arg : Nat) (s : State) : Host.Outcome State Fault Refusal := onDev (cmdLaserSelect p arg) s

/-! ### Frames of other protocols (R248, R255, R256) -/

/-- A frame that is not the transport's arrives: the check of its FCS and length first, then whether UDP_DPORT is set (R255,
R257). -/
def otherFrame (p : Nat) (good : Bool) (f : Dev → Dev) (d : Dev) : Dev :=
  if !carries p d then d else
  let d1 := add64 (rPort p 0xB0) 1 d
  if !good then bump (rPort p 0xC0) d1
  else if rd (rPort p 0x80) d = 0 then bump (rPort p 0xC4) d1
  else f d1

/-- The solicitation's target is the port's own address, or the link-local one of the module. -/
def ownTarget (p target : Nat) (d : Dev) : Bool :=
  d.job.attached && (target == addrOf p d.job.rank d || target == 0xFE80 * 2 ^ 112 + identOf d.job.rank d)

/-- The advertisement leaves, in a frame laid out as R254 says (log entry 84). -/
def advertise (p source target : Nat) (d : Dev) : Dev :=
  let mac := d.fused.macs.getD p 0 % 2 ^ 48
  bump (rPort p 0xC8)
    (putOut p (.advertisement p (rd64 (rPort p 0x70) d % 2 ^ 48) mac (tagOf p false d) source target target mac) d)

def answerNeighbor (p : Nat) (good : Bool) (source target : Nat) (d : Dev) : Dev :=
  otherFrame p good (fun x => if ownTarget p target x then advertise p source target x else bump (rPort p 0xC4) x) d

/-- NEIGHBOR_SOLICITATION (R256). -/
def execNeighborSolicitation (p : Nat) (solicitation : Solicitation) (s : State) : Host.Outcome State Fault Refusal :=
  onDev (answerNeighbor p solicitation.good solicitation.source solicitation.target) s

def countOther (p : Nat) (good : Bool) (kind : OtherFrame) (d : Dev) : Dev :=
  otherFrame p good (fun x => match kind with
    | .unsupportedProtocol => bump (rPort p 0x90) x
    | .nonIpv6 | .otherIcmp => bump (rPort p 0xC4) x) d

/-- UNSUPPORTED_FRAME (R248, R256). -/
def execUnsupportedFrame (p : Nat) (frame : UnusedFrame) (s : State) : Host.Outcome State Fault Refusal :=
  onDev (countOther p frame.good frame.kind) s

/-! ### Pause (R280, R281) -/

/-- Adds 1 to a 16-bit half of a counter, which saturates. -/
def bumpHalf (r : RegId) (high : Bool) (d : Dev) : Dev :=
  let v := rd r d
  if high then wr r (2 ^ 16 * min 0xFFFF (v / 2 ^ 16 + 1) + v % 2 ^ 16) d
  else wr r (v / 2 ^ 16 * 2 ^ 16 + min 0xFFFF (v % 2 ^ 16 + 1)) d

/-- The pause that a frame gives: quanta of 512 bit times at 800 Gb/s from now; quanta 0 ends it. -/
def pauseFrom (quanta now : Nat) (old : Option (Nat × Nat)) : Option (Nat × Nat) :=
  if quanta = 0 then none
  else some (match old with | some t => t.1 | none => now, now + (512 * quanta + 799) / 800)

/-- The data or the control priority is paused, and the frame is counted. -/
def pausePriority (p : Nat) (ctrl : Bool) (quanta : Nat) (d : Dev) : Dev :=
  bumpHalf (rPort p 0x88) ctrl (modPort p (fun x =>
    if ctrl then { x with pausedCtrl := pauseFrom quanta d.now x.pausedCtrl }
    else { x with pausedData := pauseFrom quanta d.now x.pausedData }) d)

/-- The quanta that a PFC frame gives a priority. -/
def quantaOf (quanta : PauseQuanta) (pcp : Nat) : Option Nat := (quanta[pcp]?).join

/-- What a PFC frame does: to data and control where it names their priorities, which may be one; any other that it names is
counted and ignored. -/
def pauseBy (p : Nat) (quanta : PauseQuanta) (d : Dev) : Dev :=
  let tag := rd (rPort p 0x78) d
  let data := fieldOf tag 14 12
  let ctrl := fieldOf tag 18 16
  let d1 := match quantaOf quanta data with | some q => pausePriority p false q d | none => d
  let d2 := match quantaOf quanta ctrl with | some q => pausePriority p true q d1 | none => d1
  if (List.range 8).any (fun i => i != data && i != ctrl && (quantaOf quanta i).isSome) then bump (rPort p 0x90) d2 else d2

/-- PFC_FRAME (R281). -/
def execPfcFrame (p : Nat) (good : Bool) (quanta : PauseQuanta) (s : State) : Host.Outcome State Fault Refusal :=
  onDev (otherFrame p good (pauseBy p quanta)) s

/-- The pause of a priority, from and until when. -/
def pauseOf (p : Nat) (ctrl : Bool) (d : Dev) : Option (Nat × Nat) :=
  if ctrl then (portOf p d).pausedCtrl else (portOf p d).pausedData

/-- The quanta have run out. -/
def endPause (p : Nat) (ctrl : Bool) (d : Dev) : Dev :=
  if (pauseOf p ctrl d).any (fun t => decide (t.2 ≤ d.now)) then
    modPort p (fun x => if ctrl then { x with pausedCtrl := none } else { x with pausedData := none }) d
  else d

/-- PAUSE_QUANTA_EXPIRED (R281). -/
def execPauseQuantaExpired (p : Nat) (ctrl : Bool) (s : State) : Host.Outcome State Fault Refusal := onDev (endPause p ctrl) s

/-- While the buffer stays above one half full the pause is repeated every 20 µs; below one half it has been ended. -/
def repeatPfc (p : Nat) (ctrl : Bool) (d : Dev) : Dev :=
  if (xoffOf p ctrl d).any (fun t => decide (t + 20000 ≤ d.now)) then
    (if bufferSize ctrl < 2 * levelOf p ctrl d then sendPfc p ctrl 0xFFFF d else judgeFall p ctrl d)
  else judgeRise p ctrl d

/-- PFC_REPEAT (R280), of a port of a side. -/
def execPfcRepeat (side : Nat) (port : Nat) (ctrl : Bool) (s : State) : Host.Outcome State Fault Refusal :=
  onDev (repeatPfc (24 * side + port) ctrl) s

/-- A priority has been paused for longer than PFC_STORM_LIMIT. -/
def pauseStorm (p : Nat) (ctrl : Bool) (d : Dev) : Dev :=
  if (pauseOf p ctrl d).any (fun t => decide (t.1 + 1000000 * clampReg 1 10000 (rd (rPort p 0x94) d) < d.now)) then
    raise (pPort p) 21 d
  else d

/-- PFC_STORM (R281). -/
def execPfcStorm (p : Nat) (ctrl : Bool) (s : State) : Host.Outcome State Fault Refusal := onDev (pauseStorm p ctrl) s

end Sys2Proof.Machine
end

