-- ==== Sys2Proof/Machine/Rv.lean ====
section
/-!
DEFINITION. The standard part of a core's instruction set (R94 to R97): RV64IMAC with Zicsr, Zifencei, Zba and Zbb, in machine
and user mode, as the RISC-V specifications that R94 names define it, and the CSRs of R95 and R102.
-/

namespace Sys2Proof.Machine

/-! ### Compressed instructions, as the 32-bit words they stand for -/

def encI (imm rs1 f3 rd_ op : Nat) : Nat := imm % 4096 * 2 ^ 20 + rs1 * 2 ^ 15 + f3 * 2 ^ 12 + rd_ * 2 ^ 7 + op
def encR (f7 rs2 rs1 f3 rd_ op : Nat) : Nat := f7 * 2 ^ 25 + rs2 * 2 ^ 20 + rs1 * 2 ^ 15 + f3 * 2 ^ 12 + rd_ * 2 ^ 7 + op
def encS (imm rs2 rs1 f3 : Nat) : Nat :=
  fieldOf imm 11 5 * 2 ^ 25 + rs2 * 2 ^ 20 + rs1 * 2 ^ 15 + f3 * 2 ^ 12 + imm % 32 * 2 ^ 7 + 0x23
def encB (imm rs2 rs1 f3 : Nat) : Nat :=
  fieldOf imm 12 12 * 2 ^ 31 + fieldOf imm 10 5 * 2 ^ 25 + rs2 * 2 ^ 20 + rs1 * 2 ^ 15 + f3 * 2 ^ 12
    + fieldOf imm 4 1 * 2 ^ 8 + fieldOf imm 11 11 * 2 ^ 7 + 0x63
def encJ (imm rd_ : Nat) : Nat :=
  fieldOf imm 20 20 * 2 ^ 31 + fieldOf imm 10 1 * 2 ^ 21 + fieldOf imm 11 11 * 2 ^ 20 + fieldOf imm 19 12 * 2 ^ 12
    + rd_ * 2 ^ 7 + 0x6F

/-- An `n`-bit number, sign-extended into 32 bits. -/
def sextN (n v : Nat) : Nat := if bitOf v (n - 1) then v % 2 ^ n + (2 ^ 32 - 2 ^ n) else v % 2 ^ n

/-- The six-bit signed immediate of the CI format. -/
def ciImm (h : Nat) : Nat := sextN 6 (fieldOf h 12 12 * 32 + fieldOf h 6 2)

/-- Quadrant 0. -/
def expand0 (h : Nat) : Option Nat :=
  let rdp := 8 + fieldOf h 4 2
  let rs := 8 + fieldOf h 9 7
  let wImm := fieldOf h 5 5 * 64 + fieldOf h 12 10 * 8 + fieldOf h 6 6 * 4
  let dImm := fieldOf h 6 5 * 64 + fieldOf h 12 10 * 8
  match fieldOf h 15 13 with
  | 0 =>
    let imm := fieldOf h 10 7 * 64 + fieldOf h 12 11 * 16 + fieldOf h 5 5 * 8 + fieldOf h 6 6 * 4
    if imm = 0 then none else some (encI imm 2 0 rdp 0x13)
  | 2 => some (encI wImm rs 2 rdp 3)
  | 3 => some (encI dImm rs 3 rdp 3)
  | 6 => some (encS wImm rdp rs 2)
  | 7 => some (encS dImm rdp rs 3)
  | _ => none

/-- Quadrant 1. -/
def expand1 (h : Nat) : Option Nat :=
  let rd_ := fieldOf h 11 7
  let rdp := 8 + fieldOf h 9 7
  let rs2p := 8 + fieldOf h 4 2
  let shamt := fieldOf h 12 12 * 32 + fieldOf h 6 2
  let jImm := sextN 12 (fieldOf h 12 12 * 2 ^ 11 + fieldOf h 8 8 * 2 ^ 10 + fieldOf h 10 9 * 2 ^ 8 + fieldOf h 6 6 * 2 ^ 7
    + fieldOf h 7 7 * 2 ^ 6 + fieldOf h 2 2 * 2 ^ 5 + fieldOf h 11 11 * 2 ^ 4 + fieldOf h 5 3 * 2)
  let bImm := sextN 9 (fieldOf h 12 12 * 2 ^ 8 + fieldOf h 6 5 * 2 ^ 6 + fieldOf h 2 2 * 2 ^ 5 + fieldOf h 11 10 * 2 ^ 3
    + fieldOf h 4 3 * 2)
  match fieldOf h 15 13 with
  | 0 => some (encI (ciImm h) rd_ 0 rd_ 0x13)
  | 1 => if rd_ = 0 then none else some (encI (ciImm h) rd_ 0 rd_ 0x1B)
  | 2 => some (encI (ciImm h) 0 0 rd_ 0x13)
  | 3 =>
    if rd_ = 2 then
      let imm := sextN 10 (fieldOf h 12 12 * 512 + fieldOf h 4 3 * 128 + fieldOf h 5 5 * 64 + fieldOf h 2 2 * 32
        + fieldOf h 6 6 * 16)
      if imm = 0 then none else some (encI imm 2 0 2 0x13)
    else if ciImm h = 0 then none
    else some (ciImm h % 2 ^ 20 * 2 ^ 12 + rd_ * 2 ^ 7 + 0x37)
  | 4 =>
    match fieldOf h 11 10 with
    | 0 => some (encI shamt rdp 5 rdp 0x13)
    | 1 => some (encI (0x400 + shamt) rdp 5 rdp 0x13)
    | 2 => some (encI (ciImm h) rdp 7 rdp 0x13)
    | _ =>
      match fieldOf h 12 12, fieldOf h 6 5 with
      | 0, 0 => some (encR 0x20 rs2p rdp 0 rdp 0x33)
      | 0, 1 => some (encR 0 rs2p rdp 4 rdp 0x33)
      | 0, 2 => some (encR 0 rs2p rdp 6 rdp 0x33)
      | 0, _ => some (encR 0 rs2p rdp 7 rdp 0x33)
      | _, 0 => some (encR 0x20 rs2p rdp 0 rdp 0x3B)
      | _, 1 => some (encR 0 rs2p rdp 0 rdp 0x3B)
      | _, _ => none
  | 5 => some (encJ jImm 0)
  | 6 => some (encB bImm 0 rdp 0)
  | _ => some (encB bImm 0 rdp 1)

/-- Quadrant 2. -/
def expand2 (h : Nat) : Option Nat :=
  let rd_ := fieldOf h 11 7
  let rs2 := fieldOf h 6 2
  let shamt := fieldOf h 12 12 * 32 + rs2
  match fieldOf h 15 13 with
  | 0 => some (encI shamt rd_ 1 rd_ 0x13)
  | 2 => if rd_ = 0 then none else
    some (encI (fieldOf h 3 2 * 64 + fieldOf h 12 12 * 32 + fieldOf h 6 4 * 4) 2 2 rd_ 3)
  | 3 => if rd_ = 0 then none else
    some (encI (fieldOf h 4 2 * 64 + fieldOf h 12 12 * 32 + fieldOf h 6 5 * 8) 2 3 rd_ 3)
  | 4 =>
    if fieldOf h 12 12 = 0 then
      (if rs2 = 0 then (if rd_ = 0 then none else some (encI 0 rd_ 0 0 0x67)) else some (encR 0 rs2 0 0 rd_ 0x33))
    else
      (if rs2 = 0 then (if rd_ = 0 then some 0x00100073 else some (encI 0 rd_ 0 1 0x67)) else some (encR 0 rs2 rd_ 0 rd_ 0x33))
  | 6 => some (encS (fieldOf h 8 7 * 64 + fieldOf h 12 9 * 4) rs2 2 2)
  | 7 => some (encS (fieldOf h 9 7 * 64 + fieldOf h 12 10 * 8) rs2 2 3)
  | _ => none

/-- The 32-bit word of a compressed instruction; none where the encoding is reserved or needs floating point. -/
def expandC (h : Nat) : Option Nat :=
  match h % 4 with
  | 0 => expand0 h
  | 1 => expand1 h
  | _ => expand2 h

/-! ### Integer arithmetic -/

def sext32 (v : BitVec 32) : DWord := v.signExtend 64
def low32 (v : DWord) : BitVec 32 := v.setWidth 32

/-- High half of a product. -/
def mulHigh (a b : Int) : DWord := BitVec.ofInt 64 (a * b / 2 ^ 64)

def divS {w : Nat} (a b : BitVec w) : BitVec w := if b = 0 then BitVec.allOnes w else a.sdiv b
def divU {w : Nat} (a b : BitVec w) : BitVec w := if b = 0 then BitVec.allOnes w else a.udiv b
def remS {w : Nat} (a b : BitVec w) : BitVec w := if b = 0 then a else a.srem b
def remU {w : Nat} (a b : BitVec w) : BitVec w := if b = 0 then a else a.umod b

/-- Zeros above the highest 1 of `w` bits. -/
def leadingZeros (w v : Nat) : Nat := if v = 0 then w else w - 1 - Nat.log2 v
/-- Zeros below the lowest 1 of `w` bits. -/
def trailingZeros (w v : Nat) : Nat := (firstBelow w (fun i => bitOf v i)).getD w
def popCount (w v : Nat) : Nat := countBelow w (fun i => bitOf v i)

/-- ORC.B: each byte becomes all ones where it is not zero. -/
def orcB (v : DWord) : DWord := BitVec.ofNat 64 (leNat ((leBytes 8 v.toNat).map (fun b => if b = 0 then 0 else 0xFF)))
/-- REV8. -/
def rev8 (v : DWord) : DWord := BitVec.ofNat 64 (leNat (leBytes 8 v.toNat).reverse)

/-- OP: register and register, 64 bits. -/
def aluR (f7 f3 : Nat) (a b : DWord) : Option DWord :=
  match f7, f3 with
  | 0x00, 0 => some (a + b)
  | 0x20, 0 => some (a - b)
  | 0x00, 1 => some (a <<< (b.toNat % 64))
  | 0x00, 2 => some (if a.slt b then 1 else 0)
  | 0x00, 3 => some (if a.ult b then 1 else 0)
  | 0x00, 4 => some (a ^^^ b)
  | 0x00, 5 => some (a >>> (b.toNat % 64))
  | 0x20, 5 => some (a.sshiftRight (b.toNat % 64))
  | 0x00, 6 => some (a ||| b)
  | 0x00, 7 => some (a &&& b)
  | 0x01, 0 => some (a * b)
  | 0x01, 1 => some (mulHigh a.toInt b.toInt)
  | 0x01, 2 => some (mulHigh a.toInt b.toNat)
  | 0x01, 3 => some (mulHigh a.toNat b.toNat)
  | 0x01, 4 => some (divS a b)
  | 0x01, 5 => some (divU a b)
  | 0x01, 6 => some (remS a b)
  | 0x01, 7 => some (remU a b)
  | 0x10, 2 => some ((a <<< 1) + b)
  | 0x10, 4 => some ((a <<< 2) + b)
  | 0x10, 6 => some ((a <<< 3) + b)
  | 0x20, 4 => some (~~~(a ^^^ b))
  | 0x20, 6 => some (a ||| ~~~b)
  | 0x20, 7 => some (a &&& ~~~b)
  | 0x05, 4 => some (if a.slt b then a else b)
  | 0x05, 5 => some (if a.ult b then a else b)
  | 0x05, 6 => some (if a.slt b then b else a)
  | 0x05, 7 => some (if a.ult b then b else a)
  | 0x30, 1 => some (a.rotateLeft (b.toNat % 64))
  | 0x30, 5 => some (a.rotateRight (b.toNat % 64))
  | _, _ => none

/-- OP-32: register and register, 32 bits sign-extended; and the unsigned-word forms of Zba and ZEXT.H. -/
def aluRW (f7 f3 rs2 : Nat) (a b : DWord) : Option DWord :=
  let x := low32 a
  let y := low32 b
  let zx := x.setWidth 64
  match f7, f3 with
  | 0x00, 0 => some (sext32 (x + y))
  | 0x20, 0 => some (sext32 (x - y))
  | 0x00, 1 => some (sext32 (x <<< (y.toNat % 32)))
  | 0x00, 5 => some (sext32 (x >>> (y.toNat % 32)))
  | 0x20, 5 => some (sext32 (x.sshiftRight (y.toNat % 32)))
  | 0x01, 0 => some (sext32 (x * y))
  | 0x01, 4 => some (sext32 (divS x y))
  | 0x01, 5 => some (sext32 (divU x y))
  | 0x01, 6 => some (sext32 (remS x y))
  | 0x01, 7 => some (sext32 (remU x y))
  | 0x04, 0 => some (zx + b)
  | 0x04, 4 => if rs2 = 0 then some (a &&& 0xFFFF) else none
  | 0x10, 2 => some ((zx <<< 1) + b)
  | 0x10, 4 => some ((zx <<< 2) + b)
  | 0x10, 6 => some ((zx <<< 3) + b)
  | 0x30, 1 => some (sext32 (x.rotateLeft (y.toNat % 32)))
  | 0x30, 5 => some (sext32 (x.rotateRight (y.toNat % 32)))
  | _, _ => none

/-- OP-IMM, with the twelve immediate bits. -/
def aluI (imm f3 : Nat) (a : DWord) : Option DWord :=
  let b := (BitVec.ofNat 12 imm).signExtend 64
  let sh := imm % 64
  match f3 with
  | 0 => some (a + b)
  | 2 => some (if a.slt b then 1 else 0)
  | 3 => some (if a.ult b then 1 else 0)
  | 4 => some (a ^^^ b)
  | 6 => some (a ||| b)
  | 7 => some (a &&& b)
  | 1 =>
    match imm with
    | 0x600 => some (BitVec.ofNat 64 (leadingZeros 64 a.toNat))
    | 0x601 => some (BitVec.ofNat 64 (trailingZeros 64 a.toNat))
    | 0x602 => some (BitVec.ofNat 64 (popCount 64 a.toNat))
    | 0x604 => some ((a.setWidth 8).signExtend 64)
    | 0x605 => some ((a.setWidth 16).signExtend 64)
    | _ => if imm / 64 = 0 then some (a <<< sh) else none
  | _ =>
    match imm with
    | 0x287 => some (orcB a)
    | 0x6B8 => some (rev8 a)
    | _ =>
      if imm / 64 = 0 then some (a >>> sh)
      else if imm / 64 = 0x10 then some (a.sshiftRight sh)
      else if imm / 64 = 0x18 then some (a.rotateRight sh)
      else none

/-- OP-IMM-32. -/
def aluIW (imm f3 : Nat) (a : DWord) : Option DWord :=
  let x := low32 a
  let sh := imm % 32
  match f3 with
  | 0 => some (sext32 (x + (BitVec.ofNat 12 imm).signExtend 32))
  | 1 =>
    match imm with
    | 0x600 => some (BitVec.ofNat 64 (leadingZeros 32 x.toNat))
    | 0x601 => some (BitVec.ofNat 64 (trailingZeros 32 x.toNat))
    | 0x602 => some (BitVec.ofNat 64 (popCount 32 x.toNat))
    | _ =>
      if imm / 32 = 0 then some (sext32 (x <<< sh))
      else if imm / 64 = 2 then some ((x.setWidth 64) <<< (imm % 64))
      else none
  | 5 =>
    if imm / 32 = 0 then some (sext32 (x >>> sh))
    else if imm / 32 = 0x20 then some (sext32 (x.sshiftRight sh))
    else if imm / 32 = 0x30 then some (sext32 (x.rotateRight sh))
    else none
  | _ => none

/-- Branch conditions. -/
def branchTaken (f3 : Nat) (a b : DWord) : Option Bool :=
  match f3 with
  | 0 => some (a == b)
  | 1 => some (a != b)
  | 4 => some (a.slt b)
  | 5 => some (!a.slt b)
  | 6 => some (a.ult b)
  | 7 => some (!a.ult b)
  | _ => none

/-- What an AMO stores, over words of either width. -/
def amoValue {w : Nat} (f5 : Nat) (old v : BitVec w) : Option (BitVec w) :=
  match f5 with
  | 0x01 => some v
  | 0x00 => some (old + v)
  | 0x04 => some (old ^^^ v)
  | 0x0C => some (old &&& v)
  | 0x08 => some (old ||| v)
  | 0x10 => some (if old.slt v then old else v)
  | 0x14 => some (if old.slt v then v else old)
  | 0x18 => some (if old.ult v then old else v)
  | 0x1C => some (if old.ult v then v else old)
  | _ => none

/-! ### CSRs (R95, R102) -/

/-- Whether the hart may read a user counter: in user mode only where mcounteren enables it. -/
def counterOpen (c : Core) (i : Nat) : Bool := c.machine || c.mcounteren.getLsbD i

/-- A counter or another CSR of the machine's own numbers that reads 0 and keeps nothing: hardware performance counters and
their events, menvcfg, mconfigptr, mvendorid and marchid. -/
def zeroCsr (n : Nat) : Bool :=
  (0xB03 ≤ n && n ≤ 0xB1F) || (0x323 ≤ n && n ≤ 0x33F) || n == 0x30A || n == 0xF11 || n == 0xF12 || n == 0xF15

/-- Reads a CSR; none where the access is illegal. -/
def csrRead (k n : Nat) (d : Dev) : Option Nat :=
  let c := coreOf k d
  if c.machine = false ∧ 1 ≤ n / 256 % 4 then none else
  match n with
  | 0x300 => some (c.mstatus.toNat + 2 ^ 33)
  | 0x301 => some 0x8000000000901105
  | 0x304 => some c.mie.toNat
  | 0x305 => some c.mtvec.toNat
  | 0x306 => some c.mcounteren.toNat
  | 0x320 => some c.mcountinhibit.toNat
  | 0x340 => some c.mscratch.toNat
  | 0x341 => some c.mepc.toNat
  | 0x342 => some c.mcause.toNat
  | 0x343 => some c.mtval.toNat
  | 0x344 => some c.mip.toNat
  | 0xB00 => some c.mcycle.toNat
  | 0xB02 => some c.minstret.toNat
  | 0xC00 => if counterOpen c 0 then some c.mcycle.toNat else none
  | 0xC01 => if counterOpen c 1 then some d.now else none
  | 0xC02 => if counterOpen c 2 then some c.minstret.toNat else none
  | 0xF13 => some (Config.stepping (dieOfCore k)).toNat
  | 0xF14 => some k
  | 0x7C0 => some c.vxctx
  | 0x7C1 => some 0
  | 0xCC0 => some c.vxctx
  | 0xCC1 => some (coreX k + 2 ^ 8 * coreY k + 2 ^ 16 * clusterOf k)
  | 0xCC2 => some (rd64 (rCore k 0xD8) d)
  | 0xCC3 => some (fpGen d)
  | 0x800 => some c.vxseed.toNat
  | 0x801 => some c.drawsMx.toNat
  | 0x802 => some c.drawsVx.toNat
  | 0xFC0 => some c.vxfinfo.toNat
  | 0xFC1 => some c.vxfaddr.toNat
  | _ =>
    if zeroCsr n then some 0
    else if 0xC03 ≤ n ∧ n ≤ 0xC1F ∧ counterOpen c (n - 0xC00) then some 0
    else none

/-- A CSR that can be written: its number does not lie in the read-only quarter. -/
def csrWritable (n : Nat) : Bool := n / 1024 != 3

/-- Legal values of the fields that keep only some. -/
def legalStatus (old v : Nat) : Nat :=
  let mpp := fieldOf v 12 11
  putField (putField (putField (putField (putField old 3 3 (fieldOf v 3 3)) 7 7 (fieldOf v 7 7))
    12 11 (if mpp = 0 ∨ mpp = 3 then mpp else fieldOf old 12 11)) 17 17 (fieldOf v 17 17)) 21 21 (fieldOf v 21 21)

def legalVec (old v : Nat) : Nat := v / 4 * 4 + (if v % 4 < 2 then v % 4 else old % 4)

/-- Answers the pending beacon request (R105); the first answer of a loaded runtime ends its core's bring-up (R354,
R416). -/
def answerBeacon (k : Nat) (d : Dev) : Dev :=
  let c := coreOf k d
  if c.beaconPending then
    let d1 := wr (rCore k 0xE4) 0 (addWrap (rCore k 0xE0) 1 (modCore k (fun x => { x with beaconPending := false })
      (setPending k 16 false d)))
    if c.loaded && stateOf (pCore k) d == .loading then
      settleStart (becomeReady (pCore k) .testPassed (modCore k (fun x => { x with loaded := false }) d1))
    else d1
  else d

/-- Writes a CSR. The machine's vxbeacon answers the pending request; vxseed and the draw counters act on later commands
only (R103). -/
def csrWrite (k n v : Nat) (d : Dev) : Dev :=
  let w := BitVec.ofNat 64 v
  if n = 0x7C1 then answerBeacon k d
  else modCore k (fun c =>
    match n with
    | 0x300 => { c with mstatus := BitVec.ofNat 64 (legalStatus c.mstatus.toNat v) }
    | 0x304 => { c with mie := w &&& 0xF0000 }
    | 0x305 => { c with mtvec := BitVec.ofNat 64 (legalVec c.mtvec.toNat (w.toNat)) }
    | 0x306 => { c with mcounteren := w &&& 7 }
    | 0x320 => { c with mcountinhibit := w &&& 5 }
    | 0x340 => { c with mscratch := w }
    | 0x341 => { c with mepc := BitVec.ofNat 64 (w.toNat / 2 * 2) }
    | 0x342 => { c with mcause := w }
    | 0x343 => { c with mtval := w }
    | 0x344 => { c with mip := (c.mip &&& ~~~0xE0000) ||| (w &&& 0xE0000) }
    | 0xB00 => { c with mcycle := w }
    | 0xB02 => { c with minstret := w }
    | 0x7C0 => { c with vxctx := v % 8 }
    | 0x800 => { c with vxseed := w }
    | 0x801 => { c with drawsMx := w }
    | 0x802 => { c with drawsVx := w }
    | _ => c) d

/-! ### Exceptions of the standard set -/

/-- The 32 bits of an illegal instruction, or 0 (R104). -/
def illegal (k w : Nat) (d : Dev) : Dev := stdException k 2 w d

/-- The upper bound of what an access may reach: local SRAM, and in user mode the kernel window (R96, R98). -/
def reach (user : Bool) : Nat := if user then kernelWindow else sramSize

/-- The mode in which loads and stores act. -/
def dataUser (c : Core) : Bool := if c.machine then c.mstatus.getLsbD 17 && fieldOf c.mstatus.toNat 12 11 == 0 else true

/-- What a data access of `n` bytes meets: misaligned, access fault, poison, or nothing; the codes are those of loads or of
stores (R96, R99, R100; a misaligned access is judged first, log entry 50). -/
def dataFault (k a n : Nat) (store : Bool) (d : Dev) : Option Nat :=
  if a % n ≠ 0 then some (if store then 6 else 4)
  else if reach (dataUser (coreOf k d)) < a + n then some (if store then 7 else 5)
  else if sramPoisoned k a n d then some 27
  else none

/-- Raises what an access met. -/
def raiseData (k code a : Nat) (d : Dev) : Dev := if code = 27 then exception k 27 a d else stdException k code a d

/-! ### Instructions by opcode -/

/-- A load: `f3` gives the width and the extension. -/
def loadValue (f3 : Nat) (bs : List Byte) : DWord :=
  let v := leNat bs
  match f3 with
  | 0 => (BitVec.ofNat 8 v).signExtend 64
  | 1 => (BitVec.ofNat 16 v).signExtend 64
  | 2 => (BitVec.ofNat 32 v).signExtend 64
  | _ => BitVec.ofNat 64 v

def doLoad (k w len : Nat) (d : Dev) : Dev :=
  let c := coreOf k d
  let f3 := fieldOf w 14 12
  let n := 2 ^ (f3 % 4)
  let a := (xreg c (fieldOf w 19 15) + (BitVec.ofNat 12 (fieldOf w 31 20)).signExtend 64).toNat
  if f3 = 7 then illegal k w d
  else match dataFault k a n false d with
    | some code => raiseData k code a d
    | none => retireInstr k (fieldOf w 11 7) (loadValue f3 (sramRead k a n d)) len d

/-- A store of the low bytes of a value; a scalar store ends the reservations that it meets (R96), and words that another
command or message uses are undefined (R156, R180). -/
def storeTo (k a n : Nat) (v : DWord) (d : Dev) : Dev :=
  scalarStore k a (leBytes n v.toNat) d

def doStore (k w len : Nat) (d : Dev) : Dev :=
  let c := coreOf k d
  let f3 := fieldOf w 14 12
  let n := 2 ^ (f3 % 4)
  let imm := fieldOf w 31 25 * 32 + fieldOf w 11 7
  let a := (xreg c (fieldOf w 19 15) + (BitVec.ofNat 12 imm).signExtend 64).toNat
  if 3 < f3 then illegal k w d
  else match dataFault k a n true d with
    | some code => raiseData k code a d
    | none => retireInstr k 0 0 len (storeTo k a n (xreg c (fieldOf w 24 20)) d)

/-- LR, SC and the AMOs. -/
def doAmo (k w len : Nat) (d : Dev) : Dev :=
  let c := coreOf k d
  let f3 := fieldOf w 14 12
  let f5 := fieldOf w 31 27
  let n := 2 ^ f3
  let rs2 := fieldOf w 24 20
  let rd_ := fieldOf w 11 7
  let a := (xreg c (fieldOf w 19 15)).toNat
  let v := xreg c rs2
  let lr := f5 == 2
  let sc := f5 == 3
  let known := lr || sc || (amoValue f5 (0 : Word) 0).isSome
  if (f3 ≠ 2 ∧ f3 ≠ 3) ∨ known = false ∨ (lr ∧ rs2 ≠ 0) then illegal k w d
  else match dataFault k a n (!lr) d with
    | some code => raiseData k code a d
    | none =>
      let old := leNat (sramRead k a n d)
      let ext : DWord := if f3 = 2 then sext32 (BitVec.ofNat 32 old) else BitVec.ofNat 64 old
      if lr then retireInstr k rd_ ext len (modCore k (fun x => { x with reservation := some a }) d)
      else if sc then
        (if c.reservation = some a then
          retireInstr k rd_ 0 len (modCore k (fun x => { x with reservation := none }) (storeTo k a n v d))
        else retireInstr k rd_ 1 len (modCore k (fun x => { x with reservation := none }) d))
      else
        let new : DWord :=
          if f3 = 2 then ((amoValue f5 (BitVec.ofNat 32 old) (low32 v)).getD 0).setWidth 64
          else (amoValue f5 (BitVec.ofNat 64 old) v).getD 0
        retireInstr k rd_ ext len (storeTo k a n new d)

/-- Jumps to an address, with the return address in rd. -/
def jumpTo (k rd_ : Nat) (target : DWord) (len : Nat) (d : Dev) : Dev :=
  let link := BitVec.ofNat 64 (((coreOf k d).pc + len) % 2 ^ 64)
  modCore k (fun c => { c with pc := target.toNat }) (retireInstr k rd_ link len d)

def jalOffset (w : Nat) : DWord :=
  (BitVec.ofNat 21 (fieldOf w 31 31 * 2 ^ 20 + fieldOf w 19 12 * 2 ^ 12 + fieldOf w 20 20 * 2 ^ 11 + fieldOf w 30 21 * 2)).signExtend 64

def branchOffset (w : Nat) : DWord :=
  (BitVec.ofNat 13 (fieldOf w 31 31 * 2 ^ 12 + fieldOf w 7 7 * 2 ^ 11 + fieldOf w 30 25 * 2 ^ 5 + fieldOf w 11 8 * 2)).signExtend 64

def doBranch (k w len : Nat) (d : Dev) : Dev :=
  let c := coreOf k d
  match branchTaken (fieldOf w 14 12) (xreg c (fieldOf w 19 15)) (xreg c (fieldOf w 24 20)) with
  | none => illegal k w d
  | some true => jumpTo k 0 (BitVec.ofNat 64 c.pc + branchOffset w) len d
  | some false => retireInstr k 0 0 len d

/-- Zicsr. CSRRW with rd = x0 does not read; the set and clear forms with x0 or 0 do not write. A counter that the
instruction writes reads the value written in the next one. -/
def doCsr (k w len : Nat) (d : Dev) : Dev :=
  let c := coreOf k d
  let n := fieldOf w 31 20
  let f3 := fieldOf w 14 12
  let rs1 := fieldOf w 19 15
  let rd_ := fieldOf w 11 7
  let v : DWord := if 4 ≤ f3 then BitVec.ofNat 64 rs1 else xreg c rs1
  let writes := f3 % 4 == 1 || rs1 != 0
  match csrRead k n d with
  | none => illegal k w d
  | some old =>
    if writes && !csrWritable n then illegal k w d
    else
      let o := BitVec.ofNat 64 old
      let new := match f3 % 4 with | 1 => v | 2 => o ||| v | _ => o &&& ~~~v
      let d1 := retireInstr k rd_ o len d
      if writes then csrWrite k n new.toNat d1 else d1

/-- What MRET does to the mode, the enables and the pc. -/
def leaveTrap (c : Core) : Core :=
  let mpp := fieldOf c.mstatus.toNat 12 11
  let s := putField (putField (putField c.mstatus.toNat 3 3 (fieldOf c.mstatus.toNat 7 7)) 7 7 1) 12 11 0
  { c with
    pc := c.mepc.toNat
    machine := mpp == 3
    mstatus := BitVec.ofNat 64 (if mpp = 3 then s else putField s 17 17 0) }

/-- Return from a trap (R106): the mode and the enable come back, and the pc comes from mepc. -/
def doMret (k : Nat) (d : Dev) : Dev :=
  if (coreOf k d).machine = false then illegal k 0x30200073 d else modCore k leaveTrap (retireInstr k 0 0 4 d)

/-- ECALL: user mode with a7 = 0 ends the kernel, with any other a7 it returns −1 and goes on behind the ECALL (R107);
machine mode is a fault of the core. The instructions that the runtime runs in between are not known (log entry 7). -/
def doEcall (k : Nat) (d : Dev) : Dev :=
  let c := coreOf k d
  if c.machine then exception k 11 0 d
  else if xreg c 17 = 0 then beginEnd k 0 (low32 (xreg c 10)) (enterTrap k false 8 0 d)
  else passRuntime k (modCore k (fun x => { leaveTrap { setX 10 (BitVec.allOnes 64) x with mepc := x.mepc + 4 } with
    waitSince := none }) (enterTrap k false 8 0 d))

/-- SYSTEM with funct3 = 0. -/
def doSystem (k w len : Nat) (d : Dev) : Dev :=
  match w with
  | 0x00000073 => doEcall k d
  | 0x00100073 => stdException k 3 (coreOf k d).pc d
  | 0x30200073 => doMret k d
  | 0x10500073 =>
    if (coreOf k d).machine = false ∧ (coreOf k d).mstatus.getLsbD 21 then illegal k w d else retireInstr k 0 0 len d
  | _ => illegal k w d

/-- Retires with a value, or raises illegal instruction where there is none. -/
def retireOr (k w rd_ len : Nat) (v : Option DWord) (d : Dev) : Dev :=
  match v with
  | some x => retireInstr k rd_ x len d
  | none => illegal k w d

end Sys2Proof.Machine
end

