-- ==== Sys2Proof/Machine/Scalar.lean ====
section
/-!
DEFINITION. The scalar processor's commands (R94 to R108, R121 to R124), kernels (R132 to R136), the completion of engine
commands (R114), message stalls (R129) and the SRAM scrub (R99, R101).
-/

namespace Sys2Proof.Machine

/-! ### Custom instructions (R108) -/

/-- The word of a custom-0 and of a custom-1 instruction. -/
def custom0 (f3 rd_ rs1 rs2 : Nat) : Nat := encR 0 rs2 rs1 f3 rd_ 0x0B
def custom1 (f3 rd_ rs1 imm : Nat) : Nat := encI imm rs1 f3 rd_ 0x2B

/-- ENG.WAIT (R108, R109): it retires at once where the count has reached the ticket, else it waits. -/
def doEngWait (k rd_ rs1 rs2 : Nat) (d : Dev) : Dev :=
  let c := coreOf k d
  let e := (xreg c rs1).toNat % 4
  let t := low32 (xreg c rs2)
  let done := (engineOf c e).completed
  if e = 3 then illegal k (custom0 3 rd_ rs1 rs2) d
  else if reached done t then retireInstr k rd_ (done.setWidth 64) 4 d
  else modCore k (fun x => { x with
    waiting := some (.engine rd_ e t)
    waitSince := if x.machine then x.waitSince else some (x.waitSince.getD d.now) }) d

/-- ENG.POLL. -/
def doEngPoll (k rd_ rs1 : Nat) (d : Dev) : Dev :=
  let c := coreOf k d
  let e := (xreg c rs1).toNat % 4
  if e = 3 then illegal k (custom0 4 rd_ rs1 0) d
  else retireInstr k rd_ ((engineOf c e).completed.setWidth 64) 4 d

/-- FLAG.READ. -/
def doFlagRead (k rd_ imm : Nat) (d : Dev) : Dev :=
  if 63 < imm then illegal k (custom1 0 rd_ 0 imm) d
  else retireInstr k rd_ ((flagOf (coreOf k d) imm).setWidth 64) 4 d

/-- FLAG.ADD and FLAG.SET: the flag takes its new value, rd the old one. -/
def doFlagWrite (k rd_ rs1 imm : Nat) (add : Bool) (d : Dev) : Dev :=
  let c := coreOf k d
  let old := flagOf c imm
  let v := low32 (xreg c rs1)
  if 63 < imm then illegal k (custom1 (if add then 1 else 2) rd_ rs1 imm) d
  else retireInstr k rd_ (old.setWidth 64) 4
    (modCore k (fun x => { x with flags := x.flags.set imm (if add then old + v else v) }) d)

/-- FLAG.WAIT (R122). -/
def doFlagWait (k rd_ rs1 imm : Nat) (d : Dev) : Dev :=
  let c := coreOf k d
  let f := flagOf c imm
  let v := low32 (xreg c rs1)
  if 63 < imm then illegal k (custom1 3 rd_ rs1 imm) d
  else if reached f v then retireInstr k rd_ (f.setWidth 64) 4 d
  else modCore k (fun x => { x with
    waiting := some (.flag rd_ imm v)
    waitSince := if x.machine then x.waitSince else some (x.waitSince.getD d.now) }) d

/-- FLAG.TEST. -/
def doFlagTest (k rd_ rs1 imm : Nat) (d : Dev) : Dev :=
  let c := coreOf k d
  if 63 < imm then illegal k (custom1 4 rd_ rs1 imm) d
  else retireInstr k rd_ (if reached (flagOf c imm) (low32 (xreg c rs1)) then 1 else 0) 4 d

/-- A wait ends: rd takes the value that it waited for. -/
def endWait (k : Nat) (d : Dev) : Dev :=
  let c := coreOf k d
  match c.waiting with
  | some (.flag rd_ imm v) =>
    if reached (flagOf c imm) v then retireInstr k rd_ ((flagOf c imm).setWidth 64) 4 d else d
  | some (.engine rd_ e t) =>
    if reached (engineOf c e).completed t then retireInstr k rd_ ((engineOf c e).completed.setWidth 64) 4 d else d
  | none => d

/-- What the core waits for has come (R122). -/
def waitOver (c : Core) : Bool :=
  match c.waiting with
  | some (.flag _ imm v) => reached (flagOf c imm) v
  | some (.engine _ e t) => reached (engineOf c e).completed t
  | none => true

/-- WAIT_LIMIT has passed since a user-mode wait first executed, and what it waits for has not come (R123). -/
def timeoutWait (k : Nat) (d : Dev) : Dev :=
  let c := coreOf k d
  let limit := rd (rCore k 0x7C) d
  match c.waitSince with
  | some t =>
    if !c.machine && limit != 0 && decide (1000 * limit < d.now - t) && !waitOver c then exception k 28 0 d else d
  | none => d

/-! ### One instruction of the standard or the custom set -/

def runCustom0 (k w : Nat) (d : Dev) : Dev :=
  let rd_ := fieldOf w 11 7
  let rs1 := fieldOf w 19 15
  let rs2 := fieldOf w 24 20
  let f3 := fieldOf w 14 12
  if fieldOf w 31 25 ≠ 0 ∨ (f3 ≠ 3 ∧ rs2 ≠ 0) then illegal k w d
  else match f3 with
    | 0 => issue k 0 rd_ rs1 d
    | 1 => issue k 1 rd_ rs1 d
    | 2 => issue k 2 rd_ rs1 d
    | 3 => doEngWait k rd_ rs1 rs2 d
    | 4 => doEngPoll k rd_ rs1 d
    | _ => illegal k w d

def runCustom1 (k w : Nat) (d : Dev) : Dev :=
  let rd_ := fieldOf w 11 7
  let rs1 := fieldOf w 19 15
  let imm := fieldOf w 31 20
  match fieldOf w 14 12 with
  | 0 => if rs1 = 0 then doFlagRead k rd_ imm d else illegal k w d
  | 1 => doFlagWrite k rd_ rs1 imm true d
  | 2 => doFlagWrite k rd_ rs1 imm false d
  | 3 => doFlagWait k rd_ rs1 imm d
  | 4 => doFlagTest k rd_ rs1 imm d
  | _ => illegal k w d

/-- The instruction of a 32-bit word, of `len` bytes in memory. -/
def runWord (k w len : Nat) (d : Dev) : Dev :=
  let c := coreOf k d
  let rd_ := fieldOf w 11 7
  let f3 := fieldOf w 14 12
  let a := xreg c (fieldOf w 19 15)
  let rs2 := fieldOf w 24 20
  let upper := (BitVec.ofNat 32 (w / 2 ^ 12 * 2 ^ 12)).signExtend 64
  match w % 128 with
  | 0x37 => retireInstr k rd_ upper len d
  | 0x17 => retireInstr k rd_ (BitVec.ofNat 64 c.pc + upper) len d
  | 0x6F => jumpTo k rd_ (BitVec.ofNat 64 c.pc + jalOffset w) len d
  | 0x67 =>
    if f3 = 0 then jumpTo k rd_ ((a + (BitVec.ofNat 12 (fieldOf w 31 20)).signExtend 64) &&& ~~~1) len d else illegal k w d
  | 0x63 => doBranch k w len d
  | 0x03 => doLoad k w len d
  | 0x23 => doStore k w len d
  | 0x13 => retireOr k w rd_ len (aluI (fieldOf w 31 20) f3 a) d
  | 0x1B => retireOr k w rd_ len (aluIW (fieldOf w 31 20) f3 a) d
  | 0x33 => retireOr k w rd_ len (aluR (fieldOf w 31 25) f3 a (xreg c rs2)) d
  | 0x3B => retireOr k w rd_ len (aluRW (fieldOf w 31 25) f3 rs2 a (xreg c rs2)) d
  | 0x0F => if f3 = 0 ∨ f3 = 1 then retireInstr k 0 0 len d else illegal k w d
  | 0x2F => doAmo k w len d
  | 0x73 => if f3 = 0 then doSystem k w len d else if f3 = 4 then illegal k w d else doCsr k w len d
  | 0x0B => runCustom0 k w d
  | 0x2B => runCustom1 k w d
  | _ => illegal k w d

/-- Fetch at the pc and execution of what stands there (R94, R96, R98, R100). -/
def fetchRun (k : Nat) (d : Dev) : Dev :=
  let c := coreOf k d
  let top := reach (!c.machine)
  if top < c.pc + 2 then stdException k 1 c.pc d
  else if sramPoisoned k c.pc 2 d then exception k 27 c.pc d
  else
    let h := leNat (sramRead k c.pc 2 d)
    if h % 4 ≠ 3 then
      match expandC h with
      | some w => runWord k w 2 d
      | none => illegal k h d
    else if top < c.pc + 4 then stdException k 1 (c.pc + 2) d
    else if sramPoisoned k (c.pc + 2) 2 d then exception k 27 (c.pc + 2) d
    else runWord k (leNat (sramRead k c.pc 4 d)) 4 d

/-! ### Kernels (R132 to R134, R136) -/

/-- KERNEL_LEN, LOAD_ADDR and ENTRY as they count. -/
def kernelLen (k : Nat) (d : Dev) : Nat := rd (rCore k 0x58) d / 16 * 16

/-- Steps 2 to 4 of R133, on an image that is in place. -/
def enterKernel (k ctx : Nat) (d : Dev) : Dev :=
  let entry := rd (rCore k 0x60) d / 2 * 2
  let arg := rd64 (rCore k 0x68) d
  let d1 := modCore k (fun c => { c with
    vxctx := ctx, kernel := some ctx, ending := none, machine := false, pc := entry, mepc := BitVec.ofNat 64 entry
    mstatus := (c.mstatus &&& ~~~0x21800) ||| 0x80
    mie := 0xF0000
    xs := [(10, BitVec.ofNat 64 arg)]
    waiting := none, waitSince := none, reservation := none }) (passRuntime k d)
  endCmd (pCore k) true (setState (pCore k) .active .work d1)

/-- The load of START (R133): it waits while a controller holds its reads, and a load that meets poison fails. -/
def tryStart (k : Nat) (d : Dev) : Dev :=
  match (pageOf (pCore k) d).cmd with
  | none => d
  | some cmd =>
    let ctx := cmd.arg % 8
    let a := rd64 (rCore k 0x50) d / 16 * 16
    let n := kernelLen k d
    if n = 0 then enterKernel k ctx d
    else if rangeHeld a n false d then d
    else
      let d1 := memTouch a n (some ctx) d
      let pw := memPoisonWords a n d1
      let d2 := sramWrite k (rd (rCore k 0x5C) d / 16 * 16) (memBytes a n d1) pw d1
      if pw = [] then enterKernel k ctx d2 else endCmd (pCore k) false (writeExit k 6 0 ctx d2)

def cmdStart (k arg : Nat) (d : Dev) : Dev :=
  let n := kernelLen k d
  let legal := inState (pCore k) [.ready] d && ctxOpen (arg % 8) d
  let inRange := inMemory (rd64 (rCore k 0x50) d) n d && decide (rd (rCore k 0x5C) d / 16 * 16 + n ≤ kernelWindow)
    && decide (rd (rCore k 0x60) d / 2 * 2 < kernelWindow)
  pageCommand (pCore k) 0x40 arg true legal inRange (fun x => tryStart k (tellRuntime (pCore k) x)) d

/-- START (R133, R136). -/
def execStart (core : Nat) (arg : Nat) (s : State) : Host.Outcome State Fault Refusal :=
  onDev (fun d => if core < 2560 then cmdStart core arg d else d) s

/-- STOP ends once no kernel is left: the host hold is released (R136, R508). -/
def endStop (k : Nat) (d : Dev) : Dev :=
  if inProgress (pCore k) 0x41 d && (coreOf k d).kernel.isNone then
    endCmd (pCore k) true (dropHold (pCore k) .host .work d)
  else d

def cmdStop (k arg : Nat) (d : Dev) : Dev :=
  pageCommand (pCore k) 0x41 arg true (inState (pCore k) [.active, .quiesced] d) true
    (fun x => endStop k (beginEnd k 1 0 (tellRuntime (pCore k) x))) d

/-- STOP (R132, R136). -/
def execStop (core : Nat) (s : State) : Host.Outcome State Fault Refusal :=
  onDev (fun d => if core < 2560 then cmdStop core 0 d else d) s

/-- KERNEL_END (R132): the runtime ends the kernel whose end has begun, as soon as its commands allow it. -/
def execKernelEnd (core : Nat) (s : State) : Host.Outcome State Fault Refusal :=
  onDev (fun d => if coreTakes core d then endStop core (kernelEndStep core d) else d) s

/-! ### Instruction rows -/

/-- SCALAR_INSTRUCTION (R94): the instruction at the pc. While START waits for its image, the runtime goes on with it. -/
def execScalarInstruction (core : Nat) (s : State) : Host.Outcome State Fault Refusal :=
  onDev (fun d => if inProgress (pCore core) 0x40 d then tryStart core d else stepCore core (fetchRun core) d) s

/-- ECALL (R107). -/
def execEcall (core : Nat) (s : State) : Host.Outcome State Fault Refusal := onDev (stepCore core (doEcall core)) s

/-- FENCE.I (R97): fetch always sees what SRAM holds (log entry 13), so it only retires. -/
def execFenceI (core : Nat) (s : State) : Host.Outcome State Fault Refusal :=
  onDev (stepCore core (retireInstr core 0 0 4)) s

/-- MRET (R106). -/
def execMret (core : Nat) (s : State) : Host.Outcome State Fault Refusal := onDev (stepCore core (doMret core)) s

/-- VXBEACON (R105): a machine-mode write of vxbeacon; user mode raises illegal instruction (R102). -/
def execVxbeacon (core : Nat) (s : State) : Host.Outcome State Fault Refusal :=
  onDev (stepCore core (fun d =>
    if (coreOf core d).machine then answerBeacon core (retireInstr core 0 0 4 d) else illegal core (encI 0x7C1 0 1 0 0x73) d)) s

/-- VXSEED (R103). -/
def execVxseed (core : Nat) (value : DWord) (s : State) : Host.Outcome State Fault Refusal :=
  onDev (stepCore core (fun d => csrWrite core 0x800 value.toNat (retireInstr core 0 0 4 d))) s

/-- MX.ISSUE (R110). -/
def execMxIssue (core : Nat) (rd : Nat) (rs1 : Nat) (s : State) : Host.Outcome State Fault Refusal :=
  onDev (stepCore core (issue core 0 rd rs1)) s

/-- VX.ISSUE (R110). -/
def execVxIssue (core : Nat) (rd : Nat) (rs1 : Nat) (s : State) : Host.Outcome State Fault Refusal :=
  onDev (stepCore core (issue core 1 rd rs1)) s

/-- MSG.SEND (R110). -/
def execMsgSend (core : Nat) (rd : Nat) (rs1 : Nat) (s : State) : Host.Outcome State Fault Refusal :=
  onDev (stepCore core (issue core 2 rd rs1)) s

/-- ENG.WAIT (R108). -/
def execEngWait (core : Nat) (rd : Nat) (rs1 : Nat) (rs2 : Nat) (s : State) : Host.Outcome State Fault Refusal :=
  onDev (stepCore core (doEngWait core rd rs1 rs2)) s

/-- ENG.POLL (R108). -/
def execEngPoll (core : Nat) (rd : Nat) (rs1 : Nat) (s : State) : Host.Outcome State Fault Refusal :=
  onDev (stepCore core (doEngPoll core rd rs1)) s

/-- FLAG.READ (R108). -/
def execFlagRead (core : Nat) (rd : Nat) (imm : Nat) (s : State) : Host.Outcome State Fault Refusal :=
  onDev (stepCore core (doFlagRead core rd imm)) s

/-- FLAG.ADD (R108). -/
def execFlagAdd (core : Nat) (rd : Nat) (rs1 : Nat) (imm : Nat) (s : State) : Host.Outcome State Fault Refusal :=
  onDev (stepCore core (doFlagWrite core rd rs1 imm true)) s

/-- FLAG.SET (R108). -/
def execFlagSet (core : Nat) (rd : Nat) (rs1 : Nat) (imm : Nat) (s : State) : Host.Outcome State Fault Refusal :=
  onDev (stepCore core (doFlagWrite core rd rs1 imm false)) s

/-- FLAG.WAIT (R122). -/
def execFlagWait (core : Nat) (rd : Nat) (rs1 : Nat) (imm : Nat) (s : State) : Host.Outcome State Fault Refusal :=
  onDev (stepCore core (doFlagWait core rd rs1 imm)) s

/-- FLAG.TEST (R122). -/
def execFlagTest (core : Nat) (rd : Nat) (rs1 : Nat) (imm : Nat) (s : State) : Host.Outcome State Fault Refusal :=
  onDev (stepCore core (doFlagTest core rd rs1 imm)) s

/-- WAIT_SATISFIED (R122). -/
def execWaitSatisfied (core : Nat) (s : State) : Host.Outcome State Fault Refusal := onDev (stepWait core (endWait core)) s

/-- WAIT_TIMEOUT (R123). -/
def execWaitTimeout (core : Nat) (s : State) : Host.Outcome State Fault Refusal :=
  onDev (stepWait core (timeoutWait core)) s

/-! ### Engines, messages and SRAM -/

/-- ENGINE_COMMAND_COMPLETE (R114): a command whose work has ended completes. -/
def execEngineCommandComplete (core : Nat) (engine : Nat) (ticket : Nat) (s : State) : Host.Outcome State Fault Refusal :=
  onDev (completeCmd core engine (BitVec.ofNat 32 ticket)) s

/-- MSG_STALL_LIMIT in ns, within its bounds (R45, R129). -/
def stallLimit (k : Nat) (d : Dev) : Nat := 1000 * clampReg 1 1000000 (rd (rCore k 0xA8) d)

/-- A message passes MSG_STALL_LIMIT: it is latched unless a stall is, and MSG_STALL is set (R129). -/
def stallMessage (k t : Nat) (d : Dev) : Dev :=
  match findCmd (coreOf k d) 2 (BitVec.ofNat 32 t) with
  | none => d
  | some c =>
    if !c.started || c.completed || !coreTakes k d || decide (d.now - c.startedAt ≤ stallLimit k d) then d
    else
      let w := descW c.desc 0x20
      let d1 := if bitOf (rd (rCore k 0xA0) d) 31 then d
        else wr (rCore k 0xA4) (putField w 31 28 (msgDesc c.desc).target)
          (wr (rCore k 0xA0) (2 ^ 31 + 2 ^ 28 * c.ctx + c.addr % 2 ^ 21) d)
      raise (pCore k) 18 d1

/-- MSG_STALL (R129). -/
def execMsgStall (core : Nat) (ticket : Nat) (s : State) : Host.Outcome State Fault Refusal := onDev (stallMessage core ticket) s

/-- What a read or a scrub of one SRAM word finds: a corrected word is counted, an uncorrectable one poisoned, counted and
reported; in the runtime region it is a fault of the core (R99, R101). What the word code lets pass changes the word. -/
def scrubSram (k a : Nat) (error : WordNoise) (d : Dev) : Dev :=
  if sramSize ≤ a ∨ usable (uCore k) d = false ∨ 2560 ≤ k then d
  else
    let w := a / 16 * 16
    match judgeWord (sramPoisoned k w 16 d) error with
    | .good c flips =>
      let d1 := if flips.setWidth 128 = 0 then d else sramWrite k w (flipBytes (sramRead k w 16 d) flips) [] d
      if c then bump (rCore k 0xC0) d1 else d1
    | .poisoned => if sramPoisoned k w 16 d then d else sramPoisonRange k w 16 d
    | .uncorrectable =>
      let d1 := raise (pCore k) 19 (bump (rCore k 0xC4) (sramPoisonRange k w 16 d))
      if kernelWindow ≤ a then coreFault k .selfFault d1 else d1

/-- SRAM_SCRUB (R99). -/
def execSramScrub (core : Nat) (addr : Nat) (error : WordNoise) (s : State) : Host.Outcome State Fault Refusal :=
  onDev (scrubSram core addr error) s

end Sys2Proof.Machine
end

