-- ==== Sys2Proof/Machine/Access.lean ====
section
/-!
DEFINITION. Reads and writes of the register window, by offset and by message (02_register_pages.md, R66).
-/

namespace Sys2Proof.Machine

/-- The page header that a register belongs to. -/
def pageOfReg (r : RegId) : PageId := ⟨r.ty, r.inst⟩

/-! ### Accesses that the module records (R27, R46, R47) -/

/-- An access error: class 0x9 with the low bits of the offset, and its event. -/
def accessError (p : PageId) (off : Nat) (d : Dev) : Dev := raise p 3 (recordError p (0x9000 + off % 0x1000) d)

/-- An access to an unmapped offset (R27, R369). -/
def unmapped (o : Nat) (d : Dev) : Dev :=
  if pageSilent pModule d then d
  else accessError pModule o (wr (rModule 0x8C) (o % 2 ^ 26) (bump (rModule 0x88) d))

/-! ### Reads -/

/-- A header register (R29); PAGE_CMD and reserved offsets read 0. -/
def headerValue (p : PageId) (off : Nat) (d : Dev) : Nat :=
  let g := pageOf p d
  match off with
  | 0x00 => 2 ^ 16 * typeCode p.ty + p.inst
  | 0x04 => versionWord (versionOf p.ty d)
  | 0x08 => stateWord g
  | 0x10 => statusWord g
  | 0x14 => errorWord g
  | 0x18 => g.events.toNat
  | 0x1C => g.mask.toNat
  | 0x20 => negotiateWord g
  | _ => 0

/-- What a 32-bit read at an aligned place of a page answers. -/
def wordValue (fz : Fuses) (logs : Nat) (r : RegId) (d : Dev) : Nat :=
  let p := pageOfReg r
  if pageSilent p d then (if r.off < 0x0C then headerValue p r.off d else 0)
  else if r.off < 0x40 then headerValue p r.off d
  else if isHi r then ((pageOf p d).latch.get 0 r.page).toNat
  else blockValue fz logs r d

/-- The effect of an aligned 32-bit read: a _LO read latches the high half, and RC clears (R47, R50). -/
def wordReadEffect (fz : Fuses) (logs : Nat) (r : RegId) (d : Dev) : Dev :=
  let p := pageOfReg r
  if pageSilent p d || decide (r.off < 0x40) then d else
  match rowAt r with
  | some row =>
    let d1 := if row.wide then
        let g := pageOf p d
        putPage p { g with latch := g.latch.set r.page (BitVec.ofNat 32 (pairValue fz logs r d / 2 ^ 32)) } d
      else d
    if row.acc = .rc then (if row.wide then wr64 r 0 d1 else wr r 0 d1) else d1
  | none => d

/-- One byte of the window, without side effect. -/
def windowByte (fz : Fuses) (logs : Nat) (o : Nat) (d : Dev) : Nat :=
  match locate (o / 4 * 4) with
  | some r => wordValue fz logs r d / 2 ^ (8 * (o % 4)) % 256
  | none => 0

/-- An aligned 32-bit read of a mapped register. -/
def readWord (fz : Fuses) (logs : Nat) (r : RegId) (d : Dev) : Dev × Nat :=
  (wordReadEffect fz logs r d, wordValue fz logs r d)

/-- A read of a core's STEPS or FILLED finds the steps that have passed since its latest instruction: a core steps while it is
out of reset (R408; log entry 7). -/
def beforeRead (o : Nat) (d : Dev) : Dev :=
  match locate o with
  | some r =>
    if r.ty = .core ∧ (r.off = 0xD0 ∨ r.off = 0xD8) ∧ usable (uCore r.inst) d ∧ resetActs .core d = false then passIdle r.inst d
    else d
  | none => d

/-- A read of 4 or 8 bytes at a window offset, of the registers as they stand; a misaligned one reads bytes alone (log entry
69). -/
def readRegs (fz : Fuses) (logs : Nat) (n o : Nat) (d : Dev) : Dev × Nat :=
  match locate o with
  | none => (unmapped o d, 0)
  | some r =>
    if o % n ≠ 0 then
      (d, (List.range n).foldl (fun v i => v + windowByte fz logs (o + i) d * 2 ^ (8 * i)) 0)
    else if n = 4 then readWord fz logs r d
    else if isLo r && !pageSilent (pageOfReg r) d then
      (if (rowAt r).any (fun row => row.acc == .rc) then wr64 r 0 d else d, pairValue fz logs r d % 2 ^ 64)
    else
      let a := readWord fz logs r d
      let b := readWord fz logs (hiOf r) a.1
      (b.1, a.2 + 2 ^ 32 * b.2)

/-- A read of 4 or 8 bytes at a window offset. -/
def readWindow (fz : Fuses) (logs : Nat) (n o : Nat) (d : Dev) : Dev × Nat := readRegs fz logs n o (beforeRead o d)

/-! ### Writes of PAGE_CMD -/

/-- The commands of a page that the lead does not own, by block type and code (R55). -/
def pageOwnCommand (p : PageId) (code arg : Nat) (d : Dev) : Dev :=
  match p.ty, code with
  | .core, 0x40 => cmdStart p.inst arg d
  | .core, 0x41 => cmdStop p.inst arg d
  | .memoryController, 0x40 => cmdScrubNow p.inst arg d
  | .updateEngine, 0x40 => cmdEnablePlan p.inst arg d
  | .updateEngine, 0x41 => cmdDisablePlan p.inst arg d
  | .updateEngine, 0x42 => cmdArm p.inst arg d
  | .updateEngine, 0x43 => cmdDisarm p.inst arg d
  | .updateEngine, 0x44 => cmdFire p.inst arg d
  | .port, 0x40 => cmdLaserSelect p.inst arg d
  | .networkInterface, 0x40 => cmdSend p.inst arg d
  | .networkInterface, 0x41 => cmdOpenWindow p.inst arg d
  | .networkInterface, 0x42 => cmdCloseWindow p.inst arg d
  | .queuePool, 0x40 => cmdFlush p.inst arg d
  | .queuePool, 0x41 => cmdApplyReserves p.inst arg d
  | .checkContexts, 0x40 => cmdSetHalf p.inst arg d
  | .checkContexts, 0x41 => cmdClearHalf p.inst arg d
  | .ring, 0x40 => cmdLaunch p.inst arg d
  | .ring, 0x41 => cmdAbort p.inst arg d
  | .ring, 0x42 => cmdAcknowledge p.inst arg d
  | .belay, 0x40 => cmdArmEntry p.inst arg d
  | .belay, 0x41 => cmdDisarmEntry p.inst arg d
  | .luawick, 0x40 => cmdSharedEnable arg d
  | .luawick, 0x41 => cmdSharedDisable arg d
  | .luawick, 0x42 => cmdQueueEnable arg d
  | .luawick, 0x43 => cmdQueueDisable arg d
  | .luawick, 0x44 => cmdRingEnable arg d
  | .luawick, 0x45 => cmdRingDisable arg d
  | _, _ => if 1 ≤ code ∧ code ≤ 6 then commonCommand p code arg d else undefinedCommand p code arg d

/-- A command for a page of the lead waits in the page's latch; behind a waiting one it counts as written while a command is
in progress (R432). In the safe state it is judged at once (R443). -/
def latchCommand (p : PageId) (code arg : Nat) (d : Dev) : Dev :=
  if d.lead.safe then leadCommand p ⟨code, arg⟩ d
  else if d.lead.latches.any (fun e => e.1 == p) && code != 4 then
    (if (pageOf p d).negotiated then dropCmd p code d else reject p code .rejectedVersion d)
  else modLead (fun l => { l with latches := l.latches ++ [(p, ⟨code, arg⟩)] }) d

/-- A write of PAGE_CMD: CMD in bits 7:0, ARG in bits 31:8 (R29). -/
def writeCommand (p : PageId) (v : Nat) (d : Dev) : Dev :=
  if pageSilent p d then d
  else if leadOwned p.ty then latchCommand p (v % 256) (v / 256 % 2 ^ 24) d
  else pageOwnCommand p (v % 256) (v / 256 % 2 ^ 24) d

/-! ### Writes of registers -/

/-- A write of a header register; the others are read only or reserved (R29). -/
def writeHeader (p : PageId) (off v : Nat) (d : Dev) : Dev :=
  match off with
  | 0x0C => writeCommand p v d
  | 0x14 => writeError p (BitVec.ofNat 32 v) d
  | 0x18 => writeEvents p (BitVec.ofNat 32 v) 0 d
  | 0x1C => writeMask p (BitVec.ofNat 32 v) d
  | 0x20 => (negotiate p v d).1
  | _ => d

/-- A 32-bit register takes a value: registers whose write does more than store, then W1C, then the bits that the register
has. -/
def storeWord (r : RegId) (row : RegRow) (v : Nat) (d : Dev) : Dev :=
  match r.ty, r.page, r.off with
  | .module, 0, 0x80 => negotiateEvery v d
  | .memoryController, 0, 0x48 => setMapLocal v d
  | .memoryController, 0, 0x68 => periodWritten r.inst (wr r v d)
  | .memoryController, 0, 0x88 => writeInject r.inst v d
  | .queuePool, 0, 0x50 => writeInjectCtrl r.inst v d
  | .counters, page, off => writeCounter r.inst (64 * page + (off - 0x100) / 4) v d
  | ty, page, off =>
    if ty = .luawick ∧ page = 2 ∧ (off - 0x40) % 32 = 0x0C then ring ((off - 0x40) / 32) v d
    else if ty = .luawick ∧ page = 3 ∧ off ≠ 0x140 ∧ (off - 0x40) % 32 = 0x0C then writeConsumer ((off - 0x40) / 32) v d
    else match row.acc with
      | .rw => wr r (Nat.land v row.mask) d
      | .w1c => wr r (rd r d - Nat.land (rd r d) (Nat.land v row.mask)) d
      | _ => d

/-- A pair takes a value of 64 bits in one instant. -/
def storePair (r : RegId) (row : RegRow) (v : Nat) (d : Dev) : Dev :=
  if r.ty = .networkInterface ∧ r.page = 0 ∧ r.off = 0x80 then excludePlanes (Nat.land v row.mask) d
  else if row.acc = .rw then wr64 r (Nat.land v row.mask) d else d

/-- The held low half of a page, or the low half that the pair has. -/
def heldOr (r : RegId) (d : Dev) : Nat :=
  match (pageOf (pageOfReg r) d).held.find? (fun e => e.1 == r.page) with
  | some e => e.2.toNat
  | none => rd r d

def setHeld (r : RegId) (v : Option Word) (d : Dev) : Dev :=
  let p := pageOfReg r
  let g := pageOf p d
  let h := g.held.drop (fun k => k == r.page)
  putPage p { g with held := match v with | some w => h ++ [(r.page, w)] | none => h } d

/-- An aligned 32-bit write of a register of the block; what is written to reserved offsets is ignored (R8). -/
def writeBlock (r : RegId) (v : Nat) (d : Dev) : Dev :=
  match rowAt r with
  | some row =>
    whenNegotiated (pageOfReg r) (fun x =>
      if row.wide then setHeld r (some (BitVec.ofNat 32 v)) x else storeWord r row v x) d
  | none =>
    let lo := { r with off := r.off - 4 }
    match (if isHi r then rowAt lo else none) with
    | some row => whenNegotiated (pageOfReg r) (fun x => setHeld lo none (storePair lo row (2 ^ 32 * v + heldOr lo x) x)) d
    | none => d

def writeWord (r : RegId) (v : Nat) (d : Dev) : Dev :=
  if r.off < 0x40 then writeHeader (pageOfReg r) r.off v d else writeBlock r v d

/-- A write of 4 or 8 bytes at a window offset. -/
def writeWindow (n o v : Nat) (d : Dev) : Dev :=
  match locate o with
  | none => unmapped o d
  | some r =>
    if pageSilent (pageOfReg r) d then d
    else if o % n ≠ 0 then accessError (pageOfReg r) o d
    else if n = 4 then writeWord r (v % 2 ^ 32) d
    else match (if isLo r && decide (0x40 ≤ r.off) then rowAt r else none) with
      | some row => whenNegotiated (pageOfReg r) (fun x => setHeld r none (storePair r row v x)) d
      | none => writeWord (hiOf r) (v / 2 ^ 32 % 2 ^ 32) (writeWord r (v % 2 ^ 32) d)

/-! ### The rows -/

/-- The PAGE_CMD code that a write gives to a page, if it is one. -/
def commandIn (n o v : Nat) : Option (PageId × Nat) :=
  match locate o with
  | some r =>
    if o % n ≠ 0 then none
    else if r.off = 0x0C ∧ n = 4 then some (pageOfReg r, v % 256)
    else if r.off = 0x08 ∧ n = 8 then some (pageOfReg r, v / 2 ^ 32 % 256)
    else none
  | none => none

/-- A write's effect on the module; a retest or a retrain may start new port or training firmware (R476). -/
def afterWrite (n o v : Nat) (f : Dev → Dev) (s : State) : Host.Outcome State Fault Refusal :=
  match commandIn n o v with
  | some (p, code) =>
    if p.ty = .port ∧ code = 3 then onDevPart 5 (fun d => stateOf p (f d) == .testing && stateOf p d != .testing) f s
    else if code = 6 ∧ (p.ty = .port ∨ p.ty = .memoryController) then
      onDevPart (if p.ty = .port then 5 else 6) (fun d => inProgress p 6 (f d) && !inProgress p 6 d) f s
    else onDev f s
  | none => onDev f s

/-- REGISTER_WRITE (R45, R51). -/
def execRegisterWrite (off : Nat) (value : Word) (s : State) : Host.Outcome State Fault Refusal :=
  afterWrite 4 off value.toNat (writeWindow 4 off value.toNat) s

/-- LO_READ (R50). -/
def execLoRead (off : Nat) (s : State) : Host.Outcome State Fault Refusal :=
  onDev (fun d => (readWindow s.fuses s.mlog.length 4 off d).1) s

/-- HI_WRITE (R50). -/
def execHiWrite (off : Nat) (value : Word) (s : State) : Host.Outcome State Fault Refusal :=
  onDev (writeWindow 4 off value.toNat) s

/-- RC_READ (R47, R50). -/
def execRcRead (off : Nat) (wide : Bool) (s : State) : Host.Outcome State Fault Refusal :=
  onDev (fun d => (readWindow s.fuses s.mlog.length (if wide then 8 else 4) off d).1) s

/-- W1C_WRITE (R135, R310). -/
def execW1cWrite (off : Nat) (value : Word) (s : State) : Host.Outcome State Fault Refusal :=
  onDev (writeWindow 4 off value.toNat) s

/-- REG_COMPLETION (R65, R66). -/
def completion (tag addr status : Nat) (data : List Byte) : HostMsg :=
  { opcode := 0x08, tag := tag % 4096, address := addr, context := 0, status := status, poison := false, readLength := 0,
    data := data }

/-- A read message of `n` bytes; the data of one that gets ADDRESS_ERROR is a free value (log entry 7). -/
def readMessage (fz : Fuses) (logs n tag addr : Nat) (d : Dev) : Dev :=
  if 2 ^ 26 ≤ addr then hostSend (completion tag addr 1 (leBytes n (drawFree d).toNat)) (tickFree d)
  else
    let x := readWindow fz logs n addr d
    hostSend (completion tag addr 0 (leBytes n x.2)) x.1

/-- The write retrains the Luawick link: its completion leaves before the link does (R87). -/
def dropsLink (n addr v : Nat) : Bool := commandIn n addr v == some (pLua, 6)

/-- A write message of `n` bytes. -/
def writeMessage (n tag addr v : Nat) (d : Dev) : Dev :=
  if 2 ^ 26 ≤ addr then hostSend (completion tag addr 1 []) d
  else if dropsLink n addr v then writeWindow n addr v (hostSend (completion tag addr 0 []) d)
  else hostSend (completion tag addr 0 []) (writeWindow n addr v d)

/-- REG_READ32 (R66). -/
def execRegRead32 (tag : Nat) (addr : DWord) (s : State) : Host.Outcome State Fault Refusal :=
  onDev (hostMessage 0 1 (readMessage s.fuses s.mlog.length 4 tag addr.toNat)) s

/-- REG_READ64 (R66). -/
def execRegRead64 (tag : Nat) (addr : DWord) (s : State) : Host.Outcome State Fault Refusal :=
  onDev (hostMessage 0 1 (readMessage s.fuses s.mlog.length 8 tag addr.toNat)) s

/-- REG_WRITE32 (R66). -/
def execRegWrite32 (tag : Nat) (addr : DWord) (value : Word) (s : State) : Host.Outcome State Fault Refusal :=
  afterWrite 4 addr.toNat value.toNat (hostMessage 0 (slotsFor 4) (writeMessage 4 tag addr.toNat value.toNat)) s

/-- REG_WRITE64 (R66). -/
def execRegWrite64 (tag : Nat) (addr : DWord) (value : DWord) (s : State) : Host.Outcome State Fault Refusal :=
  afterWrite 8 addr.toNat value.toNat (hostMessage 0 (slotsFor 8) (writeMessage 8 tag addr.toNat value.toNat)) s

end Sys2Proof.Machine
end

