-- ==== Sys2Proof/Machine/EngineOps.lean ====
section
/-!
DEFINITION. How the matrix and vector engines start a command (R111, R115).
-/

namespace Sys2Proof.Machine

/-- Marks a command started, and its work ended. -/
def workEnded (k e : Nat) (c : EngCmd) (r : Result) (detail : Nat) (d : Dev) : Dev :=
  modCmd k e c.ticket (fun x => { x with
    started := true, startGen := fpGen d, ended := some (r, detail) }) d

/-- The engine starts its oldest command where it is of the operation named and no other runs (R111). -/
def startEngine (k e op : Nat) (go : EngCmd → Dev → Dev) (d : Dev) : Dev :=
  match nextCmd (coreOf k d) e with
  | none => d
  | some c =>
    if descOp c.desc = op ∧ engineIdle (coreOf k d) e ∧ inState (pCore k) [.ready, .active, .loading] d then go c d else d

end Sys2Proof.Machine
end

