-- ==== Sys2Proof/Machine/Engines.lean ====
section
/-!
DEFINITION. The matrix engine (R149 to R156) and the vector engine (R157 to R162): a command's whole work is done when the
engine starts it, and ENGINE_COMMAND_COMPLETE completes it (log entry 26).
-/

namespace Sys2Proof.Machine

/-- MATMUL from its start (R100, R153 to R156). -/
def runMatmul (k : Nat) (c : EngCmd) (d : Dev) : Dev :=
  let m := matDesc c.desc
  if m.m = 0 ∨ m.n = 0 ∨ m.k = 0 then workEnded k 0 c .done 0 d
  else if matInRange c.user m = false then workEnded k 0 c .rejectedRange 0 d
  else beginWork k 0 c d

/-- MATMUL (R149). -/
def execMatmul (core : Nat) (s : State) : Host.Outcome State Fault Refusal :=
  onDev (startEngine core 0 1 (runMatmul core)) s

/-- A vector command from its start (R100, R159 to R162). -/
def runVector (k : Nat) (c : EngCmd) (d : Dev) : Dev :=
  let v := vecDesc c.desc
  if v.len = 0 ∨ v.rows = 0 then workEnded k 1 c .done 0 d
  else if vecInRange c.user v = false then workEnded k 1 c .rejectedRange 0 d
  else beginWork k 1 c d

/-- The vector engine starts its oldest command, of that operation. -/
def startVector (k op : Nat) (d : Dev) : Dev := startEngine k 1 op (runVector k) d

/-- ADD (R157). -/
def execAdd (core : Nat) (s : State) : Host.Outcome State Fault Refusal := onDev (startVector core 0x01) s

/-- SUB (R157). -/
def execSub (core : Nat) (s : State) : Host.Outcome State Fault Refusal := onDev (startVector core 0x02) s

/-- MUL (R157). -/
def execMul (core : Nat) (s : State) : Host.Outcome State Fault Refusal := onDev (startVector core 0x03) s

/-- FMA (R157). -/
def execFma (core : Nat) (s : State) : Host.Outcome State Fault Refusal := onDev (startVector core 0x04) s

/-- MAX (R157). -/
def execMax (core : Nat) (s : State) : Host.Outcome State Fault Refusal := onDev (startVector core 0x05) s

/-- MIN (R157). -/
def execMin (core : Nat) (s : State) : Host.Outcome State Fault Refusal := onDev (startVector core 0x06) s

/-- COPY (R157). -/
def execCopy (core : Nat) (s : State) : Host.Outcome State Fault Refusal := onDev (startVector core 0x07) s

/-- TRANSPOSE (R157). -/
def execTranspose (core : Nat) (s : State) : Host.Outcome State Fault Refusal := onDev (startVector core 0x08) s

/-- EXP2 (R157). -/
def execExp2 (core : Nat) (s : State) : Host.Outcome State Fault Refusal := onDev (startVector core 0x10) s

/-- LOG2 (R157). -/
def execLog2 (core : Nat) (s : State) : Host.Outcome State Fault Refusal := onDev (startVector core 0x11) s

/-- RECIP (R157). -/
def execRecip (core : Nat) (s : State) : Host.Outcome State Fault Refusal := onDev (startVector core 0x12) s

/-- RSQRT (R157). -/
def execRsqrt (core : Nat) (s : State) : Host.Outcome State Fault Refusal := onDev (startVector core 0x13) s

/-- TANH (R157). -/
def execTanh (core : Nat) (s : State) : Host.Outcome State Fault Refusal := onDev (startVector core 0x14) s

/-- SIGMOID (R157). -/
def execSigmoid (core : Nat) (s : State) : Host.Outcome State Fault Refusal := onDev (startVector core 0x15) s

/-- ERF (R157). -/
def execErf (core : Nat) (s : State) : Host.Outcome State Fault Refusal := onDev (startVector core 0x16) s

/-- RSUM (R157). -/
def execRsum (core : Nat) (s : State) : Host.Outcome State Fault Refusal := onDev (startVector core 0x20) s

/-- RMAX (R157). -/
def execRmax (core : Nat) (s : State) : Host.Outcome State Fault Refusal := onDev (startVector core 0x21) s

/-- RMIN (R157). -/
def execRmin (core : Nat) (s : State) : Host.Outcome State Fault Refusal := onDev (startVector core 0x22) s

/-- RSUMSQ (R157). -/
def execRsumsq (core : Nat) (s : State) : Host.Outcome State Fault Refusal := onDev (startVector core 0x23) s

/-- RAMAX (R157). -/
def execRamax (core : Nat) (s : State) : Host.Outcome State Fault Refusal := onDev (startVector core 0x24) s

end Sys2Proof.Machine
end

