-- ==== Sys2Proof/Machine/Hangs.lean ====
section
/-!
DEFINITION. Beacons and hangs (R410 to R413, R428).
-/

namespace Sys2Proof.Machine

/-- Actions of a hang-log entry: 0 REPORTED, 1 RETESTED, 2 COMPUTE_RESET, 3 RETIRED (R428); the lead writes it (R411). -/
def logHang (u action info pc : Nat) (d : Dev) : Dev :=
  if d.lead.safe then d else
  let n := rd (rReset 0x100) d
  let e := 0x200 + 16 * (n % 32)
  raise pReset 16 (addWrap (rReset 0x100) 1 (wr (rReset (e + 12)) (2 ^ 16 * (fpGen d % 65536)) (wr (rReset (e + 8)) pc
    (wr (rReset (e + 4)) info (wr (rReset e) (2 ^ 24 * action + u) d)))))

/-- Source HANG, once for the hangs of one instant (R412). -/
def raiseHang (d : Dev) : Dev :=
  if d.reset.hangAt = some d.now then d
  else requestReset 8 { d with reset := { d.reset with hangAt := some d.now } }

/-- The core's oldest command that has not completed, with its engine (R130). -/
def oldestCmd (c : Core) : Option (Nat × EngCmd) :=
  let l := [0, 1, 2].flatMap (fun e => ((engineOf c e).cmds.filter (fun x => !x.completed)).map (fun x => (e, x)))
  l.foldl (fun b x => match b with
    | none => some x
    | some y => if x.2.order < y.2.order then some x else some y) none

/-- HANG_INFO (R130, R135). -/
def hangInfo (c : Core) : Nat :=
  2 ^ 31 + 2 ^ 28 * c.vxctx + 2 ^ 27 * b2n (!c.machine) + 2 ^ 26 * b2n c.waiting.isSome
    + (match oldestCmd c with
       | some (e, x) => 2 ^ 25 + 2 ^ 22 * x.ctx + 2 ^ 20 * e
       | none => 0)

/-- HANG_ACTION of a core and of a supervisor as written. -/
def coreAction (d : Dev) : Nat := rd (rReset 0x58) d % 4
def supervisorAction (d : Dev) : Nat := fieldOf (rd (rReset 0x58) d) 5 4

/-- What a compute reset by HANG comes to: nothing where RESET_MAP gives NONE. -/
def hangResets (d : Dev) : Bool := mappedLevel 8 d != 3

/-- A hang of a core is declared (R411, R412). -/
def declareHang (k : Nat) (d : Dev) : Dev :=
  let c := coreOf k d
  let info := hangInfo c
  let pc := c.pc % 2 ^ 21
  let d1 := wr (rCore k 0xB4) info (wr (rCore k 0xB0) pc d)
  let d2 := coreFault k .hang (dropAllUnstarted k (fun _ => true) (abandonKernel k d1))
  match coreAction d with
  | 1 => startRetest (pCore k) false (logHang (uCore k) 1 info pc d2)
  | 2 => if hangResets d then raiseHang (logHang (uCore k) 2 info pc d2) else logHang (uCore k) 0 info pc d2
  | 3 => blockError pReset 0x20 (logHang (uCore k) 0 info pc d2)
  | _ => logHang (uCore k) 0 info pc d2

/-- The supervisor asks for a beacon each 1 ms (R104, R105); while it watches the core, a request that finds the last one
unanswered counts, and the fourth in a row is a hang. -/
def requestBeacon (k : Nat) (d0 : Dev) : Dev :=
  let watched := coreTakes k d0 && !resetActs .core d0
  let due := !(coreOf k d0).beaconAt.any (fun t => decide (d0.now - t < 1000000))
  let d := modCore k (fun x => { x with beaconAt := some d0.now }) d0
  let c := coreOf k d
  if 2560 ≤ k ∨ due = false ∨ (watched = false ∧ (c.loaded = false ∨ stateOf (pCore k) d ≠ .loading)) then d0
  else if c.beaconPending then
    (if watched then
      let n := rd (rCore k 0xE4) d + 1
      let d1 := wr (rCore k 0xE4) n d
      if 4 ≤ n then declareHang k d1 else d1
    else d)
  else modCore k (fun x => { x with beaconPending := true }) (setPending k 16 true d)

/-- BEACON_REQ (R105, R411). -/
def execBeaconReq (core : Nat) (s : State) : Host.Outcome State Fault Refusal := onDev (requestBeacon core) s

/-- Missed beacons in a row of an emitter, as the lead counts them; one is missed when 1 ms passes without it. -/
def countMiss (key : Nat) (came : Bool) (d : Dev) : Dev :=
  let l := d.lead
  if !came && decide (d.now - l.heard.get l.watchFrom key < 1000000) then d
  else { d with
    lead := { l with missed := l.missed.set key (if came then 0 else l.missed.get 0 key + 1), heard := l.heard.set key d.now } }

/-- A hung supervisor (R412). -/
def supervisorHung (i : Nat) (d : Dev) : Dev :=
  let u := uSupervisor i
  let a := supervisorAction d
  if a = 1 ∧ hangResets d then raiseHang (logHang u 2 0 0 d)
  else
    let d1 := retireUnit u .hang (logHang u 3 0 0 d)
    if 2 ≤ a then blockError pReset 0x20 d1 else d1

/-- SUPERVISOR_BEACON (R410). -/
def execSupervisorBeacon (i : Nat) (came : Bool) (s : State) : Host.Outcome State Fault Refusal :=
  onDev (fun d =>
    if (leadRuns d).isSome && decide (i < 160) && unitState (uSupervisor i) d == .ready && d.reset.phase == .starting then
      let d1 := countMiss i came d
      if 4 ≤ d1.lead.missed.get 0 i then supervisorHung i d1 else d1
    else d) s

/-- DIE_CONTROLLER_BEACON (R410, R412). -/
def execDieControllerBeacon (d : Nat) (came : Bool) (s : State) : Host.Outcome State Fault Refusal :=
  onDev (fun x =>
    if (leadRuns x).isSome && decide (d < 10) && usable (uDie d) x then
      let x1 := countMiss (160 + d) came x
      if 4 ≤ x1.lead.missed.get 0 (160 + d) then retireUnit (uDie d) .hang (logHang (uDie d) 3 0 0 x1) else x1
    else x) s

/-- The lead's beacon, each 10 ms: BEACON_COUNT, and a BEACON entry on the module group's ring (R80, R410). -/
def leadBeacon (d : Dev) : Dev :=
  if (leadRuns d).isSome && decide (10000000 ≤ d.now - d.lead.beaconAt) then
    let d1 := addWrap (rModule 0x50) 1 { d with lead := { d.lead with beaconAt := d.now } }
    let g := pageOf pModule d1
    deliver 0 ⟨1, typeCode .module, 0, g.events.toNat, stateWord g, rd (rModule 0x50) d1⟩ d1
  else d

/-- BEACON (R410). -/
def execBeacon (s : State) : Host.Outcome State Fault Refusal := onDev leadBeacon s

end Sys2Proof.Machine
end

