-- ==== Sys2Proof/Machine/MgmtOps.lean ====
section
/-!
DEFINITION. What the messages of the management port share (R450 to R462): who answers, silence, vendor responses and their
codes, and the checks of firmware sets (R470, R474, R477).
-/

namespace Sys2Proof.Machine

/-- The I3C front end of the lead is enabled (R451). -/
def frontEnd (d : Dev) : Bool := portAlive d && d.always.leadSelect.isSome

/-- Control firmware of the lead, or the ROM in bivouac mode, answers messages. -/
def mgmtAnswers (d : Dev) : Bool := frontEnd d && (d.boot.phase == .bivouac || (leadRuns d).isSome)

/-- A well-formed request ends silence, and releases the silence ceiling (R462). -/
def hear (d : Dev) : Dev :=
  let d1 := modMgmt (fun m => { m with heard := d.now, silenced := false }) d
  if d.mgmt.silenced then settleLimit (raise pView 17 d1) else d1

/-- What the module has for management to read; a message is announced by an in-band interrupt. -/
def send (x : MgmtOut) (d : Dev) : Dev :=
  modMgmt (fun m => { m with out := m.out ++ (match x with | .message _ _ => interruptFor m | _ => []) ++ [x] }) d

/-- A message of management that the module answers. -/
def onMessage (f : Dev → Dev) (d : Dev) : Dev := if mgmtAnswers d then f (hear d) else d

/-! ### Vendor messages (R456 to R458) -/

/-- The bytes of a response after its type byte. -/
def vendorBytes (inst cmd code : Nat) (body : List Byte) : List Byte :=
  [0x00, 0x00, 0x7E, 0xD9, 0x18] ++ leBytes 1 inst ++ leBytes 1 cmd ++ leBytes 1 code ++ body

def respond (inst cmd code : Nat) (body : List Byte) (d : Dev) : Dev := send (.message 0x7F (vendorBytes inst cmd code body)) d

/-- A vendor request: its place in the table of R459, whether bivouac mode serves it, and whether its body has a length
that the command defines. -/
structure Request where
  inst : Nat
  cmd : Nat
  inBivouac : Bool
  lengthOk : Bool

/-- The completion code of a request: UNSUPPORTED, INVALID_LENGTH, then the first of its own checks that fails. -/
def vendorCode (r : Request) (checks : List (Bool × Nat)) (d : Dev) : Nat :=
  if d.boot.phase = .bivouac ∧ r.inBivouac = false then 1
  else if r.lengthOk = false then 3
  else match checks.find? (·.1) with
    | some c => c.2
    | none => 0

/-- A request is judged, has its effect if every check holds, and is answered. -/
def vendorRow (r : Request) (checks : Dev → List (Bool × Nat)) (act : Dev → Dev × List Byte) : Dev → Dev :=
  onMessage (fun d =>
    let code := vendorCode r (checks d) d
    if code = 0 then
      let x := act d
      respond r.inst r.cmd 0 x.2 x.1
    else respond r.inst r.cmd code [] d)

/-- The request is answered with SUCCESS. -/
def vendorTakes (r : Request) (checks : Dev → List (Bool × Nat)) (d : Dev) : Bool :=
  mgmtAnswers d && vendorCode r (checks (hear d)) (hear d) == 0

/-- A reserved field of a body that is not 0 (R457). -/
def reservedBits (body : List Byte) (off n : Nat) : Bool := leAt body off n != 0

/-- A long order begins. -/
def beginOrder (kind : Nat) (d : Dev) : Dev := modMgmt (fun m => { m with orderKind := kind, orderState := 1 }) d

/-! ### Ceilings and settings (R378, R461, R478) -/

/-- The body of SET_CEILINGS for a set of ceilings. -/
def ceilingBytes (c : Ceilings) : List Byte :=
  leBytes 2 0x01FF ++ leBytes 2 c.power ++ leBytes 2 c.rise ++ leBytes 2 c.fall ++ leBytes 1 (b2n c.glowOn)
    ++ leBytes 1 c.glowFloor ++ leBytes 2 c.glowHold ++ leBytes 1 c.opPoint ++ leBytes 1 c.throttle ++ leBytes 2 c.grace

/-- The fields of a body, whether valid or not. -/
def ceilingsOf (b : List Byte) : Ceilings :=
  { power := leAt b 2 2, rise := leAt b 4 2, fall := leAt b 6 2, glowOn := leAt b 8 1 == 1, glowFloor := leAt b 9 1,
    glowHold := leAt b 10 2, opPoint := leAt b 12 1, throttle := leAt b 13 1, grace := leAt b 14 2 }

/-- The ceilings of which the valid ones are replaced. -/
def mergeCeilings (valid : Nat) (new old : Ceilings) : Ceilings :=
  let v := bitOf valid
  { power := if v 0 then new.power else old.power
    rise := if v 1 then new.rise else old.rise
    fall := if v 2 then new.fall else old.fall
    glowOn := if v 3 then new.glowOn else old.glowOn
    glowFloor := if v 4 then new.glowFloor else old.glowFloor
    glowHold := if v 5 then new.glowHold else old.glowHold
    opPoint := if v 6 then new.opPoint else old.opPoint
    throttle := if v 7 then new.throttle else old.throttle
    grace := if v 8 then new.grace else old.grace }

def within (lo hi v : Nat) : Bool := decide (lo ≤ v) && decide (v ≤ hi)

/-- Every valid field lies in its range of R378. -/
def ceilingsInRange (valid design : Nat) (c : Ceilings) : Bool :=
  let ok := fun i b => !bitOf valid i || b
  ok 0 (within 1000 design c.power) && ok 1 (within 10 10000 c.rise) && ok 2 (within 10 10000 c.fall)
    && ok 4 (within 0 90 c.glowFloor) && ok 5 (within 10 60000 c.glowHold) && ok 7 (within 80 95 c.throttle)
    && ok 8 (within 1000 5000 c.grace)

/-- The encodings of a body of SET_CEILINGS. -/
def ceilingsEncoded (b : List Byte) : Bool :=
  let w := leAt b 0 2
  fieldOf w 14 9 == 0 && (!bitOf w 3 || decide (leAt b 8 1 ≤ 1)) && (!bitOf w 6 || decide (leAt b 12 1 ≤ 2))

/-- The format that the schema of the active set gives a key. -/
def schemaOf (key : Nat) (d : Dev) : Nat := Config.schemaFormat (releaseOf d.flash.active.manifest) key

/-- A setting is written with the format of the schema. -/
def storeSetting (key : Nat) (f : Flash → Flash) (d : Dev) : Dev :=
  { d with flash := { f d.flash with formats := d.flash.formats.set key (schemaOf key d) } }

/-! ### Firmware sets (R469, R470, R474, R477) -/

/-- Part entries that lie in increasing offset, do not overlap, and end where the set does. -/
def partsLie (m : List Byte) (i at_ : Nat) (fuel : Nat) : Bool :=
  match fuel with
  | 0 => at_ == setSizeOf m
  | k + 1 =>
    let e := 0x20 + 0x40 * i
    let off := leAt m (e + 4) 4
    off % 65536 == 0 && decide (at_ ≤ off) && (i != 0 || off == 0) && partsLie m (i + 1) (off + leAt m (e + 8) 4) k

/-- Each part type appears once. -/
def partsComplete (m : List Byte) : Bool :=
  let kinds := (List.range 7).map (fun i => leAt m (0x20 + 0x40 * i) 1)
  [1, 2, 3, 4, 5, 6, 7].all (fun k => kinds.contains k)

/-- A key slot of the ROM that no fuse revokes. -/
def slotGood (fz : Fuses) (slot : Nat) : Bool := decide (slot ≤ 3) && !fz.revoked.contains slot

/-- A manifest verifies under R470. -/
def manifestGood (fz : Fuses) (m : List Byte) : Bool :=
  let slot := leAt m 6 1
  m.take 4 == [0x56, 0x58, 0x46, 0x53] && leAt m 4 2 == 1 && leAt m 7 1 == 7 && decide (setSizeOf m ≤ 0x0EF00000)
    && partsComplete m && partsLie m 0 0 7 && [1, 2, 3, 4, 5, 6, 7].all (fun k => decide (partSvn m k ≤ 127))
    && slotGood fz slot && Config.slhVerify slot (m.take 0x1E0) (m.drop 0x1E0)

/-- No part's security version lies below its fuses (R477). -/
def versionsGood (fz : Fuses) (m : List Byte) : Bool :=
  [1, 2, 3, 4, 5, 6, 7].all (fun k => decide (fz.svn.getD (k - 1) 0 ≤ partSvn m k))

/-- Every part of a set hashes as its manifest says. -/
def partsGood (s : FwSet) : Bool :=
  [1, 2, 3, 4, 5, 6, 7].all (fun k =>
    sha256 (s.body.read (partOffset s.manifest k) (partSize s.manifest k)) == partHash s.manifest k)

/-- Pieces that the staged set has; none while staging is empty. -/
def stagedPieces (d : Dev) : Nat := match d.flash.staged with | some s => setPieces s.manifest | none => 0

/-- Bytes of a piece of the staged set. -/
def pieceLength (i : Nat) (d : Dev) : Nat :=
  match d.flash.staged with | some s => min 65536 (setSizeOf s.manifest - 65536 * i) | none => 0

/-- An entry of the measurement log as it is read (R480). -/
def logBytes (i : Nat) (e : LogEntry) : List Byte :=
  leBytes 2 i ++ leBytes 1 e.event ++ leBytes 1 e.part ++ leBytes 1 e.svn ++ zeros 3 ++ leBytes 8 e.time ++ e.hash

/-- Entries of the log from an index, at most `n`. -/
def logFrom (log : List LogEntry) (first n : Nat) : List Byte :=
  let l := (log.drop first).take n
  leBytes 2 log.length ++ leBytes 2 l.length ++ ((List.range l.length).zip l).flatMap (fun e => logBytes (first + e.1) e.2)

end Sys2Proof.Machine
end

