-- ==== Sys2Proof/Machine/I3c.lean ====
section
/-!
DEFINITION. The I3C port, MCTP control and PLDM (R450 to R455). The manual names the standards; their encodings are PRESUMED
(log entry 28).
-/

namespace Sys2Proof.Machine

/-! ### Common command codes of I3C (R450, R451) -/

/-- A command code that reaches the enabled front end. -/
def onPort (f : Mgmt → Mgmt) (d : Dev) : Dev := if frontEnd d then modMgmt f d else d

/-- A code that reads bytes from the target. -/
def portReads (bytes : Dev → List Byte) (d : Dev) : Dev := if frontEnd d then send (.ccc (bytes d)) d else d

/-- ENEC (R450). -/
def execEnec (events : Nat) (s : State) : Host.Outcome State Fault Refusal :=
  onDev (onPort (fun m => { m with eventsOn := Nat.lor m.eventsOn (events % 256) })) s

/-- DISEC (R450). -/
def execDisec (events : Nat) (s : State) : Host.Outcome State Fault Refusal :=
  onDev (onPort (fun m => { m with eventsOn := m.eventsOn - Nat.land m.eventsOn (events % 256) })) s

/-- RSTDAA (R451): the MCTP endpoint ID stays. -/
def execRstdaa (s : State) : Host.Outcome State Fault Refusal := onDev (onPort (fun m => { m with address := none })) s

/-- The provisional ID, most significant byte first, and the two characteristics registers. -/
def pidBytes (d : Dev) : List Byte := beBytes 6 d.fused.provisionalId

/-- In-band interrupts, with a mandatory data byte. -/
def bcr : Byte := 0x06

/-- ENTDAA (R450): a target without a dynamic address answers with its identity and takes the address. -/
def execEntdaa (addr : Nat) (s : State) : Host.Outcome State Fault Refusal :=
  onDev (fun d =>
    if frontEnd d && d.mgmt.address.isNone then
      send (.ccc (pidBytes d ++ [bcr, 0x00])) (modMgmt (fun m => { m with address := some (addr % 128) }) d)
    else d) s

/-- The static address (R450). -/
def staticAddress (d : Dev) : Nat := 0x30 + d.pins.slotId % 16

/-- SETDASA (R450). -/
def execSetdasa (static : Nat) (addr : Nat) (s : State) : Host.Outcome State Fault Refusal :=
  onDev (fun d =>
    if static = staticAddress d ∧ d.mgmt.address = none then onPort (fun m => { m with address := some (addr % 128) }) d else d) s

/-- SETNEWDA (R450). -/
def execSetnewda (addr : Nat) (s : State) : Host.Outcome State Fault Refusal :=
  onDev (onPort (fun m => { m with address := m.address.map (fun _ => addr % 128) })) s

/-- GETPID (R450). -/
def execGetpid (s : State) : Host.Outcome State Fault Refusal := onDev (portReads pidBytes) s

/-- GETBCR (R450). -/
def execGetbcr (s : State) : Host.Outcome State Fault Refusal := onDev (portReads (fun _ => [bcr])) s

/-- GETDCR (R450). -/
def execGetdcr (s : State) : Host.Outcome State Fault Refusal := onDev (portReads (fun _ => [0x00])) s

/-- GETSTATUS (R450): the manual gives no content; free values (log entry 7). -/
def execGetstatus (s : State) : Host.Outcome State Fault Refusal :=
  onDev (fun d => if frontEnd d then tickFree (portReads (fun x => leBytes 2 (drawFree x).toNat) d) else d) s

/-- GETMRL (R450); the third byte, the longest in-band interrupt payload, is free (log entry 7). -/
def execGetmrl (s : State) : Host.Outcome State Fault Refusal :=
  onDev (fun d =>
    if frontEnd d then tickFree (portReads (fun x => beBytes 2 x.mgmt.mrl ++ leBytes 1 (drawFree x).toNat) d) else d) s

/-- GETMWL (R450). -/
def execGetmwl (s : State) : Host.Outcome State Fault Refusal := onDev (portReads (fun x => beBytes 2 x.mgmt.mwl)) s

/-- A transfer length in force: 64 to 256 bytes (R452). -/
def transferLength (n : Nat) : Nat := clampReg 64 256 n

/-- SETMRL (R452). -/
def execSetmrl (length : Nat) (s : State) : Host.Outcome State Fault Refusal :=
  onDev (onPort (fun m => { m with mrl := transferLength length })) s

/-- SETMWL (R452). -/
def execSetmwl (length : Nat) (s : State) : Host.Outcome State Fault Refusal :=
  onDev (onPort (fun m => { m with mwl := transferLength length })) s

/-! ### MCTP control (R452) -/

/-- A response of MCTP control: instance, command code, completion code and data. -/
def control (inst cmd code : Nat) (data : List Byte) : Dev → Dev :=
  send (.message 0x00 (leBytes 1 (inst % 32) ++ leBytes 1 cmd ++ leBytes 1 code ++ data))

/-- An endpoint ID that may be assigned. -/
def eidGood (eid : Nat) : Bool := decide (8 ≤ eid) && decide (eid < 255)

/-- SET_ENDPOINT_ID (R452): operations 0 and 1 assign. -/
def execSetEndpointId (inst : Nat) (op : Nat) (eid : Nat) (s : State) : Host.Outcome State Fault Refusal :=
  onDev (onMessage (fun d =>
    if op ≤ 1 ∧ eidGood eid = true then
      control inst 0x01 0 (leBytes 1 0 ++ leBytes 1 eid ++ leBytes 1 0) (modMgmt (fun m => { m with eid := eid }) d)
    else control inst 0x01 0x02 [] d)) s

/-- GET_ENDPOINT_ID (R452): a simple endpoint whose ID is assigned. -/
def execGetEndpointId (inst : Nat) (s : State) : Host.Outcome State Fault Refusal :=
  onDev (onMessage (fun d => control inst 0x02 0 (leBytes 1 d.mgmt.eid ++ [0x00, 0x00]) d)) s

/-- GET_ENDPOINT_UUID (R452). -/
def execGetEndpointUuid (inst : Nat) (s : State) : Host.Outcome State Fault Refusal :=
  onDev (onMessage (control inst 0x03 0 ((List.range 16).map Config.endpointUuid))) s

/-- GET_MCTP_VERSION_SUPPORT (R452). -/
def execGetMctpVersionSupport (inst : Nat) (mtype : Nat) (s : State) : Host.Outcome State Fault Refusal :=
  onDev (onMessage (
    if mtype = 0xFF ∨ mtype = 0x00 ∨ mtype = 0x01 ∨ mtype = 0x7F then control inst 0x04 0 (Config.mctpVersions mtype)
    else control inst 0x04 0x80 [])) s

/-- GET_MESSAGE_TYPE_SUPPORT (R452): the types beside control. -/
def execGetMessageTypeSupport (inst : Nat) (s : State) : Host.Outcome State Fault Refusal :=
  onDev (onMessage (control inst 0x05 0 [2, 0x01, 0x7F])) s

/-- GET_VENDOR_DEFINED_MESSAGE_SUPPORT (R452): one set, under the enterprise number. -/
def execGetVendorDefinedMessageSupport (inst : Nat) (selector : Nat) (s : State) : Host.Outcome State Fault Refusal :=
  onDev (onMessage (
    if selector = 0 then control inst 0x06 0 ([0xFF, 0x01, 0x00, 0x00, 0x7E, 0xD9] ++ leBytes 2 Config.vendorSetType.toNat)
    else control inst 0x06 0x02 [])) s

/-- UNSUPPORTED_MESSAGE_TYPE (R452): discarded and counted. -/
def execUnsupportedMessageType (mtype : Nat) (s : State) : Host.Outcome State Fault Refusal :=
  onDev (fun d =>
    if mgmtAnswers d && !(mtype == 0x00 || mtype == 0x01 || mtype == 0x7F) then
      modMgmt (fun m => { m with discarded := m.discarded + 1 }) d
    else d) s

/-- ASSEMBLY_TIMEOUT (R452): 100 ms after the first packet. -/
def execAssemblyTimeout (s : State) : Host.Outcome State Fault Refusal :=
  onDev (fun d => if d.mgmt.incoming.any (fun t => decide (100000000 ≤ d.now - t)) then
    modMgmt (fun m => { m with incoming := none }) d else d) s

/-! ### PLDM (R453 to R455) -/

/-- A PLDM response: instance, type, command, completion code and data. -/
def pldm (inst type cmd code : Nat) (data : List Byte) : Dev → Dev :=
  send (.message 0x01 (leBytes 1 (inst % 32) ++ leBytes 1 type ++ leBytes 1 cmd ++ leBytes 1 code ++ data))

/-- PLDM is not served in bivouac mode (R479). -/
def onPldm (f : Dev → Dev) (d : Dev) : Dev := if d.boot.phase = .bivouac then d else onMessage f d

/-- GET_TID (R453). -/
def execGetTid (inst : Nat) (s : State) : Host.Outcome State Fault Refusal :=
  onDev (onPldm (fun d => pldm inst 0 0x02 0 (leBytes 1 d.mgmt.tid) d)) s

/-- SET_TID (R453). -/
def execSetTid (inst : Nat) (tid : Nat) (s : State) : Host.Outcome State Fault Refusal :=
  onDev (onPldm (fun d =>
    if tid = 0 ∨ 255 ≤ tid then pldm inst 0 0x01 0x02 [] d
    else pldm inst 0 0x01 0 [] (modMgmt (fun m => { m with tid := tid }) d))) s

/-- The PLDM types that the terminus serves. -/
def pldmServes (type : Nat) : Bool := type == 0 || type == 2

/-- GET_PLDM_VERSION (R453). -/
def execGetPldmVersion (inst : Nat) (ptype : Nat) (s : State) : Host.Outcome State Fault Refusal :=
  onDev (onPldm (
    if pldmServes ptype then pldm inst 0 0x03 0 (zeros 4 ++ [0x05] ++ Config.pldmVersion ptype)
    else pldm inst 0 0x03 0x83 [])) s

/-- GET_PLDM_TYPES (R453). -/
def execGetPldmTypes (inst : Nat) (s : State) : Host.Outcome State Fault Refusal :=
  onDev (onPldm (pldm inst 0 0x04 0 ([0x05] ++ zeros 7))) s

/-- The commands of a type that the module answers. -/
def pldmCommands (type : Nat) : List Nat :=
  match type with
  | 0 => [0x01, 0x02, 0x03, 0x04, 0x05]
  | 2 => [0x04, 0x0B, 0x11, 0x21, 0x50, 0x51]
  | _ => []

/-- GET_PLDM_COMMANDS (R453): a bit for each command. -/
def execGetPldmCommands (inst : Nat) (ptype : Nat) (s : State) : Host.Outcome State Fault Refusal :=
  onDev (onPldm (
    if pldmServes ptype then
      pldm inst 0 0x05 0 (leBytes 32 ((pldmCommands ptype).foldl (fun n c => n + 2 ^ c) 0))
    else pldm inst 0 0x05 0x83 [])) s

/-- SET_EVENT_RECEIVER (R455). -/
def execSetEventReceiver (inst : Nat) (enable : Nat) (receiver : Nat) (s : State) : Host.Outcome State Fault Refusal :=
  onDev (onPldm (fun d =>
    if 3 < enable then pldm inst 2 0x04 0x02 [] d
    else pldm inst 2 0x04 0 [] (modMgmt (fun m => { m with receiver := if enable = 0 then none else some receiver }) d))) s

/-- GET_PDR_REPOSITORY_INFO (R454). -/
def execGetPdrRepositoryInfo (inst : Nat) (s : State) : Host.Outcome State Fault Refusal :=
  onDev (onPldm (pldm inst 2 0x50 0 Config.pdrInfo)) s

/-- GET_PDR (R454): a handle without a record is not valid. -/
def execGetPdr (inst : Nat) (handle : Nat) (s : State) : Host.Outcome State Fault Refusal :=
  onDev (onPldm (
    if Config.pdrRecord handle = [] then pldm inst 2 0x51 0x82 [] else pldm inst 2 0x51 0 (Config.pdrRecord handle))) s

/-- The reading of a numeric sensor at the last control cycle, in the unit of its figure: 0.1 °C, 0.01 V, 0.01 A, W, W, J, J;
none outside the table, `some none` without a valid reading. -/
def numericReading (sensor : Nat) (d : Dev) : Option (Option Int) :=
  let p := d.power
  if 1 ≤ sensor ∧ sensor ≤ 44 then some (p.cycleTemps.getD (sensor - 1) none)
  else match sensor with
    | 0x40 => some (some p.volts)
    | 0x41 => some (some p.amps)
    | 0x42 => some (some (p.measured / 16 : Nat))
    | 0x43 => some (some p.cycleLimit)
    | 0x44 => some (some (p.cycleEnergy / 1000 : Nat))
    | 0x45 => some (some (p.cycleGlow / 1000 : Nat))
    | _ => none

/-- Eight bytes of a signed reading. -/
def readingBytes (n : Int) : List Byte := leBytes 8 (BitVec.ofInt 64 n).toNat

/-- GET_SENSOR_READING (R454): data size and state; three bytes of event state that the manual does not give are free (log
entry 7). -/
def execGetSensorReading (inst : Nat) (sensor : Nat) (s : State) : Host.Outcome State Fault Refusal :=
  onDev (onPldm (fun d =>
    match numericReading sensor d with
    | none => pldm inst 2 0x11 0x80 [] d
    | some r =>
      let free := leBytes 4 (drawFree d).toNat
      let body := match r with
        | some n => [0x07, 0x00] ++ free ++ readingBytes n
        | none => [0x07, 0x02] ++ free ++ leBytes 8 (Config.freeBits (d.fresh + 1)).toNat
      pldm inst 2 0x11 0 body (tickFree (tickFree d)))) s

/-- The present state of a state sensor (R454). -/
def stateReading (sensor : Nat) (d : Dev) : Option Nat :=
  match sensor with
  | 0x80 => some (if d.coolant.tripped || d.always.hardTrip then 3 else if coolantStopped d then 2 else 1)
  | 0x81 => some (stateCode (stateOf pModule d))
  | 0x82 => some (limitCause d)
  | 0x83 => some (d.always.leadSelect.getD 0 + 1)
  | _ => none

/-- GET_STATE_SENSOR_READINGS (R454): one sensor, its present state, and two bytes of history that are free (log entry 7). -/
def execGetStateSensorReadings (inst : Nat) (sensor : Nat) (s : State) : Host.Outcome State Fault Refusal :=
  onDev (onPldm (fun d =>
    match stateReading sensor d with
    | none => pldm inst 2 0x21 0x80 [] d
    | some v => pldm inst 2 0x21 0 ([0x01, 0x00] ++ leBytes 1 v ++ leBytes 2 (drawFree d).toNat) (tickFree d))) s

/-- POLL_FOR_PLATFORM_EVENT_MESSAGE (R453): the pending event of lowest number, or none. -/
def execPollForPlatformEventMessage (inst : Nat) (s : State) : Host.Outcome State Fault Refusal :=
  onDev (onPldm (fun d =>
    let tid := leBytes 1 d.mgmt.tid
    match firstBelow 14 (bitOf d.mgmt.events) with
    | none => pldm inst 2 0x0B 0 (tid ++ leBytes 2 0) d
    | some b =>
      pldm inst 2 0x0B 0 (tid ++ leBytes 2 (b + 1) ++ zeros 4 ++ [0x05, 0xF0] ++ leBytes 4 1 ++ leBytes 1 b) d)) s

/-- ERROR_UNSUPPORTED_PLDM_CMD (R453). -/
def execErrorUnsupportedPldmCmd (inst : Nat) (ptype : Nat) (cmd : Nat) (s : State) : Host.Outcome State Fault Refusal :=
  onDev (onPldm (fun d => if (pldmCommands ptype).contains cmd then d else pldm inst ptype cmd 0x05 [] d)) s

end Sys2Proof.Machine
end

