-- ==== Sys2Proof/Machine/Jtag.lean ====
section
/-!
DEFINITION. The JTAG port (R489, R500).
-/

namespace Sys2Proof.Machine

/-- The TAP takes an instruction unless TRST_N holds it in reset (R489). -/
def onTap (f : Jtag → Jtag) (d : Dev) : Dev := if d.jtag.held then d else { d with jtag := f d.jtag }

/-- BYPASS (R500): one bit between TDI and TDO, which IEEE 1149.1 captures as 0. -/
def execBypass (tdi : Bool) (s : State) : Host.Outcome State Fault Refusal :=
  onDev (onTap (fun j => { j with
    instr := .bypass, bit := tdi, drives := false
    tdo := j.tdo ++ [BitVec.ofNat 32 (if j.instr = .bypass then b2n j.bit else 0)] })) s

/-- The identification code: the stepping of the west I/O die (log entry 8), then the fixed fields. -/
def idcodeWord : Word := (Config.stepping 8).setWidth 4 ++ 0x5804C6F#28

/-- IDCODE (R500). -/
def execIdcode (s : State) : Host.Outcome State Fault Refusal :=
  onDev (onTap (fun j => { j with instr := .idcode, drives := false, tdo := j.tdo ++ [idcodeWord] })) s

/-- The cells take what is shifted in, and what they captured goes out: the manual gives no order of the cells, so the bits
are free (log entry 7). -/
def shiftCells (instr : JtagInstr) (drives : Bool) (cells : List Nat) (d : Dev) : Dev :=
  if d.jtag.held then d
  else
    { d with
      fresh := d.fresh + cells.length
      jtag := { d.jtag with
        instr := instr, cells := cells, drives := drives
        tdo := d.jtag.tdo ++ (List.range cells.length).map (fun i => (Config.freeBits (d.fresh + i)).setWidth 32 &&& 1) } }

/-- SAMPLE_PRELOAD (R500). -/
def execSamplePreload (cells : List Nat) (s : State) : Host.Outcome State Fault Refusal :=
  onDev (shiftCells .samplePreload false cells) s

/-- The tray holds RESET_N low: the pin is low while the module does not drive it. -/
def trayHoldsReset (d : Dev) : Bool := !d.reset.driving && !d.reset.pinHigh

/-- EXTEST (R500): it drives the pins only while the tray holds RESET_N low, and is SAMPLE/PRELOAD at any other time. -/
def execExtest (cells : List Nat) (s : State) : Host.Outcome State Fault Refusal :=
  onDev (fun d => shiftCells (if trayHoldsReset d then .extest else .samplePreload) (trayHoldsReset d) cells d) s

/-- TRST_N (R489): low holds the TAP in reset, with IDCODE its instruction. -/
def execTrstN (level : Bool) (s : State) : Host.Outcome State Fault Refusal :=
  onDev (fun d =>
    if level then { d with jtag := { d.jtag with held := false } }
    else { d with jtag := { d.jtag with held := true, instr := .idcode, bit := false, drives := false } }) s

end Sys2Proof.Machine
end

