-- ==== Sys2Proof/Machine/Management.lean ====
section
/-!
DEFINITION. Vendor messages of the management port (R456 to R483), the absence of management, and activation.
-/

namespace Sys2Proof.Machine

/-! ### Reading state (R460) -/

def stateBytes (d : Dev) : List Byte :=
  let w := fun n => leBytes 4 n
  let biv := d.boot.phase == .bivouac
  let run := fun n => if biv then 0 else n
  leBytes 1 (b2n biv) ++ leBytes 1 (run (d.always.leadSelect.getD 0)) ++ leBytes 1 (run d.mgmt.orderKind)
    ++ leBytes 1 (run d.mgmt.orderState) ++ w (run (rd (rModule 0x50) d)) ++ w d.flash.powerOns
    ++ w ((viewReset 0x44 d).getD 0) ++ w d.always.cause ++ w (run (fpGen d)) ++ w (run (rd (rModule 0x5C) d))
    ++ w (run (limitWord d)) ++ leBytes 2 (run (effectiveLimit d)) ++ leBytes 2 (run (d.power.est / 8000))
    ++ leBytes 2 (run (d.power.measured / 16)) ++ zeros 2 ++ w (run (hottestWord d)) ++ w (run (coolantWord d))
    ++ w (run (rd (rModule 0x74) d)) ++ w d.mgmt.events ++ w (stagingWord d)

/-- The bits that it returns clear (R460, R455). -/
def readState (d : Dev) : Dev × List Byte :=
  (settleAlert (modMgmt (fun m => { m with events := 0 }) d), stateBytes d)

/-- GET_STATE (R460). -/
def execGetState (inst : Nat) (body : List Byte) (s : State) : Host.Outcome State Fault Refusal :=
  onDev (vendorRow ⟨inst, 0x01, true, body.isEmpty⟩ (fun _ => []) readState) s

/-! ### Ceilings and silence (R461, R462) -/

/-- GET_CEILINGS (R459). -/
def execGetCeilings (inst : Nat) (body : List Byte) (s : State) : Host.Outcome State Fault Refusal :=
  onDev (vendorRow ⟨inst, 0x02, false, body.isEmpty⟩ (fun _ => []) (fun d => (d, ceilingBytes d.power.ceilings))) s

/-- A usable core page is ACTIVE (R391). -/
def coreActive (d : Dev) : Bool := (List.range 2560).any (fun k => stateOf (pCore k) d == .active)

/-- The valid ceilings come into force together; a new operating point is reached by R391. -/
def applyCeilings (b : List Byte) (d : Dev) : Dev :=
  let valid := leAt b 0 2
  let old := d.power.ceilings
  let new := mergeCeilings valid (ceilingsOf b) old
  let d1 := modPower (fun p => { p with
    ceilings := { new with opPoint := old.opPoint }
    opChange := if bitOf valid 6 && new.opPoint != old.opPoint then some new.opPoint else p.opChange }) d
  let d2 := if bitOf valid 15 && valid % 512 != 0 then
      storeSetting 1 (fun f => { f with ceilings := mergeCeilings valid (ceilingsOf b) f.ceilings }) d1
    else d1
  settleLimit (if { new with opPoint := old.opPoint } = old then d2 else raise pPower 26 d2)

def ceilingChecks (b : List Byte) (d : Dev) : List (Bool × Nat) :=
  let valid := leAt b 0 2
  [(!ceilingsEncoded b, 2), (!ceilingsInRange valid (designPower (variantOf d)) (ceilingsOf b), 4),
   (bitOf valid 6 && coreActive d, 5)]

/-- SET_CEILINGS (R461, R378, R391). -/
def execSetCeilings (inst : Nat) (body : List Byte) (s : State) : Host.Outcome State Fault Refusal :=
  onDev (vendorRow ⟨inst, 0x03, false, body.length == 16⟩ (ceilingChecks body) (fun d =>
    let x := applyCeilings body d
    (x, ceilingBytes x.power.ceilings))) s

def silenceChecks (b : List Byte) (d : Dev) : List (Bool × Nat) :=
  let time := leAt b 0 2
  [(decide (1 < leAt b 4 1) || reservedBits b 5 3, 2),
   (decide (3600 < time) || (time != 0 && !within 1000 (designPower (variantOf d)) (leAt b 2 2)), 4)]

def applySilence (b : List Byte) (d : Dev) : Dev :=
  let d1 := modPower (fun p => { p with silenceTime := leAt b 0 2, silenceCeiling := leAt b 2 2 }) d
  if leAt b 4 1 = 1 then
    storeSetting 2 (fun f => { f with silenceTime := leAt b 0 2, silenceCeiling := leAt b 2 2 }) d1
  else d1

/-- SET_SILENCE (R462). -/
def execSetSilence (inst : Nat) (body : List Byte) (s : State) : Host.Outcome State Fault Refusal :=
  onDev (vendorRow ⟨inst, 0x04, false, body.length == 8⟩ (silenceChecks body) (fun d =>
    (applySilence body d, body.take 4 ++ zeros 4))) s

/-- Silence has lasted TIMEOUT. -/
def engageSilence (d : Dev) : Dev :=
  if (leadRuns d).isSome && d.power.silenceTime != 0 && !d.mgmt.silenced
      && decide (1000000000 * d.power.silenceTime ≤ d.now - d.mgmt.heard) then
    settleLimit (mgmtEvent 11 (raise pView 16 (modMgmt (fun m => { m with silenced := true }) d)))
  else d

/-- SILENCE_ENGAGED (R462). -/
def execSilenceEngaged (s : State) : Host.Outcome State Fault Refusal := onDev engageSilence s

/-! ### Orders (R463, R464, R445 to R447) -/

def resetChecks (b : List Byte) (d : Dev) : List (Bool × Nat) :=
  let level := leAt b 0 1
  [(d.boot.phase == .bivouac && level != 2, 1), (decide (2 < level) || mappedLevel (5 + level) d == 3, 4),
   (mergesWith (5 + level) d, 5)]

/-- ORDER_RESET (R463): the response goes out before the reset is accepted, so the reset does not discard it. -/
def execOrderReset (inst : Nat) (body : List Byte) (s : State) : Host.Outcome State Fault Refusal :=
  onDev (vendorRow ⟨inst, 0x08, true, body.length == 1⟩ (resetChecks body) (fun d => (requestReset (5 + leAt body 0 1) d, []))) s

/-- Steps 1 and 2 of R464. -/
def startPowerOff (d : Dev) : Dev :=
  let d1 := beginOrder 1 (modMgmt (fun m => { m with powerOff := true }) (modPower (fun p => { p with filler := 0 }) d))
  settleLimit (settlePowerOff (coolantPages.foldl (fun x p => addHold p .powerOff x) d1))

/-- ORDER_POWER_OFF (R464). -/
def execOrderPowerOff (inst : Nat) (body : List Byte) (s : State) : Host.Outcome State Fault Refusal :=
  onDev (vendorRow ⟨inst, 0x09, false, body.isEmpty⟩ (fun d => [(orderRuns d, 6)]) (fun d => (startPowerOff d, []))) s

/-- A reset, coolant stop, hard trip or change of operating point is in progress (R445). -/
def moduleBusy (d : Dev) : Bool :=
  d.reset.level.isSome || coolantStopped d || d.always.hardTrip || d.power.opChange.isSome

/-- The second cannot read what the lead writes (R448). -/
def secondBlind (d : Dev) : Bool :=
  match d.always.leadSelect, inRole .second d with
  | some i, some j => !readsFormat (complexOf j d) (complexOf i d)
  | _, _ => false

def handoverChecks (d : Dev) : List (Bool × Nat) :=
  [(orderRuns d, 6), ((inRole .second d).isNone || moduleBusy d || secondBlind d || d.lead.takeover.isSome, 8)]

def startHandover (d : Dev) : Dev :=
  match d.always.leadSelect with
  | some i => beginOrder 2 (modLead (fun l => { l with takeover := some ⟨i, 6, d.now, false, false⟩, handover := true }) d)
  | none => d

/-- HANDOVER (R445, R446). -/
def execHandover (inst : Nat) (body : List Byte) (s : State) : Host.Outcome State Fault Refusal :=
  onDev (vendorRow ⟨inst, 0x0C, false, body.isEmpty⟩ handoverChecks (fun d => (startHandover d, []))) s

/-- The complex that RESTART_SECOND restarts. -/
def restartTarget (d : Dev) : Option Nat :=
  match inRole .second d with
  | some j => some j
  | none => inRole .rejoining d

def restartChecks (d : Dev) : List (Bool × Nat) :=
  [(orderRuns d, 6), ((restartTarget d).isNone || moduleBusy d || d.lead.takeover.isSome, 8)]

/-- The second is cut off, and restarts (R447). -/
def restartSecond (d : Dev) : Dev :=
  match restartTarget d with
  | some j => setState (pComplex j) .loading .mgmtOrder (loadComplex j .rejoining (beginOrder 3 d))
  | none => d

def restartRequest (inst : Nat) (body : List Byte) : Request := ⟨inst, 0x0D, false, body.isEmpty⟩

/-- RESTART_SECOND (R445, R447, R476, R480). -/
def execRestartSecond (inst : Nat) (body : List Byte) (s : State) : Host.Outcome State Fault Refusal :=
  onDevPart 1 (vendorTakes (restartRequest inst body) restartChecks)
    (vendorRow (restartRequest inst body) restartChecks (fun d => (restartSecond d, []))) s

/-! ### Floor plan and cairn record (R465, R466) -/

/-- The units of a class, in increasing index. -/
def classUnits (c : Nat) : List Nat := ((List.range 16384).map (fun i => 2 ^ 20 * c + i)).filter unitExists

/-- The last index of a class. -/
def lastIndex (c : Nat) : Nat := (classUnits c).foldl (fun n u => max n (unitIndex u)) 0

def floorChecks (b : List Byte) (_ : Dev) : List (Bool × Nat) :=
  let c := leAt b 0 1
  [(c == 0 || decide (13 < c), 2), (decide (64 < leAt b 1 1) || decide (lastIndex c < leAt b 2 2), 4)]

def floorBytes (b : List Byte) (d : Dev) : List Byte :=
  let l := ((classUnits (leAt b 0 1)).filter (fun u => decide (leAt b 2 2 ≤ unitIndex u))).take (leAt b 1 1)
  leBytes 4 d.flash.powerOns ++ leBytes 2 d.always.session ++ leBytes 2 l.length ++ leBytes 4 (fpGen d)
    ++ l.flatMap (fun u => leBytes 4 u ++ leBytes 4 (entryLo u d) ++ leBytes 4 (entryHi u d))

/-- GET_FLOOR_PLAN (R465). -/
def execGetFloorPlan (inst : Nat) (body : List Byte) (s : State) : Host.Outcome State Fault Refusal :=
  onDev (vendorRow ⟨inst, 0x10, false, body.length == 4⟩ (floorChecks body) (fun d => (d, floorBytes body d))) s

/-- FIRST, MAX and a reserved byte, as GET_CAIRN and GET_MEASUREMENTS carry them. -/
def listChecks (b : List Byte) (_ : Dev) : List (Bool × Nat) := [(reservedBits b 3 1, 2), (decide (64 < leAt b 2 1), 4)]

def cairnBytes (b : List Byte) (d : Dev) : List Byte :=
  let l := (d.flash.cairn.drop (leAt b 0 2)).take (leAt b 2 1)
  leBytes 2 d.flash.cairn.length ++ leBytes 2 l.length
    ++ l.flatMap (fun e => leBytes 4 e.start ++ leBytes 1 e.cause ++ leBytes 3 e.unit)

/-- GET_CAIRN (R459, R362). -/
def execGetCairn (inst : Nat) (body : List Byte) (s : State) : Host.Outcome State Fault Refusal :=
  onDev (vendorRow ⟨inst, 0x11, false, body.length == 4⟩ (listChecks body) (fun d => (d, cairnBytes body d))) s

def clearChecks (b : List Byte) (d : Dev) : List (Bool × Nat) :=
  let w := leAt b 0 4
  [(fieldOf w 30 24 != 0, 2), (!bitOf w 31 && isFused (w % 2 ^ 24) d, 8)]

/-- The record without what is cleared (R363). -/
def clearCairn (b : List Byte) (d : Dev) : Dev × List Byte :=
  let w := leAt b 0 4
  let kept := d.flash.cairn.filter (fun e => if bitOf w 31 then isFused e.unit d else e.unit != w % 2 ^ 24)
  ({ d with flash := { d.flash with cairn := kept } }, leBytes 2 (d.flash.cairn.length - kept.length))

/-- CLEAR_CAIRN (R466). -/
def execClearCairn (inst : Nat) (body : List Byte) (s : State) : Host.Outcome State Fault Refusal :=
  onDev (vendorRow ⟨inst, 0x12, false, body.length == 4⟩ (clearChecks body) (clearCairn body)) s

/-! ### Trickle staging (R471 to R473) -/

def activating (d : Dev) : Bool := d.mgmt.activation.isSome

def beginChecks (fz : Fuses) (m : List Byte) (d : Dev) : List (Bool × Nat) :=
  [(activating d, 5), (match d.flash.staged with | some s => s.manifest != m | none => false, 5),
   (!(manifestGood fz m && versionsGood fz m), 7)]

/-- Steps 5 and 6 of R471. -/
def beginStaging (m : List Byte) (d : Dev) : Dev × List Byte :=
  match d.flash.staged with
  | some _ => (d, leBytes 2 (setPieces m) ++ leBytes 2 d.flash.pieces.length ++ [1])
  | none =>
    (modMgmt (fun x => { x with assemblies := [] }) { d with flash := { d.flash with staged := some ⟨m, []⟩, pieces := [] } },
      leBytes 2 (setPieces m) ++ leBytes 2 0 ++ [0])

/-- STAGE_BEGIN (R470, R471). -/
def execStageBegin (inst : Nat) (body : List Byte) (s : State) : Host.Outcome State Fault Refusal :=
  onDev (vendorRow ⟨inst, 0x18, true, body.length == 8336⟩ (beginChecks s.fuses body) (beginStaging body)) s

/-- A fragment that writes bytes: neither empty nor of a piece that is present. -/
def writes (b : List Byte) (d : Dev) : Bool := leAt b 4 2 != 0 && !d.flash.pieces.contains (leAt b 0 2)

def assemblyOf (i : Nat) (d : Dev) : Option Assembly := d.mgmt.assemblies.find? (fun a => a.piece == i)

def dataChecks (b : List Byte) (d : Dev) : List (Bool × Nat) :=
  let i := leAt b 0 2
  [(decide (4096 < leAt b 4 2) || decide (stagedPieces d ≤ i) || decide (pieceLength i d < leAt b 2 2 + leAt b 4 2), 4),
   (writes b d && (assemblyOf i d).isNone && decide (4 ≤ d.mgmt.assemblies.length), 6)]

def stageData (b : List Byte) (d : Dev) : Dev :=
  if writes b d = false then d
  else
    let i := leAt b 0 2
    let old := match assemblyOf i d with | some a => a.bytes | none => []
    modMgmt (fun m => { m with
      assemblies := m.assemblies.filter (fun a => a.piece != i) ++ [⟨i, old.write (leAt b 2 2) ((b.drop 6).take (leAt b 4 2))⟩] }) d

/-- STAGE_DATA (R472). -/
def execStageData (inst : Nat) (body : List Byte) (s : State) : Host.Outcome State Fault Refusal :=
  onDev (vendorRow ⟨inst, 0x19, true, decide (6 ≤ body.length) && body.length == 6 + leAt body 4 2⟩ (dataChecks body)
    (fun d => (stageData body d, []))) s

/-- The assembled bytes of a piece, 0 where no fragment wrote. -/
def pieceBytes (i : Nat) (d : Dev) : List Byte :=
  Mem.read (match assemblyOf i d with | some a => a.bytes | none => []) 0 (pieceLength i d)

def dropAssembly (i : Nat) (d : Dev) : Dev :=
  modMgmt (fun m => { m with assemblies := m.assemblies.filter (fun a => a.piece != i) }) d

/-- The piece hashes as management says. -/
def pieceMatches (b : List Byte) (d : Dev) : Bool :=
  d.flash.pieces.contains (leAt b 0 2) || sha256 (pieceBytes (leAt b 0 2) d) == (b.drop 2).take 32

/-- The piece is written to staging, then counted; a piece that is present stays as it is. -/
def finishPiece (b : List Byte) (d : Dev) : Dev × List Byte :=
  let i := leAt b 0 2
  let d1 :=
    match d.flash.staged with
    | some s =>
      if d.flash.pieces.contains i then d
      else dropAssembly i { d with
        flash := { d.flash with
          staged := some { s with body := s.body.write (65536 * i) (pieceBytes i d) }, pieces := d.flash.pieces ++ [i] } }
    | none => d
  (d1, leBytes 2 d1.flash.pieces.length)

/-- A mismatch discards the buffer before the answer. -/
def pieceDone (inst : Nat) (b : List Byte) (d : Dev) : Dev :=
  let good := b.length == 34
  let i := leAt b 0 2
  let known := good && decide (i < stagedPieces d)
  let d1 := if mgmtAnswers d && known && !pieceMatches b d then dropAssembly i d else d
  vendorRow ⟨inst, 0x1A, true, good⟩ (fun _ => [(!known, 4), (!pieceMatches b d, 7)]) (finishPiece b) d1

/-- STAGE_PIECE_DONE (R472). -/
def execStagePieceDone (inst : Nat) (body : List Byte) (s : State) : Host.Outcome State Fault Refusal :=
  onDev (pieceDone inst body) s

def stagingBytes (b : List Byte) (d : Dev) : List Byte :=
  let m := match d.flash.staged with | some s => s.manifest | none => []
  leBytes 1 (stagingState d) ++ zeros 3 ++ sha256 m ++ leBytes 2 (stagedPieces d) ++ leBytes 2 d.flash.pieces.length
    ++ (List.range 128).map (fun k => BitVec.ofNat 8 ((List.range 8).foldl (fun n i =>
        n + 2 ^ i * b2n (d.flash.pieces.contains (leAt b 0 2 + 8 * k + i))) 0))

/-- STAGE_STATUS (R473). -/
def execStageStatus (inst : Nat) (body : List Byte) (s : State) : Host.Outcome State Fault Refusal :=
  onDev (vendorRow ⟨inst, 0x1B, true, body.length == 2⟩ (fun d => [(decide (stagedPieces d ≤ leAt body 0 2), 4)])
    (fun d => (d, stagingBytes body d))) s

/-- STAGE_ABANDON (R473). -/
def execStageAbandon (inst : Nat) (body : List Byte) (s : State) : Host.Outcome State Fault Refusal :=
  onDev (vendorRow ⟨inst, 0x1C, true, body.isEmpty⟩ (fun d => [(activating d, 5)]) (fun d =>
    (modMgmt (fun m => { m with assemblies := [] }) { d with flash := { d.flash with staged := none, pieces := [] } }, []))) s

/-! ### Activation (R474 to R480) -/

/-- The staged set verifies. -/
def stagedGood (fz : Fuses) (d : Dev) : Bool :=
  match d.flash.staged with
  | some s => manifestGood fz s.manifest && partsGood s && versionsGood fz s.manifest
  | none => false

def activateChecks (fz : Fuses) (b : List Byte) (d : Dev) : List (Bool × Nat) :=
  [(decide (1 < leAt b 0 1), 2), (orderRuns d, 6),
   (stagingState d != 2 || d.reset.level.isSome || coolantStopped d || d.always.hardTrip, 5), (!stagedGood fz d, 7)]

/-- The hash of the staged manifest. -/
def stagedHash (d : Dev) : List Byte := match d.flash.staged with | some s => sha256 s.manifest | none => []

/-- INTENT is written; from then on loads read staging. -/
def startActivation (advance : Bool) (d : Dev) : Dev :=
  beginOrder 4 (modMgmt (fun m => { m with activation := some (advance, 0) })
    { d with flash := writeCommit 1 (stagedHash d) d.flash, unrun := [1, 2, 3, 4, 5, 6] })

/-- ACTIVATE (R474, R475). -/
def execActivate (inst : Nat) (body : List Byte) (s : State) : Host.Outcome State Fault Refusal :=
  onDev (vendorRow ⟨inst, 0x1D, true, body.length == 1⟩ (activateChecks s.fuses body) (fun d =>
    (startActivation (bitOf (leAt body 0 1) 0) d, []))) s

/-- COMMITTED, the settings check, and the end of the order; in bivouac mode MGMT_L2 follows (R475, R478, R479). -/
def commitSet (d : Dev) : Dev :=
  let d1 := { d with flash := writeCommit 2 (stagedHash d) (copyStaging d.flash) }
  let d2 := endOrder 4 true (checkSettings (modMgmt (fun m => { m with activation := none }) d1))
  let d3 := raise pView 19 d2
  if d.boot.phase = .bivouac then requestReset 7 d3 else d3

/-- A copy that does not verify is made again, up to three times; then the order has failed. -/
def retryCopy (advance : Bool) (tries : Nat) (d : Dev) : Dev :=
  if tries < 3 then modMgmt (fun m => { m with activation := some (advance, tries + 1) }) d
  else endOrder 4 false (modMgmt (fun m => { m with activation := none }) d)

/-- Parts whose fuses an advance burns (R477). -/
def advanced (fz : Fuses) (m : List Byte) : List Nat :=
  [1, 2, 3, 4, 5, 6, 7].filter (fun k => decide (fz.svn.getD (k - 1) 0 < partSvn m k))

/-- Fuse values after an advance: none falls. -/
def burned (svn : List Nat) (m : List Byte) : List Nat :=
  (List.range svn.length).map (fun i => max (svn.getD i 0) (partSvn m (i + 1)))

def advanceEntry (m : List Byte) (now k : Nat) : LogEntry :=
  { event := 4, part := k, svn := partSvn m k, time := now, hash := partHash m k }

/-- The loader's copy ends (R475). -/
def finishCopy (verified : Bool) (s : State) : State :=
  match s.dev.mgmt.activation, s.dev.flash.staged with
  | some (advance, tries), some set =>
    if !verified then { s with dev := retryCopy advance tries s.dev }
    else if advance then
      { s with
        fuses := { s.fuses with svn := burned s.fuses.svn set.manifest }
        mlog := (advanced s.fuses set.manifest).foldl (fun l k => logEntry (advanceEntry set.manifest s.dev.now k) l) s.mlog
        dev := commitSet s.dev }
    else { s with dev := commitSet s.dev }
  | _, _ => s

/-- ACTIVATION_COPY_DONE (R475, R476, R477). -/
def execActivationCopyDone (verified : Bool) (s : State) : Host.Outcome State Fault Refusal :=
  if s.dev.boot.phase = .unpowered ∨ portAlive s.dev = false then .next s else .next (finishCopy verified s)

/-! ### Settings (R459, R478) -/

/-- The value of a stored setting. -/
def settingBytes (key : Nat) (d : Dev) : List Byte :=
  match key with
  | 1 => ceilingBytes d.flash.ceilings
  | 2 => leBytes 2 d.flash.silenceTime ++ leBytes 2 d.flash.silenceCeiling
  | _ => leBytes 4 d.flash.mapLocal

/-- Bytes of a setting's value. -/
def settingLength (key : Nat) : Nat := if key = 1 then 16 else 4

def keyKnown (key : Nat) : Bool := key == 1 || key == 2 || key == 3

/-- GET_SETTING (R459, R478). -/
def execGetSetting (inst : Nat) (body : List Byte) (s : State) : Host.Outcome State Fault Refusal :=
  let key := leAt body 0 2
  onDev (vendorRow ⟨inst, 0x20, false, body.length == 2⟩ (fun _ => [(!keyKnown key, 2)]) (fun d =>
    (d, leBytes 2 (d.flash.formats.get (schemaOf key d) key) ++ leBytes 2 (settingLength key) ++ settingBytes key d))) s

def settingChecks (b : List Byte) (d : Dev) : List (Bool × Nat) :=
  let key := leAt b 0 2
  let v := b.drop 4
  [(!keyKnown key, 2), (leAt b 2 2 != settingLength key, 3), (key == 1 && !ceilingsEncoded v, 2),
   (!Config.schemaAllows (releaseOf d.flash.active.manifest) key v, 4)]

def setSetting (b : List Byte) (d : Dev) : Dev :=
  let v := b.drop 4
  match leAt b 0 2 with
  | 1 => storeSetting 1 (fun f => { f with ceilings := mergeCeilings (leAt v 0 2) (ceilingsOf v) f.ceilings }) d
  | 2 => storeSetting 2 (fun f => { f with silenceTime := leAt v 0 2, silenceCeiling := leAt v 2 2 }) d
  | _ => setMapLocal (leAt v 0 4) d

/-- SET_SETTING (R478). -/
def execSetSetting (inst : Nat) (body : List Byte) (s : State) : Host.Outcome State Fault Refusal :=
  onDev (vendorRow ⟨inst, 0x21, false, decide (4 ≤ body.length) && body.length == 4 + leAt body 2 2⟩ (settingChecks body)
    (fun d => (setSetting body d, []))) s

/-! ### Identity and attestation (R480 to R482) -/

/-- GET_MEASUREMENTS (R480). -/
def execGetMeasurements (inst : Nat) (body : List Byte) (s : State) : Host.Outcome State Fault Refusal :=
  onDev (vendorRow ⟨inst, 0x28, false, body.length == 4⟩ (listChecks body) (fun d =>
    (d, logFrom s.mlog (leAt body 0 2) (leAt body 2 1)))) s

/-- GET_CERTIFICATE (R481). -/
def execGetCertificate (inst : Nat) (body : List Byte) (s : State) : Host.Outcome State Fault Refusal :=
  let chain := Config.certificateChain
  onDev (vendorRow ⟨inst, 0x29, false, body.length == 6⟩
    (fun _ => [(decide (1024 < leAt body 4 2) || decide (chain.length < leAt body 0 4), 4)])
    (fun d => (d, leBytes 4 chain.length ++ (chain.drop (leAt body 0 4)).take (leAt body 4 2)))) s

/-- The body of an ATTEST response up to its signature (R482). -/
def attestBody (fz : Fuses) (log : List LogEntry) (b : List Byte) (d : Dev) : List Byte :=
  leBytes 8 d.fused.serial ++ leBytes 4 d.flash.powerOns ++ leBytes 2 d.always.session ++ leBytes 1 (variantOf d)
    ++ leBytes 1 (b2n (decide (256 ≤ log.length)) + 2 * b2n (d.mgmt.scope != 0))
    ++ (List.range 7).flatMap (fun i => leBytes 1 (fz.svn.getD i 0)) ++ zeros 1 ++ leBytes 4 d.mgmt.scope ++ b.take 32
    ++ logFrom log (leAt b 32 2) (leAt b 34 1)

def attestChecks (log : List LogEntry) (b : List Byte) (d : Dev) : List (Bool × Nat) :=
  [(reservedBits b 35 1, 2), (decide (64 < leAt b 34 1) || decide (log.length < leAt b 32 2), 4), (d.mgmt.attest.isSome, 6)]

/-- ATTEST is answered only once it is signed; a request that fails its checks is answered at once. -/
def attest (fz : Fuses) (log : List LogEntry) (inst : Nat) (b : List Byte) : Dev → Dev :=
  onMessage (fun d =>
    let code := vendorCode ⟨inst, 0x2A, false, b.length == 36⟩ (attestChecks log b d) d
    if code = 0 then modMgmt (fun m => { m with attest := some (vendorBytes inst 0x2A 0 (attestBody fz log b d)) }) d
    else respond inst 0x2A code [] d)

/-- ATTEST (R482). -/
def execAttest (inst : Nat) (body : List Byte) (s : State) : Host.Outcome State Fault Refusal :=
  onDev (attest s.fuses s.mlog inst body) s

/-- Signing ends: the signature covers every byte of the message. -/
def finishAttest (d : Dev) : Dev :=
  match d.mgmt.attest with
  | some bytes =>
    if mgmtAnswers d then
      send (.message 0x7F (bytes ++ Config.slhSign (0x7F :: bytes))) (modMgmt (fun m => { m with attest := none }) d)
    else d
  | none => d

/-- ATTEST_SIGNED (R482). -/
def execAttestSigned (s : State) : Host.Outcome State Fault Refusal := onDev finishAttest s

/-! ### Debug (R483) -/

/-- A nonce of 32 bytes from four draws. -/
def newNonce (d : Dev) : List Byte := (List.range 4).flatMap (fun i => leBytes 8 (Config.freeBits (d.fresh + i)).toNat)

def challenge (d : Dev) : Dev × List Byte :=
  let n := newNonce d
  (modMgmt (fun m => { m with nonce := some n }) { d with fresh := d.fresh + 4 },
    leBytes 8 d.fused.serial ++ leBytes 4 d.flash.powerOns ++ n)

/-- DEBUG_CHALLENGE (R483). -/
def execDebugChallenge (inst : Nat) (body : List Byte) (s : State) : Host.Outcome State Fault Refusal :=
  onDev (vendorRow ⟨inst, 0x30, false, body.isEmpty⟩ (fun _ => []) challenge) s

def unlockChecks (fz : Fuses) (t : List Byte) (d : Dev) : List (Bool × Nat) :=
  let slot := leAt t 48 1
  [(decide (32 ≤ leAt t 12 4) || reservedBits t 49 3, 2),
   (leAt t 0 8 != d.fused.serial || leAt t 8 4 != d.flash.powerOns || d.mgmt.nonce != some ((t.drop 16).take 32)
      || !slotGood fz slot || !Config.slhVerify slot (t.take 52) (t.drop 52), 7)]

/-- The token's scopes open, and its nonce is void. -/
def openScopes (t : List Byte) (d : Dev) : Dev × List Byte :=
  let scope := Nat.lor d.mgmt.scope (leAt t 12 4)
  (raise pView 21 (modMgmt (fun m => { m with scope := scope, nonce := none }) d), leBytes 4 scope)

def unlockEntry (t : List Byte) (now : Nat) : LogEntry :=
  { event := 3, part := 0, svn := leAt t 12 1, time := now, hash := sha256 t }

def unlockRequest (inst : Nat) (t : List Byte) : Request := ⟨inst, 0x31, false, t.length == 7908⟩

/-- DEBUG_UNLOCK (R483, R480). -/
def execDebugUnlock (inst : Nat) (body : List Byte) (s : State) : Host.Outcome State Fault Refusal :=
  let f := vendorRow (unlockRequest inst body) (unlockChecks s.fuses body) (openScopes body)
  if s.dev.boot.phase ≠ .unpowered ∧ vendorTakes (unlockRequest inst body) (unlockChecks s.fuses body) s.dev = true then
    .next { s with mlog := logEntry (unlockEntry body s.dev.now) s.mlog, dev := f s.dev }
  else onDev f s

/-! ### Management absent, and codes that are not defined (R457, R467) -/

/-- A response, as against a message of the module's own. -/
def isAnswer (x : MgmtOut) : Bool :=
  match x with
  | .message 0x01 (b :: _) => decide (b.toNat < 128)
  | .interrupt _ => false
  | _ => true

/-- MANAGEMENT_CONTROLLER_RESTART (R467). -/
def execManagementControllerRestart (s : State) : Host.Outcome State Fault Refusal :=
  onDev (modMgmt (fun m => { m with
    incoming := none, out := m.out.filter (fun x => !isAnswer x), assemblies := [] })) s

/-- The codes of R459, and those that bivouac mode serves (R479). -/
def vendorCommands : List Nat :=
  [0x01, 0x02, 0x03, 0x04, 0x08, 0x09, 0x0C, 0x0D, 0x10, 0x11, 0x12, 0x18, 0x19, 0x1A, 0x1B, 0x1C, 0x1D, 0x20, 0x21, 0x28,
   0x29, 0x2A, 0x30, 0x31]

def bivouacCommands : List Nat := [0x01, 0x08, 0x18, 0x19, 0x1A, 0x1B, 0x1C, 0x1D]

/-- UNDEFINED_VENDOR_COMMAND (R457). -/
def execUndefinedVendorCommand (inst : Nat) (cmd : Nat) (s : State) : Host.Outcome State Fault Refusal :=
  onDev (fun d =>
    if (if d.boot.phase = .bivouac then bivouacCommands else vendorCommands).contains cmd then d
    else onMessage (respond inst cmd 1 []) d) s

end Sys2Proof.Machine
end

