-- ==== Sys2Proof/Machine/Dispatch.lean ====
section
/-! DEFINITION. One arm for each command: each is a direct call of its meaning. -/

namespace Sys2Proof.Machine

def exec (i : Instr) (s : State) : Host.Outcome State Fault Refusal :=
  match i with
  | .quiesce ty inst => Sys2Proof.Machine.execQuiesce ty inst s
  | .quiescedAtSafePoint ty inst => Sys2Proof.Machine.execQuiescedAtSafePoint ty inst s
  | .resume ty inst => Sys2Proof.Machine.execResume ty inst s
  | .retest ty inst => Sys2Proof.Machine.execRetest ty inst s
  | .retire ty inst arg => Sys2Proof.Machine.execRetire ty inst arg s
  | .load ty inst arg => Sys2Proof.Machine.execLoad ty inst arg s
  | .retrain ty inst arg => Sys2Proof.Machine.execRetrain ty inst arg s
  | .selfFault unit => Sys2Proof.Machine.execSelfFault unit s
  | .ownerRetest unit => Sys2Proof.Machine.execOwnerRetest unit s
  | .pageNegotiate ty inst value => Sys2Proof.Machine.execPageNegotiate ty inst value s
  | .pageError ty inst value => Sys2Proof.Machine.execPageError ty inst value s
  | .pageEvents ty inst value coincident => Sys2Proof.Machine.execPageEvents ty inst value coincident s
  | .pageEventMask ty inst value => Sys2Proof.Machine.execPageEventMask ty inst value s
  | .registerWrite off value => Sys2Proof.Machine.execRegisterWrite off value s
  | .loRead off => Sys2Proof.Machine.execLoRead off s
  | .hiWrite off value => Sys2Proof.Machine.execHiWrite off value s
  | .rcRead off wide => Sys2Proof.Machine.execRcRead off wide s
  | .negotiateAll value => Sys2Proof.Machine.execNegotiateAll value s
  | .linkTrained lanes rate => Sys2Proof.Machine.execLinkTrained lanes rate s
  | .linkTrainingFailed => Sys2Proof.Machine.execLinkTrainingFailed s
  | .linkFailure => Sys2Proof.Machine.execLinkFailure s
  | .linkLostTimeout => Sys2Proof.Machine.execLinkLostTimeout s
  | .dataFlit flit errors => Sys2Proof.Machine.execDataFlit flit errors s
  | .replayRequest received => Sys2Proof.Machine.execReplayRequest received s
  | .regRead32 tag addr => Sys2Proof.Machine.execRegRead32 tag addr s
  | .regRead64 tag addr => Sys2Proof.Machine.execRegRead64 tag addr s
  | .regWrite32 tag addr value => Sys2Proof.Machine.execRegWrite32 tag addr value s
  | .regWrite64 tag addr value => Sys2Proof.Machine.execRegWrite64 tag addr value s
  | .dmaReadData tag status poison data => Sys2Proof.Machine.execDmaReadData tag status poison data s
  | .unusedOpcode message => Sys2Proof.Machine.execUnusedOpcode message s
  | .cohSnoopInv header => Sys2Proof.Machine.execCohSnoopInv header s
  | .cohSnoopShare header => Sys2Proof.Machine.execCohSnoopShare header s
  | .cohGrant header exclusive data => Sys2Proof.Machine.execCohGrant header exclusive data s
  | .cohWbAck header => Sys2Proof.Machine.execCohWbAck header s
  | .lineEviction addr => Sys2Proof.Machine.execLineEviction addr s
  | .sharedEnable => Sys2Proof.Machine.execSharedEnable s
  | .sharedDisable => Sys2Proof.Machine.execSharedDisable s
  | .queueEnable arg => Sys2Proof.Machine.execQueueEnable arg s
  | .queueDisable arg => Sys2Proof.Machine.execQueueDisable arg s
  | .ringEnable arg => Sys2Proof.Machine.execRingEnable arg s
  | .ringDisable arg => Sys2Proof.Machine.execRingDisable arg s
  | .doorbell q value => Sys2Proof.Machine.execDoorbell q value s
  | .nop q => Sys2Proof.Machine.execNop q s
  | .hostToModule q => Sys2Proof.Machine.execHostToModule q s
  | .moduleToHost q => Sys2Proof.Machine.execModuleToHost q s
  | .slotFill q => Sys2Proof.Machine.execSlotFill q s
  | .descriptorComplete q => Sys2Proof.Machine.execDescriptorComplete q s
  | .eConsumer n value => Sys2Proof.Machine.execEConsumer n value s
  | .intHoldoff n => Sys2Proof.Machine.execIntHoldoff n s
  | .attach arg => Sys2Proof.Machine.execAttach arg s
  | .detach => Sys2Proof.Machine.execDetach s
  | .openContext arg => Sys2Proof.Machine.execOpenContext arg s
  | .closeContext arg => Sys2Proof.Machine.execCloseContext arg s
  | .contextDrained ctx => Sys2Proof.Machine.execContextDrained ctx s
  | .scalarInstruction core => Sys2Proof.Machine.execScalarInstruction core s
  | .ecall core => Sys2Proof.Machine.execEcall core s
  | .fenceI core => Sys2Proof.Machine.execFenceI core s
  | .mret core => Sys2Proof.Machine.execMret core s
  | .vxbeacon core => Sys2Proof.Machine.execVxbeacon core s
  | .vxseed core value => Sys2Proof.Machine.execVxseed core value s
  | .mxIssue core rd rs1 => Sys2Proof.Machine.execMxIssue core rd rs1 s
  | .vxIssue core rd rs1 => Sys2Proof.Machine.execVxIssue core rd rs1 s
  | .msgSend core rd rs1 => Sys2Proof.Machine.execMsgSend core rd rs1 s
  | .engWait core rd rs1 rs2 => Sys2Proof.Machine.execEngWait core rd rs1 rs2 s
  | .engPoll core rd rs1 => Sys2Proof.Machine.execEngPoll core rd rs1 s
  | .flagRead core rd imm => Sys2Proof.Machine.execFlagRead core rd imm s
  | .flagAdd core rd rs1 imm => Sys2Proof.Machine.execFlagAdd core rd rs1 imm s
  | .flagSet core rd rs1 imm => Sys2Proof.Machine.execFlagSet core rd rs1 imm s
  | .flagWait core rd rs1 imm => Sys2Proof.Machine.execFlagWait core rd rs1 imm s
  | .flagTest core rd rs1 imm => Sys2Proof.Machine.execFlagTest core rd rs1 imm s
  | .waitSatisfied core => Sys2Proof.Machine.execWaitSatisfied core s
  | .waitTimeout core => Sys2Proof.Machine.execWaitTimeout core s
  | .beaconReq core => Sys2Proof.Machine.execBeaconReq core s
  | .matmul core => Sys2Proof.Machine.execMatmul core s
  | .add core => Sys2Proof.Machine.execAdd core s
  | .sub core => Sys2Proof.Machine.execSub core s
  | .mul core => Sys2Proof.Machine.execMul core s
  | .fma core => Sys2Proof.Machine.execFma core s
  | .max core => Sys2Proof.Machine.execMax core s
  | .min core => Sys2Proof.Machine.execMin core s
  | .copy core => Sys2Proof.Machine.execCopy core s
  | .transpose core => Sys2Proof.Machine.execTranspose core s
  | .exp2 core => Sys2Proof.Machine.execExp2 core s
  | .log2 core => Sys2Proof.Machine.execLog2 core s
  | .recip core => Sys2Proof.Machine.execRecip core s
  | .rsqrt core => Sys2Proof.Machine.execRsqrt core s
  | .tanh core => Sys2Proof.Machine.execTanh core s
  | .sigmoid core => Sys2Proof.Machine.execSigmoid core s
  | .erf core => Sys2Proof.Machine.execErf core s
  | .rsum core => Sys2Proof.Machine.execRsum core s
  | .rmax core => Sys2Proof.Machine.execRmax core s
  | .rmin core => Sys2Proof.Machine.execRmin core s
  | .rsumsq core => Sys2Proof.Machine.execRsumsq core s
  | .ramax core => Sys2Proof.Machine.execRamax core s
  | .messagePut core => Sys2Proof.Machine.execMessagePut core s
  | .messageGet core => Sys2Proof.Machine.execMessageGet core s
  | .rowMulticast core => Sys2Proof.Machine.execRowMulticast core s
  | .columnMulticast core => Sys2Proof.Machine.execColumnMulticast core s
  | .counterMessage core => Sys2Proof.Machine.execCounterMessage core s
  | .updateQueueMessage core => Sys2Proof.Machine.execUpdateQueueMessage core s
  | .engineCommandComplete core engine ticket => Sys2Proof.Machine.execEngineCommandComplete core engine ticket s
  | .msgStall core ticket => Sys2Proof.Machine.execMsgStall core ticket s
  | .sramScrub core addr error => Sys2Proof.Machine.execSramScrub core addr error s
  | .start core arg => Sys2Proof.Machine.execStart core arg s
  | .stop core => Sys2Proof.Machine.execStop core s
  | .kernelEnd core => Sys2Proof.Machine.execKernelEnd core s
  | .routerFlit router port n part error => Sys2Proof.Machine.execRouterFlit router port n part error s
  | .put n => Sys2Proof.Machine.execPut n s
  | .putMem n => Sys2Proof.Machine.execPutMem n s
  | .getReq n => Sys2Proof.Machine.execGetReq n s
  | .getData n => Sys2Proof.Machine.execGetData n s
  | .completion n => Sys2Proof.Machine.execCompletion n s
  | .counterAdd n => Sys2Proof.Machine.execCounterAdd n s
  | .updatePut n => Sys2Proof.Machine.execUpdatePut n s
  | .mcPut n => Sys2Proof.Machine.execMcPut n s
  | .relayPut n => Sys2Proof.Machine.execRelayPut n s
  | .targetEntryTimeout core => Sys2Proof.Machine.execTargetEntryTimeout core s
  | .sourceMessageTimeout core => Sys2Proof.Machine.execSourceMessageTimeout core s
  | .mapFixed => Sys2Proof.Machine.execMapFixed s
  | .scrubStep c errors => Sys2Proof.Machine.execScrubStep c errors s
  | .scrubNow c => Sys2Proof.Machine.execScrubNow c s
  | .wck2dqRead c drifted => Sys2Proof.Machine.execWck2dqRead c drifted s
  | .mr4Read c rate hot => Sys2Proof.Machine.execMr4Read c rate hot s
  | .channelRetrainStart c j => Sys2Proof.Machine.execChannelRetrainStart c j s
  | .channelRetrainEnd c failed => Sys2Proof.Machine.execChannelRetrainEnd c failed s
  | .injectCtrl c value => Sys2Proof.Machine.execInjectCtrl c value s
  | .mapLocalNext value => Sys2Proof.Machine.execMapLocalNext value s
  | .selfRefreshEntry c => Sys2Proof.Machine.execSelfRefreshEntry c s
  | .enablePlan c arg => Sys2Proof.Machine.execEnablePlan c arg s
  | .disablePlan c arg => Sys2Proof.Machine.execDisablePlan c arg s
  | .arm c arg => Sys2Proof.Machine.execArm c arg s
  | .disarm c arg => Sys2Proof.Machine.execDisarm c arg s
  | .fire c arg => Sys2Proof.Machine.execFire c arg s
  | .stateQuery c value => Sys2Proof.Machine.execStateQuery c value s
  | .chunkRun c => Sys2Proof.Machine.execChunkRun c s
  | .chunkEnd c => Sys2Proof.Machine.execChunkEnd c s
  | .portTrainingDone p passed => Sys2Proof.Machine.execPortTrainingDone p passed s
  | .linkDown loss => Sys2Proof.Machine.execLinkDown loss s
  | .linkUp p => Sys2Proof.Machine.execLinkUp p s
  | .fecInterval light corrected uncorrected => Sys2Proof.Machine.execFecInterval light corrected uncorrected s
  | .laserCheck powers => Sys2Proof.Machine.execLaserCheck powers s
  | .laserSwitched e => Sys2Proof.Machine.execLaserSwitched e s
  | .laserSelect p arg => Sys2Proof.Machine.execLaserSelect p arg s
  | .neighborSolicitation p solicitation => Sys2Proof.Machine.execNeighborSolicitation p solicitation s
  | .unsupportedFrame p frame => Sys2Proof.Machine.execUnsupportedFrame p frame s
  | .data p frame => Sys2Proof.Machine.execData p frame s
  | .pfcFrame p good quanta => Sys2Proof.Machine.execPfcFrame p good quanta s
  | .pfcRepeat side port ctrl => Sys2Proof.Machine.execPfcRepeat side port ctrl s
  | .pfcStorm p ctrl => Sys2Proof.Machine.execPfcStorm p ctrl s
  | .ack p frame => Sys2Proof.Machine.execAck p frame s
  | .nack p frame => Sys2Proof.Machine.execNack p frame s
  | .credit p frame => Sys2Proof.Machine.execCredit p frame s
  | .abortPacket p frame => Sys2Proof.Machine.execAbortPacket p frame s
  | .send p => Sys2Proof.Machine.execSend p s
  | .packetSend read => Sys2Proof.Machine.execPacketSend read s
  | .ackDelay k => Sys2Proof.Machine.execAckDelay k s
  | .nackDelay k => Sys2Proof.Machine.execNackDelay k s
  | .retxTimeout k => Sys2Proof.Machine.execRetxTimeout k s
  | .holdProbe k => Sys2Proof.Machine.execHoldProbe k s
  | .streamGiveup k => Sys2Proof.Machine.execStreamGiveup k s
  | .rateRise k => Sys2Proof.Machine.execRateRise k s
  | .openWindow p arg => Sys2Proof.Machine.execOpenWindow p arg s
  | .closeWindow p arg => Sys2Proof.Machine.execCloseWindow p arg s
  | .winQuery p value => Sys2Proof.Machine.execWinQuery p value s
  | .streamQuery p value => Sys2Proof.Machine.execStreamQuery p value s
  | .flush side arg => Sys2Proof.Machine.execFlush side arg s
  | .applyReserves side => Sys2Proof.Machine.execApplyReserves side s
  | .poolInject side value => Sys2Proof.Machine.execPoolInject side value s
  | .queueLinkLost side error => Sys2Proof.Machine.execQueueLinkLost side error s
  | .cellReclaim side q => Sys2Proof.Machine.execCellReclaim side q s
  | .setHalf r arg => Sys2Proof.Machine.execSetHalf r arg s
  | .clearHalf r arg => Sys2Proof.Machine.execClearHalf r arg s
  | .counterWrite side c value => Sys2Proof.Machine.execCounterWrite side c value s
  | .armEntry side arg => Sys2Proof.Machine.execArmEntry side arg s
  | .disarmEntry side arg => Sys2Proof.Machine.execDisarmEntry side arg s
  | .sendOp r => Sys2Proof.Machine.execSendOp r s
  | .reduceSend read => Sys2Proof.Machine.execReduceSend read s
  | .copyOp read => Sys2Proof.Machine.execCopyOp read s
  | .signalOp r => Sys2Proof.Machine.execSignalOp r s
  | .opEnd r op => Sys2Proof.Machine.execOpEnd r op s
  | .launch r => Sys2Proof.Machine.execLaunch r s
  | .abort r => Sys2Proof.Machine.execAbort r s
  | .acknowledge r => Sys2Proof.Machine.execAcknowledge r s
  | .passEnd r => Sys2Proof.Machine.execPassEnd r s
  | .stepTimeout r => Sys2Proof.Machine.execStepTimeout r s
  | .powerOn pins => Sys2Proof.Machine.execPowerOn pins s
  | .inputDip => Sys2Proof.Machine.execInputDip s
  | .powerLoss => Sys2Proof.Machine.execPowerLoss s
  | .overvoltage => Sys2Proof.Machine.execOvervoltage s
  | .romStart r => Sys2Proof.Machine.execRomStart r s
  | .dieControllerRelease d passed => Sys2Proof.Machine.execDieControllerRelease d passed s
  | .knownAnswerRunEnd unit outcome => Sys2Proof.Machine.execKnownAnswerRunEnd unit outcome s
  | .meshTestEnd outcome detours cut => Sys2Proof.Machine.execMeshTestEnd outcome detours cut s
  | .coreWave d w => Sys2Proof.Machine.execCoreWave d w s
  | .inSessionRetirement unit cause detours cut => Sys2Proof.Machine.execInSessionRetirement unit cause detours cut s
  | .powerPeriod a => Sys2Proof.Machine.execPowerPeriod a s
  | .afterglowMaxHold => Sys2Proof.Machine.execAfterglowMaxHold s
  | .paceBelowJob cluster => Sys2Proof.Machine.execPaceBelowJob cluster s
  | .applyTargets => Sys2Proof.Machine.execApplyTargets s
  | .controlCycle m => Sys2Proof.Machine.execControlCycle m s
  | .sensorConversion n reading => Sys2Proof.Machine.execSensorConversion n reading s
  | .sensorFault n => Sys2Proof.Machine.execSensorFault n s
  | .sensorSplit h => Sys2Proof.Machine.execSensorSplit h s
  | .trimChanged cluster => Sys2Proof.Machine.execTrimChanged cluster s
  | .opPointChanged => Sys2Proof.Machine.execOpPointChanged s
  | .coolantOkFall => Sys2Proof.Machine.execCoolantOkFall s
  | .coolantStop => Sys2Proof.Machine.execCoolantStop s
  | .coolantOkRise => Sys2Proof.Machine.execCoolantOkRise s
  | .coolantReturn => Sys2Proof.Machine.execCoolantReturn s
  | .coolantGrace => Sys2Proof.Machine.execCoolantGrace s
  | .supervisorBeacon cluster came => Sys2Proof.Machine.execSupervisorBeacon cluster came s
  | .dieControllerBeacon d came => Sys2Proof.Machine.execDieControllerBeacon d came s
  | .beacon => Sys2Proof.Machine.execBeacon s
  | .requestReset arg => Sys2Proof.Machine.execRequestReset arg s
  | .resetNFall => Sys2Proof.Machine.execResetNFall s
  | .pinReset => Sys2Proof.Machine.execPinReset s
  | .meshDrained => Sys2Proof.Machine.execMeshDrained s
  | .resetNRelease => Sys2Proof.Machine.execResetNRelease s
  | .resetNRise => Sys2Proof.Machine.execResetNRise s
  | .recoveryDone => Sys2Proof.Machine.execRecoveryDone s
  | .mirrorRecord crcOk => Sys2Proof.Machine.execMirrorRecord crcOk s
  | .ropeResend => Sys2Proof.Machine.execRopeResend s
  | .watchdog => Sys2Proof.Machine.execWatchdog s
  | .silence => Sys2Proof.Machine.execSilence s
  | .takeover => Sys2Proof.Machine.execTakeover s
  | .takeoverCheckEnd passed => Sys2Proof.Machine.execTakeoverCheckEnd passed s
  | .rejoined => Sys2Proof.Machine.execRejoined s
  | .enec events => Sys2Proof.Machine.execEnec events s
  | .disec events => Sys2Proof.Machine.execDisec events s
  | .rstdaa => Sys2Proof.Machine.execRstdaa s
  | .entdaa addr => Sys2Proof.Machine.execEntdaa addr s
  | .setdasa static addr => Sys2Proof.Machine.execSetdasa static addr s
  | .setnewda addr => Sys2Proof.Machine.execSetnewda addr s
  | .getpid => Sys2Proof.Machine.execGetpid s
  | .getbcr => Sys2Proof.Machine.execGetbcr s
  | .getdcr => Sys2Proof.Machine.execGetdcr s
  | .getstatus => Sys2Proof.Machine.execGetstatus s
  | .getmrl => Sys2Proof.Machine.execGetmrl s
  | .getmwl => Sys2Proof.Machine.execGetmwl s
  | .setmrl length => Sys2Proof.Machine.execSetmrl length s
  | .setmwl length => Sys2Proof.Machine.execSetmwl length s
  | .setEndpointId inst op eid => Sys2Proof.Machine.execSetEndpointId inst op eid s
  | .getEndpointId inst => Sys2Proof.Machine.execGetEndpointId inst s
  | .getEndpointUuid inst => Sys2Proof.Machine.execGetEndpointUuid inst s
  | .getMctpVersionSupport inst mtype => Sys2Proof.Machine.execGetMctpVersionSupport inst mtype s
  | .getMessageTypeSupport inst => Sys2Proof.Machine.execGetMessageTypeSupport inst s
  | .getVendorDefinedMessageSupport inst selector => Sys2Proof.Machine.execGetVendorDefinedMessageSupport inst selector s
  | .unsupportedMessageType mtype => Sys2Proof.Machine.execUnsupportedMessageType mtype s
  | .assemblyTimeout => Sys2Proof.Machine.execAssemblyTimeout s
  | .getTid inst => Sys2Proof.Machine.execGetTid inst s
  | .setTid inst tid => Sys2Proof.Machine.execSetTid inst tid s
  | .getPldmVersion inst ptype => Sys2Proof.Machine.execGetPldmVersion inst ptype s
  | .getPldmTypes inst => Sys2Proof.Machine.execGetPldmTypes inst s
  | .getPldmCommands inst ptype => Sys2Proof.Machine.execGetPldmCommands inst ptype s
  | .setEventReceiver inst enable receiver => Sys2Proof.Machine.execSetEventReceiver inst enable receiver s
  | .getPdrRepositoryInfo inst => Sys2Proof.Machine.execGetPdrRepositoryInfo inst s
  | .getPdr inst handle => Sys2Proof.Machine.execGetPdr inst handle s
  | .getSensorReading inst sensor => Sys2Proof.Machine.execGetSensorReading inst sensor s
  | .getStateSensorReadings inst sensor => Sys2Proof.Machine.execGetStateSensorReadings inst sensor s
  | .pollForPlatformEventMessage inst => Sys2Proof.Machine.execPollForPlatformEventMessage inst s
  | .getState inst body => Sys2Proof.Machine.execGetState inst body s
  | .getCeilings inst body => Sys2Proof.Machine.execGetCeilings inst body s
  | .setCeilings inst body => Sys2Proof.Machine.execSetCeilings inst body s
  | .setSilence inst body => Sys2Proof.Machine.execSetSilence inst body s
  | .silenceEngaged => Sys2Proof.Machine.execSilenceEngaged s
  | .orderReset inst body => Sys2Proof.Machine.execOrderReset inst body s
  | .orderPowerOff inst body => Sys2Proof.Machine.execOrderPowerOff inst body s
  | .handover inst body => Sys2Proof.Machine.execHandover inst body s
  | .restartSecond inst body => Sys2Proof.Machine.execRestartSecond inst body s
  | .getFloorPlan inst body => Sys2Proof.Machine.execGetFloorPlan inst body s
  | .getCairn inst body => Sys2Proof.Machine.execGetCairn inst body s
  | .clearCairn inst body => Sys2Proof.Machine.execClearCairn inst body s
  | .stageBegin inst body => Sys2Proof.Machine.execStageBegin inst body s
  | .stageData inst body => Sys2Proof.Machine.execStageData inst body s
  | .stagePieceDone inst body => Sys2Proof.Machine.execStagePieceDone inst body s
  | .stageStatus inst body => Sys2Proof.Machine.execStageStatus inst body s
  | .stageAbandon inst body => Sys2Proof.Machine.execStageAbandon inst body s
  | .activate inst body => Sys2Proof.Machine.execActivate inst body s
  | .activationCopyDone verified => Sys2Proof.Machine.execActivationCopyDone verified s
  | .getSetting inst body => Sys2Proof.Machine.execGetSetting inst body s
  | .setSetting inst body => Sys2Proof.Machine.execSetSetting inst body s
  | .getMeasurements inst body => Sys2Proof.Machine.execGetMeasurements inst body s
  | .getCertificate inst body => Sys2Proof.Machine.execGetCertificate inst body s
  | .attest inst body => Sys2Proof.Machine.execAttest inst body s
  | .attestSigned => Sys2Proof.Machine.execAttestSigned s
  | .debugChallenge inst body => Sys2Proof.Machine.execDebugChallenge inst body s
  | .debugUnlock inst body => Sys2Proof.Machine.execDebugUnlock inst body s
  | .bypass tdi => Sys2Proof.Machine.execBypass tdi s
  | .idcode => Sys2Proof.Machine.execIdcode s
  | .samplePreload cells => Sys2Proof.Machine.execSamplePreload cells s
  | .extest cells => Sys2Proof.Machine.execExtest cells s
  | .loadComplete ty inst passed => Sys2Proof.Machine.execLoadComplete ty inst passed s
  | .idleFlit received => Sys2Proof.Machine.execIdleFlit received s
  | .pauseQuantaExpired p ctrl => Sys2Proof.Machine.execPauseQuantaExpired p ctrl s
  | .errorUnsupportedPldmCmd inst ptype cmd => Sys2Proof.Machine.execErrorUnsupportedPldmCmd inst ptype cmd s
  | .undefinedVendorCommand inst cmd => Sys2Proof.Machine.execUndefinedVendorCommand inst cmd s
  | .shadowFailure cluster => Sys2Proof.Machine.execShadowFailure cluster s
  | .managementControllerRestart => Sys2Proof.Machine.execManagementControllerRestart s
  | .trstN level => Sys2Proof.Machine.execTrstN level s
  | .w1cWrite off value => Sys2Proof.Machine.execW1cWrite off value s
  | .resetNHeldByTray => Sys2Proof.Machine.execResetNHeldByTray s

end Sys2Proof.Machine
end

