-- ==== Sys2Proof/Machine/NetTick.lean ====
section
/-!
DEFINITION. What the network does by itself as 40 ns of an empty command queue pass (log entries 2 and 85): the transmitters and
the network interfaces take records from the port queues, what waited for room goes on, and timers run.
-/

namespace Sys2Proof.Machine

/-! ### Transmitters (R281, R285, R291, R296) -/

/-- The port sends packets of a priority now: its link carries frames, UDP_DPORT is set, the peer does not pause the priority, and
no coolant stop or hard trip stops DATA. -/
def mayTransmit (p : Nat) (data : Bool) (d : Dev) : Bool :=
  carries p d && rd (rPort p 0x80) d != 0 && !pausedFor p data d && !(data && stopHeld p d)

/-- The packet of a record as it leaves: one of a chunk that has been abandoned since carries POISON and no check (R304). -/
def leaving (r : PktRec) (d : Dev) : Frame :=
  match r.send.bind (fun n => findSend n d) with
  | some s => if s.abandoned then { r.frame with poison := true, check := 0 } else r.frame
  | none => r.frame

/-- The transmitter takes the oldest record of a transmit queue; a poisoned one is not sent (R296). -/
def transmit (p : Nat) (data : Bool) (d : Dev) : Dev :=
  let side := p / 24
  let q := txQueue p data
  match packetRecords side q d with
  | [] => d
  | r :: rest =>
    if !mayTransmit p data d then d
    else
      let d1 := putRecords side q rest d
      if r.cells.any badCell then countParity side d1 else emit p (leaving r d) d1

/-! ### Timers -/

/-- The retransmission timer of a packet runs while the stream is not held and a plane is eligible for it (R266, R277). -/
def ageStream (ns : Nat) (k : StreamId) (d : Dev) : Dev :=
  let t := txOf k d
  if t.held || t.broken || t.unacked.isEmpty then d
  else modTx k (fun x => { x with unacked := x.unacked.map (fun o =>
    match findSend o.send d with
    | some s => if (eligible k.side s.planes (isData s.type) d).isEmpty then o else { o with age := o.age + ns }
    | none => { o with age := o.age + ns }) }) d

/-- Packets of a stream that are due are resent. -/
def sendAllDue (k : StreamId) (d : Dev) : Dev :=
  if (txOf k d).broken then d
  else ((txOf k d).unacked.filter (·.due)).foldl (fun x o => sendDue k o x) d

/-- The step timer of a ring runs (R338). -/
def ageRing (ns r : Nat) (d : Dev) : Dev :=
  if isRunning r d && (ringSt r d).begun && stateOf (pRing r) d != .quiesced then
    modRing r (fun x => { x with timer := x.timer + ns }) d
  else d

/-! ### The tick -/

def allPorts : List Nat := List.range 48

/-- Each transmit queue of a die sends one packet, and each receive queue gives one header to the network interface. -/
def runQueues (d : Dev) : Dev :=
  let d1 := allPorts.foldl (fun x p => transmit p true (transmit p false x)) d
  allPorts.foldl (fun x p => consumeRx (p / 24) (rxQueue p true) (consumeRx (p / 24) (rxQueue p false) x)) d1

/-- What waited for room goes on: headers and firings for credit, and frames in the receive buffers. -/
def goOnWaiting (d : Dev) : Dev :=
  let d1 := admitHeaders 1 (admitHeaders 0 d)
  let d2 := allPorts.foldl (fun x r => admitWork (ringSt r x).waiting.length r x) d1
  allPorts.foldl (fun x p => pumpPort p false (pumpPort p true x)) d2

/-- The network for `ns` nanoseconds. -/
def tickNet (ns : Nat) (d : Dev) : Dev :=
  let keys := d.net.tx.map (·.1)
  let d1 := keys.foldl (fun x k => ageStream ns k x) (allPorts.foldl (fun x r => ageRing ns r x) d)
  let d2 := keys.foldl (fun x k => sendAllDue k x) (refreshRates (goOnWaiting (runQueues d1)))
  settleAll d2

/-- 40 ns of an empty command queue. -/
def tick (d : Dev) : Dev := powered (tickNet 40) { d with now := d.now + 40 }

end Sys2Proof.Machine
end

