-- ==== Sys2Proof/Machine/Step.lean ====
section
/-! DEFINITION. The step: the command at the front of the queue, or a tick of the clock. -/

namespace Sys2Proof.Machine

/-- Takes the command at the front of the queue; on an empty queue 40 ns pass (log entry 2), and the network runs (log entry
85). -/
def step (s : State) : Host.Outcome State Fault Refusal :=
  match s.pending with
  | i :: r => exec i { s with pending := r }
  | [] => .next { s with dev := tick s.dev }

/-- The command that a word spells, put at the front of the queue; the opcode table gives no bits, so none (log entry
1). -/
def State.withFetchWord (s : State) (nbits w : Nat) : State :=
  match decodeTableWord nbits w with
  | some i => { s with pending := i :: s.pending }
  | none => s

end Sys2Proof.Machine
end

