-- ==== Sys2Proof/Safety.lean ====
section
/-!
DEFINITION. The terms that claims use: what a command leaves as it was, what an accepted page command shows, and the
invariants of the machine.
-/

namespace Sys2Proof.Machine

/-- The 48 V input is there (R493). -/
abbrev State.on (s : State) : Prop := s.dev.boot.phase ≠ .unpowered

/-- The outcome is the next state `t`, which keeps the queue, the fuse array and the measurement log, and whose device is
`d`. -/
def Gives (s : State) (o : Host.Outcome State Fault Refusal) (d : Dev) : Prop := o = .next { s with dev := d }

/-- Indices and counts of the event rings on the LUAWICK page (R85). -/
def ringIndex (r : RegId) : Bool := r.ty == .luawick && r.page == 3

/-- The link without the flits and credits that messages use. -/
def Link.quiet (l : Link) : Link :=
  { l with txSeq := 0, replay := [], sent := [], credit0 := 0, credit1 := 0, credit2 := 0, owed0 := 0, owed1 := 0, owed2 := 0 }

/-- A device without what reports change: page headers, registers, event rings, lines of the shared window and what waits
for them, messages to the host, and the flits and credits that these use. -/
def Dev.quiet (d : Dev) : Dev :=
  { d with
    pages := [], regs := [], rings := [], hostTx := [], hostWait := [],
    window := { d.window with lines := [], requests := [], waiting := [] },
    link := d.link.quiet }

/-- An event ring as RING_ENABLE set it up. -/
def EventRing.quiet (r : EventRing) : EventRing :=
  { r with signalPending := false, lastSignal := none, held := false, lost := 0 }

/-- A page header without its event bits. -/
def Page.quiet (g : Page) : Page := { g with events := 0 }

/-- The second device differs from the first in reports alone: event bits, entries and signals of the event rings, and the
messages that carry them to the host. -/
def Reported (d e : Dev) : Prop :=
  e.quiet = d.quiet ∧ (∀ p, (pageOf p e).quiet = (pageOf p d).quiet)
    ∧ (∀ n, (ringOf n e).quiet = (ringOf n d).quiet)
    ∧ ∀ r, ringIndex r = false → ringIndex (homeOf r) = false → rd r e = rd r d

/-- The outcome is a next state that keeps the queue, the fuse array and the measurement log, and whose device is `d` but for
reports. -/
def Reaches (s : State) (o : Host.Outcome State Fault Refusal) (d : Dev) : Prop :=
  ∃ t, o = .next t ∧ t.pending = s.pending ∧ t.fuses = s.fuses ∧ t.mlog = s.mlog ∧ Reported d t.dev

/-- The outcome is a next state that keeps the queue, the fuse array and the measurement log, and of whose device `P`
holds. -/
def Does (s : State) (o : Host.Outcome State Fault Refusal) (P : Dev → Prop) : Prop :=
  ∃ t, o = .next t ∧ t.pending = s.pending ∧ t.fuses = s.fuses ∧ t.mlog = s.mlog ∧ P t.dev

/-- A write to PAGE_CMD passes the first checks of R39: a page that exists, outside the safe state, negotiated, with no
command in progress. -/
def mayCommand (p : PageId) (d : Dev) : Bool :=
  !pageSilent p d && !d.lead.safe && (pageOf p d).negotiated && (pageOf p d).cmd.isNone

/-- The header after a command was accepted and has not ended (R42). -/
def Page.started (g : Page) (code arg : Nat) : Page :=
  { g with seq := (g.seq + 1) % 65536, lastCmd := code, result := .busy, cmd := some ⟨code, arg⟩ }

/-- The header after a command was judged and ended within one command (R40, R42). -/
def Page.ended (g : Page) (code : Nat) (r : Result) : Page :=
  { g with seq := (g.seq + 1) % 65536, lastCmd := code, result := r, cmd := none }

/-- The header after a transition: STATE, CAUSE and GEN in one write (R30, R34). -/
def Page.moved (g : Page) (st : PState) (c : Cause) (d : Dev) : Page :=
  { g with state := st, cause := c, gen := fpGen d % 65536 }

/-- The header after one more error: an error recorded while COUNT is 0 sets FIRST (R31). -/
def Page.erred (g : Page) (code : Nat) : Page :=
  { g with errCount := min 0xFFFF (g.errCount + 1), errFirst := if g.errCount = 0 then code else g.errFirst }

/-- The header of a page answers a command: SEQ is one above what it was, LAST_CMD and RESULT tell of the command. -/
def answers (p : PageId) (code : Nat) (r : Result) (d e : Dev) : Prop :=
  (pageOf p e).seq = ((pageOf p d).seq + 1) % 65536 ∧ (pageOf p e).lastCmd = code ∧ (pageOf p e).result = r

/-- A register that a write stores and nothing more (R45): none of those whose write has an effect of its own. -/
def storesOnly (r : RegId) : Bool :=
  match r.ty with
  | .module | .counters => false
  | .memoryController => r.page != 0 || (r.off != 0x48 && r.off != 0x68 && r.off != 0x88)
  | .queuePool => r.page != 0 || r.off != 0x50
  | .luawick => (r.page != 2 || (r.off - 0x40) % 32 != 0x0C) && (r.page != 3 || r.off == 0x140 || (r.off - 0x40) % 32 != 0x0C)
  | _ => true

/-- A page without a held low half on that page of its instance (R50). -/
def Page.unheld (g : Page) (page : Nat) : Page := { g with held := g.held.drop (fun k => k == page) }

/-- The link takes a message at once: it is ACTIVE, nothing waits, and the replay buffer has room (R62, R67). -/
abbrev linkTakes (m : HostMsg) (d : Dev) : Prop :=
  d.link.phase = .active ∧ d.hostWait = [] ∧ d.link.replay.length + flitsOf m ≤ 1024

/-- The core's scalar processor executes its next instruction: no interrupt comes first, and no wait is in progress (R104,
R106, R122). -/
abbrev runs (k : Nat) (d : Dev) : Prop := interrupted k d = false ∧ mayRun k d = true ∧ (coreOf k d).waiting = none

/-- An instruction of 4 bytes retires on core `k`: the pc advances, `v` goes to register `r` (x0 stays 0), and nothing but
this core's processor, its counters and its own registers changes. -/
def Retires (k r : Nat) (v : DWord) (d e : Dev) : Prop :=
  (coreOf k e).pc = ((coreOf k d).pc + 4) % 2 ^ 64 ∧ (coreOf k e).waiting = none
    ∧ (∀ q, xreg (coreOf k e) q = if q % 32 = r % 32 ∧ q % 32 ≠ 0 then v else xreg (coreOf k d) q)
    ∧ (coreOf k e).machine = (coreOf k d).machine ∧ (∀ j, j ≠ k → coreOf j e = coreOf j d)
    ∧ e.pages = d.pages ∧ e.sram = d.sram ∧ e.mem = d.mem ∧ e.packets = d.packets

/-- A synchronous exception of a kernel: the trap's registers, the latch and the end that begins (R104, R107, R128,
R132). -/
def Traps (k code tval : Nat) (d e : Dev) : Prop :=
  (coreOf k e).machine = true ∧ (coreOf k e).mepc = BitVec.ofNat 64 (coreOf k d).pc
    ∧ (coreOf k e).mcause = BitVec.ofNat 64 code ∧ (coreOf k e).mtval = BitVec.ofNat 64 tval
    ∧ (coreOf k e).pc = (coreOf k d).mtvec.toNat / 4 * 4 ∧ (coreOf k e).waiting = none
    ∧ fieldOf (coreOf k e).mstatus.toNat 12 11 = 0 ∧ fieldOf (coreOf k e).mstatus.toNat 3 3 = 0
    ∧ ((coreOf k d).kernel.isSome = true → (coreOf k d).ending = none → (coreOf k e).ending = some (2, 0))
    ∧ e.pages = d.pages ∧ e.sram = d.sram ∧ e.mem = d.mem

/-- What a vector command writes, each range list with what it may not meet (R156, R162). -/
def vecSpans (v : VecDesc) : List (List (Nat × Nat) × List (Nat × Nat)) :=
  let rep := reportRange v.report v.reportAddr
  [(v.d.elemRanges, vecForeign v ++ v.d.scaleRange ++ rep), (v.d.scaleRange, vecIns v ++ v.d.elemRanges ++ rep),
   (rep, vecIns v ++ v.d.ranges)]

/-- What a MATMUL writes; C may be the accumulator in place (R156). -/
def matSpans (m : MatDesc) : List (List (Nat × Nat) × List (Nat × Nat)) :=
  let rep := reportRange m.report m.reportAddr
  let inPlace := m.accum && m.c.code == 0 && m.acc.addr == m.c.addr && m.acc.ld == m.c.ld
  [(m.c.elemRanges, (if inPlace then m.a.ranges ++ m.b.ranges else matIns m) ++ m.c.scaleRange ++ rep),
   (m.c.scaleRange, matIns m ++ m.c.elemRanges ++ rep), (rep, matIns m ++ m.c.ranges)]

/-- No output meets an input, another output or the command's descriptor. -/
def apart (addr : Nat) (spans : List (List (Nat × Nat) × List (Nat × Nat))) : Bool :=
  (spans.flatMap (fun o => commonRanges o.1 ((addr, 64) :: o.2))).isEmpty

/-- No update engine has a chunk armed, pending or running. -/
def noPlans (d : Dev) : Bool := d.engines.all (fun g => (openChunks g.2).isEmpty)

/-- Module memory holds no error and no mark that has not come to light (R191 to R195, R219). -/
abbrev memClean (d : Dev) : Prop :=
  d.memFlaws = [] ∧ d.markFlaws = [] ∧ d.burstFlaws = [] ∧ d.memBad = [] ∧ d.memMarks = []

/-- A message of the host has come: the payload slots that it held are to be returned (R61). -/
def cameIn (cls slots : Nat) (d : Dev) : Dev := { d with link := owe cls slots d.link }

/-- Every field of a packet's header lies within its width (R169). -/
def headerFits (p : Packet) : Bool :=
  decide (p.dx < 128) && decide (p.dy < 128) && decide (p.sx < 128) && decide (p.sy < 128) && decide (p.ctx < 8)
    && decide (p.msgId < 256) && decide (p.index < 128) && decide (p.last < 128) && decide (p.payload.length ≤ 512)
    && p.wp.all (fun w => decide (w.1 < 128) && decide (w.2 < 128)) && decide (p.runHi < 64) && decide (p.relayEnd < 64)
    && decide (p.flag < 64) && decide (p.detail < 16) && decide (p.address < 2 ^ 64) && decide (p.amount < 2 ^ 32)
    && decide (p.returnAddr < 2 ^ 21)

/-- A page command for a core's runtime raises interrupt 19, SUPERVISOR_CMD (R104). -/
def runtimeTold (p : PageId) (d : Dev) : Dev := if p.ty = .core then setPending p.inst 19 true d else d

/-- Nothing of the network waits: no packet, header or frame, no stream, no send, and no pass with a timer. -/
structure idleNet (d : Dev) : Prop where
  streams : d.net.tx = []
  sends : d.net.sends = []
  records : ∀ side q, packetRecords side q d = []
  headers : ∀ side, (poolOf side d).waiting = []
  frames : ∀ p ctrl, bufferOf p ctrl d = []
  firings : ∀ r, (ringSt r d).waiting = []
  passes : ∀ r, isRunning r d = false

/-- Writes of SRAM rows, in order. -/
def writeRows (k : Nat) (rows : List (Nat × List Byte)) (d : Dev) : Dev :=
  rows.foldl (fun x w => sramWrite k w.1 w.2 [] x) d

/-- The module has answered a request of management, which ends silence; an in-band interrupt announces the answer where ENEC
enabled it (R450, R462). -/
def told (x : MgmtOut) (d e : Dev) : Prop :=
  e.mgmt.out = d.mgmt.out ++ interruptFor d.mgmt ++ [x] ∧ e.mgmt.heard = d.now ∧ e.mgmt.silenced = false

/-- A vendor response (R457). -/
def vendor (inst cmd code : Nat) (body : List Byte) : MgmtOut := .message 0x7F (vendorBytes inst cmd code body)

/-- The security versions burned into fuses of one array lie at or above those of another (R477). -/
def svnAtLeast (a b : List Nat) : Prop := a.length = b.length ∧ ∀ i, b.getD i 0 ≤ a.getD i 0

/-- The measurement log holds at most 256 entries (R480). -/
def State.logBounded (s : State) : Prop := s.mlog.length ≤ 256

/-- Every byte memory is in its canonical form. -/
def Dev.memoryWf (d : Dev) : Prop := Mem.wf d.sram = true ∧ Mem.wf d.mem = true ∧ Mem.wf d.net.staging = true

end Sys2Proof.Machine
end

