-- ==== Sys2Proof/Certificates/Slice0/Obligations.lean ====
section
/-!
DEFINITION. The statements for the provers. Clauses of a statement that say where a command completes are written `Gives`
(the next state exactly), `Reaches` (exactly, but for reports: events, ring entries and messages to the host) or `Does` (what
the next state holds); see Sys2Proof/Safety.lean.
-/

open Sys2Proof Sys2Proof.Machine

/-! ### The queue, the clock and the whole machine -/

/-- A step runs the command at the front of the queue on the state with the queue's rest. -/
def Obligations.StepRunsFrontCommand : Prop :=
  ∀ (c : Instr) (s : State), Sys2Proof.Machine.step { s with pending := c :: s.pending } = exec c s

/-- The model's choice (log entries 2 and 85): on an empty queue a step lets 40 ns pass, in which the network runs, and the
commands that wait, the fuses and the measurement log stay; without power, or while nothing waits on the network, the clock alone
moves. -/
def Obligations.EmptyQueueTicks : Prop :=
  ∀ s : State, s.pending = [] →
    Sys2Proof.Machine.step s = .next { s with dev := tick s.dev }
    ∧ tick s.dev = powered (tickNet 40) { s.dev with now := s.dev.now + 40 }
    ∧ (¬ s.on → tick s.dev = { s.dev with now := s.dev.now + 40 })
    ∧ (idleNet s.dev → tick s.dev = { s.dev with now := s.dev.now + 40 })

/-- No command ends in a fault or a refusal, and none touches the commands that wait. -/
def Obligations.EveryCommandAnswers : Prop :=
  ∀ (c : Instr) (s : State), ∃ t, exec c s = .next t ∧ t.pending = s.pending

/-! ### Pages (02_register_pages.md) -/

/-- QUIESCE is BUSY until the safe point, where the page is QUIESCED under the host hold; RESUME releases that hold, and the
page goes back to the state it held before once no other hold stands; to a core's runtime both are interrupt 19 (R37, R42, R104,
R508). -/
def Obligations.QuiesceAndResumeComplete : Prop :=
  ∀ (ty : BlockType) (inst : Nat) (s : State), s.on →
    let p : PageId := ⟨ty, inst⟩
    let d := s.dev
    let g := pageOf p d
    (mayCommand p d = true → definesCommon ty 1 = true → g.state = .ready ∨ g.state = .active →
      Gives s (exec (.quiesce ty inst) s) (runtimeTold p (putPage p (g.started 1 0) d)))
    ∧ (∀ arg, g.cmd = some ⟨1, arg⟩ → g.state = .ready ∨ g.state = .active → atSafePoint p d = true →
      Reaches s (exec (.quiescedAtSafePoint ty inst) s)
        (putPage p { g.moved .quiesced .hostCommand d with
          holds := .host :: g.holds.filter (· != .host), before := g.state, result := .done, cmd := none } d))
    ∧ (mayCommand p d = true → definesCommon ty 2 = true → g.state = .quiesced → d.mgmt.powerOff = false →
        g.holds = [.host] → g.before = .ready ∨ g.before = .active → (memCtl inst d).held = [] →
      Reaches s (exec (.resume ty inst) s)
        (runtimeTold p (putPage p { (g.ended 2 .done).moved g.before .hostCommand d with holds := [] } d)))
    ∧ (mayCommand p d = true → definesCommon ty 2 = true → g.state = .quiesced → d.mgmt.powerOff = false →
        g.holds.contains .host = true → (∃ h, h ≠ .host ∧ h ∈ g.holds) →
      Reaches s (exec (.resume ty inst) s)
        (runtimeTold p (putPage p { g.ended 2 .done with holds := g.holds.filter (· != .host) } d)))

/-- A write to PAGE_CMD is judged in the order of R39, whatever its command. One that fails a check has no effect on the
block: SEQ goes up, LAST_CMD and RESULT tell the rejection, the error carries the command and the state, and CMD_REJECTED is
set (R40, R46); a command other than RETIRE behind one in progress is dropped, which leaves PAGE_CMD_STATUS (R41). The
commands QUIESCE, RESUME and LOAD show it. -/
def Obligations.JudgedCommandsAreRejected : Prop :=
  ∀ (ty : BlockType) (inst arg : Nat) (s : State), s.on → pageSilent ⟨ty, inst⟩ s.dev = false → s.dev.lead.safe = false →
    let p : PageId := ⟨ty, inst⟩
    let d := s.dev
    let g := pageOf p d
    let told := fun (code cls : Nat) (r : Result) (e : Dev) =>
      Reported (putPage p ({ g with seq := (g.seq + 1) % 65536, lastCmd := code, result := r }.erred
        (2 ^ 12 * cls + 2 ^ 8 * stateCode g.state + code)) d) e ∧ (pageOf p e).events.getLsbD 2 = true
    let dropped := fun (code : Nat) (e : Dev) =>
      Reported (putPage p (g.erred (2 ^ 12 * 4 + 2 ^ 8 * stateCode g.state + code)) d) e
        ∧ (pageOf p e).events.getLsbD 2 = true
    (∀ (code : Nat) (defined legal inRange : Bool) (start : Dev → Dev),
      let e := pageCommand p code arg defined legal inRange start d
      (g.negotiated = false → told code 3 .rejectedVersion e)
      ∧ (g.negotiated = true → g.cmd.isSome = true → code ≠ 4 → dropped code e)
      ∧ (g.negotiated = true → g.cmd = none ∨ code = 4 → defined = false → told code 3 .rejectedVersion e)
      ∧ (g.negotiated = true → g.cmd = none ∨ code = 4 → defined = true → legal = false → told code 1 .rejectedState e)
      ∧ (g.negotiated = true → g.cmd = none ∨ code = 4 → defined = true → legal = true → inRange = false →
        told code 2 .rejectedRange e)
      ∧ (g.negotiated = true → g.cmd = none ∨ code = 4 → defined = true → legal = true → inRange = true →
        e = start (accept p code arg (endCmd p false d)))
      ∧ (g.cmd = none → accept p code arg (endCmd p false d) = putPage p (g.started code arg) d))
    ∧ (g.negotiated = false → Does s (exec (.quiesce ty inst) s) (told 1 3 .rejectedVersion))
    ∧ (g.negotiated = false → Does s (exec (.load ty inst arg) s) (told 5 3 .rejectedVersion))
    ∧ (g.negotiated = true → g.cmd = none → definesCommon ty 1 = false →
      Does s (exec (.quiesce ty inst) s) (told 1 3 .rejectedVersion))
    ∧ (g.negotiated = true → g.cmd = none → definesCommon ty 1 = true → g.state ≠ .ready → g.state ≠ .active →
      Does s (exec (.quiesce ty inst) s) (told 1 1 .rejectedState))
    ∧ (g.negotiated = true → g.cmd = none → definesCommon ty 2 = true → g.state ≠ .quiesced →
      Does s (exec (.resume ty inst) s) (told 2 1 .rejectedState))
    ∧ (g.negotiated = true → g.cmd = none → definesCommon ty 5 = true → g.state = .ready ∨ g.state = .quiesced →
        arg % 2 ^ 24 ≠ 0 → Does s (exec (.load ty inst arg) s) (told 5 2 .rejectedRange))
    ∧ (g.negotiated = true → g.cmd.isSome = true → Does s (exec (.quiesce ty inst) s) (dropped 1))

/-- RETEST takes a block to TESTING, LOAD to LOADING and RETRAIN to TRAINING, where the command stays BUSY, and a
RETRAIN of a channel waits behind one that trains; a load that passes leaves LOADING, with a core's runtime region replaced, and
one that fails leaves FAULT (R33, R37, R38, R136, R206, R507). -/
def Obligations.TestLoadTrainComplete : Prop :=
  ∀ (ty : BlockType) (inst arg : Nat) (s : State), s.on → s.dev.unrun = [] →
    let p : PageId := ⟨ty, inst⟩
    let d := s.dev
    let g := pageOf p d
    (mayCommand p d = true → ty = .memoryController ∨ ty = .port →
        g.state = .ready ∨ g.state = .quiesced ∨ g.state = .fault →
      Does s (exec (.retest ty inst) s) (fun e =>
        (pageOf p e).state = .testing ∧ (pageOf p e).cause = .hostCommand ∧ answers p 3 .busy d e))
    ∧ (mayCommand p d = true → definesCommon ty 5 = true → g.state = .ready ∨ g.state = .quiesced → arg % 2 ^ 24 = 0 →
      Reaches s (exec (.load ty inst arg) s)
        (putPage p { (g.started 5 arg).moved .loading .hostCommand d with back := g.state, backCause := g.cause } d))
    ∧ (inProgress p 5 d = true → g.state = .loading → ty = .core → g.back = .ready → g.holds = [] →
      Reaches s (exec (.loadComplete ty inst true) s)
        (loadRuntime inst (putPage p { g.moved .ready g.backCause d with result := .done, cmd := none } d)))
    ∧ (inProgress p 5 d = true → g.state = .loading → ty = .core ∨ ty = .updateEngine →
      Does s (exec (.loadComplete ty inst false) s) (fun e =>
        (pageOf p e).state = .fault ∧ (pageOf p e).cause = .selfFault ∧ (pageOf p e).result = .failed
          ∧ (pageOf p e).cmd = none))
    ∧ (mayCommand p d = true → ty = .port → g.state = .ready ∨ g.state = .active ∨ g.state = .quiesced → arg % 2 ^ 24 = 0 →
      Does s (exec (.retrain ty inst arg) s) (fun e =>
        (pageOf p e).state = .training ∧ (pageOf p e).back = g.state ∧ answers p 6 .busy d e))
    ∧ (mayCommand p d = true → ty = .luawick → g.state = .ready ∨ g.state = .active → arg % 2 ^ 24 = 0 →
      Does s (exec (.retrain ty inst arg) s) (fun e =>
        (pageOf p e).state = .training ∧ e.link.phase = .detect ∧ e.link.replay = d.link.replay
          ∧ answers p 6 .busy d e))
    ∧ (mayCommand p d = true → ty = .memoryController → g.state = .ready ∨ g.state = .active → arg < 16 →
        (unitRec (uChannel (16 * inst + arg)) d).state = .ready → (memCtl inst d).selfRefresh = false →
        trainingChannels inst d = [] →
      Gives s (exec (.retrain ty inst arg) s)
        (trainChannel (16 * inst + arg) .hostCommand (putMemCtl inst
          { memCtl inst d with
            retraining := some arg, wanted := (memCtl inst d).wanted.filter (· != arg), behind := false }
          (putPage p (g.started 6 arg) d))))
    ∧ (mayCommand p d = true → ty = .memoryController → g.state = .ready ∨ g.state = .active → arg < 16 →
        (unitRec (uChannel (16 * inst + arg)) d).state = .ready → (memCtl inst d).selfRefresh = false →
        trainingChannels inst d ≠ [] →
      Gives s (exec (.retrain ty inst arg) s)
        (putMemCtl inst { memCtl inst d with behind := true } (putPage p (g.started 6 arg) d)))

/-- RETIRE ends at once, on a unit's page or on a die controller's page for the unit that ARG names, and retires the unit
with what depends on it; one written while a command is in progress first ends that command FAILED, with LAST_CMD and SEQ
unchanged, an error of class 0x5 and CMD_DONE, and is then accepted with the next SEQ (R37, R43, R372). -/
def Sys2Proof.Claims.RetireCompletes : Prop :=
  ∀ (ty : BlockType) (inst arg u : Nat) (s : State), s.on → pageSilent ⟨ty, inst⟩ s.dev = false → s.dev.lead.safe = false →
    let p : PageId := ⟨ty, inst⟩
    let d := s.dev
    let g := pageOf p d
    g.negotiated = true →
    (ty ≠ .dieController → definesCommon ty 4 = true → g.state ≠ .off → g.state ≠ .retired → unitOfPage p = some u →
      Gives s (exec (.retire ty inst arg) s)
        (endCmd p true (retireUnit u .hostCommand (accept p 4 arg (endCmd p false d)))))
    ∧ (ty = .dieController → g.state = .ready ∨ g.state = .active → dieAccepts inst (arg % 2 ^ 24) = true →
        usable (arg % 2 ^ 24) d = true →
      Gives s (exec (.retire ty inst arg) s)
        (endCmd p true (retireUnit (arg % 2 ^ 24) .hostCommand (accept p 4 arg (endCmd p false d)))))
    ∧ (∀ c, g.cmd = some c → Reported (putPage p ({ g with result := .failed, cmd := none }.erred
        (2 ^ 12 * 5 + 2 ^ 8 * stateCode g.state + c.code)) d) (endCmd p false d)
      ∧ (pageOf p (endCmd p false d)).events.getLsbD 1 = true)
    ∧ accept p 4 arg (endCmd p false d) = putPage p ((pageOf p (endCmd p false d)).started 4 arg) (endCmd p false d)

/-- One decision of R367 retires its units: the floor-plan generation goes up by one, FLOOR_PLAN_SEQ by two, and each unit
stands RETIRED with its cause and the in-session flag. -/
def Obligations.RetirementIsOneDecision : Prop :=
  ∀ (ls : List Loss) (d : Dev), ls ≠ [] → (∀ l ∈ ls, unitExists l.unit = true ∧ usable l.unit d = true) →
    (ls.map (·.unit)).Nodup →
    let e := applyLosses ls [] d
    rd (rModule 0x54) e = (rd (rModule 0x54) d + 1) % 2 ^ 32
    ∧ rd (rModule 0x58) e = (rd (rModule 0x58) d + 2) % 2 ^ 32
    ∧ ∀ l ∈ ls, unitState l.unit e = .retired ∧ unitCause l.unit e = l.cause ∧ (unitFlags l.unit e).retiredInSession = true

/-- A block's report of its own fault takes its page to FAULT, where the owner's retest tests it again and keeps the
cause (R16, R131, R213, R243, R507). -/
def Sys2Proof.Claims.FaultReportsComplete : Prop :=
  ∀ (i : Nat) (s : State), s.on →
    let d := s.dev
    (i < 24 → inState (pMem i) [.ready, .active, .quiesced] d = true →
      Does s (exec (.selfFault (uController i)) s) (fun e =>
        (pageOf (pMem i) e).state = .fault ∧ (pageOf (pMem i) e).cause = .selfFault ∧ (pageOf (pMem i) e).cmd = none))
    ∧ (i < 2560 → inState (pCore i) [.ready, .active, .quiesced] d = true →
      Does s (exec (.selfFault (uCore i)) s) (fun e =>
        (pageOf (pCore i) e).state = .fault ∧ (pageOf (pCore i) e).cause = .selfFault))
    ∧ (i < 24 → (pageOf (pMem i) d).state = .fault → (pageOf (pMem i) d).cause = .selfFault →
      Does s (exec (.ownerRetest (uController i)) s) (fun e =>
        (pageOf (pMem i) e).state = .testing ∧ (pageOf (pMem i) e).cause = .selfFault
          ∧ (pageOf (pMem i) e).holds = (pageOf (pMem i) d).holds))

/-- Retirement and the reports of faults. -/
def Obligations.RetireAndFaultCommandsComplete : Prop :=
  Claims.RetireCompletes ∧ Claims.FaultReportsComplete

/-- Writes of the header registers: PAGE_ERROR clears whole, PAGE_EVENTS clears the bits written as 1 but for an event of
the same instant, PAGE_EVENT_MASK takes the bits that the register has, and PAGE_NEGOTIATE is judged against OLDEST and
MAJOR; an error recorded while COUNT is 0 sets FIRST, and a later one only counts (R31, R48, R49, R51). -/
def Sys2Proof.Claims.HeaderWritesComplete : Prop :=
  ∀ (ty : BlockType) (inst : Nat) (v : Word) (s : State), s.on → pageSilent ⟨ty, inst⟩ s.dev = false →
    let p : PageId := ⟨ty, inst⟩
    let d := s.dev
    let g := pageOf p d
    let major := fieldOf v.toNat 31 24
    (v ≠ 0 → Gives s (exec (.pageError ty inst v) s) (putPage p { g with errCount := 0, errFirst := 0 } d))
    ∧ Gives s (exec (.pageError ty inst 0) s) d
    ∧ Gives s (exec (.pageEvents ty inst v 0) s) (putPage p { g with events := g.events &&& ~~~(v &&& eventBits) } d)
    ∧ (∀ b, b < 32 → eventBits.getLsbD b = true →
      Does s (exec (.pageEvents ty inst v (BitVec.ofNat 32 (2 ^ b))) s) (fun e => (pageOf p e).events.getLsbD b = true))
    ∧ Reaches s (exec (.pageEventMask ty inst v) s) (putPage p { g with mask := v &&& eventBits } d)
    ∧ (g.cmd = none → d.lead.latches = [] → (versionOf ty d).oldest ≤ major → major ≤ (versionOf ty d).major → fieldOf v.toNat 31 16 ≠ 0 →
      Gives s (exec (.pageNegotiate ty inst v) s) (putPage p { g with
        negotiated := true, major := major,
        minor := min (fieldOf v.toNat 23 16) (minorOf (versionOf ty d) major) } d))
    ∧ (g.cmd = none → d.lead.latches = [] → major < (versionOf ty d).oldest ∨ (versionOf ty d).major < major → fieldOf v.toNat 31 16 ≠ 0 →
      Gives s (exec (.pageNegotiate ty inst v) s) (putPage p ({ g with negotiated := false, major := 0, minor := 0 }.erred
        (2 ^ 12 * 3 + 2 ^ 8 * stateCode g.state)) d))
    ∧ (g.cmd = none → d.lead.latches = [] → fieldOf v.toNat 31 16 = 0 →
      Gives s (exec (.pageNegotiate ty inst v) s) (putPage p { g with negotiated := false, major := 0, minor := 0 } d))
    ∧ (∀ code, g.errCount = 0 → recordError p code d = putPage p { g with errCount := 1, errFirst := code } d)
    ∧ (∀ code, g.errCount ≠ 0 → recordError p code d = putPage p { g with errCount := min 0xFFFF (g.errCount + 1) } d)

/-- An event sets its bit whatever the mask, and changes nothing but reports. An entry is delivered when an unmasked bit
goes from 0 to 1, and when a mask bit is set over an event bit that is already 1; while a bit stays 1, nothing more is. The
entry carries the block type, the instance, PAGE_EVENTS as it then stands and PAGE_STATE (R48). -/
def Obligations.EventsSetTheirBit : Prop :=
  ∀ (p : PageId) (b : Nat) (v : Word) (s : State), b < 32 → s.on → pageSilent p s.dev = false →
    let d := s.dev
    let g := pageOf p d
    let e := raise p b d
    let d1 := putPage p { g with events := g.events ||| BitVec.ofNat 32 (2 ^ b) } d
    let d2 := putPage p { g with mask := v &&& eventBits } d
    ((pageOf p e).events.getLsbD b = true ∧ Reported d e
      ∧ ∀ i, g.events.getLsbD i = true → (pageOf p e).events.getLsbD i = true)
    ∧ (g.mask.getLsbD b = true → g.events.getLsbD b = false →
      e = deliver (routeGroup p.ty) ⟨0, typeCode p.ty, p.inst, (pageOf p d1).events.toNat, stateWord g, errorWord g⟩ d1)
    ∧ (g.mask.getLsbD b = false ∨ g.events.getLsbD b = true → e = d1)
    ∧ (v &&& eventBits &&& ~~~g.mask &&& g.events ≠ 0 →
      Gives s (exec (.pageEventMask p.ty p.inst v) s)
        (deliver (routeGroup p.ty) ⟨0, typeCode p.ty, p.inst, g.events.toNat, stateWord g, errorWord g⟩ d2))
    ∧ (v &&& eventBits &&& ~~~g.mask &&& g.events = 0 → Gives s (exec (.pageEventMask p.ty p.inst v) s) d2)

/-- NEGOTIATE_ALL of the RESET page's type negotiates that page as PAGE_NEGOTIATE does and counts one acceptance (R52,
R370). -/
def Sys2Proof.Claims.NegotiateAllCounts : Prop :=
  ∀ (s : State), s.on → pageSilent pModule s.dev = false → (pageOf pModule s.dev).negotiated = true →
    pageSilent pReset s.dev = false → (pageOf pReset s.dev).cmd = none → s.dev.lead.latches = [] →
    versionOf .reset s.dev = ⟨1, 0, 1, []⟩ →
    Reaches s (exec (.negotiateAll 0x01FF0004) s)
      (wr (rModule 0x84) 1
        (putPage pReset { pageOf pReset s.dev with negotiated := true, major := 1, minor := 0 } s.dev))

/-- Writes of the header registers, and NEGOTIATE_ALL. -/
def Obligations.HeaderRegistersComplete : Prop :=
  Claims.HeaderWritesComplete ∧ Claims.NegotiateAllCounts

/-! ### The register window (R45 to R54, R66, R67) -/

/-- A register that only stores takes the bits it has, W1C bits clear, a pair takes its held low half with the high half in
one instant, an RC register reads and clears, and a _LO read latches the high half; a write before negotiation has no effect
but its error (R8, R45, R47, R50, R51). -/
def Sys2Proof.Claims.WindowAccessesComplete : Prop :=
  ∀ (o : Nat) (v : Word) (r : RegId) (row : RegRow) (s : State), s.on → locate o = some r → rowAt r = some row →
    o % 4 = 0 → 0x40 ≤ r.off → pageSilent ⟨r.ty, r.inst⟩ s.dev = false →
    let p : PageId := ⟨r.ty, r.inst⟩
    let d := s.dev
    let g := pageOf p d
    (g.negotiated = true → storesOnly r = true → row.acc = .rw → row.wide = false →
      Gives s (exec (.registerWrite o v) s) (wr r (Nat.land v.toNat row.mask) d))
    ∧ (g.negotiated = false → storesOnly r = true → row.acc = .rw → row.wide = false →
      Gives s (exec (.registerWrite o v) s) (putPage p (g.erred (2 ^ 12 * 3 + 2 ^ 8 * stateCode g.state)) d))
    ∧ (g.negotiated = true → storesOnly r = true → row.acc = .w1c → row.wide = false →
      Gives s (exec (.w1cWrite o v) s) (wr r (rd r d - Nat.land (rd r d) (Nat.land v.toNat row.mask)) d))
    ∧ (g.negotiated = true → row.acc = .rw → row.wide = true →
      Gives s (exec (.registerWrite o v) s)
        (putPage p { g.unheld r.page with held := (g.unheld r.page).held ++ [(r.page, v)] } d))
    ∧ (g.negotiated = true → row.acc = .rw → row.wide = true → locate (o + 4) = some (hiOf r) → rowAt (hiOf r) = none →
        isHi (hiOf r) = true →
      ∀ low, g.held.find? (fun e => e.1 == r.page) = some (r.page, low) →
      Gives s (exec (.hiWrite (o + 4) v) s)
        (putPage p (g.unheld r.page) (wr64 r (Nat.land (2 ^ 32 * v.toNat + low.toNat) row.mask) d)))
    ∧ (row.acc = .ro → row.wide = true →
      Gives s (exec (.loRead o) s)
        (putPage p { g with latch := g.latch.set r.page (BitVec.ofNat 32 (pairValue s.fuses s.mlog.length r d / 2 ^ 32)) } d))
    ∧ (row.acc = .rc → row.wide = false → Gives s (exec (.rcRead o false) s) (wr r 0 d))
    ∧ (row.acc = .rc → row.wide = true → o % 8 = 0 → Gives s (exec (.rcRead o true) s) (wr64 r 0 d))

/-- Register messages are answered with REG_COMPLETION: a read with the register's value, a write once it has taken
effect, and an address outside the window with ADDRESS_ERROR; the payload slots of the message are to be returned (R61, R65, R66, R67). -/
def Sys2Proof.Claims.RegisterMessagesComplete : Prop :=
  ∀ (tag : Nat) (a : DWord) (r : RegId) (row : RegRow) (s : State), s.on → s.dev.link.phase = .active →
    pageSilent ⟨r.ty, r.inst⟩ s.dev = false →
    let p : PageId := ⟨r.ty, r.inst⟩
    let d := cameIn 0 1 s.dev
    let w := cameIn 0 2 s.dev
    let g := pageOf p s.dev
    (locate a.toNat = some r → a.toNat % 4 = 0 → rowAt r = some row → 0x40 ≤ r.off → row.acc = .ro → row.wide = false →
        isHi r = false →
      Gives s (exec (.regRead32 tag a) s)
        (hostSend (completion tag a.toNat 0 (leBytes 4 (blockValue s.fuses s.mlog.length r d))) d))
    ∧ (locate a.toNat = some r → a.toNat % 8 = 0 → rowAt r = some row → 0x40 ≤ r.off → row.acc = .ro → row.wide = true →
      Gives s (exec (.regRead64 tag a) s)
        (hostSend (completion tag a.toNat 0 (leBytes 8 (pairValue s.fuses s.mlog.length r d % 2 ^ 64))) d))
    ∧ (∀ v : Word, locate a.toNat = some r → a.toNat % 4 = 0 → rowAt r = some row → 0x40 ≤ r.off → g.negotiated = true →
        storesOnly r = true → row.acc = .rw → row.wide = false →
      Gives s (exec (.regWrite32 tag a v) s)
        (hostSend (completion tag a.toNat 0 []) (wr r (Nat.land v.toNat row.mask) w)))
    ∧ (∀ v : DWord, locate a.toNat = some r → a.toNat % 8 = 0 → rowAt r = some row → 0x40 ≤ r.off → g.negotiated = true →
        row.acc = .rw → row.wide = true →
      Gives s (exec (.regWrite64 tag a v) s)
        (hostSend (completion tag a.toNat 0 []) (putPage p (g.unheld r.page) (wr64 r (Nat.land v.toNat row.mask) w))))
    ∧ (2 ^ 26 ≤ a.toNat → ∃ data, data.length = 4 ∧
      Gives s (exec (.regRead32 tag a) s) (hostSend (completion tag a.toNat 1 data) (tickFree d)))
    ∧ (2 ^ 26 ≤ a.toNat → ∀ v : Word, Gives s (exec (.regWrite32 tag a v) s) (hostSend (completion tag a.toNat 1 []) w))
    ∧ (2 ^ 26 ≤ a.toNat → ∀ v : DWord, Gives s (exec (.regWrite64 tag a v) s) (hostSend (completion tag a.toNat 1 []) w))

/-- While a reset acts on a block, a write to its pages has no effect and is not recorded, and a read answers PAGE_ID,
PAGE_VERSION and PAGE_STATE, and 0 at every other offset (R54). -/
def Sys2Proof.Claims.ResetSilencesPages : Prop :=
  ∀ (o tag : Nat) (v : Word) (a : DWord) (r : RegId) (s : State), s.on → locate o = some r →
    pageSilent ⟨r.ty, r.inst⟩ s.dev = true →
    Gives s (exec (.registerWrite o v) s) s.dev
    ∧ (r.off = 0 → wordValue s.fuses s.mlog.length r s.dev = 2 ^ 16 * typeCode r.ty + r.inst)
    ∧ (r.off = 4 → wordValue s.fuses s.mlog.length r s.dev = versionWord (versionOf r.ty s.dev))
    ∧ (r.off = 8 → wordValue s.fuses s.mlog.length r s.dev = stateWord (pageOf ⟨r.ty, r.inst⟩ s.dev))
    ∧ (a.toNat = o → o % 4 = 0 → s.dev.link.phase = .active →
      Gives s (exec (.regRead32 tag a) s)
        (hostSend (completion tag o 0 (leBytes 4 (wordValue s.fuses s.mlog.length r (cameIn 0 1 s.dev)))) (cameIn 0 1 s.dev)))
    ∧ (o % 4 = 0 → 0x0C ≤ r.off → wordValue s.fuses s.mlog.length r s.dev = 0)
    ∧ (a.toNat = o → o % 4 = 0 → 0x0C ≤ r.off → s.dev.link.phase = .active →
      Gives s (exec (.regRead32 tag a) s) (hostSend (completion tag o 0 (leBytes 4 0)) (cameIn 0 1 s.dev)))

/-- Accesses of the register window, and what answers them while a reset acts. -/
def Obligations.RegisterWindowCompletes : Prop :=
  Claims.WindowAccessesComplete ∧ Claims.ResetSilencesPages

/-- A message leaves at once behind none, or waits for the link behind what waits already: none overtakes another (R62,
R67). -/
def Sys2Proof.Claims.HostMessagesKeepOrder : Prop :=
  ∀ (m : HostMsg) (d : Dev),
    (linkTakes m d → (hostSend m d).hostTx = d.hostTx ++ [m] ∧ (hostSend m d).hostWait = [])
    ∧ (d.link.phase ≠ .active → (hostSend m d).hostTx = d.hostTx ∧ (hostSend m d).hostWait = d.hostWait ++ [m])
    ∧ (hostSend m d).hostTx ++ (hostSend m d).hostWait = d.hostTx ++ d.hostWait ++ [m]

/-- Register messages, and the order of what the module sends. -/
def Obligations.HostMessagesComplete : Prop :=
  Claims.RegisterMessagesComplete ∧ Claims.HostMessagesKeepOrder

/-! ### The Luawick host link (03_luawick_host_link.md) -/

/-- The link comes up with the widest width and highest rate trained, starts again where training fails, leaves ACTIVE on a
failure and trains again, and loses the window, the queues and the rings when LINK_LOST_TIMEOUT has passed (R57, R58, R63,
R87). -/
def Obligations.LinkCommandsComplete : Prop :=
  ∀ (lanes rate : Nat) (s : State), s.on →
    let d := s.dev
    (d.link.phase ≠ .active → stateOf pLua d = .training → linkOk lanes rate = true → d.link.leftAt = none →
      Does s (exec (.linkTrained lanes rate) s) (fun e =>
        e.link.phase = .active ∧ e.link.lanes = lanes ∧ e.link.rate = rate ∧ stateOf pLua e = .ready))
    ∧ (d.link.phase ≠ .active →
      Gives s (exec .linkTrainingFailed s) { d with link := { d.link with phase := .detect } })
    ∧ (d.link.phase = .active →
      Does s (exec .linkFailure s) (fun e =>
        stateOf pLua e = .training ∧ e.link.phase = .detect ∧ e.link.leftAt = some d.now ∧ e.link.oldLanes = d.link.lanes))
    ∧ (∀ t, d.link.phase ≠ .active → d.link.leftAt = some t → d.link.lost = false →
        t + 1000000 * clampReg 1 10000 (rd (rLua 0 0x60) d) ≤ d.now →
      Does s (exec .linkLostTimeout s) (fun e =>
        e.link.lost = true ∧ e.dma = [] ∧ e.window.enabled = false ∧ e.window.writebacks = []
          ∧ (∀ n, (ringOf n e).enabled = false) ∧ ∀ q, (queueOf q e).enabled = false))

/-- Flits: a flit's bytes give its header and payload back where each interleave has at most one byte in error; a good data flit
in order is accepted with its acknowledgement and credits and is acknowledged, an uncorrectable one is discarded with a replay
request, a corrected one is counted, a replay request is counted and sets where the replay begins, idle flits carry
acknowledgements and credits, and an unused opcode is counted (R59 to R62, R65). -/
def Obligations.FlitsComplete : Prop :=
  ∀ (f : LinkFlit) (bs : List Byte) (e : FlitErrors) (s : State), s.on → s.dev.link.phase = .active →
    let d := s.dev
    (f.seq < 4096 → f.ack < 4096 → f.creditClass < 4 → f.creditCount < 256 → f.payload.length = 240 →
        correctable e = true → (flitBytes f).length = 256 ∧ readFlit (flitBytes f) e = some f)
    ∧ (readFlit bs e = some f → corrected e = false → f.kind = .data → f.seq = d.link.rxSeq →
      Gives s (exec (.dataFlit bs e) s) (takeInOrder f d))
    ∧ ((takeInOrder f d).link.rxSeq = (d.link.rxSeq + 1) % 4096 ∧ (takeInOrder f d).link.awaiting = false
      ∧ (takeInOrder f d).link.heard = true ∧ d.link.sent.length < (takeInOrder f d).link.sent.length)
    ∧ (readFlit bs e = none → d.link.askTries = 0 →
      Gives s (exec (.dataFlit bs e) s)
        { d with link := { sendFlit .replayRequest 0 [] d.link with
            awaiting := true, askedAt := d.link.rxSeq, askTries := 1 } })
    ∧ (readFlit bs e = some f → corrected e = false → f.kind = .idle → Gives s (exec (.idleFlit ⟨bs, e⟩) s) (takeHeader f d))
    ∧ (readFlit bs e = some f → corrected e = true → f.kind = .idle →
      Gives s (exec (.idleFlit ⟨bs, e⟩) s) (takeHeader f (wr (rLua 0 0x48) (min m32 (rd (rLua 0 0x48) d + 1)) d)))
    ∧ (readFlit bs e = some f → corrected e = false → f.kind = .replayRequest → d.link.replayTries = 0 →
      Does s (exec (.replayRequest ⟨bs, e⟩) s) (fun x =>
        rd (rLua 0 0x44) x = min m32 (rd (rLua 0 0x44) d + 1) ∧ x.link.replayAt = f.ack ∧ x.link.replayTries = 1))
    ∧ (∀ op n, usedOpcode op = false →
      Gives s (exec (.unusedOpcode ⟨op, n⟩) s)
        (wr (rLua 0 0x4C) (min m32 (rd (rLua 0 0x4C) d + 1)) (cameIn (classOf op) (slotsFor n) d)))

/-- Coherence of the shared window: a snoop is answered under its TAG from the line's state and an invalidating one takes the
line, a grant installs the line for the request outstanding, an acknowledged writeback is complete, a grant or an acknowledgement
of nothing outstanding is counted, and an eviction sends a writeback from M and EVICT_CLEAN else (R65, R66, R69, R70). -/
def Obligations.CoherenceComplete : Prop :=
  ∀ (tag : Nat) (a : DWord) (l : Line) (data : List Byte) (s : State), s.on → s.dev.link.phase = .active →
    let d := s.dev
    let c := cameIn 2 1 d
    let w := d.window
    let x := lineOf a.toNat
    let answer := fun code bytes => { msg 0x2C x bytes with tag := tag, status := 4 * code }
    (findLine x w = none → writingBack x w = false →
      Gives s (exec (.cohSnoopInv ⟨tag, a⟩) s) (hostSendFirst (answer 0 []) c))
    ∧ (findLine x w = some l → writingBack x w = false → l.state ≠ .modified →
      Gives s (exec (.cohSnoopInv ⟨tag, a⟩) s) (hostSendFirst (answer 1 []) { c with window := dropLine x w }))
    ∧ (findLine x w = some l → writingBack x w = false → l.state ≠ .modified →
      Gives s (exec (.cohSnoopShare ⟨tag, a⟩) s)
        (hostSendFirst (answer 1 []) { c with window := putLine { l with state := .shared } w }))
    ∧ (findLine x w = some l → writingBack x w = false → l.state = .modified →
      ∃ code, (code = 0 ∨ code = 1 ∨ code = 3) ∧ Gives s (exec (.cohSnoopInv ⟨tag, a⟩) s)
        (hostSendFirst (answer code l.data) (tickFree { c with window := dropLine x w })))
    ∧ (w.requests.any (fun r => r.addr == x && r.tag == tag) = true → w.lines.length < 32768 → w.waiting = [] →
        inProgress pLua 0x41 d = false →
      Gives s (exec (.cohGrant ⟨tag, a⟩ true data) s) { cameIn 2 5 d with
        window := putLine ⟨x, .exclusive, (data ++ zeros 64).take 64⟩
          { w with requests := w.requests.filter (fun r => r.tag != tag) } })
    ∧ (w.waiting = [] → w.writebacks.contains (x, tag) = true → inProgress pLua 0x41 d = false →
      Gives s (exec (.cohWbAck ⟨tag, a⟩) s)
        { c with window := { w with writebacks := w.writebacks.filter (· != (x, tag)) } })
    ∧ (∀ t, findLine x w = some l → l.state = .modified → freeCohTag (dropLine l.addr w) = some t →
      Gives s (exec (.lineEviction a) s) (hostSend { msg 0x22 l.addr l.data with tag := t } { d with
        window := { dropLine l.addr w with writebacks := (dropLine l.addr w).writebacks ++ [(l.addr, t)] } }))
    ∧ (findLine x w = some l → l.state ≠ .modified →
      Gives s (exec (.lineEviction a) s) (hostSend (msg 0x23 l.addr []) { d with window := dropLine l.addr w }))
    ∧ (writingBack x w = true → Gives s (exec (.cohSnoopInv ⟨tag, a⟩) s) (hostSendFirst (answer 3 []) c))
    ∧ (w.requests.any (fun r => r.addr == x && r.tag == tag) = false →
      Gives s (exec (.cohGrant ⟨tag, a⟩ true data) s)
        (wr (rLua 0 0x4C) (min m32 (rd (rLua 0 0x4C) d + 1)) (cameIn 2 5 d)))
    ∧ (w.writebacks.contains (x, tag) = false →
      Gives s (exec (.cohWbAck ⟨tag, a⟩) s) (wr (rLua 0 0x4C) (min m32 (rd (rLua 0 0x4C) d + 1)) c))

/-- The Luawick page's commands: the shared window starts where base and size are in range and stops once nothing uses it,
queues and rings are enabled with the base and size they then hold, and are disabled (R72, R78, R83, R86). -/
def Sys2Proof.Claims.LuawickPageCompletes : Prop :=
  ∀ (arg : Nat) (s : State), s.on → mayCommand pLua s.dev = true → inState pLua [.ready, .active] s.dev = true →
    let d := s.dev
    let g := pageOf pLua d
    (26 ≤ rd (rLua 0 0x58) d → rd (rLua 0 0x58) d ≤ 32 → rd64 (rLua 0 0x50) d % 2 ^ rd (rLua 0 0x58) d = 0 →
        d.window.base = rd64 (rLua 0 0x50) d → d.window.sizeLog2 = rd (rLua 0 0x58) d →
      Reaches s (exec .sharedEnable s) (putPage pLua (g.ended 0x40 .done) { d with
        window := { d.window with enabled := true, base := rd64 (rLua 0 0x50) d, sizeLog2 := rd (rLua 0 0x58) d } }))
    ∧ (windowUsed d = false → d.window.lines = [] → d.window.waiting = [] → d.window.requests = [] →
      Reaches s (exec .sharedDisable s)
        (putPage pLua (g.ended 0x41 .done) { d with window := { d.window with enabled := false } }))
    ∧ (arg < 16 → d.window.enabled = true → 4 ≤ rd (rQueue arg 8) d → rd (rQueue arg 8) d ≤ 12 →
        rd64 (rQueue arg 0) d % 64 = 0 → inWindow (rd64 (rQueue arg 0) d) (64 * 2 ^ rd (rQueue arg 8) d) d = true →
        (queueOf arg d).enabled = false →
      Reaches s (exec (.queueEnable arg) s) (putPage pLua (g.ended 0x42 .done)
        (putQueue arg ⟨true, rd64 (rQueue arg 0) d, rd (rQueue arg 8) d, consumerOf arg d, false⟩ d)))
    ∧ (arg < 16 → (queueOf arg d).enabled = true → (queueOf arg d).next = producerOf arg d →
        d.dma.any (fun r => r.queue == arg) = false →
      Does s (exec (.queueDisable arg) s) (fun e => (queueOf arg e).enabled = false ∧ answers pLua 0x43 .done d e))
    ∧ (arg < 16 → (queueOf arg d).enabled = false →
      Reaches s (exec (.queueDisable arg) s) (putPage pLua (g.ended 0x43 .done) d))
    ∧ (arg < 8 → d.window.enabled = true → 6 ≤ rd (rEvt arg 8) d → rd (rEvt arg 8) d ≤ 16 →
        rd64 (rEvt arg 0) d % 4096 = 0 → inWindow (rd64 (rEvt arg 0) d) (32 * 2 ^ rd (rEvt arg 8) d) d = true →
      Does s (exec (.ringEnable arg) s) (fun e => (ringOf arg e).enabled = true
        ∧ (ringOf arg e).base = rd64 (rEvt arg 0) d ∧ (ringOf arg e).sizeLog2 = rd (rEvt arg 8) d
        ∧ answers pLua 0x44 .done d e))
    ∧ (arg < 8 →
      Does s (exec (.ringDisable arg) s) (fun e => (ringOf arg e).enabled = false ∧ answers pLua 0x45 .done d e))

/-- Event rings: the host's consumer index frees space and clears the pending signal, and when the hold-off ends a signal
that it held leaves (R82). -/
def Sys2Proof.Claims.RingIndicesComplete : Prop :=
  ∀ (n : Nat) (v : Word) (s : State), s.on →
    let d := s.dev
    (n < 8 → pageSilent pLua d = false → (pageOf pLua d).negotiated = true →
      Gives s (exec (.eConsumer n v) s) (wr (rEvt n 0x0C) v.toNat { d with
        rings := d.rings.set n { ringOf n d with signalPending := false, held := false } }))
    ∧ ((ringOf n d).held = true →
      Gives s (exec (.intHoldoff n) s) (hostSend (msg 0x18 n []) { d with
        rings := d.rings.set n { ringOf n d with held := false, lastSignal := some d.now } }))
    ∧ ((ringOf n d).held = false → Gives s (exec (.intHoldoff n) s) d)

/-! ### DMA and the job (R73 to R93) -/

/-- A doorbell that fits moves the producer index, and one that would overfill the queue is ignored and recorded as error
0xA1q (R73). -/
def Sys2Proof.Claims.DoorbellsAreJudged : Prop :=
  ∀ (q : Nat) (v : Word) (s : State), s.on → q < 16 → pageSilent pLua s.dev = false → (pageOf pLua s.dev).negotiated = true →
    let d := s.dev
    let size := 2 ^ (if (queueOf q d).enabled then (queueOf q d).sizeLog2 else rd (rQueue q 8) d)
    let used := (v.toNat % 2 ^ 16 + 2 ^ 16 - consumerOf q d) % 2 ^ 16
    (used ≤ size → Gives s (exec (.doorbell q v) s) (wr (rQueue q 0x10) (v.toNat % 2 ^ 16) d))
    ∧ (size < used → Reaches s (exec (.doorbell q v) s) (putPage pLua ((pageOf pLua d).erred (0xA010 + q)) d))

/-- The commands of the LUAWICK page, and the indices that the host writes: doorbells of DMA queues and consumer indices of event rings. -/
def Obligations.LuawickCommandsComplete : Prop :=
  Claims.LuawickPageCompletes ∧ Claims.DoorbellsAreJudged ∧ Claims.RingIndicesComplete

/-- A posted descriptor starts in its queue's turn and is judged as R75 gives, reads of the companion and of module memory go out,
data from the companion leave for module memory over the mesh, the last answer ends the work, and a descriptor that has ended leaves
the queue once its status is written, with the consumer index past it (R13, R73, R75, R76, R77). -/
def Obligations.DescriptorsComplete : Prop :=
  ∀ (q : Nat) (b : List Byte) (s : State), s.on →
    let d := s.dev
    let x := queueOf q d
    let r := runOf q x.next b d
    let taken := fun y : DmaRun => putQueue q { x with next := (x.next + 1) % 2 ^ 16 } { d with dma := [y], dmaTurn := q }
    (x.enabled = true → x.disabling = false → x.next ≠ producerOf q d → d.dma = [] → queueTurn d = some q →
        windowRead (x.base + 64 * (x.next % 2 ^ x.sizeLog2)) 64 d = some b → judgeRun r d = .done →
        d.job.closing.contains r.context = false →
      (r.op = 0 → Gives s (exec (.nop q) s) (taken { r with result := .done, detail := 0, stage := .ended }))
      ∧ (r.op = 1 → r.length ≠ 0 → Gives s (exec (.hostToModule q) s) (askCompanion r (taken r)))
      ∧ (r.op = 2 → r.length ≠ 0 → Gives s (exec (.moduleToHost q) s) (askMemory r (taken r)))
      ∧ (r.op = 3 → r.length ≠ 0 → d.job.slotCapacity ≠ 0 → Gives s (exec (.slotFill q) s) (askCompanion r (taken r))))
    ∧ (x.enabled = true → x.disabling = false → x.next ≠ producerOf q d → d.dma = [] → queueTurn d = some q →
        windowRead (x.base + 64 * (x.next % 2 ^ x.sizeLog2)) 64 d = some b → judgeRun r d ≠ .done → r.op = 1 →
        d.job.closing.contains r.context = false →
      Gives s (exec (.hostToModule q) s) (taken { r with result := judgeRun r d, detail := 0, stage := .ended }))
    ∧ (∀ (y : DmaRun) (tag : Nat) (data : List Byte), d.link.phase = .active → d.dma = [y] → y.tag = some tag →
        data.length = y.asked → y.stage = .data → y.result = .done → y.moved + data.length = bytesOf y d.job →
        let came := cameIn 1 (slotsFor data.length) d
        let ps := dmaPuts y.msgId y.context (y.moduleAddr + y.moved) data false came
        ps ≠ [] →
      Gives s (exec (.dmaReadData tag 0 false data) s)
        (sendRun y.queue y.index ps.length ps
          (modRun y.queue y.index (fun z => { z with moved := z.moved + data.length, tag := none }) came)))
    ∧ (∀ (y : DmaRun) (p : Packet), d.dma = [y] → y.op = 1 → y.tag = none → y.stage = .data → y.moved = bytesOf y d.job →
        y.awaited = 1 → p.msgId = y.msgId → p.result = .done →
      dmaAnswer p d = { d with dma := [{ y with awaited := 0, stage := .ended }] })
    ∧ (∀ (y : DmaRun) (rest : List DmaRun), d.dma = y :: rest → y.queue = q → y.stage = .ended → y.awaited = 0 → y.op = 0 →
        y.result = .done → y.detail = 0 → y.event = false → y.signalFlag = false → x.disabling = false →
        rest.any (fun z => z.queue == q && z.index == y.index) = false →
        windowTook (d.job.slotRecord + 32 * y.slot) 32 d = true →
        windowTook (descriptorAddr y d + 0x28) 20
          (windowPut (descriptorAddr y d + 0x28) (leBytes 8 y.moved ++ leBytes 8 (y.poisonAddr.getD 0) ++ leBytes 4 (2 ^ 31 + resultCode .done)) d) = true →
      Does s (exec (.descriptorComplete q) s) (fun e =>
        consumerOf q e = (y.index + 1) % 2 ^ 16 ∧ e.dma = rest))

/-- JOB commands: ATTACH fixes the job from the registers and is BUSY while the rank table comes and the slots' headers are zeroed
over the mesh; the last of them attaches the job; contexts are opened and closed, a closing context is drained once none of its work
remains, and DETACH ends the job (R88, R89). -/
def Obligations.JobCommandsComplete : Prop :=
  ∀ (arg : Nat) (s : State), s.on →
    let d := s.dev
    let g := pageOf pJob d
    (mayCommand pJob d = true → g.state = .ready → attachInRange d = true →
      Does s (exec (.attach arg) s) (fun e => { e.job with load := none } = newJob d ∧ answers pJob 0x40 .busy d e))
    ∧ (∀ (l : RankLoad) (tag : Nat) (data : List Byte), d.link.phase = .active → d.dma = [] → d.job.load = some l →
        l.tag = some tag → l.poisoned = false → data.length = l.asked → l.table.length + data.length = 8 * d.job.rankCount →
      Gives s (exec (.dmaReadData tag 0 false data) s)
        (zeroHeaders { l with table := l.table ++ data, tag := none } (cameIn 1 (slotsFor data.length) d)))
    ∧ (∀ (l : RankLoad) (p : Packet), d.dma = [] → d.job.load = some l → l.msgId = p.msgId → l.awaited = 1 →
        inProgress pJob 0x40 d = true → g.state = .ready →
      let e := dmaAnswer p d
      e.job = { d.job with
        attached := true, load := none,
        rankTable := (List.range d.job.rankCount).map (fun i => BitVec.ofNat 64 (leAt l.table (8 * i) 8)) }
      ∧ (pageOf pJob e).state = .active ∧ (pageOf pJob e).result = .done ∧ (pageOf pJob e).cmd = none)
    ∧ (mayCommand pJob d = true → g.state = .active → d.job.open_ = [] →
      Does s (exec .detach s) (fun e => e.job = { d.job with attached := false }))
    ∧ (mayCommand pJob d = true → g.state = .active → arg ≤ 7 → ctxOpen arg d = false →
      Reaches s (exec (.openContext arg) s)
        (putPage pJob (g.ended 0x42 .done) { d with job := { d.job with open_ := d.job.open_ ++ [arg] } }))
    ∧ (mayCommand pJob d = true → g.state = .active → arg ≤ 7 → ctxOpen arg d = true → ringUses arg d = false →
      Gives s (exec (.closeContext arg) s) (beginClose arg (putPage pJob (g.started 0x43 arg) d)))
    ∧ (∀ c, g.cmd = some ⟨0x43, c⟩ → d.job.closing.contains arg = true → contextBusy arg d = false →
      Reaches s (exec (.contextDrained arg) s) (putPage pJob { g with result := .done, cmd := none }
        { d with job := { d.job with closing := d.job.closing.filter (· != arg) } }))

/-! ### Cores (04_core.md) -/

/-- Custom instructions on flags and engine counts: each retires with the flag or count as it stood, and FLAG.ADD and
FLAG.SET write the flag; a wait whose value is reached retires at once, and another waits where it stands. A count has
reached a value when their difference is not negative as a signed word (R108, R109, R121, R122). -/
def Sys2Proof.Claims.CustomInstructionsComplete : Prop :=
  ∀ (k r a b f : Nat) (s : State), s.on → runs k s.dev → f ≤ 63 →
    let d := s.dev
    let c := coreOf k d
    let old := flagOf c f
    let v := low32 (xreg c a)
    let e := (xreg c a).toNat % 4
    let t := low32 (xreg c b)
    Does s (exec (.flagRead k r f) s) (fun x => Retires k r (old.setWidth 64) d x ∧ (coreOf k x).flags = c.flags)
    ∧ Does s (exec (.flagAdd k r a f) s) (fun x => Retires k r (old.setWidth 64) d x
        ∧ ∀ g, flagOf (coreOf k x) g = if g = f then old + v else flagOf c g)
    ∧ Does s (exec (.flagSet k r a f) s) (fun x => Retires k r (old.setWidth 64) d x
        ∧ ∀ g, flagOf (coreOf k x) g = if g = f then v else flagOf c g)
    ∧ Does s (exec (.flagTest k r a f) s) (fun x =>
        Retires k r (if reached old v then 1 else 0) d x ∧ (coreOf k x).flags = c.flags)
    ∧ (e ≠ 3 → Does s (exec (.engPoll k r a) s) (fun x => Retires k r ((engineOf c e).completed.setWidth 64) d x))
    ∧ (e ≠ 3 → reached (engineOf c e).completed t = true →
        Does s (exec (.engWait k r a b) s) (fun x => Retires k r ((engineOf c e).completed.setWidth 64) d x))
    ∧ (reached old v = true → Does s (exec (.flagWait k r a f) s) (fun x => Retires k r (old.setWidth 64) d x))
    ∧ (reached old v = false → Does s (exec (.flagWait k r a f) s) (fun x =>
        (coreOf k x).waiting = some (.flag r f v) ∧ (coreOf k x).pc = c.pc ∧ (coreOf k x).xs = c.xs))
    ∧ (e ≠ 3 → reached (engineOf c e).completed t = false → Does s (exec (.engWait k r a b) s) (fun x =>
        (coreOf k x).waiting = some (.engine r e t) ∧ (coreOf k x).pc = c.pc ∧ (coreOf k x).xs = c.xs))
    ∧ (∀ x y : Word, reached x y = true ↔ 0 ≤ (x - y).toInt)

/-- A wait ends: with its value reached it retires, and past WAIT_LIMIT a user-mode wait traps with cause 28 (R122,
R123). -/
def Sys2Proof.Claims.WaitsEnd : Prop :=
  ∀ (k r f : Nat) (v : Word) (s : State), s.on → interrupted k s.dev = false → mayRun k s.dev = true →
    let d := s.dev
    let c := coreOf k d
    (c.waiting = some (.flag r f v) → reached (flagOf c f) v = true →
      Does s (exec (.waitSatisfied k) s) (fun x => Retires k r ((flagOf c f).setWidth 64) d x))
    ∧ (∀ e, c.waiting = some (.engine r e v) → reached (engineOf c e).completed v = true →
      Does s (exec (.waitSatisfied k) s) (fun x => Retires k r ((engineOf c e).completed.setWidth 64) d x))
    ∧ (∀ t, c.waiting.isSome = true → waitOver c = false → c.machine = false → c.waitSince = some t →
        rd (rCore k 0x7C) d ≠ 0 → 1000 * rd (rCore k 0x7C) d < d.now - t →
      Does s (exec (.waitTimeout k) s) (fun x => Traps k 28 0 d x))

/-- Custom instructions and waits. -/
def Obligations.CustomAndWaitInstructionsComplete : Prop :=
  Claims.CustomInstructionsComplete ∧ Claims.WaitsEnd

/-- The other instructions of the scalar processor: what stands at the pc executes, ECALL ends a kernel or returns −1,
MRET goes back to the trapped mode, FENCE.I retires, a write of vxbeacon answers the pending request and one of vxseed is
the seed (R94, R97, R103, R105, R106, R107). -/
def Obligations.ScalarInstructionsComplete : Prop :=
  ∀ (k w : Nat) (v : DWord) (s : State), s.on → runs k s.dev →
    let d := s.dev
    let c := coreOf k d
    (inProgress (pCore k) 0x40 d = false → c.pc + 4 ≤ reach (!c.machine) → sramPoisoned k c.pc 2 d = false →
        sramPoisoned k (c.pc + 2) 2 d = false → leNat (sramRead k c.pc 4 d) = w → w % 4 = 3 →
        leNat (sramRead k c.pc 2 d) % 4 = 3 →
      Gives s (exec (.scalarInstruction k) s) (runWord k w 4 d)
      ∧ (w % 128 = 0x13 → aluI (fieldOf w 31 20) (fieldOf w 14 12) (xreg c (fieldOf w 19 15)) = some v →
        Does s (exec (.scalarInstruction k) s) (fun x => Retires k (fieldOf w 11 7) v d x))
      ∧ (w % 128 = 0x33 →
          aluR (fieldOf w 31 25) (fieldOf w 14 12) (xreg c (fieldOf w 19 15)) (xreg c (fieldOf w 24 20)) = some v →
        Does s (exec (.scalarInstruction k) s) (fun x => Retires k (fieldOf w 11 7) v d x)))
    ∧ (inProgress (pCore k) 0x40 d = false → c.pc + 2 ≤ reach (!c.machine) → sramPoisoned k c.pc 2 d = false →
        leNat (sramRead k c.pc 2 d) % 4 ≠ 3 → expandC (leNat (sramRead k c.pc 2 d)) = some w →
      Gives s (exec (.scalarInstruction k) s) (runWord k w 2 d))
    ∧ (c.machine = false → xreg c 17 = 0 → c.kernel.isSome = true → c.ending = none →
      Does s (exec (.ecall k) s) (fun x => (coreOf k x).ending = some (0, low32 (xreg c 10))
        ∧ (coreOf k x).machine = true ∧ (coreOf k x).mepc = BitVec.ofNat 64 c.pc ∧ (coreOf k x).mcause = 8))
    ∧ (c.machine = false → xreg c 17 ≠ 0 →
      Does s (exec (.ecall k) s) (fun x => xreg (coreOf k x) 10 = BitVec.allOnes 64
        ∧ (coreOf k x).pc = (c.pc + 4) % 2 ^ 64 ∧ (coreOf k x).machine = false))
    ∧ (c.machine = true →
      Does s (exec (.mret k) s) (fun x => (coreOf k x).pc = c.mepc.toNat
        ∧ (coreOf k x).machine = (fieldOf c.mstatus.toNat 12 11 == 3)
        ∧ fieldOf (coreOf k x).mstatus.toNat 3 3 = fieldOf c.mstatus.toNat 7 7))
    ∧ Does s (exec (.fenceI k) s) (fun x => Retires k 0 0 d x)
    ∧ (c.machine = true → c.beaconPending = true → c.loaded = false →
      Does s (exec (.vxbeacon k) s) (fun x => (coreOf k x).beaconPending = false ∧ rd (rCore k 0xE4) x = 0
        ∧ rd (rCore k 0xE0) x = (rd (rCore k 0xE0) d + 1) % 2 ^ 32 ∧ (coreOf k x).pc = (c.pc + 4) % 2 ^ 64))
    ∧ Does s (exec (.vxseed k v) s) (fun x => Retires k 0 0 d x ∧ (coreOf k x).vxseed = v)

/-- Issue instructions: an accepted descriptor is copied, the ticket is the engine's next issue and goes to rd, and a
descriptor at an address that is not a multiple of 64 traps with cause 24 in user mode (R108, R109, R110, R115). -/
def Obligations.IssuesComplete : Prop :=
  ∀ (k r a e : Nat) (i : Instr) (s : State), s.on → runs k s.dev →
    (i, e) ∈ [(Instr.mxIssue k r a, 0), (Instr.vxIssue k r a, 1), (Instr.msgSend k r a, 2)] →
    let d := s.dev
    let c := coreOf k d
    let at_ := (xreg c a).toNat
    let b := sramRead k at_ 64 d
    let g := engineOf c e
    (at_ % 64 = 0 → inSram (!c.machine) at_ 64 = true → ctxOpen c.vxctx d = true → sramPoisoned k at_ 64 d = false →
        descInvalid e b = false → (g.cmds.filter (fun x => !x.completed)).length < 16 →
      Does s (exec i s) (fun x => Retires k r ((g.issued + 1).setWidth 64) d x
        ∧ (engineOf (coreOf k x) e).issued = g.issued + 1
        ∧ ∃ cmd, (engineOf (coreOf k x) e).cmds = g.cmds ++ [cmd] ∧ cmd.ticket = g.issued + 1 ∧ cmd.desc = b
            ∧ cmd.addr = at_ ∧ cmd.ctx = c.vxctx ∧ cmd.user = !c.machine ∧ cmd.started = false))
    ∧ (c.machine = false → at_ % 64 ≠ 0 → Does s (exec i s) (fun x => Traps k 24 at_ d x))

/-- An interrupt that is pending and enabled comes before the next instruction, and takes the vectored entry (R104,
R106). -/
def Sys2Proof.Claims.InterruptsComeFirst : Prop :=
  ∀ (k b : Nat) (s : State), s.on → coreUp k s.dev = true → nextInterrupt (coreOf k s.dev) = some b →
    (coreOf k s.dev).mtvec.toNat % 4 = 1 →
    Does s (exec (.fenceI k) s) (fun x =>
      (coreOf k x).pc = (coreOf k s.dev).mtvec.toNat / 4 * 4 + 4 * b
      ∧ (coreOf k x).mepc = BitVec.ofNat 64 (coreOf k s.dev).pc ∧ (coreOf k x).machine = true
      ∧ (coreOf k x).mcause = BitVec.ofNat 64 (2 ^ 63 + b) ∧ (coreOf k x).xs = (coreOf k s.dev).xs)

/-- Kernels: START sets the context, the entry and the argument and the page goes ACTIVE; STOP begins the end with
STOPPED; a kernel whose end has begun and whose engines hold nothing ends with EXIT written and the page READY (R132, R133,
R136). -/
def Obligations.KernelsComplete : Prop :=
  ∀ (k arg : Nat) (s : State), s.on → k < 2560 →
    let d := s.dev
    let c := coreOf k d
    let p := pCore k
    let a := rd64 (rCore k 0x50) d / 16 * 16
    (mayCommand p d = true → stateOf p d = .ready → ctxOpen (arg % 8) d = true → kernelLen k d ≠ 0 →
        inMemory (rd64 (rCore k 0x50) d) (kernelLen k d) d = true →
        rd (rCore k 0x5C) d / 16 * 16 + kernelLen k d ≤ kernelWindow → rd (rCore k 0x60) d / 2 * 2 < kernelWindow →
        rangeHeld a (kernelLen k d) false d = false →
        memPoisonWords a (kernelLen k d) (memTouch a (kernelLen k d) (some (arg % 8)) (runtimeTold p (accept p 0x40 arg d))) = [] →
      Does s (exec (.start k arg) s) (fun e => stateOf p e = .active ∧ (pageOf p e).cause = .work
        ∧ answers p 0x40 .done d e ∧ (coreOf k e).kernel = some (arg % 8) ∧ (coreOf k e).vxctx = arg % 8
        ∧ (coreOf k e).machine = false ∧ (coreOf k e).pc = rd (rCore k 0x60) d / 2 * 2
        ∧ xreg (coreOf k e) 10 = BitVec.ofNat 64 (rd64 (rCore k 0x68) d)))
    ∧ (mayCommand p d = true → stateOf p d = .active ∨ stateOf p d = .quiesced → c.kernel.isSome = true → c.ending = none →
      Does s (exec (.stop k) s) (fun e => (coreOf k e).ending = some (1, 0) ∧ (coreOf k e).mip.getLsbD 19 = true
        ∧ answers p 0x41 .busy d e))
    ∧ (∀ cause ctx : Nat, ∀ value : Word, stateOf p d = .active → inProgress p 0x41 d = false →
        c.ending = some (cause, value) → c.kernel = some ctx → cause < 256 → ctx < 8 →
        (∀ e < 3, (engineOf c e).cmds = []) →
      Does s (exec (.kernelEnd k) s) (fun e => (coreOf k e).kernel = none ∧ stateOf p e = .ready
        ∧ (pageOf p e).cause = .work ∧ rd (rCore k 0x70) e = cause + 2 ^ 8 * ctx
        ∧ rd (rCore k 0x74) e = (if cause = 0 then value.toNat else 0)))

/-- The end of an engine command: its flag takes the increment, the completed count its ticket, and one whose result is not
DONE and whose NOFAULT is clear begins the end of the kernel (R109, R114, R132). -/
def Obligations.EngineCommandsEnd : Prop :=
  ∀ (k e t : Nat) (c : EngCmd) (r : Result) (detail : Nat) (s : State), s.on → e < 3 →
    (engineOf (coreOf k s.dev) e).cmds = [c] → c.ticket = BitVec.ofNat 32 t → c.ended = some (r, detail) →
    c.completed = false → stateOf (pCore k) s.dev ≠ .retired → stateOf (pCore k) s.dev ≠ .off →
    let d := s.dev
    let w := descW c.desc 0
    Does s (exec (.engineCommandComplete k e t) s) (fun x =>
      (engineOf (coreOf k x) e).completed = c.ticket ∧ (engineOf (coreOf k x) e).cmds = []
      ∧ flagOf (coreOf k x) (fieldOf w 21 16) = flagOf (coreOf k d) (fieldOf w 21 16)
          + (if bitOf w 8 then BitVec.ofNat 32 (descW c.desc 4) else 0)
      ∧ (bitOf w 9 = false → x.sram = d.sram)
      ∧ (r ≠ .done → bitOf w 10 = false → c.quiet = false → (coreOf k d).kernel.isSome = true →
          (coreOf k d).ending = none → (coreOf k x).ending = some (3, 0)))

/-- A stalled message is latched and reported, an SRAM scrub corrects and counts or poisons its word, and a beacon request,
each 1 ms, sets the interrupt or counts a miss (R6, R99, R105, R129). -/
def Sys2Proof.Claims.CoreWatchesComplete : Prop :=
  ∀ (k t a : Nat) (c : EngCmd) (s : State), s.on → k < 2560 → coreTakes k s.dev = true →
    let d := s.dev
    (findCmd (coreOf k d) 2 (BitVec.ofNat 32 t) = some c → c.started = true → c.completed = false →
        bitOf (rd (rCore k 0xA0) d) 31 = false → c.ctx < 8 →
        1000 * clampReg 1 1000000 (rd (rCore k 0xA8) d) < d.now - c.startedAt →
      Does s (exec (.msgStall k t) s) (fun e => rd (rCore k 0xA0) e = 2 ^ 31 + 2 ^ 28 * c.ctx + c.addr % 2 ^ 21
        ∧ (pageOf (pCore k) e).events.getLsbD 18 = true))
    ∧ Gives s (exec (.sramScrub k a 0) s) d
    ∧ (∀ b < 144, a < sramSize → sramPoisoned k (a / 16 * 16) 16 d = false →
      Gives s (exec (.sramScrub k a (BitVec.ofNat 144 (2 ^ b))) s) (wr (rCore k 0xC0) (min m32 (rd (rCore k 0xC0) d + 1)) d))
    ∧ (∀ bits : WordNoise, a < kernelWindow → sramPoisoned k (a / 16 * 16) 16 d = false →
        judgeWord false bits = .uncorrectable →
      Does s (exec (.sramScrub k a bits) s) (fun e => sramPoisoned k a 1 e = true
        ∧ rd (rCore k 0xC4) e = min m32 (rd (rCore k 0xC4) d + 1) ∧ (pageOf (pCore k) e).events.getLsbD 19 = true))
    ∧ (resetActs .core d = false → (coreOf k d).beaconPending = false →
        (coreOf k d).beaconAt.all (fun t => decide (1000000 ≤ d.now - t)) = true →
      Does s (exec (.beaconReq k) s) (fun e => (coreOf k e).beaconPending = true ∧ (coreOf k e).mip.getLsbD 16 = true
        ∧ (coreOf k e).beaconAt = some d.now ∧ e.regs = d.regs))
    ∧ (resetActs .core d = false → (coreOf k d).beaconPending = true → rd (rCore k 0xE4) d < 3 →
        (coreOf k d).beaconAt.all (fun t => decide (1000000 ≤ d.now - t)) = true →
      Gives s (exec (.beaconReq k) s)
        (wr (rCore k 0xE4) (rd (rCore k 0xE4) d + 1) (modCore k (fun x => { x with beaconAt := some d.now }) d)))
/-! ### The matrix and vector engines (05_arithmetic.md) -/

/-- What a core does between instructions, and the watches over it. -/
def Obligations.CoreEventsComplete : Prop :=
  Claims.InterruptsComeFirst ∧ Claims.CoreWatchesComplete

/-- The vector engine runs its oldest command of the operation named: an empty one is DONE with nothing written, one out of
range is REJECTED_RANGE, poisoned input fails it, and else its rows and its report are written and it is DONE; what it and another
running command both use is as R156 says (R45, R100, R156 to R163). -/
def Sys2Proof.Claims.VectorCommandsComplete : Prop :=
  ∀ (k op : Nat) (i : Instr) (c : EngCmd) (s : State), s.on → nextCmd (coreOf k s.dev) 1 = some c →
    engineIdle (coreOf k s.dev) 1 = true → inState (pCore k) [.ready, .active, .loading] s.dev = true → descOp c.desc = op →
    (i, op) ∈ [(Instr.add k, 0x01), (.sub k, 0x02), (.mul k, 0x03), (.fma k, 0x04), (.max k, 0x05), (.min k, 0x06),
      (.copy k, 0x07), (.transpose k, 0x08), (.exp2 k, 0x10), (.log2 k, 0x11), (.recip k, 0x12), (.rsqrt k, 0x13),
      (.tanh k, 0x14), (.sigmoid k, 0x15), (.erf k, 0x16), (.rsum k, 0x20), (.rmax k, 0x21), (.rmin k, 0x22),
      (.rsumsq k, 0x23), (.ramax k, 0x24)] →
    let d := s.dev
    let v := vecDesc c.desc
    (v.len = 0 ∨ v.rows = 0 → Gives s (exec i s) (workEnded k 1 c .done 0 d))
    ∧ (v.len ≠ 0 → v.rows ≠ 0 → vecInRange c.user v = false → Gives s (exec i s) (workEnded k 1 c .rejectedRange 0 d))
    ∧ (v.len ≠ 0 → v.rows ≠ 0 → vecInRange c.user v = true → Gives s (exec i s) (beginWork k 1 c d))
    ∧ (v.len ≠ 0 → v.rows ≠ 0 → vecInRange c.user v = true → (∀ f < 3, running k f d = []) → Mem.wf d.sram = true →
        (vecIns v).any (fun r => sramPoisoned k r.1 r.2 d) = false → apart c.addr (vecSpans v) = true →
      Does s (exec i s) (fun x =>
        x.sram = (writeRows k ((vecOut v k c d).1
          ++ (if v.report then [(v.reportAddr, reportBytes (vecOut v k c d).2)] else [])) d).sram
        ∧ (∀ y ∈ (engineOf (coreOf k x) 1).cmds, y.ticket = c.ticket → y.started = true ∧ y.ended = some (.done, 0))
        ∧ x.mem = d.mem ∧ x.pages = d.pages))
    ∧ (v.len ≠ 0 → v.rows ≠ 0 → vecInRange c.user v = true → (∀ f < 3, running k f d = []) →
        (vecIns v).any (fun r => sramPoisoned k r.1 r.2 d) = true →
      Does s (exec i s) (fun x => ∀ y ∈ (engineOf (coreOf k x) 1).cmds, y.ticket = c.ticket → y.ended = some (.failed, 1)))

/-- MATMUL: an empty product is DONE with nothing written, one out of range is REJECTED_RANGE, and else C = A × Bᵀ, with
the accumulator where it is asked for, is written; what it and another running command both use is as R156 says (R45, R149 to
R156). -/
def Sys2Proof.Claims.MatmulCompletes : Prop :=
  ∀ (k : Nat) (c : EngCmd) (s : State), s.on → nextCmd (coreOf k s.dev) 0 = some c → engineIdle (coreOf k s.dev) 0 = true →
    inState (pCore k) [.ready, .active, .loading] s.dev = true → descOp c.desc = 1 →
    let d := s.dev
    let m := matDesc c.desc
    let out := outRows m.c m.ceil (roundingOf k 0 m.c.code c) 0 (matResults k m d).1 (noTally (matResults k m d).2)
    (m.m = 0 ∨ m.n = 0 ∨ m.k = 0 → Gives s (exec (.matmul k) s) (workEnded k 0 c .done 0 d))
    ∧ (m.m ≠ 0 → m.n ≠ 0 → m.k ≠ 0 → matInRange c.user m = false →
      Gives s (exec (.matmul k) s) (workEnded k 0 c .rejectedRange 0 d))
    ∧ (m.m ≠ 0 → m.n ≠ 0 → m.k ≠ 0 → matInRange c.user m = true → Gives s (exec (.matmul k) s) (beginWork k 0 c d))
    ∧ (m.m ≠ 0 → m.n ≠ 0 → m.k ≠ 0 → matInRange c.user m = true → (∀ f < 3, running k f d = []) → Mem.wf d.sram = true →
        (matIns m).any (fun r => sramPoisoned k r.1 r.2 d) = false → apart c.addr (matSpans m) = true →
      Does s (exec (.matmul k) s) (fun x =>
        x.sram = (writeRows k (out.1 ++ (if m.report then [(m.reportAddr, reportBytes out.2)] else [])) d).sram
        ∧ (∀ y ∈ (engineOf (coreOf k x) 0).cmds, y.ticket = c.ticket → y.started = true ∧ y.ended = some (.done, 0))
        ∧ x.mem = d.mem ∧ x.pages = d.pages))

/-- Accesses to SRAM that nothing else meets change no byte but those written: a command that starts while no other runs, and a
scalar store while no command runs and no message is in flight. A store into what a running command writes leaves those words
undefined, each of their bytes a free value; an input word that another agent writes while a command runs is the old word or the new
one; and once a message completes, a word that it and a store wrote holds the data of one of them (R156, R162, R179, R180). -/
def Sys2Proof.Claims.LoneAccessesAreDefined : Prop :=
  ∀ (k e a : Nat) (t : Word) (c : EngCmd) (outs : List (Nat × Nat)) (bs : List Byte) (d : Dev),
    ((∀ f < 3, ∀ x ∈ running k f d, f = e ∧ x.ticket = t) → agentWrote k (some (e, t)) outs d = d)
    ∧ ((∀ f < 3, running k f d = []) → inFlight d = [] →
      scalarStore k a bs d = breakReservation k a bs.length (sramStore k a bs d))
    ∧ (running k 0 d = [c] → running k 1 d = [] → running k 2 d = [] → inFlight d = [] → a % 16 = 0 → c.inputs = [] →
        c.writes = [(a, 16)] → 0 < bs.length → bs.length ≤ 16 → Mem.wf d.sram = true →
      ∀ i < 16, (scalarStore k a bs d).sram.byte (sramAddr k (a + i)) = (Config.freeBits (d.fresh + i)).setWidth 8)
    ∧ (∀ (l : List KeptWord) (now : Dev), ∀ w ∈ (oldOrNew k outs l now d).1,
      w ∈ l ∨ (w = keptWord k now w.addr ∧ meets outs [(w.addr, 16)] = true))
    ∧ (∀ x : Contest, ∀ m, x.data = some m →
      settleContests k [x] d = tickFree (sramStore k x.addr m d)
      ∨ settleContests k [x] d = tickFree (sramStore k x.addr (overBytes m x.bytes) d))

/-- The commands of the vector and matrix engines, and accesses to SRAM that meet. -/
def Obligations.VectorAndMatrixCommandsComplete : Prop :=
  Claims.VectorCommandsComplete ∧ Claims.MatmulCompletes ∧ Claims.LoneAccessesAreDefined

/-- Each element of an elementwise operation is what R157 gives for the elements of its operands at that place: A scaled,
B or the immediate, and C. -/
def Obligations.VectorElementsFollowTheTable : Prop :=
  ∀ (v : VecDesc) (k i j : Nat) (d : Dev), j < v.len → isMx v.a.code = false → v.scalar = false → v.a.n = v.len →
    v.b.n = v.len → v.c.n = v.len →
    let x := mulFl (Fl.of ((v.a.values k i d).getD j .nan)) (Fl.of (val32 v.a.scale))
    let y := Fl.of ((v.b.values k i d).getD j .nan)
    let z := Fl.of ((v.c.values k i d).getD j .nan)
    let r := (vecRow v k i d).getD j (Fl.of .nan)
    (v.op = 1 → r = addFl x y) ∧ (v.op = 2 → r = addFl x { y with v := y.v.neg }) ∧ (v.op = 3 → r = mulFl x y)
    ∧ (v.op = 4 → r = fmaFl x y z) ∧ (v.op = 5 → r.v = maxV x.v y.v) ∧ (v.op = 6 → r.v = minV x.v y.v) ∧ (v.op = 7 → r = x)

/-! ### The mesh (06_mesh.md) -/

/-- The messenger starts its oldest message: the packets carry what the source range holds, cut at 512 bytes, to the core,
line, counter or queue that the descriptor names (R111, R116 to R118, R168, R177, R181 to R183). -/
def Sys2Proof.Claims.MessagesStart : Prop :=
  ∀ (k : Nat) (c : EngCmd) (s : State), s.on → k < 2560 → nextCmd (coreOf k s.dev) 2 = some c →
    inState (pCore k) [.ready, .active, .loading] s.dev = true →
    let d := s.dev
    let m := msgDesc c.desc
    let id := (coreOf k d).nextMsg
    let carries := fun (kind : PacketKind) (e : Dev) (ok : Packet → Prop) =>
      ∃ ps, e.packets = d.packets ++ ps ∧ ps.flatMap (·.payload) = sramRead k m.localAddr m.length d
        ∧ ∀ p ∈ ps, p.kind = kind ∧ p.msgId = id ∧ p.ctx = c.ctx ∧ p.payload.length ≤ 512 ∧ ok p
    (m.fence = false ∨ (engineOf (coreOf k d) 2).cmds.any (fun x => x.started && !x.completed) = false) →
    m.length ≤ 65536 →
    (m.get = false → m.target = 3 → m.length = 0 → m.remote ≤ 511 →
      Does s (exec (.counterMessage k) s) (fun e => ∃ p, e.packets = d.packets ++ [p] ∧ p.kind = .counterAdd
        ∧ p.dx = (if m.x % 2 = 0 then 0x7F else 0x40) ∧ p.dy = coreY k ∧ p.address = m.remote ∧ p.amount = m.inc))
    ∧ (inSram c.user m.localAddr m.length = true →
    (m.get = false → m.target = 0 → m.y ≤ 39 → m.remote + m.length ≤ kernelWindow → coreSendable (coreAt m.x m.y) d = true →
      Does s (exec (.messagePut k) s) (fun e => carries .put e (fun p => p.dx = m.x ∧ p.dy = m.y)
        ∧ (coreOf k e).nextMsg = (id + 1) % 256))
    ∧ (m.get = true → m.target = 0 → m.y ≤ 39 → m.remote + m.length ≤ kernelWindow → m.length ≠ 0 →
        coreSendable (coreAt m.x m.y) d = true →
      Does s (exec (.messageGet k) s) (fun e => ∃ p, e.packets = d.packets ++ [p] ∧ p.kind = .getReq ∧ p.dx = m.x ∧ p.dy = m.y
        ∧ p.address = m.remote ∧ p.amount = m.length ∧ p.returnAddr = m.localAddr ∧ p.msgId = id))
    ∧ (m.get = false → m.target = 2 → m.x ≤ 23 →
      Does s (exec (.updateQueueMessage k) s) (fun e => carries .updatePut e (fun p => p.place = m.x)))
    ∧ (m.get = false → m.target = 4 → m.x ≤ m.x2 → m.y ≤ 39 → m.remote + m.length ≤ kernelWindow →
        (∀ x, m.x ≤ x → x ≤ m.x2 → usable (uRouter (coreAt x m.y)) d = true) →
      Does s (exec (.rowMulticast k) s) (fun e => carries .mcPut e (fun p => p.row = true ∧ p.dy = m.y ∧ p.runLo = m.x
        ∧ p.runHi = m.x2 ∧ p.dx = entryPlace (coreX k) m.x m.x2)))
    ∧ (m.get = false → m.target = 5 → m.y ≤ m.y2 → m.y2 ≤ 39 → m.remote + m.length ≤ kernelWindow →
        (∀ y, m.y ≤ y → y ≤ m.y2 → usable (uRouter (coreAt m.x y)) d = true) →
      Does s (exec (.columnMulticast k) s) (fun e => carries .mcPut e (fun p => p.row = false ∧ p.dx = m.x ∧ p.runLo = m.y
        ∧ p.runHi = m.y2 ∧ p.dy = entryPlace (coreY k) m.y m.y2))))

/-- Packets at cores, once their way is open: a PUT lands, counts its flag and is answered, a GET_REQ sends the data back, GET_DATA
lands at the requester, a COMPLETION ends its message, and multicast and relay packets are delivered along their runs (R173, R176,
R177, R183 to R185). -/
def Sys2Proof.Claims.CorePacketsArrive : Prop :=
  ∀ (n : Nat) (p : Packet) (s : State), s.on → s.dev.packets[n]? = some p → resetActs .core s.dev = false →
    reaches p s.dev = true →
    let d := s.dev
    let t := coreAt p.dx p.dy
    let rest := d.packets.eraseIdx n
    let gone := { d with packets := rest }
    (p.kind = .put → Gives s (exec (.put n) s) (arrive t p true 0 gone))
    ∧ (p.kind = .getData → toDma p = false → Gives s (exec (.getData n) s) (dataAtCore t p gone))
    ∧ (p.kind = .put → toCore p = true → (coreOf t d).arrivals = [] → p.index = 0 → p.last = 0 → coreTakes t d = true →
        ctxOpen p.ctx d = true → p.poison = [] → racedOf (senderOf p) p.msgId d = [] → (∀ f < 3, running t f d = []) →
      Does s (exec (.put n) s) (fun e =>
        e.sram = (sramWrite t p.address p.payload [] d).sram ∧ (coreOf t e).arrivals = []
        ∧ flagOf (coreOf t e) p.flag = flagOf (coreOf t d) p.flag + (if p.flagEn then BitVec.ofNat 32 p.amount else 0)
        ∧ e.packets = rest ++ [completionPacket (senderOf p) p.msgId 0 t .done 0]))
    ∧ (p.kind = .getReq → toCore p = true → Gives s (exec (.getReq n) s) (getAtCore t p gone))
    ∧ (p.kind = .getReq → toCore p = true → coreTakes t d = true → ctxOpen p.ctx d = true →
      Does s (exec (.getReq n) s) (fun e => ∃ ps, e.packets = rest ++ ps
        ∧ ps.flatMap (·.payload) = sramRead t p.address p.amount d
        ∧ ∀ q ∈ ps, q.kind = .getData ∧ q.dx = p.sx ∧ q.dy = p.sy ∧ q.msgId = p.msgId))
    ∧ (∀ c, p.kind = .getData → toDma p = false → findMsg (coreOf t d) p.msgId = some c → p.poison = [] →
        c.awaited = p.payload.length → c.outcomes = [] → c.raced = [] →
        (∀ f < 3, ∀ x ∈ running t f d, f = 2 ∧ x.ticket = c.ticket) →
      Does s (exec (.getData n) s) (fun e => e.sram = (sramWrite t p.address p.payload [] d).sram ∧ e.packets = rest
        ∧ ∃ y ∈ (engineOf (coreOf t e) 2).cmds, y.ticket = c.ticket ∧ y.ended = some (.done, 0)))
    ∧ (∀ c, p.kind = .completion → p.die = none → toDma p = false → findMsg (coreOf t d) p.msgId = some c →
        (msgDesc c.desc).get = false → c.awaited = 1 → c.outcomes = [] → p.result ≠ .done →
      Does s (exec (.completion n) s) (fun e => e.packets = rest
        ∧ ∃ y ∈ (engineOf (coreOf t e) 2).cmds, y.ticket = c.ticket ∧ y.ended = some (p.result, p.detail)))
    ∧ (p.kind = .mcPut → Gives s (exec (.mcPut n) s) (runDeliver p gone))
    ∧ (p.kind = .relayPut → Gives s (exec (.relayPut n) s) (runDeliver p gone))
    ∧ (p.kind = .mcPut → p.hurt = [] → p.cutAt = [] → onward p (routerAt p.dx p.dy) d = [] →
      runDeliver p gone = mcCopy p (routerAt p.dx p.dy) gone)
    ∧ (p.kind = .relayPut → p.hurt = [] → p.cutAt = [] → onward p (routerAt p.dx p.dy) d = [] →
      runDeliver p gone = relayCopy p (routerAt p.dx p.dy) gone)

/-- Packets at the edge, once their way is open: a memory controller writes or reads its lines and answers, or holds what it may
not apply, and takes nothing while a hold is full; an I/O die adds to its counter; an update engine takes the records (R167, R176,
R177, R182, R196, R207, R235). -/
def Sys2Proof.Claims.EdgePacketsArrive : Prop :=
  ∀ (n c : Nat) (p : Packet) (s : State), s.on → s.dev.packets[n]? = some p → reaches p s.dev = true →
    let d := s.dev
    let rest := d.packets.eraseIdx n
    let gone := { d with packets := rest }
    (p.kind = .putMem → controllerAt p.address d = some c → holdFull c d = false →
        rangeHeld p.address (memSpan p) true d = false →
      Gives s (exec (.putMem n) s) (applyMemPacket p gone)
      ∧ (racedOf (senderOf p) p.msgId d = [] → noPlans d = true →
        Does s (exec (.putMem n) s) (fun e => e.mem = (memWrite p.address p.payload p.poison gone).mem)))
    ∧ (p.kind = .putMem → controllerAt p.address d = some c → holdFull c d = false →
        rangeHeld p.address (memSpan p) true d = true →
      Gives s (exec (.putMem n) s) (putMemCtl c { memCtl c d with held := (memCtl c d).held ++ [p] } gone))
    ∧ (p.kind = .putMem → controllerAt p.address d = some c → holdFull c d = true → Gives s (exec (.putMem n) s) d)
    ∧ (p.kind = .getReq → toCore p = false → controllerAt p.address d = some c → holdFull c d = false →
        rangeHeld p.address (memSpan p) false d = false → memClean d →
      Does s (exec (.getReq n) s) (fun e => ∃ ps, e.packets = rest ++ ps ∧ ps.flatMap (·.payload) = memBytes p.address p.amount d
        ∧ ∀ q ∈ ps, q.kind = .getData ∧ q.dx = p.sx ∧ q.dy = p.sy ∧ q.sx = p.dx ∧ q.sy = p.dy ∧ q.msgId = p.msgId))
    ∧ (p.kind = .counterAdd → inState (pCounters (if p.dx = 0x7F then 0 else 1)) [.off, .retired] d = false →
      Gives s (exec (.counterAdd n) s)
        (sendPackets [answerTo p .done 0] (counterAddN (if p.dx = 0x7F then 0 else 1) p.address p.amount gone)))
    ∧ (p.kind = .updatePut → controllerOf p.dx p.dy = c → holdFull c d = false → inState (pUpd c) [.off, .retired] d = false →
        p.poison = [] → racedOf (senderOf p) p.msgId d = [] →
      Gives s (exec (.updatePut n) s)
        (sendPackets [answerTo p .done 0] ((recordsOf p).foldl (fun x r => takeTrigger c p.ctx r.1 x) gone)))
    ∧ (c < 24 → ∀ a, controllerOf (controllerPort c a).1 (controllerPort c a).2 = c)

/-- Packets that arrive at cores and at edge blocks. -/
def Obligations.PacketsArrive : Prop :=
  Claims.CorePacketsArrive ∧ Claims.EdgePacketsArrive

/-- A header flit's words give its fields back. The next flit of a packet crosses to a router where its channel has room: the
router counts what it corrects or gets again, poisons a payload word that fails again, and discards a packet whose header fails
again, with the link retired. After a retirement incomplete entries and messages of an older generation end FAILED (R169, R171,
R172, R186). -/
def Sys2Proof.Claims.MeshErrorsComplete : Prop :=
  ∀ (k n i u : Nat) (port : MeshPort) (h : FlitHop) (once again : FlitNoise) (p : Packet) (s : State), s.on → k < 2560 →
    let d := s.dev
    let kept := fun (q : Packet) => d.packets.set n (pruneTrail (advanceHop k port q) d)
    let clean : FlitNoise := ⟨0, 0⟩
    let bit : Nat → FlitNoise := fun b => ⟨BitVec.ofNat 144 (2 ^ b), 0⟩
    let e := fun a b => receiveFlit k port n h a b d
    (headerFits p = true → withHeader (headerWord0 p) (headerWord1 p) p = some p)
    ∧ (d.packets[n]? = some p → usable (uRouter k) d = true → linkUsable k port d = true → bodyHop k port p d = some h →
      Gives s (exec (.routerFlit k port n once again) s) (e once again))
    ∧ (d.packets[n]? = some p → usable (uRouter k) d = true → linkUsable k port d = true → bodyHop k port p d = none →
        headHop k port p d = some h → Gives s (exec (.routerFlit k port n once again) s) (e once again))
    ∧ (d.packets[n]? = some p → bodyHop k port p d = none → headHop k port p d = none →
      Gives s (exec (.routerFlit k port n once again) s) d)
    ∧ (h.flit ≠ 0 → e clean again = { d with packets := kept h.packet })
    ∧ (∀ b < 144, h.flit ≠ 0 → h.packet.poison = [] →
      (e (bit b) again).packets = kept h.packet
      ∧ routerOf k (e (bit b) again) = { routerOf k d with corrected := min 255 ((routerOf k d).corrected + 1) })
    ∧ (h.flit ≠ 0 → h.packet.poison = [] → judgeWord false once.word0 = .uncorrectable → once.word1 = 0 →
      (e once clean).packets = kept h.packet
      ∧ routerOf k (e once clean) = { routerOf k d with resent := min 255 ((routerOf k d).resent + 1) })
    ∧ (h.flit ≠ 0 → h.branch = false → i = 2 * h.flit - 2 → i < payWords h.packet → h.packet.poison = [] →
        judgeWord false once.word0 = .uncorrectable → once.word1 = 0 →
      (e once once).packets = kept { h.packet with poison := [i] })
    ∧ (h.flit = 0 → h.branch = false → judgeWord false once.word0 = .uncorrectable → once.word1 = 0 → linkOfPort k port = some u →
      e once once = retireUnit u .selfFault { countResent k d with packets := d.packets.eraseIdx n })
    ∧ (coreTakes k d = true → (coreOf k d).arrivals ≠ [] → (∀ a ∈ (coreOf k d).arrivals, staleArrival d a = true) →
      Does s (exec (.targetEntryTimeout k) s) (fun e => (coreOf k e).arrivals = []
        ∧ e.packets = d.packets ++ (coreOf k d).arrivals.map (fun a =>
            completionPacket a.source a.msgId a.place k .failed 5)))
    ∧ (∀ c ∈ (engineOf (coreOf k d) 2).cmds, staleMessage d c = true →
      Does s (exec (.sourceMessageTimeout k) s) (fun e =>
        ∃ y ∈ (engineOf (coreOf k e) 2).cmds, y.ticket = c.ticket ∧ y.ended = some (.failed, 5)))
/-! ### Module memory (07_memory.md) -/

/-- Messages of cores, and errors of the mesh. -/
def Obligations.MessagesComplete : Prop :=
  Claims.MessagesStart ∧ Claims.MeshErrorsComplete

/-- The address map is fixed once every controller has trained, from the usable channels and LOCAL_SHARE (R198, R200,
R218). -/
def Sys2Proof.Claims.MapFixedCompletes : Prop :=
  ∀ s : State, s.on → bringsUp s.dev = true → s.dev.memMap = none → (∀ c < 24, trained c s.dev = true) →
    Does s (exec .mapFixed s) (fun e => ∃ m, e.memMap = some m
      ∧ m.share = (if 1000 < s.dev.flash.mapLocal then 0 else s.dev.flash.mapLocal)
      ∧ ∀ n ∈ m.usable, n < 384 ∧ (unitRec (uChannel n) s.dev).state = .ready)

/-- Scrubbing: a step scrubs the group and goes on, the last group ends the pass and counts it, and SCRUB_NOW begins a pass
at once (R202, R203, R221). -/
def Sys2Proof.Claims.ScrubsComplete : Prop :=
  ∀ (c : Nat) (s : State), s.on →
    let d := s.dev
    let m := memCtl c d
    (passRuns c d = true → memClean d → m.position + 1 < channelGroups →
      Gives s (exec (.scrubStep c []) s) (putMemCtl c { m with position := m.position + 1 } d))
    ∧ (passRuns c d = true → memClean d → m.position + 1 = channelGroups → m.fast = false →
      Does s (exec (.scrubStep c []) s) (fun e => rd (rMem c 0 0x6C) e = min m32 (rd (rMem c 0 0x6C) d + 1)
        ∧ (memCtl c e).position = 0 ∧ (memCtl c e).scrubbing = (scrubPeriod c d != 0)))
    ∧ (mayCommand (pMem c) d = true → inState (pMem c) [.ready, .active] d = true →
      Gives s (exec (.scrubNow c) s) (putMemCtl c
        { m with scrubbing := true, fast := true, position := 0, passCount := [], passRetrained := [] }
        (putPage (pMem c) ((pageOf (pMem c) d).started 0x40 0) d)))

/-- The address map and scrubbing. -/
def Obligations.MapAndScrubsComplete : Prop :=
  Claims.MapFixedCompletes ∧ Claims.ScrubsComplete

/-- Channels: drift asks for a retrain, MR4 sets the refresh rate, an automatic retrain starts on a READY channel with the
state kept, and ends with the channel as it was, and counted (R189, R205, R206, R207, R507). -/
def Sys2Proof.Claims.ChannelCommandsComplete : Prop :=
  ∀ (c j rate : Nat) (s : State), s.on → s.dev.unrun = [] →
    let d := s.dev
    let m := memCtl c d
    let n := 16 * c + j
    (devicesAwake c d = true → j < 16 → (unitRec (uChannel n) d).state = .ready →
      Gives s (exec (.wck2dqRead c [j]) s) (putMemCtl c { m with wanted := addOnce j m.wanted } d))
    ∧ (devicesAwake c d = true →
      Gives s (exec (.mr4Read c rate false) s) (putMemCtl c { m with refreshRate := rate } d)
      ∧ Reaches s (exec (.mr4Read c rate true) s) (putMemCtl c { m with refreshRate := rate } d))
    ∧ (mayRetrain c j d = true →
      Does s (exec (.channelRetrainStart c j) s) (fun e => (unitRec (uChannel n) e).state = .training
        ∧ (unitRec (uChannel n) e).cause = (unitRec (uChannel n) d).cause ∧ (unitRec (uChannel n) e).back = .ready
        ∧ (memCtl c e).retraining = some j ∧ e.pages = d.pages))
    ∧ (c < 24 → trainingChannels c d = [n] → m.selfRefresh = false → inState (pMem c) [.ready, .active] d = true →
        (pageOf (pMem c) d).cmd = none → m.held = [] →
      Does s (exec (.channelRetrainEnd c []) s) (fun e => (unitRec (uChannel n) e).state = (unitRec (uChannel n) d).back
        ∧ (unitRec (uChannel n) e).cause = (unitRec (uChannel n) d).backCause
        ∧ rd (rMem c 0 0x74) e = min m32 (rd (rMem c 0 0x74) d + 1)))

/-- Registers of a controller that do more than store, and self-refresh: an injection whose checks hold is armed and one
whose checks fail is not, MAP_LOCAL_NEXT goes to management flash, and under a coolant or power-off hold the devices go to
self-refresh (R215, R218, R219). -/
def Sys2Proof.Claims.MemoryControlsComplete : Prop :=
  ∀ (c : Nat) (v : Word) (s : State), s.on →
    let d := s.dev
    let g := pageOf (pMem c) d
    (pageSilent (pMem c) d = false → g.negotiated = true → v.getLsbD 31 = true → injectOk c v.toNat d = true →
      Gives s (exec (.injectCtrl c v) s) (wr (rMem c 0 0x88) (v.toNat % 1024 + 2 ^ 31) d))
    ∧ (pageSilent (pMem c) d = false → g.negotiated = true → v.getLsbD 31 = true → injectOk c v.toNat d = false →
      Gives s (exec (.injectCtrl c v) s) (putPage (pMem c) (g.erred 0xA001) (wr (rMem c 0 0x88) (v.toNat % 1024) d)))
    ∧ (pageSilent (pMem 0) d = false → (pageOf (pMem 0) d).negotiated = true →
      Gives s (exec (.mapLocalNext v) s) { d with flash := { d.flash with
        mapLocal := v.toNat % 1024,
        formats := d.flash.formats.set 3 (Config.schemaFormat (releaseOf d.flash.active.manifest) 3) } })
    ∧ (c < 24 → g.holds.contains .coolant = true ∨ g.holds.contains .powerOff = true → g.state = .quiesced →
        (memCtl c d).selfRefresh = false →
      Does s (exec (.selfRefreshEntry c) s) (fun e => (memCtl c e).selfRefresh = true)
      ∧ (d.mgmt.powerOff = false → Reaches s (exec (.selfRefreshEntry c) s) (putMemCtl c { memCtl c d with selfRefresh := true } d)))

/-- Channels and controls of module memory. -/
def Obligations.MemoryCommandsComplete : Prop :=
  Claims.ChannelCommandsComplete ∧ Claims.MemoryControlsComplete

/-! ### Update engines (08_update_engines.md) -/

/-- Plans: ENABLE_PLAN copies the plan's registers and the page goes ACTIVE, DISABLE_PLAN forgets the plan and its chunks
become IDLE, ARM arms the chunks of a range, DISARM takes ARMED and PENDING chunks back to IDLE, FIRE gives one record, and a
write of STATE_QUERY names an entry (R230 to R236, R242, R245, R246). -/
def Sys2Proof.Claims.PlanCommandsComplete : Prop :=
  ∀ (c arg : Nat) (p : Plan) (v : Word) (s : State), s.on → c < 24 →
    let d := s.dev
    let q := pUpd c
    let n := arg % 16
    let g := pageOf q d
    (mayCommand q d = true → g.state = .ready ∨ g.state = .active → planOf c n d = none →
        ctxOpen (readPlan c n d).context d = true → planInRange c n (readPlan c n d) d = true →
      Does s (exec (.enablePlan c arg) s) (fun e => planOf c n e = some (readPlan c n d) ∧ stateOf q e = .active
        ∧ answers q 0x40 .done d e))
    ∧ (mayCommand q d = true → inState q [.ready, .active, .quiesced] d = true → planOf c n d = some p →
        (engOf c d).running = none →
      Does s (exec (.disablePlan c arg) s) (fun e => planOf c n e = none ∧ answers q 0x41 .done d e
        ∧ ∀ k < p.chunks, (chunkAt c p k e).1 = .idle))
    ∧ (mayCommand q d = true → inState q [.active, .quiesced] d = true → planOf c n d = some p → bitOf arg 4 = false →
        armFirst c d + armCount c d ≤ p.chunks →
        (∀ k ∈ armRange c d, (chunkAt c p k d).1 ∈ [.idle, .applied, .skipped]) →
      Does s (exec (.arm c arg) s) (fun e => answers q 0x42 .done d e
        ∧ (∀ k ∈ armRange c d, chunkAt c p k e = (.armed, 0))
        ∧ ∀ k, k ∉ armRange c d → chunkAt c p k e = chunkAt c p k d))
    ∧ (mayCommand q d = true → inState q [.active, .quiesced] d = true → planOf c n d = some p →
        armFirst c d + armCount c d ≤ p.chunks → (engOf c d).running = none →
      Does s (exec (.disarm c arg) s) (fun e => answers q 0x43 .done d e
        ∧ (∀ k ∈ armRange c d, (chunkAt c p k d).1 = .armed ∨ (chunkAt c p k d).1 = .pending →
            chunkAt c p k e = (.idle, 0))
        ∧ ∀ k, k ∉ armRange c d → chunkAt c p k e = chunkAt c p k d))
    ∧ (mayCommand q d = true → inState q [.active, .quiesced] d = true → planOf c n d = some p →
        armFirst c d % 2 ^ 18 < p.chunks → (chunkAt c p (armFirst c d % 2 ^ 18) d).1 = .armed →
      Reaches s (exec (.fire c arg) s) (setChunk c (p.stateBase + armFirst c d % 2 ^ 18) .pending 0
        (putPage q (g.ended 0x44 .done) d)))
    ∧ (mayCommand q d = true → inState q [.active, .quiesced] d = true → planOf c n d = some p →
        armFirst c d % 2 ^ 18 < p.chunks → (chunkAt c p (armFirst c d % 2 ^ 18) d).1 = .applied →
      Reaches s (exec (.fire c arg) s) (wr (rUpd c 0 0x5C) (min m32 (rd (rUpd c 0 0x5C) d + 1))
        (putPage q (g.ended 0x44 .done) d)))
    ∧ (pageSilent q d = false → g.negotiated = true →
      Gives s (exec (.stateQuery c v) s) (wr (rUpd c 0 0x50) (v.toNat % 2 ^ 18) d))

/-- A chunk run: the next PENDING chunk starts with the plan's copy, and CHECK finds its first marked line unless a line of it is
held; a chunk with an empty share is APPLIED at once; a run that CHECK stopped ends SKIPPED with nothing applied, and another
applies the engine's share and ends APPLIED (R222, R237 to R242). -/
def Sys2Proof.Claims.ChunkRunsComplete : Prop :=
  ∀ (c n k : Nat) (p : Plan) (m : MemMap) (r : ChunkRun) (s : State), s.on → s.dev.memMap = some m →
    let d := s.dev
    let share := shareOf c r.copy r.chunk m
    let done := applyPart c r m share d
    let alone := endChunk c n p k .applied none (clearRun c (modEng c (fun g => { g with lastPlan := n }) d))
    ((engOf c d).running = none → nextServed c d = some (n, k) → planOf c n d = some p → engineHeld c d = false →
        stateOf (pUpd c) d = .active → inProgress (pUpd c) 1 d = false →
      (shareOf c p k m ≠ [] →
        Does s (exec (.chunkRun c) s) (fun e => ∃ x, (engOf c e).running = some x ∧ x.plan = n ∧ x.chunk = k ∧ x.copy = p
          ∧ x.disabled = false ∧ chunkAt c p k e = (.running, (chunkAt c p k d).2) ∧ (engOf c e).lastPlan = n ∧ e.mem = d.mem
          ∧ (if checkHeld p m (shareOf c p k m) d = true then x.checked = false ∧ x.marked = none
             else x.checked = true ∧ x.marked = firstMarked p m (shareOf c p k m) d)))
      ∧ (shareOf c p k m = [] → nextServed c alone = none → (engOf c alone).running = none →
        Gives s (exec (.chunkRun c) s) alone))
    ∧ ((engOf c d).running = some r → r.checked = true → runHeld c d = false →
        inState (pUpd c) [.ready, .active, .quiesced] d = true → r.disabled = false →
      (∀ a, r.marked = some a → Gives s (exec (.chunkEnd c) s)
        (settleUpdCmd c (endChunk c r.plan r.copy r.chunk .skipped (some (1, a)) (clearRun c d))))
      ∧ (r.marked = none → done.2 = none → Gives s (exec (.chunkEnd c) s)
        (settleUpdCmd c (endChunk c r.plan r.copy r.chunk .applied none (clearRun c done.1))))
      ∧ (∀ a, r.marked = none → done.2 = some a → Gives s (exec (.chunkEnd c) s)
        (settleUpdCmd c (endChunk c r.plan r.copy r.chunk .applied (some (2, a)) (clearRun c done.1)))))
    ∧ ((engOf c d).running = some r → r.checked = true → runHeld c d = true → Gives s (exec (.chunkEnd c) s) d)
/-! ### Optical ports (09_optical_ports.md) -/

/-- Plans and chunks of the update engines. -/
def Obligations.UpdateEnginesComplete : Prop :=
  Claims.PlanCommandsComplete ∧ Claims.ChunkRunsComplete

/-- A port's training ends a RETRAIN with the state held before or in FAULT; its link goes down with a count where lock is
lost for longer than LINK_DOWN_HOLD, and comes up with an event; FEC counts are added and judged against their limit (R33, R249, R250, R251). -/
def Sys2Proof.Claims.PortLinksComplete : Prop :=
  ∀ (p n m lanes lasted : Nat) (s : State), s.on → p < 48 → lanes < 16 →
    let d := s.dev
    let g := pageOf (pPort p) d
    (g.state = .training → g.cause = .hostCommand → inProgress (pPort p) 6 d = true → g.back = .ready ∨ g.back = .active →
        g.holds = [] →
      Reaches s (exec (.portTrainingDone p true) s) (putPage (pPort p)
        { g.moved g.back g.backCause d with result := .done, cmd := none } d))
    ∧ (g.state = .training → g.cause = .hostCommand → inProgress (pPort p) 6 d = true →
      Reaches s (exec (.portTrainingDone p false) s) (putPage (pPort p)
        ({ g.moved .fault .trainingFailed d with result := .failed, cmd := none }.erred (2 ^ 12 * 5 + 2 ^ 8 * 7 + 6)) d))
    ∧ (linkWanted p d = true → (portOf p d).up = true → clampReg 10 100000 (rd (rPort p 0x58) d) < lasted →
      Does s (exec (.linkDown ⟨p, lasted, lanes⟩) s) (fun e => (portOf p e).up = false ∧ (portOf p e).lanes = lanes
        ∧ rd (rPort p 0x44) e = min m32 (rd (rPort p 0x44) d + 1) ∧ (pageOf (pPort p) e).events.getLsbD 17 = true))
    ∧ (linkWanted p d = true → lasted ≤ clampReg 10 100000 (rd (rPort p 0x58) d) →
      Gives s (exec (.linkDown ⟨p, lasted, lanes⟩) s) d)
    ∧ (linkWanted p d = true → (portOf p d).up = false →
      Does s (exec (.linkUp p) s) (fun e => (portOf p e).up = true ∧ (portOf p e).lanes = 15 ∧ rd (rPort p 0x44) e = rd (rPort p 0x44) d
        ∧ (pageOf (pPort p) e).events.getLsbD 16 = true))
    ∧ (linkWanted p d = true → m ≤ rd (rPort p 0x54) d →
      Gives s (exec (.fecInterval ⟨p, lanes⟩ n m) s) (modPort p (fun x => { x with degraded := false, lanes := lanes })
        (addSat (rPort p 0x50) m (add64 (rPort p 0x48) n d))))
    ∧ (linkWanted p d = true → rd (rPort p 0x54) d < m →
      Reaches s (exec (.fecInterval ⟨p, lanes⟩ n m) s) (modPort p (fun x => { x with degraded := true, lanes := lanes })
        (addSat (rPort p 0x50) m (add64 (rPort p 0x48) n d))))

/-- Laser inputs: every usable engine's two powers are measured, an engine whose input in use has stayed below LASER_LOW for 10 µs
switches to one at or above it with a count, and LASER_SELECT takes an input that has light (R6, R252, R253, R288). -/
def Sys2Proof.Claims.LasersComplete : Prop :=
  ∀ (e p arg : Nat) (powers : List Int) (s : State), s.on →
    let d := s.dev
    let o := opticOf e d
    Gives s (exec (.laserCheck powers) s) (settleStart ((List.range 6).foldl (fun x k => measureOptic powers k x) d))
    ∧ (usable (uOptical e) d = true → d.net.optics.any (fun x => x.1 == e) = true →
      opticOf e (measureOptic powers e d) = ⟨o.input, powers.getD (2 * e) 0, powers.getD (2 * e + 1) 0,
        decide (powers.getD (2 * e) 0 < laserLow e d) && decide (powers.getD (2 * e + 1) 0 < laserLow e d),
        if (if o.input = 0 then powers.getD (2 * e) 0 else powers.getD (2 * e + 1) 0) < laserLow e d
        then o.lowSince.or (some d.now) else none⟩)
    ∧ (∀ since, e < 6 → usable (uOptical e) d = true → o.lowSince = some since → since + 10000 ≤ d.now →
        laserLow e d ≤ inputPower o (1 - o.input) →
      Does s (exec (.laserSwitched e) s) (fun x => opticOf e x = { o with input := 1 - o.input, lowSince := none }
        ∧ rd (rPort (8 * e) 0xA0) x = min m32 (rd (rPort (8 * e) 0xA0) d + 1)))
    ∧ (mayCommand (pPort p) d = true → inState (pPort p) [.ready, .active, .quiesced] d = true →
        laserLow (p / 8) d ≤ inputPower (opticOf (p / 8) d) (arg % 2) →
      Reaches s (exec (.laserSelect p arg) s) (putPage (pPort p) ((pageOf (pPort p) d).ended 0x40 .done)
        (putOptic (p / 8) { opticOf (p / 8) d with input := arg % 2, lowSince := none } d)))

/-- Links and laser inputs of the ports. -/
def Obligations.PortsComplete : Prop :=
  Claims.PortLinksComplete ∧ Claims.LasersComplete

/-- Frames of other protocols: one with a bad FCS is counted as that, and on a port without UDP_DPORT as an address error; a
solicitation of the module's address is answered and counted, any other counts as an address error, and so does a frame that is not
IPv6 or ICMPv6 of another kind; a frame of no known protocol counts as unsupported (R248, R254, R255, R256, R257). -/
def Obligations.OtherFramesComplete : Prop :=
  ∀ (p source target : Nat) (kind : OtherFrame) (s : State), s.on → carries p s.dev = true →
    let d := s.dev
    let c := add64 (rPort p 0xB0) 1 d
    let mac := d.fused.macs.getD p 0 % 2 ^ 48
    (d.job.attached = true → rd (rPort p 0x80) d ≠ 0 →
        target = addrOf p d.job.rank d ∨ target = 0xFE80 * 2 ^ 112 + identOf d.job.rank d →
      Gives s (exec (.neighborSolicitation p ⟨true, source, target⟩) s) (bump (rPort p 0xC8)
        (add64 (rPort p 0xB8) 1 (modNet (fun n => { n with
          wire := n.wire ++ [.advertisement p (rd64 (rPort p 0x70) c % 2 ^ 48) mac (tagOf p false c) source target target mac] }) c))))
    ∧ (d.job.attached = false → rd (rPort p 0x80) d ≠ 0 →
      Gives s (exec (.neighborSolicitation p ⟨true, source, target⟩) s) (bump (rPort p 0xC4) c))
    ∧ Gives s (exec (.neighborSolicitation p ⟨false, source, target⟩) s) (bump (rPort p 0xC0) c)
    ∧ (rd (rPort p 0x80) d = 0 → Gives s (exec (.neighborSolicitation p ⟨true, source, target⟩) s) (bump (rPort p 0xC4) c))
    ∧ (rd (rPort p 0x80) d ≠ 0 → Gives s (exec (.unsupportedFrame p ⟨true, .unsupportedProtocol⟩) s) (bump (rPort p 0x90) c))
    ∧ (rd (rPort p 0x80) d ≠ 0 → Gives s (exec (.unsupportedFrame p ⟨true, .nonIpv6⟩) s) (bump (rPort p 0xC4) c))
    ∧ (rd (rPort p 0x80) d ≠ 0 → Gives s (exec (.unsupportedFrame p ⟨true, .otherIcmp⟩) s) (bump (rPort p 0xC4) c))
    ∧ Gives s (exec (.unsupportedFrame p ⟨false, kind⟩) s) (bump (rPort p 0xC0) c)
    ∧ (rd (rPort p 0x80) d = 0 → Gives s (exec (.unsupportedFrame p ⟨true, kind⟩) s) (bump (rPort p 0xC4) c))

/-- Pause: a PFC frame pauses each priority that it names until its quanta have passed or one of 0 arrives, and is counted; the
receive buffer sends XOFF above three quarters, again every 20 µs while above one half, and XON below one half; a pause that lasts
longer than PFC_STORM_LIMIT is reported (R6, R280, R281). -/
def Obligations.PauseCompletes : Prop :=
  ∀ (p q : Nat) (ctrl : Bool) (quanta : PauseQuanta) (s : State), s.on → p < 48 →
    let d := s.dev
    let size := if ctrl then 65536 else 524288
    let tag := rd (rPort p 0x78) d
    let data := fieldOf tag 14 12
    let control := fieldOf tag 18 16
    let port := portOf p d
    let until_ := fun old : Option (Nat × Nat) =>
      if q = 0 then none else some ((old.map (·.1)).getD d.now, d.now + (512 * q + 799) / 800)
    (carries p d = true → rd (rPort p 0x80) d ≠ 0 → quantaOf quanta data = some q → control ≠ data →
        (∀ i < 8, i ≠ data → quantaOf quanta i = none) →
      Does s (exec (.pfcFrame p true quanta) s) (fun e =>
        (portOf p e).pausedData = until_ port.pausedData ∧ (portOf p e).pausedCtrl = port.pausedCtrl
          ∧ rd (rPort p 0x88) e % 2 ^ 16 = min 0xFFFF (rd (rPort p 0x88) d % 2 ^ 16 + 1)
          ∧ rd (rPort p 0x88) e / 2 ^ 16 = rd (rPort p 0x88) d / 2 ^ 16))
    ∧ (carries p d = true → rd (rPort p 0x80) d ≠ 0 → quantaOf quanta control = some q → control ≠ data →
        (∀ i < 8, i ≠ control → quantaOf quanta i = none) →
      Does s (exec (.pfcFrame p true quanta) s) (fun e =>
        (portOf p e).pausedCtrl = until_ port.pausedCtrl ∧ (portOf p e).pausedData = port.pausedData
          ∧ rd (rPort p 0x88) e / 2 ^ 16 = min 0xFFFF (rd (rPort p 0x88) d / 2 ^ 16 + 1)))
    ∧ (carries p d = true → rd (rPort p 0x80) d ≠ 0 → quantaOf quanta data = some q → control = data →
      Does s (exec (.pfcFrame p true quanta) s) (fun e =>
        (portOf p e).pausedCtrl = until_ port.pausedCtrl ∧ (portOf p e).pausedData = until_ port.pausedData))
    ∧ (carries p d = true → Gives s (exec (.pfcFrame p false quanta) s) (bump (rPort p 0xC0) (add64 (rPort p 0xB0) 1 d)))
    ∧ (∀ t, port.pausedCtrl = some t → t.2 ≤ d.now →
      Gives s (exec (.pauseQuantaExpired p true) s) (modPort p (fun x => { x with pausedCtrl := none }) d))
    ∧ (∀ t, port.pausedData = some t → t.2 ≤ d.now →
      Gives s (exec (.pauseQuantaExpired p false) s) (modPort p (fun x => { x with pausedData := none }) d))
    ∧ (xoffOf p ctrl d = none → 3 * size < 4 * levelOf p ctrl d →
      Gives s (exec (.pfcRepeat (p / 24) (p % 24) ctrl) s) (sendPfc p ctrl 0xFFFF d))
    ∧ (∀ t, xoffOf p ctrl d = some t → t + 20000 ≤ d.now → size < 2 * levelOf p ctrl d →
      Gives s (exec (.pfcRepeat (p / 24) (p % 24) ctrl) s) (sendPfc p ctrl 0xFFFF d))
    ∧ (∀ t, xoffOf p ctrl d = some t → t + 20000 ≤ d.now → 2 * levelOf p ctrl d < size →
      Gives s (exec (.pfcRepeat (p / 24) (p % 24) ctrl) s) (sendPfc p ctrl 0 d))
    ∧ (carries p d = true → rd (rPort p 0x80) d ≠ 0 →
      (sendPfc p ctrl q d).net.wire = d.net.wire ++ [.pfc p (if ctrl then control else data) q]
      ∧ xoffOf p ctrl (sendPfc p ctrl q d) = (if q = 0 then none else some d.now))
    ∧ (∀ t, (if ctrl then port.pausedCtrl else port.pausedData) = some t →
        t.1 + 1000000 * clampReg 1 10000 (rd (rPort p 0x94) d) < d.now →
      Does s (exec (.pfcStorm p ctrl) s) (fun e => Reported d e ∧ (pageOf (pPort p) e).events.getLsbD 21 = true))
/-! ### Network interfaces and the transport (09_optical_ports.md) -/

/-- Where a frame goes: one that fails a check of R257 is counted where that check counts; any other enters the port's receive buffer,
where it is lost if it does not fit (the model's choice, log entry 83), and the receiver takes it: a DATA, CREDIT or ABORT packet is judged, an ACK or NACK goes through
the receive queue to the sending half (R257, R259, R267, R291, R294). -/
def Obligations.FramesReachTheirHalf : Prop :=
  ∀ (p : Nat) (bytes : List Byte) (r : RegId) (i : Instr) (s : State), s.on → carries p s.dev = true →
    i ∈ [.data p bytes, .credit p bytes, .abortPacket p bytes, .ack p bytes, .nack p bytes] →
    let d := s.dev
    let f := readFrame bytes
    let d1 := add64 (rPort p 0xB0) 1 d
    let ctrl := !isData f.type
    let b := putBuffer p ctrl [f] d1
    let k : StreamId := ⟨sideOf p, f.channel, f.srcRank⟩
    (frameFails p f d1 = some r → Gives s (exec i s) (bump r d1))
    ∧ (frameFails p f d1 = none → Gives s (exec i s) (settleAll (bufferFrame p f d1)))
    ∧ (bufferSize ctrl < levelOf p ctrl d1 + f.length → bufferFrame p f d1 = d1)
    ∧ (bufferOf p ctrl d1 = [] → 4 * f.length ≤ 3 * bufferSize ctrl → rxWaits p f b = false →
      bufferFrame p f d1 = judgeFall p ctrl (takeFrame p f (putBuffer p ctrl [] b)))
    ∧ (f.type ≠ 2 → f.type ≠ 3 → f.ce = false → takeFrame p f d = receiveSequenced k p f d)
    ∧ (f.type = 2 ∨ f.type = 3 → f.ce = false →
      takeFrame p f d = pushRecord (sideOf p) (rxQueue p false) (headerRecord 2 f none) (add64 (rNi p 0x100) 1 d))

/-- What the network interface takes from a receive queue: an ACK or NACK reaches its sending half, and an accepted packet counts as
received by its stream; a poisoned record is counted and discarded (R272, R273, R276, R291, R296). -/
def Sys2Proof.Claims.ReceiveQueuesAreServed : Prop :=
  ∀ (side q : Nat) (r : PktRec) (rest : List PktRec) (d : Dev), packetRecords side q d = r :: rest →
    let p := 24 * side + q / 4
    let k : StreamId := ⟨sideOf p, r.frame.channel, r.frame.srcRank⟩
    let d1 := putRecords side q rest d
    (r.cells.any badCell = false → r.frame.type = 2 → consumeRx side q d = receiveAck k p r.frame d1)
    ∧ (r.cells.any badCell = false → r.frame.type = 3 → consumeRx side q d = receiveNack k p r.frame d1)
    ∧ (r.cells.any badCell = false → r.frame.type ≠ 2 → r.frame.type ≠ 3 →
      consumeRx side q d = keep k p r.frame false d1)
    ∧ (r.cells.any badCell = true → consumeRx side q d = countParity side d1)
    ∧ packetRecords side q d1 = rest
    ∧ (∀ a data, mayTransmit a data d = true → side = a / 24 → q = txQueue a data → r.cells.any badCell = false →
      transmit a data d = emit a (leaving r d) d1)
    ∧ (∀ a f, (emit a f d).net.wire = d.net.wire ++ [.packet a (frameBytes (wrapOf a f d) f)])

/-- The receiving half: the packet after CUM_SEQ is accepted into the receive queue, its payload undefined until CUM_SEQ has passed
the message's last packet, and stands where it says from then on; one received before or held is a duplicate that is acknowledged
again; one beyond the window is counted and dropped, and one that is rejected is answered with a NACK and counts as received (R267,
R270, R272, R274, R275). -/
def Sys2Proof.Claims.SequencedPacketsAreJudged : Prop :=
  ∀ (p : Nat) (f : Frame) (k : StreamId) (d : Dev),
    let r := rxOf k d
    let next := (r.cum + 1) % 2 ^ 32
    let e := receiveSequenced k p f d
    let kept := keep k p f false d
    (f.seq.toNat = next → r.pkts = [] → queuedSeq k next d = false →
        stateOf (pPort p) d = .ready ∨ stateOf (pPort p) d = .active → rejectReason p f d = none → e = acceptPacket p f d)
    ∧ (f.seq.toNat = next → f.type = 1 → f.chunk = false → f.notify = false → f.endOfMessage = true → r.pkts = [] →
        r.rejecting = false → r.landing = [] → noPlans d = true →
      (rxOf k kept).cum = next ∧ (rxOf k kept).pkts = [] ∧ (rxOf k kept).landing = []
        ∧ (f.poison = false → kept.net.staging = (settleBytes f.remoteAddr.toNat f.payload d).net.staging
          ∧ kept.mem = (settleBytes f.remoteAddr.toNat f.payload d).mem))
    ∧ (∀ a bs, 2 ^ 63 ≤ a → netPoisoned a bs.length d = [] →
      (settleBytes a bs d).net.staging = d.net.staging.write (a - 2 ^ 63) bs)
    ∧ (seqLe next f.seq.toNat = false →
      e = sendAck k (modRx k (fun x => { x with plane := p, ce := x.ce || f.ce }) (bump (rNi p 0x114) d)))
    ∧ (seqLe next f.seq.toNat = true → 1024 < (f.seq.toNat + 2 ^ 32 - next) % 2 ^ 32 → f.ce = false →
      e = bump (rNi p 0x110) d)
    ∧ (∀ reason, f.seq.toNat = next → r.pkts = [] → queuedSeq k next d = false → stateOf (pPort p) d ≠ .quiesced →
        rejectReason p f d = some reason →
      e = keep k p f true (raise (pNi p) 18 (bump (rNi p (reasonCounter reason))
        (sendNack p k next reason (modRx k (fun x => { x with ce := x.ce || f.ce }) d)))))

/-- The sending half: an ACK takes what CUM_SEQ covers and marks what SACK_MAP reports, ends a hold, and a NACK for a
closed path holds the stream (R273, R277). -/
def Sys2Proof.Claims.AcknowledgementsAreTaken : Prop :=
  ∀ (p : Nat) (f : Frame) (k : StreamId) (s : Send) (d : Dev),
    let t := txOf k d
    let a := txOf k (receiveAck k p f d)
    (t.broken = false → seqLe f.seq.toNat ((t.next + 2 ^ 32 - 1) % 2 ^ 32) = true →
      a.cum = f.seq.toNat ∧ a.held = false ∧ a.next = t.next
        ∧ a.unacked.map (·.seq) = (t.unacked.map (·.seq)).filter (fun n => !seqLe n f.seq.toNat)
        ∧ ∀ o ∈ a.unacked, sacked f o.seq = true → o.sacked = true)
    ∧ (f.ece = false → f.remoteAddr = 5 → sendOfSeq k f.seq.toNat d = some s →
      receiveNack k p f d = holdStream k p d ∧ (txOf k (holdStream k p d)).held = true
        ∧ (txOf k (holdStream k p d)).unacked = t.unacked)

/-- The receiving and the sending half of a stream. -/
def Obligations.StreamHalvesKeepOrder : Prop :=
  Claims.ReceiveQueuesAreServed ∧ Claims.SequencedPacketsAreJudged ∧ Claims.AcknowledgementsAreTaken

/-- SEND starts a send that stays BUSY, and each PACKET_SEND takes the stream's oldest send one packet further: the packet
takes the next sequence number, waits for its acknowledgement and goes to the transmit queue of the eligible plane with the most
room (R263, R264, R265, R266, R294). -/
def Sys2Proof.Claims.SendsComplete : Prop :=
  ∀ (p : Nat) (k : StreamId) (x : Send) (s : State), s.on → (∀ y ∈ s.dev.net.sends, y.ended = none) →
    let d := s.dev
    let h := hostSendOf p d
    let t := txOf k d
    (mayCommand (pNi p) d = true → stateOf (pNi p) d = .active → judgeSend h d = .done → h.chunk = false →
        h.length ≠ 0 →
      Gives s (exec (.send p) s) (modTx h.stream (fun t => { t with used := true })
        (modNet (fun n => { n with sends := n.sends ++ [{ h with num := n.nextSend }], nextSend := n.nextSend + 1 })
          (putPage (pNi p) ((pageOf (pNi p) d).started 0x40 0) d))))
    ∧ (∀ errors, Gives s (exec (.packetSend ⟨k, errors⟩) s) (settleAll (sendPacket k (meetStaging k.side errors d))))
    ∧ (oldestSend k d = some x → t.held = false → t.broken = false → t.unacked.length < 1024 → t.paceAt ≤ d.now →
        x.chunk = false → x.type = 1 → sourceHeld x x.sent d = false →
        nextPlane t.lastPlane true (eligible k.side x.planes true d) d = some p →
        packetCells ≤ creditOf k.side (txQueue p true) d → (txOf k (startRate k d)).rate ≠ some 0 →
      Does s (exec (.packetSend ⟨k, []⟩) s) (fun e =>
        (txOf k e).next = (t.next + 1) % 2 ^ 32 ∧ (txOf k e).lastPlane = p
          ∧ (txOf k e).unacked = t.unacked ++ [⟨t.next, x.num, x.sent, false, 0, p, d.now, 0, false, none⟩]
          ∧ e.net.sends.map (·.sent) = d.net.sends.map (fun y => if y.num = x.num then y.sent + 1 else y.sent)
          ∧ ∃ r, packetRecords k.side (txQueue p true) e = packetRecords k.side (txQueue p true) d ++ [r]
            ∧ r.send = some x.num ∧ r.frame.seq = BitVec.ofNat 32 t.next))
    ∧ (oldestSend k d = none → Gives s (exec (.packetSend ⟨k, []⟩) s) d)

/-- Timers of the transport: a delayed ACK leaves, a gap is named in a NACK, the lowest packet that no ACK has reported is
sent again and counted as a timeout, a held stream probes with its oldest packet, a stream that no ACK reaches breaks, and an
interval without ECE raises the rate up to the cap (R275, R276, R277, R278, R283). -/
def Sys2Proof.Claims.TransportTimersComplete : Prop :=
  ∀ (k : StreamId) (o : OutPkt) (x : Send) (p r : Nat) (s : State), s.on →
    let d := s.dev
    let t := txOf k d
    let rx := rxOf k d
    let limit := fun off lo hi => 1000 * clampReg lo hi (rd (rNi 0 off) d)
    let q := txQueue rx.plane false
    (∀ t0, rx.firstAt = some t0 → t0 + limit 0x98 1 1000 ≤ d.now → Gives s (exec (.ackDelay k) s) (sendAck k d))
    ∧ (inState (pPort rx.plane) [.off, .retired] d = false → (poolOf (rx.plane / 24) d).waiting = [] →
        packetCells ≤ creditOf (rx.plane / 24) q d →
      (rxOf k (sendAck k d)).sinceAck = 0 ∧ (rxOf k (sendAck k d)).ce = false ∧ (rxOf k (sendAck k d)).cum = rx.cum
        ∧ ∃ y, packetRecords (rx.plane / 24) q (sendAck k d) = packetRecords (rx.plane / 24) q d ++ [y]
          ∧ y.frame.type = 2 ∧ y.frame.seq = BitVec.ofNat 32 rx.cum ∧ y.frame.ece = rx.ce)
    ∧ (rx.pkts.any (fun y => decide (y.at_ + limit 0x90 1 1000 ≤ d.now)) = true → rx.lastNack = none →
      Gives s (exec (.nackDelay k) s) (modRx k (fun x => { x with lastNack := some ((rx.cum + 1) % 2 ^ 32, d.now) })
        (sendNack rx.plane k ((rx.cum + 1) % 2 ^ 32) 0 d)))
    ∧ (rx.lastNack = none → timedOut k d = [o] → t.unacked.find? (fun y => y.seq == o.seq) = some o →
        findSend o.send d = some x → sourceHeld x o.index d = false →
        nextPlane t.lastPlane (isData x.type) (eligible k.side x.planes (isData x.type) d) d = some p →
        packetCells ≤ creditOf k.side (txQueue p (isData x.type)) d →
      Gives s (exec (.retxTimeout k) s) (bump (rNi p 0x13C) (resend k o.seq none d)))
    ∧ (t.held = true → t.probeAt + limit 0xA4 10 100000 ≤ d.now → t.unacked = o :: t.unacked.tail →
      Gives s (exec (.holdProbe k) s) (resend k o.seq none (modTx k (fun y => { y with probeAt := d.now }) d)))
    ∧ (t.broken = false → (lowestUnreported k d).or t.unacked.head? = some o →
        o.firstAt + 1000000 * clampReg 1 60000 (rd (rNi 0 0x8C) d) ≤ d.now →
      Gives s (exec (.streamGiveup k) s)
        (abortOnStream k (settleAll (raise (pNi t.lastPlane) 16 (breakStream k d)))))
    ∧ (t.rate = some r → t.riseAt + 1000 * fieldOf (rd (rNi 0 0x9C) d) 23 16 ≤ d.now → oldestSend k d = none →
      Does s (exec (.rateRise k) s) (fun e => (txOf k e).rate
        = some (min (if t.eceSeen then r else r + 2 ^ 16 * fieldOf (rd (rNi 0 0x9C) d) 31 24) t.cap)
          ∧ (txOf k e).eceSeen = false ∧ (txOf k e).riseAt = d.now))
    ∧ (t.rate = some r → t.riseAt + 1000 * fieldOf (rd (rNi 0 0x9C) d) 23 16 ≤ d.now → oldestSend k d = some x →
      Does s (exec (.rateRise k) s) (fun e => (txOf k e).rate
        = some (min (if t.eceSeen then r else r + 2 ^ 16 * fieldOf (rd (rNi 0 0x9C) d) 31 24)
          (2 ^ 16 * (800 * (capPlanes k.side x.planes d).length)))))

/-- A broken stream keeps nothing in flight, and each of its sends ends FAILED with DETAIL PEER_LOST; a retransmission keeps its
sequence number, goes to the transmit queue of the plane chosen, and is counted there as it leaves (R266, R276, R278, R289). -/
def Sys2Proof.Claims.StreamsBreakAndResend : Prop :=
  ∀ (k : StreamId) (o : OutPkt) (x : Send) (p : Nat) (f : Frame) (d : Dev),
    let t := txOf k d
    let e := resend k o.seq none d
    let q := txQueue p (isData x.type)
    ((txOf k (breakStream k d)).broken = true ∧ (txOf k (breakStream k d)).unacked = []
      ∧ ∀ y ∈ (breakStream k d).net.sends, y.stream = k → y.ended.isSome = true)
    ∧ (t.unacked.find? (fun y => y.seq == o.seq) = some o → findSend o.send d = some x → sourceHeld x o.index d = false →
        nextPlane t.lastPlane (isData x.type) (eligible k.side x.planes (isData x.type) d) d = some p →
        packetCells ≤ creditOf k.side q d →
      (txOf k e).unacked.map (·.seq) = t.unacked.map (·.seq) ∧ (txOf k e).lastPlane = p ∧ (txOf k e).next = t.next
        ∧ ∃ y, packetRecords k.side q e = packetRecords k.side q d ++ [y] ∧ y.send = some x.num
          ∧ y.frame.seq = BitVec.ofNat 32 o.seq ∧ y.frame.retransmission = true)
    ∧ (f.retransmission = true → p < 48 → rd (rNi p 0x138) (emit p f d) = min m32 (rd (rNi p 0x138) d + 1))

/-- Timers of the transport, and what loss leads to. -/
def Obligations.TransportTimersAndLossComplete : Prop :=
  Claims.TransportTimersComplete ∧ Claims.StreamsBreakAndResend

/-- Receive windows open where nothing overlaps and close again, and the two query registers select what their neighbours
show (R269, R289). -/
def Sys2Proof.Claims.WindowsAndQueriesComplete : Prop :=
  ∀ (p arg : Nat) (v : Word) (s : State), s.on →
    let d := s.dev
    let g := pageOf (pNi p) d
    let base := rd64 (rNi p 0xB0) d
    let n := rd64 (rNi p 0xB8) d
    (mayCommand (pNi p) d = true → g.state = .active → windowOpen (arg % 256) d = false →
        ctxOpen (rd (rNi p 0xC0) d) d = true → n ≠ 0 → windowFits base n d = true →
        d.net.windows.any (fun e => overlaps base n e.2.base e.2.length) = false →
      Reaches s (exec (.openWindow p arg) s) (putPage (pNi p) (g.ended 0x41 .done) (modNet (fun t => { t with
        windows := t.windows.set (arg % 256) ⟨rd (rNi p 0xC0) d, base, n⟩ }) d)))
    ∧ (mayCommand (pNi p) d = true → g.state = .active → windowOpen (arg % 256) d = false →
        ctxOpen (rd (rNi p 0xC0) d) d = true → n ≠ 0 →
        d.net.windows.any (fun e => overlaps base n e.2.base e.2.length) = true →
      Reaches s (exec (.openWindow p arg) s) (putPage (pNi p) ({ g with
        seq := (g.seq + 1) % 65536, lastCmd := 0x41, result := .rejectedRange }.erred (2 ^ 12 * 2 + 2 ^ 8 * 5 + 0x41)) d))
    ∧ (mayCommand (pNi p) d = true → g.state = .active → windowOpen (arg % 256) d = true →
      Reaches s (exec (.closeWindow p arg) s) (putPage (pNi p) (g.ended 0x42 .done)
        (modNet (fun t => { t with windows := t.windows.drop (· == arg % 256) }) d)))
    ∧ (pageSilent (pNi p) d = false → g.negotiated = true →
      Gives s (exec (.winQuery p v) s) (wr (rNi p 0xC4) (v.toNat % 256) d)
        ∧ Gives s (exec (.streamQuery p v) s) (wr (rNi p 0x180) (v.toNat % 2 ^ 14) d))

/-- Sends and receive windows. -/
def Obligations.SendsAndWindowsComplete : Prop :=
  Claims.SendsComplete ∧ Claims.WindowsAndQueriesComplete

/-! ### Port queues and the chunk check (10_port_queues_and_chunk_check.md) -/

/-- Queue pools: FLUSH drops a queue's records, APPLY_RESERVES puts the RESERVE registers into effect, INJECT_CTRL arms an
injection, a lost link is counted and reported and leaves its queue's credit, and reclaiming gives the cells back (R294 to
R298, R310, R311). -/
def Sys2Proof.Claims.QueuePoolsComplete : Prop :=
  ∀ (side arg q : Nat) (v : Word) (s : State), s.on →
    let d := s.dev
    let g := pageOf (pPool side) d
    (mayCommand (pPool side) d = true → inState (pPool side) [.ready, .active] d = true → arg % 128 ≤ 119 →
      Gives s (exec (.flush side arg) s)
        (endCmd (pPool side) true (flushQueue side (arg % 128) (putPage (pPool side) (g.started 0x40 arg) d)))
      ∧ (arg % 128 < 96 → (poolOf side d).waiting = [] →
        Reaches s (exec (.flush side arg) s) (putPage (pPool side) (g.ended 0x40 .done) (putRecords side (arg % 128) [] d))))
    ∧ (mayCommand (pPool side) d = true → g.state = .ready → (reserveRegs side d).foldl (· + ·) 0 ≤ 262144 →
        (∀ n ∈ reserveRegs side d, n ≠ 0) →
      Does s (exec (.applyReserves side) s) (fun e => answers (pPool side) 0x41 .done d e
        ∧ ∀ n < 120, reserveOf side n e = rd (rQueueBlock side n 4) d))
    ∧ (mayCommand (pPool side) d = true → g.state = .ready → 0 ∈ reserveRegs side d →
      Reaches s (exec (.applyReserves side) s) (putPage (pPool side) ({ g with
        seq := (g.seq + 1) % 65536, lastCmd := 0x41, result := .rejectedRange }.erred (2 ^ 12 * 2 + 2 ^ 8 * 4 + 0x41)) d))
    ∧ (pageSilent (pPool side) d = false → g.negotiated = true →
      Does s (exec (.poolInject side v) s) (fun e =>
        rd (rPool side 0 0x50) e % 8 = v.toNat % 8 ∧ fieldOf (rd (rPool side 0 0x50) e) 22 16 = fieldOf v.toNat 22 16
          ∧ bitOf (rd (rPool side 0 0x50) e) 31 = (v.getLsbD 31 || bitOf (rd (rPool side 0 0x50) d) 31)))
    ∧ (pageSilent (pPool side) d = false → q < 96 → ∀ error, judgeWord false error = .uncorrectable →
      Does s (exec (.queueLinkLost side ⟨q, error⟩) s) (fun e =>
        rd (rPool side 0 0x4C) e = min m32 (rd (rPool side 0 0x4C) d + 1) ∧ packetRecords side q e = []
        ∧ creditOf side q e = creditOf side q d ∧ (pageOf (pPool side) e).events.getLsbD 18 = true))
    ∧ (∀ b < 144, Gives s (exec (.queueLinkLost side ⟨q, (BitVec.ofNat 144 (2 ^ b))⟩) s) d)
    ∧ (side < 2 → q < 96 → (poolOf side d).waiting = [] →
      Does s (exec (.cellReclaim side q) s) (fun e =>
        creditOf side q e = reserveOf side q d - depthOf side q d ∧ e.pages = d.pages ∧ e.regs = d.regs))

/-- Cells that are linked to a queue have a word's parity struck, once, where an injection is armed for that queue; the injection is
spent, and the consumer counts and discards a record that it reads so (R296, R310). -/
def Sys2Proof.Claims.InjectionsAreSpent : Prop :=
  ∀ (side q : Nat) (cells : List PoolCell) (d : Dev), q < 120 → fieldOf (rd (rPool side 0 0x50) d) 22 16 = q →
    let armed := bitOf (rd (rPool side 0 0x50) d) 31
    let y := linkCells side q cells d
    y.2 = (if armed then flipParity (rd (rPool side 0 0x50) d % 8) cells else cells)
      ∧ bitOf (rd (rPool side 0 0x50) y.1) 31 = false
      ∧ (∀ c : PoolCell, ∀ w < 8, c.words.length = 8 → c.parity.length = 8 → badCell c = false →
        (flipParity w [c]).any badCell = true)
      ∧ (∀ (r : PktRec) (rest : List PktRec), packetRecords side q d = r :: rest → r.cells.any badCell = true →
        rd (rPool side 0 0x48) (consumeRx side q d) = min m32 (rd (rPool side 0 0x48) d + 1)
          ∧ packetRecords side q (consumeRx side q d) = rest)

/-- Queue pools and injected errors. -/
def Obligations.PoolsComplete : Prop :=
  Claims.QueuePoolsComplete ∧ Claims.InjectionsAreSpent

/-- Halves of chunk slots: SET_HALF opens one with the loaded values where they are in range, and CLEAR_HALF closes one, a
receive half that was open with result ABANDONED (R309, R313). -/
def Sys2Proof.Claims.HalvesComplete : Prop :=
  ∀ (r arg : Nat) (s : State), s.on → mayCommand (pChk r) s.dev = true → stateOf (pChk r) s.dev = .active →
    let d := s.dev
    let g := pageOf (pChk r) d
    let h := 4 * r + arg % 4
    let c := checkRx h d
    (halfOpen r arg d = false → halfInRange r arg d = true → bitOf arg 2 = false →
      Reaches s (exec (.setHalf r arg) s) (putPage (pChk r) (g.ended 0x40 .done) (putCheckTx h
        ⟨true, rd (rChk r 0x40) d, rd (rChk r 0x44) d, BitVec.ofNat 64 (rd64 (rChk r 0x48) d), none⟩ d)))
    ∧ (halfOpen r arg d = false → halfInRange r arg d = true → bitOf arg 2 = true →
      Does s (exec (.setHalf r arg) s) (fun e => (checkRx h e).open_ = true
        ∧ (checkRx h e).chunkId = rd (rChk r 0x40) d ∧ (checkRx h e).bytes = rd (rChk r 0x44) d
        ∧ (checkRx h e).base = rd64 (rChk r 0x50) d ∧ (checkRx h e).poisoned = false ∧ answers (pChk r) 0x40 .done d e))
    ∧ (halfOpen r arg d = true →
      Reaches s (exec (.setHalf r arg) s) (putPage (pChk r) ({ g with
        seq := (g.seq + 1) % 65536, lastCmd := 0x40, result := .rejectedState }.erred (2 ^ 12 + 2 ^ 8 * 5 + 0x40)) d))
    ∧ (bitOf arg 2 = true →
      Reaches s (exec (.clearHalf r arg) s) (putPage (pChk r) (g.ended 0x41 .done)
        (putCheckRx h { c with open_ := false, result := if c.open_ then 5 else c.result } d)))
    ∧ (bitOf arg 2 = false →
      Reaches s (exec (.clearHalf r arg) s) (putPage (pChk r) (g.ended 0x41 .done)
        (putCheckTx h { checkTx h d with open_ := false } d)))

/-- Counters and belay entries: a write of a counter that nothing watches stores it, ARM_ENTRY arms an entry with REPEAT
firings to come, DISARM_ENTRY makes it idle, and an armed entry whose counter has reached its threshold fires once, steps its
threshold and is DONE after its last firing (R314, R317, R318, R320). -/
def Sys2Proof.Claims.BelayCompletes : Prop :=
  ∀ (side c arg n : Nat) (v : Word) (l : List Nat) (s : State), s.on →
    let d := s.dev
    let e := arg % 1024
    let g := pageOf (pBelay side) d
    let b := belayOf side e d
    (c < 512 → pageSilent (pCounters side) d = false → (pageOf (pCounters side) d).negotiated = true → d.net.belay = [] →
        d.net.rings = [] →
      Gives s (exec (.counterWrite side c v) s) (wr (rCounter side c) v.toNat d))
    ∧ (mayCommand (pBelay side) d = true → g.state = .active → b.state ≠ .armed → entryRing (rd (rBelay side e 0) d) = 0x3F →
        entryOp (rd (rBelay side e 0) d) = 0 → ctxOpen (fieldOf (rd (rBelay side e 0) d) 21 19) d = true →
        reached (counterOf side (rd (rBelay side e 8) d) d) (BitVec.ofNat 32 (rd (rBelay side e 0x0C) d)) = false →
      Reaches s (exec (.armEntry side arg) s)
        (putPage (pBelay side) (g.ended 0x40 .done) (putBelay side e (armedCopy side e d) d)))
    ∧ (mayCommand (pBelay side) d = true → inState (pBelay side) [.ready, .active] d = true →
        inRunningPass side e d = false →
      Reaches s (exec (.disarmEntry side arg) s)
        (putPage (pBelay side) (g.ended 0x41 .done) (putBelay side e { b with state := .idle } d)))
    ∧ (b.state = .armed → reached (counterOf side b.trigger d) b.work = true → entryOp b.ctrl = 0 → 48 ≤ entryRing b.ctrl →
        b.fired + 1 = b.repeat_ →
      fireEntry (n + 1) side e (d, l) = (putBelay side e { b with work := b.work + b.step, fired := b.fired + 1, state := .done } d,
        l ++ if bitOf b.done 31 then [b.done % 512] else []))
    ∧ (b.state = .armed → reached (counterOf side b.trigger d) b.work = false → fireEntry n side e (d, l) = (d, l))

/-- Halves of chunk slots, counters and belay entries. -/
def Obligations.ChecksAndEntriesComplete : Prop :=
  Claims.HalvesComplete ∧ Claims.BelayCompletes

/-! ### Rings (11_ring_collectives.md) -/

/-- Ring ops that hold what they need: a SEND begins its chunk send, a REDUCE_SEND combines the oldest arrival with the
member's own chunk and stores it, a COPY stores the arrival, a SIGNAL gives its chunk signal and ends, and a taking op that has
ended frees its buffer with a CREDIT (R319, R324, R326, R328, R329, R330). -/
def Obligations.RingOpsComplete : Prop :=
  ∀ (r : Nat) (p : Pass) (o : RingOp) (a : ChunkArrival) (w : Work) (t : Nat) (s : State), s.on →
    let d := s.dev
    let st := ringSt r d
    let loc := chunkAddr p o.piece o.chunk
    let buf := bufferAddr p a.transfer
    let len := chunkLength p o.chunk
    st.pass = some p → isRunning r d = true → d.net.sends = [] → memClean d →
    d.memPoison = [] → noPlans d = true →
    d.net.stagePoison = [] →
    (st.work = [] → st.ops = [o] → o.op = 1 → o.moved = false → hasPack o = false → o.transfer = some t →
        o.arrival = none → o.sendNum = none → stateOf (pNi r) d ≠ .quiesced → t < rd (rRing r 0xD4) d + p.inFlight →
        judgeSend (opSend r p o t loc) d = .done → (checkTx (slotOf (chunkIdOf r p t)) d).open_ = false →
      Does s (exec (.sendOp r) s) (fun e => (ringSt r e).ops.map (·.sendNum) = [some d.net.nextSend]
        ∧ e.net.sends = [{ opSend r p o t loc with num := d.net.nextSend }]))
    ∧ (st.work = [] → st.ops = [o] → o.op = 2 → o.moved = false → o.transfer = none → hasStore o = true →
        hasSignal o = false → st.arrivals = [a] → a.result = 0 → unitsUsable (sideOf r) d ≠ [] → 2 ^ 63 ≤ buf → loc < 2 ^ 63 →
        netHeld loc len false d = false → netHeld loc len true d = false → (linesIn loc len).any (fun l => lineLost l d) = false →
      Does s (exec (.reduceSend ⟨r, []⟩) s) (fun e => (ringSt r e).arrivals = []
        ∧ (∃ u ∈ unitsUsable (sideOf r) d,
          (ringSt r e).ops = [{ o with arrival := some a, moved := true, poisoned := false, unit_ := some u }])
        ∧ rd (rRing r 0xCC) e = (rd (rRing r 0xCC) d + 1) % 2 ^ 32
        ∧ e.mem = (memWrite loc (reduceChunk p (d.net.staging.read (buf - 2 ^ 63) len) (memBytes loc len d)).1 [] d).mem))
    ∧ (st.work = [] → st.ops = [o] → o.op = 3 → o.moved = false → o.transfer = none → hasStore o = true →
        hasSignal o = false → st.arrivals = [a] → a.result = 0 → 2 ^ 63 ≤ buf → netHeld loc len true d = false →
        (linesIn loc len).any (fun l => lineLost l d) = false →
      Does s (exec (.copyOp ⟨r, []⟩) s) (fun e => (ringSt r e).arrivals = []
        ∧ (ringSt r e).ops = [{ o with arrival := some a, moved := true, poisoned := false, unit_ := none }]
        ∧ e.mem = (memWrite loc (d.net.staging.read (buf - 2 ^ 63) len) [] d).mem))
    ∧ (st.work = [w] → st.ops = [] → st.waiting = [] → w.cells.any badCell = false → st.gated = false → 0 < p.inFlight →
        stateOf (pRing r) d = .active → entryOp (belayOf (sideOf r) w.entry d).ctrl = 4 →
        bitOf (belayOf (sideOf r) w.entry d).done 31 = false → bitOf p.signalCore 31 = false →
        bitOf p.signalUpdate 31 = false →
      Does s (exec (.signalOp r) s) (fun e => (ringSt r e).work = [] ∧ (ringSt r e).ops = []
        ∧ rd (rRing r 0xD8) e = (rd (rRing r 0xD8) d + 1) % 2 ^ 32 ∧ (pageOf (pRing r) e).events.getLsbD 17 = true))
    ∧ (st.ops = [o] → o.moved = true → o.transfer = none → o.arrival = some a →
        bitOf (belayOf (sideOf r) o.entry d).done 31 = false →
      Does s (exec (.opEnd r o.num) s) (fun e => (ringSt r e).ops = [] ∧ (ringSt r e).freed = st.freed + 1
        ∧ e.net.sends.map (fun x => (x.type, x.stream, x.notice))
          = [(4, ⟨sideOf r, p.channel, p.prev⟩, BitVec.ofNat 32 (st.freed + 1))]))

/-- Passes: a LAUNCH with nothing to do ends DONE, one with work arms its entries, ABORT ends an idle pass ABORTED with a
notice, ACKNOWLEDGE makes the ring READY again, a pass whose work is over ends, and a pass without progress for STEP_TIMEOUT
aborts with that reason (R6, R331, R333, R335, R338, R339). -/
def Obligations.PassesComplete : Prop :=
  ∀ (r : Nat) (p : Pass) (s : State), s.on →
    let d := s.dev
    let g := pageOf (pRing r) d
    let st := ringSt r d
    let n := readPass r d
    (mayCommand (pRing r) d = true → launchLegal r n d = true → launchInRange r n d = true → n.pieceSize = 0 ∨ n.count = 0 →
      Does s (exec (.launch r) s) (fun e => (ringSt r e).pass = some n ∧ (ringSt r e).result = 2
        ∧ (ringSt r e).launched = (st.launched + 1) % 65536 ∧ stateOf (pRing r) e = .active
        ∧ answers (pRing r) 0x40 .done d e))
    ∧ (mayCommand (pRing r) d = true → launchLegal r n d = true → launchInRange r n d = true → n.pieceSize ≠ 0 →
        n.count = 1 → rd (rBelay (sideOf r) n.first 0x14) d ≠ 0 →
        reached (counterOf (sideOf r) (rd (rBelay (sideOf r) n.first 8) d) d)
          (BitVec.ofNat 32 (rd (rBelay (sideOf r) n.first 0x0C) d)) = false →
      Does s (exec (.launch r) s) (fun e => (ringSt r e).pass = some n ∧ (ringSt r e).result = 1
        ∧ (belayOf (sideOf r) n.first e).state = .armed ∧ stateOf (pRing r) e = .active
        ∧ answers (pRing r) 0x40 .done d e))
    ∧ (mayCommand (pRing r) d = true → launchLegal r n d = true → launchInRange r n d = false →
      Reaches s (exec (.launch r) s) (putPage (pRing r) ({ g with
        seq := (g.seq + 1) % 65536, lastCmd := 0x40, result := .rejectedRange }.erred (2 ^ 12 * 2 + 2 ^ 8 * 4 + 0x40)) d))
    ∧ (mayCommand (pRing r) d = true → g.state = .active → st.pass = some p → isRunning r d = true → st.ops = [] →
        d.net.sends = [] →
      Does s (exec (.abort r) s) (fun e => (ringSt r e).result = 4 ∧ (ringSt r e).reason = 2 ∧ (ringSt r e).work = []
        ∧ e.net.sends.map (fun x => (x.type, x.stream, x.origin)) = [(5, ⟨sideOf r, p.channel, p.next⟩, .abort r)]
        ∧ answers (pRing r) 0x41 .done d e))
    ∧ (mayCommand (pRing r) d = true → g.state = .active → st.result ≠ 1 →
      Does s (exec (.acknowledge r) s) (fun e => (ringSt r e).result = 0 ∧ (ringSt r e).arrivals = []
        ∧ rd (rRing r 0xC8) e = 0 ∧ rd (rRing r 0xCC) e = 0 ∧ stateOf (pRing r) e = .ready
        ∧ answers (pRing r) 0x42 .done d e))
    ∧ (st.pass = some p → passOver r p d = true →
      Does s (exec (.passEnd r) s) (fun e => (ringSt r e).result = (if rd (rRing r 0xE4) d = 0 then 2 else 3)
        ∧ (pageOf (pRing r) e).events.getLsbD 16 = true))
    ∧ (st.pass = some p → isRunning r d = true → st.begun = true → g.state = .active → g.cmd = none → st.ops = [] →
        d.net.sends = [] → 1000000 * clampReg 1 60000 (rd (rRing r 0x7C) d) < st.timer →
      Does s (exec (.stepTimeout r) s) (fun e => (ringSt r e).result = 4 ∧ (ringSt r e).reason = 1
        ∧ (pageOf (pRing r) e).events.getLsbD 19 = true))

/-! ### Input power, the ROM and bring-up (12_bring_up_and_floor_plan.md, 17_module_and_pins.md) -/

/-- Input power: POWER_ON starts the module with every state but fuses and flash at its power-on value, a dip is ridden through,
and a loss or an overvoltage takes all rails (R349, R493, R496). -/
def Sys2Proof.Claims.InputPowerCompletes : Prop :=
  ∀ (pins : PinLevels) (s : State),
    let lost := fun t : State => t.pending = s.pending ∧ t.fuses = s.fuses ∧ t.mlog = [] ∧ t.dev.flash = s.dev.flash
      ∧ t.dev.boot.phase = .unpowered ∧ t.dev.pages = [] ∧ t.dev.regs = [] ∧ t.dev.mem = [] ∧ t.dev.sram = []
    (s.dev.boot.phase = .unpowered → ∃ t, exec (.powerOn pins) s = .next t ∧ t.pending = s.pending ∧ t.fuses = s.fuses
      ∧ t.mlog = [] ∧ t.dev.boot.phase = .waiting ∧ t.dev.flash = { s.dev.flash with powerOns := s.dev.flash.powerOns + 1 }
      ∧ t.dev.pages = [] ∧ t.dev.regs = [] ∧ t.dev.mem = [] ∧ t.dev.always.cause = 0x00020000 ∧ t.dev.reset.level = some 2
      ∧ t.dev.reset.driving = true ∧ t.dev.pins.slotId = pins.slotId ∧ t.dev.coolant.ok = pins.coolantOk)
    ∧ (s.on → exec (.powerOn pins) s = .next s)
    ∧ exec .inputDip s = .next s
    ∧ (∃ t, exec .powerLoss s = .next t ∧ lost t)
    ∧ ∃ t, exec .overvoltage s = .next t ∧ lost t

/-- The ROM: with a set that verifies and a complex that passed, control firmware starts on the lead and the BOOT entries are
logged; with none that verifies the module stays in bivouac; a pin that the tray holds delays the start (R350, R351, R422, R479,
R480). -/
def Sys2Proof.Claims.RomStartCompletes : Prop :=
  ∀ (r : RomResults) (lead : Nat) (s : State), s.on →
    let d := s.dev
    (romReady d = true → romWaits d = false → d.reset.level = some 2 → s.fuses.variant = 0 → s.fuses.manufacture = [] →
        r.variantFuseOk = true → r.failedFuseUnits = [] → r.cairnOk = true → r.trimOk = true → r.activeVerifies = true →
        (latestCommit d.flash).state ≠ 1 → d.flash.cairn = [] → d.flash.formats = [] → d.coolant.ok = true →
        (atPowerOn d = true → d.pins.bivouacN = true) → chooseLead r (romPrepare r s.fuses d) = some lead →
      ∃ t, exec (.romStart r) s = .next t ∧ t.pending = s.pending ∧ t.fuses = s.fuses ∧ t.mlog = bootLog d.flash d.now
        ∧ t.dev.boot.phase = .running ∧ t.dev.always.leadSelect = some lead ∧ stateOf (pComplex lead) t.dev = .active
        ∧ (complexOf lead t.dev).role = .lead ∧ stateOf pModule t.dev = .testing ∧ t.dev.pins.powerGood = true
        ∧ t.dev.reset.phase = .starting)
    ∧ (romReady d = true → romWaits d = false → r.activeVerifies = false → r.stagingVerifies = false →
        chooseLead r (romPrepare r s.fuses d) = some lead →
      ∃ t, exec (.romStart r) s = .next t ∧ t.pending = s.pending ∧ t.fuses = s.fuses ∧ t.mlog = []
        ∧ t.dev.boot.phase = .bivouac ∧ t.dev.reset.level = none ∧ t.dev.pins.alert = true)
    ∧ (romReady d = true → romWaits d = true → Gives s (exec (.romStart r) s) (releaseOnly d))

/-- Input power and the ROM. -/
def Obligations.PowerOnAndRomComplete : Prop :=
  Claims.InputPowerCompletes ∧ Claims.RomStartCompletes

/-- Bring-up: a die controller that is released tests its die, one that fails leaves its units OFF; a run that ends counts and
decides its unit; the mesh test ends once with the units that passed READY; waves of cores begin in order; and a unit may be
retired within a session (R349, R353, R354, R356, R358, R361, R367). -/
def Sys2Proof.Claims.BringUpCompletes : Prop :=
  ∀ (i u w n : Nat) (c : Cause) (detours : Detours) (cut : List Nat) (s : State), s.on → s.dev.unrun = [] →
    let d := s.dev
    (i < 10 → bringsUp d = true → d.always.hardTrip = false → awaits (uDie i) d = true →
      Gives s (exec (.dieControllerRelease i true) s) (settleStart (startDie i (stepUnit (uDie i) .testing
        (wr (rDie i 0 0x44) (putField (rd (rDie i 0 0x44) d) 3 0 3) d))))
      ∧ Gives s (exec (.dieControllerRelease i false) s) (settleStart (orphanDie i (failUnit (uDie i) .testFailed d))))
    ∧ (hasRun u = true → runMayEnd u d = true → starting u .testing d = true → d.boot.retesting = [] →
      Gives s (exec (.knownAnswerRunEnd u ⟨true, n⟩) s)
        (settleStart (settleWaves (passRun u (countRun u true (countRunErrors u n d)))))
      ∧ Gives s (exec (.knownAnswerRunEnd u ⟨false, n⟩) s)
        (settleStart (settleWaves (failRun u (countRun u false (countRunErrors u n d))))))
    ∧ (meshTestRuns d = true →
      Does s (exec (.meshTestEnd ⟨[], []⟩ [] []) s) (fun e => e.boot.meshTested = true
        ∧ ∀ k < 2560, starting (uRouter k) .testing d = true → unitState (uRouter k) e = .ready))
    ∧ (bringsUp d = true → d.reset.phase = .starting → d.boot.meshTested = true → d.boot.complete = false → i < 8 → w < 5 →
        d.boot.waves.get 0 i = w → inState ⟨.dieController, i⟩ [.off, .retired] d = false →
      Does s (exec (.coreWave i w) s) (fun e => e.boot.waves.get 0 i = w + 1))
    ∧ (firmwareRuns d = true → d.lead.safe = false → unitExists u = true → usable u d = true →
        d.always.leadSelect.map uComplex ≠ some u →
      Gives s (exec (.inSessionRetirement u c detours cut) s) (settleStart (settleWaves (retireAll [(u, c)] (some ⟨detours, cut⟩) d))))

/-- What a run leaves: a unit that fails at bring-up is OFF, flagged and in the cairn record; every run is counted on its die, a
failed one twice; and a retest that passes makes its page READY and ends the command DONE (R37, R358, R361, R371). -/
def Sys2Proof.Claims.RunsLeaveTheirMark : Prop :=
  ∀ (u c : Nat) (cause : Cause) (passed : Bool) (d : Dev),
    (d.flash.cairn.length < 16384 →
      unitState u (failUnit u cause d) = .off ∧ unitCause u (failUnit u cause d) = cause
        ∧ (unitFlags u (failUnit u cause d)).failedAtStart = true ∧ inCairn u (failUnit u cause d) = true)
    ∧ (rd (rDie (dieOfUnit u) 0 0x48) (countRun u passed d) = (rd (rDie (dieOfUnit u) 0 0x48) d + 1) % 2 ^ 32
      ∧ rd (rDie (dieOfUnit u) 0 0x4C) (countRun u passed d)
        = (rd (rDie (dieOfUnit u) 0 0x4C) d + b2n (!passed)) % 2 ^ 32)
    ∧ ((engOf c d).plans = [] → (pageOf (pUpd c) d).holds = [] → inProgress (pUpd c) 3 d = true →
      stateOf (pUpd c) (endRetest (uEngine c) (pUpd c) true d) = .ready
        ∧ (pageOf (pUpd c) (endRetest (uEngine c) (pUpd c) true d)).result = .done
        ∧ (pageOf (pUpd c) (endRetest (uEngine c) (pUpd c) true d)).cmd = none)

/-- Bring-up and the runs that it consists of. -/
def Obligations.StartCompletes : Prop :=
  Claims.BringUpCompletes ∧ Claims.RunsLeaveTheirMark

/-! ### Pace, power, heat and coolant (13_pace_power_thermal.md) -/

/-- A period of the power loop sets the estimate, the power level, the envelope and the pace levels from the activity and the
bounds in force, and the hold of the afterglow floor lapses (R377, R382, R383, R385, R387, R388). -/
def Sys2Proof.Claims.PowerLoopCompletes : Prop :=
  ∀ (a : Activity) (i : Nat) (s : State), s.on → firmwareRuns s.dev = true →
    let d := s.dev
    let p := d.power
    let own := ownLoad a d
    let plan := planPeriod own (p.envelope.getD own) (nextBarrier d) d
    let est := own + plan.filler
    Does s (exec (.powerPeriod a) s) (fun e => e.power.est = est ∧ e.power.filler = plan.filler
      ∧ e.power.sPower = nextPowerLevel est plan.bound p.sPower
      ∧ e.power.envelope = some (nextEnvelope est plan.bound e.power.sPower (p.envelope.getD own) (16 * p.ceilings.rise)
        (16 * p.ceilings.fall))
      ∧ (i < 160 → supervisorUsable i d = true →
        e.power.sPace.getD i 0 = paceLevel (jobPace d) (a.stepRates.getD i 0)
          ∧ (1000 * (a.stepRates.getD i 0 * (256 - appliedShade i e)) < 995 * 256 * jobPace d ↔ jobPace d ≠ 0
            ∧ (e.power.belowSince.find? (fun x => x.1 == i)).isSome = true))
      ∧ e.power.cycleSum = p.cycleSum + est ∧ e.power.cycleCount = p.cycleCount + 1)
    ∧ (holdPassed d = true →
      Gives s (exec .afterglowMaxHold s) (modPower (fun x => { x with holdEnded := true, floor := 0 }) d))
    ∧ (holdPassed d = false → Gives s (exec .afterglowMaxHold s) d)
    ∧ (∀ t, p.belowSince = [(i, t)] → supervisorUsable i d = true → jobPace d ≠ 0 → 10000000 ≤ d.now - t →
      Does s (exec (.paceBelowJob i) s) (fun e => Reported d e ∧ (pageOf pPower e).events.getLsbD 17 = true))

/-- Targets and operating points: APPLY_TARGETS puts targets in their ranges into force and rejects others, and the change of
an operating point ends with the new point in force (R379, R391, R409). -/
def Sys2Proof.Claims.TargetsComplete : Prop :=
  ∀ (o : Nat) (s : State), s.on →
    let d := s.dev
    let g := pageOf pPower d
    let j := rd (rPower 0x40) d
    let h := rd (rPower 0x44) d
    (mayCommand pPower d = true → g.state = .active → j = 0 ∨ (100 ≤ j ∧ j ≤ 4000) →
        h = 0 ∨ (1000 ≤ h ∧ h ≤ designPower (variantOf d)) →
      Does s (exec .applyTargets s) (fun e => jobPace e = j ∧ hostTarget e = h ∧ answers pPower 0x40 .done d e))
    ∧ (mayCommand pPower d = true → g.state = .active → (0 < j ∧ j < 100) ∨ 4000 < j →
      Reaches s (exec .applyTargets s) (putPage pPower ({ g with
        seq := (g.seq + 1) % 65536, lastCmd := 0x40, result := .rejectedRange }.erred (2 ^ 12 * 2 + 2 ^ 8 * 5 + 0x40)) d))
    ∧ (d.power.opChange = some o →
      Reaches s (exec .opPointChanged s)
        (modPower (fun p => { p with opChange := none, ceilings := { p.ceilings with opPoint := o } }) d))
    ∧ (d.power.opChange = none → Gives s (exec .opPointChanged s) d)

/-- The power loop and its targets. -/
def Obligations.PowerAndTargetsComplete : Prop :=
  Claims.PowerLoopCompletes ∧ Claims.TargetsComplete

/-- Sensors and trims: a plausible reading is kept, one out of range or stale faults its sensor, a spot whose only valid sensor
reads above 105 °C trips the module, sensors that differ are reported as split, a trim grows by one step up to 32, and a shadow
failure is counted (R392, R393, R395, R397, R398, R400, R401). -/
def Obligations.SensorsComplete : Prop :=
  ∀ (n h i : Nat) (reading a b : Int) (s : State), s.on →
    let d := s.dev
    let fresh := fun k => decide (d.now - max (sensorOf k d).convertedAt d.reset.releasedAt < 1000000)
    let other := if n % 2 = 0 then n + 1 else n - 1
    let o := opPoint d
    (n < 88 → fresh n = true → (sensorOf n d).faulted = false → -200 ≤ reading → reading ≤ 950 →
      Does s (exec (.sensorConversion n reading) s) (fun e => (sensorOf n e).reading = some reading
        ∧ (sensorOf n e).faulted = false ∧ e.always.hardTrip = d.always.hardTrip))
    ∧ (n < 88 → reading < -200 ∨ 1400 < reading → fresh other = true → validReading other d = some b → b ≤ 1050 →
      Does s (exec (.sensorConversion n reading) s) (fun e => (sensorOf n e).faulted = true ∧ (sensorOf n e).plausibleSince = none
        ∧ e.always.hardTrip = d.always.hardTrip))
    ∧ (n < 88 → fresh n = true → (sensorOf n d).faulted = false → (sensorOf other d).faulted = true → 1050 < reading → reading ≤ 1400 →
        d.always.hardTrip = false →
      Does s (exec (.sensorConversion n reading) s) (fun e => e.always.hardTrip = true ∧ e.pins.alert = true))
    ∧ (n < 88 → (sensorOf n d).faulted = true → (sensorOf n d).plausibleSince.any (fun t => decide (d.now - t < 100000000)) = true →
        fresh n = true → -200 ≤ reading → reading ≤ 1400 →
      Does s (exec (.sensorConversion n reading) s) (fun e => (sensorOf n e).faulted = true))
    ∧ (n < 88 → fresh n = false → Does s (exec (.sensorFault n) s) (fun e => (sensorOf n e).faulted = true))
    ∧ (n < 88 → fresh n = true → spotTrips (n / 2) d = false → Gives s (exec (.sensorFault n) s) (settleLimit d))
    ∧ (h < 44 → validReading (2 * h) d = some a → validReading (2 * h + 1) d = some b → 60 < (a - b).natAbs →
        (hotSpot h d).split = false → leadWatches d = true →
        (hotSpot h d).apartSince.any (fun t => decide (50000000 < d.now - t)) = true →
      Does s (exec (.sensorSplit h) s) (fun e => (hotSpot h e).split = true
        ∧ (pageOf pPower e).events.getLsbD 19 = true))
    ∧ (i < 160 → supervisorUsable i d = true → trimDue i d = true → trimOf i o d < 32 →
      Does s (exec (.trimChanged i) s) (fun e => trimOf i o e = trimOf i o d + 1
        ∧ rd (rDie (dieOfCluster i) 2 0x200) e = (rd (rDie (dieOfCluster i) 2 0x200) d + 1) % 2 ^ 32
        ∧ (pageOf pPower e).events.getLsbD 24 = true))
    ∧ (i < 160 → supervisorUsable i d = true → trimDue i d = true → 32 ≤ trimOf i o d →
      Gives s (exec (.trimChanged i) s)
        (retireUnit (uSupervisor i) .selfFault (modPower (fun p => { p with trimAt := p.trimAt.set i d.now }) d)))
    ∧ (trimDue i d = false → Gives s (exec (.trimChanged i) s) d)
    ∧ (i < 160 → Gives s (exec (.shadowFailure i) s) (noteShadow i <| bump (rDie (dieOfCluster i) 2 (0x100 + 4 * placeOnDie i)) d))

/-- Coolant: a fall that lasts is a drop, which ends filler and is told to management, a rise that lasts ends the stop, and a
stop that outlasts COOLANT_GRACE trips (R402, R403, R404). -/
def Sys2Proof.Claims.CoolantCompletes : Prop :=
  ∀ s : State, s.on →
    let d := s.dev
    let c := d.coolant
    Gives s (exec .coolantOkFall s)
      { d with coolant := { c with ok := false, falling := if c.ok then some d.now else c.falling, rising := none } }
    ∧ (c.ok = false → Gives s (exec .coolantOkRise s)
      { d with coolant := { c with ok := true, falling := none, rising := if c.dropAt.isSome then some d.now else none } })
    ∧ (∀ t, c.falling = some t → 20000 ≤ d.now - t →
      (c.dropAt = none →
        Does s (exec .coolantStop s) (fun e => e.coolant.dropAt = some d.now ∧ e.coolant.falling = none ∧ e.power.filler = 0
          ∧ (firmwareRuns d = true → bitOf e.mgmt.events 3 = true)))
      ∧ (c.dropAt.isSome = true → Gives s (exec .coolantStop s) { d with coolant := { c with falling := none } }))
    ∧ (∀ t, c.falling = some t → d.now - t < 20000 → Gives s (exec .coolantStop s) d)
    ∧ (∀ t, c.rising = some t → c.tripped = false → c.dropAt.isSome = true → 1000000 ≤ d.now - t →
      Does s (exec .coolantReturn s) (fun e => e.coolant.dropAt = none ∧ e.coolant.rising = none))
    ∧ (c.tripped = true → Gives s (exec .coolantReturn s) d)
    ∧ (∀ t, c.dropAt = some t → c.tripped = false →
      (1000000 * d.power.ceilings.grace ≤ d.now - t →
        Does s (exec .coolantGrace s) (fun e => e.coolant.tripped = true ∧ e.coolant.dropAt = c.dropAt))
      ∧ (d.now - t < 1000000 * d.power.ceilings.grace → Gives s (exec .coolantGrace s) d))

/-- Holds: the first takes a READY or ACTIVE page to QUIESCED and keeps the state held before, a later one adds to it, and the
page leaves QUIESCED for that state when the last hold ends (R508). -/
def Sys2Proof.Claims.HoldsStack : Prop :=
  ∀ (p : PageId) (h k : Hold) (c : Cause) (d : Dev),
    let g := pageOf p d
    (g.state = .ready ∨ g.state = .active →
      Reported (putPage p { g.moved .quiesced (holdCause h) d with
        holds := h :: g.holds.filter (· != h), before := g.state } d) (addHold p h d))
    ∧ (g.state = .quiesced →
      addHold p h d = putPage p { g with holds := h :: g.holds.filter (· != h) } d)
    ∧ (p.ty ≠ .memoryController → g.state = .quiesced → g.holds = [h] → g.before = .ready ∨ g.before = .active →
      Reported (putPage p { g.moved g.before c d with holds := [] } d) (dropHold p h c d))
    ∧ (k ≠ h → g.state = .quiesced → g.holds = [k, h] →
      dropHold p h c d = putPage p { g with holds := [k] } d)

/-- Coolant, and the holds that it and others put on pages. -/
def Obligations.CoolantAndHoldsComplete : Prop :=
  Claims.CoolantCompletes ∧ Claims.HoldsStack

/-! ### Resets and hangs (14_hangs_and_resets.md) -/

/-- A reset that is accepted: the level that RESET_MAP gives the source stands with RESET_N driven and its cause, count and
session kept, a module reset gives every page and register its reset value, and a request at or below the level in progress is
merged and counted (R414, R419, R422, R423, R424). -/
def Obligations.ResetsAreAccepted : Prop :=
  ∀ (arg : Nat) (s : State), s.on →
    let d := s.dev
    let source := 3 + arg % 4
    let l := mappedLevel source d
    let stamped := fun (src : Nat) (lv : Nat) (e : Dev) => e.reset.level = some lv ∧ e.reset.driving = true
      ∧ e.reset.accepted = d.now ∧ e.always.cause = 2 ^ 24 * src + 2 ^ 16 * lv
      ∧ e.always.count = (d.always.count + 1) % 65536
      ∧ e.always.session = (if lv = 0 then d.always.session else (d.always.session + 1) % 65536)
    (mayCommand pReset d = true → stateOf pReset d = .ready → arg % 4 ≤ 1 → l < 3 → d.reset.level = none →
      Does s (exec (.requestReset arg) s) (fun e => stamped source l e
        ∧ (0 < l → e.pages = [] ∧ e.regs = [] ∧ e.mem = [] ∧ e.sram = [] ∧ e.job.attached = false ∧ e.flash = d.flash
          ∧ e.sensors = d.sensors ∧ e.coolant = d.coolant)))
    ∧ (d.reset.fellAt.any (fun t => decide (10000 ≤ d.now - t)) = true → d.reset.pinHigh = false → d.reset.pinTaken = false → pinIgnored d = false →
        mappedLevel 1 d < 3 → d.reset.level = none →
      Does s (exec .pinReset s) (fun e => stamped 1 (mappedLevel 1 d) e ∧ e.reset.pinTaken = true))
    ∧ (∀ t, d.reset.fellAt = some t → d.now - t < 10000 → Gives s (exec .pinReset s) d)
    ∧ (∀ lv, d.reset.fellAt.any (fun t => decide (10000 ≤ d.now - t)) = true → d.reset.pinHigh = false →
        d.reset.pinTaken = false → pinIgnored d = false → mappedLevel 1 d < 3 → d.reset.level = some lv → mappedLevel 1 d ≤ lv →
      Does s (exec .pinReset s) (fun e => e.reset.level = some lv ∧ e.always = d.always
        ∧ rd (rReset 0x64) e = min m32 (rd (rReset 0x64) d + 1)))

/-- RESET_N: a fall is timed unless the module drives the pin or has just released it, the module releases the pin, the tray may
hold it, and the blocks of the reset start once it has risen; a compute reset drains the mesh first and ends when its cores have
settled (R416, R421, R422, R423). -/
def Sys2Proof.Claims.ResetPinCompletes : Prop :=
  ∀ s : State, s.on →
    let d := s.dev
    let r := d.reset
    Gives s (exec .resetNFall s)
      { d with reset := { r with pinHigh := false, fellAt := if pinIgnored d then none else some d.now } }
    ∧ (r.level = some 0 → r.phase = .draining →
      Does s (exec .meshDrained s) (fun e => e.reset.phase = .asserted ∧ ∀ p ∈ e.packets, forEdge p = true))
    ∧ (heldInReset d = true → r.driving = true → atPowerOn d = false → r.pinHigh = false → 2000000 ≤ d.now - r.accepted →
      Gives s (exec .resetNRelease s) { d with reset := { r with driving := false, releasedAt := d.now } })
    ∧ (heldInReset d = true → r.driving = true → atPowerOn d = false → r.pinHigh = true → 2000000 ≤ d.now - r.accepted →
        r.level = some 0 →
      Does s (exec .resetNRelease s) (fun e => e.reset = { r with driving := false, releasedAt := d.now, phase := .starting }
        ∧ e.boot.meshTested = false ∧ e.routers = []
        ∧ ∀ k < 2560, usable (uRouter k) d = true → unitState (uRouter k) e = .testing))
    ∧ (d.now - r.accepted < 2000000 → Gives s (exec .resetNRelease s) d)
    ∧ (heldInReset d = true → pinIgnored d = false → r.pinHigh = false →
      Gives s (exec .resetNHeldByTray s) { d with reset := { r with phase := .pinHeld } })
    ∧ (heldInReset d = true → r.driving = false → r.pinHigh = false → r.level ≠ some 0 →
      Gives s (exec .resetNRise s) { d with
        jtag := { d.jtag with drives := false },
        reset := { r with pinHigh := true, pinTaken := false, fellAt := none, phase := .asserted } })
    ∧ (heldInReset d = false →
      Gives s (exec .resetNRise s) { d with
        jtag := { d.jtag with drives := false },
        reset := { r with pinHigh := true, pinTaken := false, fellAt := none } })
    ∧ (recovered d = true →
      Does s (exec .recoveryDone s) (fun e => e.reset.level = none ∧ (pageOf pReset e).events.getLsbD 17 = true
        ∧ rd (rReset 0x60) e = (d.now - r.accepted) / 1000000 % 2 ^ 32))

/-- Beacons: one that came clears the count of its emitter, one that 1 ms passed without counts, the fourth in a row retires a
die controller, and the lead's own beacon counts each 10 ms (R410, R412). -/
def Sys2Proof.Claims.BeaconsComplete : Prop :=
  ∀ (i : Nat) (s : State), s.on → (leadRuns s.dev).isSome = true →
    let d := s.dev
    let missed := fun (k : Nat) (e : Dev) => e.lead.missed.get 0 k
    let due := fun k => 1000000 ≤ d.now - d.lead.heard.get d.lead.watchFrom k
    (i < 160 → unitState (uSupervisor i) d = .ready → d.reset.phase = .starting →
      (missed i (countMiss i true d) = 0 ∧ Gives s (exec (.supervisorBeacon i true) s) (countMiss i true d))
      ∧ (¬due i → missed i d < 4 → Gives s (exec (.supervisorBeacon i false) s) d)
      ∧ (due i → missed i d < 3 → Gives s (exec (.supervisorBeacon i false) s) (countMiss i false d))
      ∧ (due i → 3 ≤ missed i d → Gives s (exec (.supervisorBeacon i false) s) (supervisorHung i (countMiss i false d))))
    ∧ (i < 10 → usable (uDie i) d = true →
      Gives s (exec (.dieControllerBeacon i true) s) (countMiss (160 + i) true d)
      ∧ (¬due (160 + i) → missed (160 + i) d < 4 → Gives s (exec (.dieControllerBeacon i false) s) d)
      ∧ (due (160 + i) → missed (160 + i) d < 3 →
        Gives s (exec (.dieControllerBeacon i false) s) (countMiss (160 + i) false d))
      ∧ (due (160 + i) → 3 ≤ missed (160 + i) d → Gives s (exec (.dieControllerBeacon i false) s)
        (retireUnit (uDie i) .hang (logHang (uDie i) 3 0 0 (countMiss (160 + i) false d)))))
    ∧ (∀ k, due k → missed k (countMiss k false d) = missed k d + 1)
    ∧ (10000000 ≤ d.now - d.lead.beaconAt →
      Reaches s (exec .beacon s) (addWrap (rModule 0x50) 1 { d with lead := { d.lead with beaconAt := d.now } }))
    ∧ (d.now - d.lead.beaconAt < 10000000 → Gives s (exec .beacon s) d)

/-- RESET_N and beacons. -/
def Obligations.ResetPinAndBeaconsComplete : Prop :=
  Claims.ResetPinCompletes ∧ Claims.BeaconsComplete

/-! ### Lead and second (15_lead_and_second.md) -/

/-- The control cycle: without a second its outputs are released at once, with one a mirror record leaves first and they are
released when it is acknowledged; a record not acknowledged goes once more; a check that fails surrenders (R431, R432, R434,
R435, R437). -/
def Obligations.ControlCyclesComplete : Prop :=
  ∀ (m : CycleInputs) (c : OpenCycle) (i j code : Nat) (s : State), s.on → leadRuns s.dev = some i →
    s.dev.lead.takeover = none →
    let d := s.dev
    let d1 := (if m.overrun then bump (rComplex i 0x4C) else id) (addSat (rComplex i 0x70) m.corrected d)
    let d2 := countEnergy m d1
    (inRole .second d = none → d.lead.cycle = none → d.lead.latches = [] → m.failedCheck = none →
      Does s (exec (.controlCycle m) s) (fun e => rd (rComplex i 0x48) e = (rd (rComplex i 0x48) d + 1) % 2 ^ 32
        ∧ e.power.measured = m.measured ∧ e.power.volts = m.volts ∧ e.power.amps = m.amps
        ∧ e.power.offset = nextOffset m.measured d.power ∧ e.power.cycleCount = 0
        ∧ 160 * e.always.energy + e.always.energyRest = 160 * d.always.energy + d.always.energyRest + m.measured))
    ∧ (inRole .second d = some j → d.lead.cycle = none → m.failedCheck = none →
      Gives s (exec (.controlCycle m) s) (sendRecord i m d2)
        ∧ (sendRecord i m d2).lead.cycle = some ⟨m, d.lead.latches, false, d.now⟩
        ∧ rd (rComplex i 0x50) (sendRecord i m d2) = (rd (rComplex i 0x50) d + 1) % 2 ^ 32)
    ∧ (d.lead.cycle = none → m.failedCheck = some code →
      Gives s (exec (.controlCycle m) s) (surrender i code d2))
    ∧ (inRole .second d = some j → d.lead.cycle = some c → c.judged = [] →
      Does s (exec (.mirrorRecord true) s) (fun e => e.lead.cycle = none
        ∧ rd (rComplex i 0x48) e = (rd (rComplex i 0x48) d + 1) % 2 ^ 32
        ∧ rd (rComplex j 0x50) e = rd (rComplex i 0x50) d ∧ e.lead.recordAt = d.now ∧ e.lead.cycleEnd = d.now
        ∧ e.power.measured = c.inputs.measured)
      ∧ Gives s (exec (.mirrorRecord false) s) { d with lead := { d.lead with recordAt := d.now } })
    ∧ (inRole .second d = some j → d.lead.cycle = some c → c.resent = false → 10000 ≤ d.now - c.sentAt →
      Gives s (exec .ropeResend s) (bump (rComplex i 0x54)
        { d with lead := { d.lead with cycle := some { c with resent := true, sentAt := d.now } } }))
    ∧ (d.lead.cycle = some c → d.now - c.sentAt < 10000 → Gives s (exec .ropeResend s) d)

/-- Surrender and takeover: a watchdog or silence gives the lead up to the second, which claims LEAD_SELECT, checks itself and
becomes the lead; without a second, or when the check fails, the module enters the safe state; a complex that reads the lead's
records rejoins as the second (R436, R438, R439, R440, R441, R442, R448). -/
def Sys2Proof.Claims.TakeoversComplete : Prop :=
  ∀ (i j : Nat) (t : TakeoverSt) (s : State), s.on →
    let d := s.dev
    let given := fun (reason : Nat) (e : Dev) => e.lead.takeover = some ⟨i, reason, d.now, false, false⟩
      ∧ e.always.leadSelect = none ∧ (complexOf i e).role = .fenced ∧ e.lead.cycle = none
    (leadRuns d = some i → inRole .second d = some j → d.lead.takeover = none →
      (300000 ≤ d.now - d.lead.cycleEnd → Does s (exec .watchdog s) (fun e => given 4 e ∧ rd (rComplex i 0x74) e = 4))
      ∧ (d.now - d.lead.cycleEnd < 300000 → Gives s (exec .watchdog s) d)
      ∧ (300000 ≤ d.now - d.lead.recordAt → Does s (exec .silence s) (given 5))
      ∧ (d.now - d.lead.recordAt < 300000 → Gives s (exec .silence s) d))
    ∧ (leadRuns d = some i → inRole .second d = none →
      (300000 ≤ d.now - d.lead.cycleEnd →
        Gives s (exec .watchdog s) (enterSafe 4 d.now (wr (rComplex i 0x74) 4 d)))
      ∧ Gives s (exec .silence s) d)
    ∧ (d.lead.takeover = some t → d.lead.handover = false → t.claimed = false →
      Gives s (exec .takeover s) { d with
        always := { d.always with leadSelect := some (1 - t.old) },
        lead := { d.lead with takeover := some { t with claimed := true } } })
    ∧ (leadWatches d = true → d.lead.takeover = some t → d.lead.handover = false →
        t.claimed = true → t.passed = false →
      Does s (exec (.takeoverCheckEnd true) s) (fun e => e.lead.takeover = some { t with passed := true }
        ∧ (complexOf (1 - t.old) e).role = .lead ∧ stateOf (pComplex (1 - t.old)) e = .active
        ∧ e.always.leadSelect = some (1 - t.old))
      ∧ Gives s (exec (.takeoverCheckEnd false) s) (enterSafe t.reason t.since d))
    ∧ (leadRuns d = some i → inRole .rejoining d = some j → readsFormat (complexOf j d) (complexOf i d) = true →
      Does s (exec .rejoined s) (fun e => (complexOf j e).role = .second ∧ stateOf (pComplex j) e = .ready))
    ∧ (leadRuns d = some i → inRole .rejoining d = some j → readsFormat (complexOf j d) (complexOf i d) = false →
      Gives s (exec .rejoined s) (settleStart (endOrder 3 false (loseSecond i j d))))

/-- The safe state, where RESET_MAP gives source DOUBLE_FAILURE no reset: both complexes are fenced, LEAD_SELECT names none,
ALERT_N is held low, and every cluster is shaded by at least 192 (R442, R443, R455). -/
def Sys2Proof.Claims.SafeStateStands : Prop :=
  ∀ (reason since : Nat) (d : Dev), mappedLevel 2 d = 3 → d.boot.phase = .running →
    let e := enterSafe reason since d
    e.lead.safe = true ∧ (complexOf 0 e).role = .fenced ∧ (complexOf 1 e).role = .fenced ∧ e.always.leadSelect = none
      ∧ e.pins.alert = true ∧ ∀ i, 192 ≤ appliedShade i e

/-- Takeovers and the safe state. -/
def Obligations.TakeoversAndSafeStateComplete : Prop :=
  Claims.TakeoversComplete ∧ Claims.SafeStateStands

/-! ### The management port (16_management_and_firmware.md) -/

/-- I3C: the common command codes set events, addresses and transfer lengths, and read identity and lengths (R450, R451, R452).
The bytes of their answers follow the I3C standard as log entry 28 presumes. -/
def Sys2Proof.Claims.CommonCommandCodesComplete : Prop :=
  ∀ (n addr : Nat) (s : State), s.on → frontEnd s.dev = true →
    let d := s.dev
    let m := d.mgmt
    let with_ := fun x : Mgmt => { d with mgmt := x }
    let reads := fun (bytes : List Byte) => with_ { m with out := m.out ++ [.ccc bytes] }
    Gives s (exec (.enec n) s) (with_ { m with eventsOn := Nat.lor m.eventsOn (n % 256) })
    ∧ Gives s (exec (.disec n) s) (with_ { m with eventsOn := m.eventsOn - Nat.land m.eventsOn (n % 256) })
    ∧ Gives s (exec .rstdaa s) (with_ { m with address := none })
    ∧ (m.address = none → Gives s (exec (.entdaa addr) s) (with_ { m with
        address := some (addr % 128), out := m.out ++ [.ccc (beBytes 6 d.fused.provisionalId ++ [0x06, 0x00])] }))
    ∧ (m.address = none → Gives s (exec (.setdasa (staticAddress d) addr) s) (with_ { m with address := some (addr % 128) }))
    ∧ (m.address.isSome = true → Gives s (exec (.setdasa (staticAddress d) addr) s) d)
    ∧ (m.address.isSome = true → Gives s (exec (.setnewda addr) s) (with_ { m with address := some (addr % 128) }))
    ∧ Gives s (exec .getpid s) (reads (beBytes 6 d.fused.provisionalId))
    ∧ Gives s (exec .getbcr s) (reads [0x06]) ∧ Gives s (exec .getdcr s) (reads [0x00])
    ∧ Does s (exec .getstatus s) (fun e => e.mgmt.out.length = m.out.length + 1 ∧ e.mgmt.address = m.address)
    ∧ (∃ b : Byte, Gives s (exec .getmrl s) { reads (beBytes 2 m.mrl ++ [b]) with fresh := d.fresh + 1 })
    ∧ Gives s (exec .getmwl s) (reads (beBytes 2 m.mwl))
    ∧ Gives s (exec (.setmrl n) s) (with_ { m with mrl := max 64 (min 256 n) })
    ∧ Gives s (exec (.setmwl n) s) (with_ { m with mwl := max 64 (min 256 n) })

/-- MCTP control: endpoint IDs are assigned and read, and versions, types and the vendor set are told; a message of a type not
served is discarded and counted (R452). The bytes follow the MCTP standard as log entry 28 presumes. -/
def Sys2Proof.Claims.MctpControlCompletes : Prop :=
  ∀ (inst eid mtype : Nat) (s : State), s.on → mgmtAnswers s.dev = true →
    let d := s.dev
    let tells := fun (bytes : List Byte) => told (.message 0x00 (BitVec.ofNat 8 (inst % 32) :: bytes)) d
    (8 ≤ eid → eid < 255 → Does s (exec (.setEndpointId inst 0 eid) s) (fun e =>
        tells [0x01, 0x00, 0x00, BitVec.ofNat 8 eid, 0x00] e ∧ e.mgmt.eid = eid))
    ∧ (eid < 8 ∨ 255 ≤ eid → Does s (exec (.setEndpointId inst 0 eid) s) (fun e =>
        tells [0x01, 0x02] e ∧ e.mgmt.eid = d.mgmt.eid))
    ∧ Does s (exec (.getEndpointId inst) s) (tells [0x02, 0x00, BitVec.ofNat 8 d.mgmt.eid, 0x00, 0x00])
    ∧ Does s (exec (.getEndpointUuid inst) s) (tells ([0x03, 0x00] ++ (List.range 16).map Config.endpointUuid))
    ∧ Does s (exec (.getMctpVersionSupport inst 0x7F) s) (tells ([0x04, 0x00] ++ Config.mctpVersions 0x7F))
    ∧ Does s (exec (.getMessageTypeSupport inst) s) (tells [0x05, 0x00, 0x02, 0x01, 0x7F])
    ∧ Does s (exec (.getVendorDefinedMessageSupport inst 0) s)
      (tells ([0x06, 0x00, 0xFF, 0x01, 0x00, 0x00, 0x7E, 0xD9] ++ leBytes 2 Config.vendorSetType.toNat))
    ∧ (mtype ≠ 0 → mtype ≠ 1 → mtype ≠ 0x7F →
      Gives s (exec (.unsupportedMessageType mtype) s)
        { d with mgmt := { d.mgmt with discarded := d.mgmt.discarded + 1 } })
    ∧ (∀ t, d.mgmt.incoming = some t → 100000000 ≤ d.now - t →
      Gives s (exec .assemblyTimeout s) { d with mgmt := { d.mgmt with incoming := none } })
    ∧ (∀ t, d.mgmt.incoming = some t → d.now - t < 100000000 → Gives s (exec .assemblyTimeout s) d)

/-- PLDM: the terminus ID and the event receiver are set and read, versions, types, commands and records are told, sensors are
read, the pending event of lowest number is polled, and a command that is not served is answered as unsupported (R453, R454,
R455). The bytes follow the PLDM standards as log entry 28 presumes. -/
def Sys2Proof.Claims.PldmCompletes : Prop :=
  ∀ (inst n b ptype cmd : Nat) (s : State), s.on → mgmtAnswers s.dev = true → s.dev.boot.phase = .running →
    let d := s.dev
    let tells := fun (bytes : List Byte) => told (.message 0x01 (BitVec.ofNat 8 (inst % 32) :: bytes)) d
    Does s (exec (.getTid inst) s) (tells [0x00, 0x02, 0x00, BitVec.ofNat 8 d.mgmt.tid])
    ∧ (n ≠ 0 → n < 255 →
      Does s (exec (.setTid inst n) s) (fun e => tells [0x00, 0x01, 0x00] e ∧ e.mgmt.tid = n))
    ∧ Does s (exec (.getPldmVersion inst 2) s) (tells ([0x00, 0x03, 0x00, 0x00, 0x00, 0x00, 0x00, 0x05] ++ Config.pldmVersion 2))
    ∧ Does s (exec (.getPldmTypes inst) s) (tells ([0x00, 0x04, 0x00, 0x05] ++ zeros 7))
    ∧ Does s (exec (.getPldmCommands inst 0) s) (tells ([0x00, 0x05, 0x00, 0x3E] ++ zeros 31))
    ∧ Does s (exec (.setEventReceiver inst 1 n) s) (fun e => tells [0x02, 0x04, 0x00] e ∧ e.mgmt.receiver = some n)
    ∧ Does s (exec (.setEventReceiver inst 0 n) s) (fun e => tells [0x02, 0x04, 0x00] e ∧ e.mgmt.receiver = none)
    ∧ Does s (exec (.getPdrRepositoryInfo inst) s) (tells ([0x02, 0x50, 0x00] ++ Config.pdrInfo))
    ∧ Does s (exec (.getPdr inst n) s)
        (tells ([0x02, 0x51] ++ if Config.pdrRecord n = [] then [0x82] else 0x00 :: Config.pdrRecord n))
    ∧ (∃ free : List Byte, Does s (exec (.getSensorReading inst 0x42) s)
        (tells ([0x02, 0x11, 0x00, 0x07, 0x00] ++ free ++ leBytes 8 (BitVec.ofInt 64 (d.power.measured / 16 : Nat)).toNat)))
    ∧ (∃ free : List Byte, Does s (exec (.getStateSensorReadings inst 0x81) s)
        (tells ([0x02, 0x21, 0x00, 0x01, 0x00, BitVec.ofNat 8 (stateCode (stateOf pModule d))] ++ free)))
    ∧ (b < 14 → bitOf d.mgmt.events b = true → (∀ k < b, bitOf d.mgmt.events k = false) →
      Does s (exec (.pollForPlatformEventMessage inst) s) (tells ([0x02, 0x0B, 0x00, BitVec.ofNat 8 d.mgmt.tid,
        BitVec.ofNat 8 (b + 1), 0x00, 0x00, 0x00, 0x00, 0x00, 0x05, 0xF0, 0x01, 0x00, 0x00, 0x00, BitVec.ofNat 8 b])))
    ∧ (d.mgmt.events = 0 → Does s (exec (.pollForPlatformEventMessage inst) s)
        (tells [0x02, 0x0B, 0x00, BitVec.ofNat 8 d.mgmt.tid, 0x00, 0x00]))
    ∧ ((pldmCommands ptype).contains cmd = false →
      Does s (exec (.errorUnsupportedPldmCmd inst ptype cmd) s)
        (tells [BitVec.ofNat 8 ptype, BitVec.ofNat 8 cmd, 0x05]))

/-- I3C, MCTP control and PLDM on the management port. -/
def Obligations.ManagementPortCompletes : Prop :=
  Claims.CommonCommandCodesComplete ∧ Claims.MctpControlCompletes ∧ Claims.PldmCompletes

/-- Vendor requests that read: each is answered with the bytes of its table, GET_STATE clears the events it told, a body of a
wrong length or a field out of its range is answered with the code, and a code not defined as unsupported (R457, R459, R460,
R465, R473, R478, R480, R481). -/
def Sys2Proof.Claims.VendorReadsComplete : Prop :=
  ∀ (inst cmd : Nat) (b : List Byte) (s : State), s.on → mgmtAnswers s.dev = true → s.dev.boot.phase = .running →
    let d := s.dev
    let h := hear d
    let c := leAt b 0 1
    let key := leAt b 0 2
    Does s (exec (.getState inst []) s) (fun e => told (vendor inst 0x01 0 (stateBytes h)) d e ∧ e.mgmt.events = 0)
    ∧ (b ≠ [] → Does s (exec (.getState inst b) s) (fun e => told (vendor inst 0x01 3 []) d e ∧ e.mgmt.events = d.mgmt.events))
    ∧ Does s (exec (.getCeilings inst []) s) (told (vendor inst 0x02 0 (ceilingBytes d.power.ceilings)) d)
    ∧ (b.length = 4 → 1 ≤ c → c ≤ 13 → leAt b 1 1 ≤ 64 → leAt b 2 2 ≤ lastIndex c →
      Does s (exec (.getFloorPlan inst b) s) (told (vendor inst 0x10 0 (floorBytes b h)) d))
    ∧ (b.length = 4 → c = 0 ∨ 13 < c → Does s (exec (.getFloorPlan inst b) s) (told (vendor inst 0x10 2 []) d))
    ∧ (b.length = 4 → leAt b 3 1 = 0 → leAt b 2 1 ≤ 64 →
      Does s (exec (.getCairn inst b) s) (told (vendor inst 0x11 0 (cairnBytes b d)) d)
      ∧ Does s (exec (.getMeasurements inst b) s)
        (told (vendor inst 0x28 0 (logFrom s.mlog (leAt b 0 2) (leAt b 2 1))) d))
    ∧ (b.length = 2 → leAt b 0 2 < stagedPieces d →
      Does s (exec (.stageStatus inst b) s) (told (vendor inst 0x1B 0 (stagingBytes b h)) d))
    ∧ (b.length = 2 → keyKnown key = true →
      Does s (exec (.getSetting inst b) s) (told (vendor inst 0x20 0
        (leBytes 2 (d.flash.formats.get (schemaOf key d) key) ++ leBytes 2 (settingLength key) ++ settingBytes key d)) d))
    ∧ (b.length = 6 → leAt b 4 2 ≤ 1024 → leAt b 0 4 ≤ Config.certificateChain.length →
      Does s (exec (.getCertificate inst b) s) (told (vendor inst 0x29 0 (leBytes 4 Config.certificateChain.length
        ++ (Config.certificateChain.drop (leAt b 0 4)).take (leAt b 4 2))) d))
    ∧ (vendorCommands.contains cmd = false →
      Does s (exec (.undefinedVendorCommand inst cmd) s) (told (vendor inst cmd 1 []) d))

/-- Ceilings, silence, settings and the cairn record: valid ceilings in range come into force together and are kept where the
body says so, one out of range changes nothing, silence engages its ceiling until a request is heard, a setting that the schema
allows is stored, and units not fused are cleared from the cairn record (R378, R391, R461, R462, R466, R478). -/
def Sys2Proof.Claims.VendorSettingsComplete : Prop :=
  ∀ (inst : Nat) (b : List Byte) (s : State), s.on → mgmtAnswers s.dev = true → s.dev.boot.phase = .running →
    let d := s.dev
    let valid := leAt b 0 2
    let w := leAt b 0 4
    let merged := mergeCeilings valid (ceilingsOf b) d.power.ceilings
    let design := designPower (variantOf d)
    let kept := d.flash.cairn.filter (fun e => e.unit != w % 2 ^ 24)
    (b.length = 16 → ceilingsEncoded b = true → ceilingsInRange valid design (ceilingsOf b) = true → bitOf valid 6 = false →
      Does s (exec (.setCeilings inst b) s) (fun e => told (vendor inst 0x03 0 (ceilingBytes merged)) d e
        ∧ e.power.ceilings = merged ∧ e.power.opChange = d.power.opChange
        ∧ e.flash.ceilings = (if bitOf valid 15 = true ∧ valid % 512 ≠ 0
          then mergeCeilings valid (ceilingsOf b) d.flash.ceilings else d.flash.ceilings)))
    ∧ (b.length = 16 → ceilingsEncoded b = true → ceilingsInRange valid design (ceilingsOf b) = true → bitOf valid 6 = true →
        coreActive d = false → leAt b 12 1 ≠ d.power.ceilings.opPoint →
      Does s (exec (.setCeilings inst b) s) (fun e => e.power.opChange = some (leAt b 12 1)
        ∧ e.power.ceilings = { merged with opPoint := d.power.ceilings.opPoint }))
    ∧ (b.length = 16 → ceilingsEncoded b = true → ceilingsInRange valid design (ceilingsOf b) = false →
      Does s (exec (.setCeilings inst b) s) (fun e => told (vendor inst 0x03 4 []) d e ∧ e.power = d.power ∧ e.flash = d.flash))
    ∧ (b.length = 8 → leAt b 4 1 ≤ 1 → leAt b 5 3 = 0 → valid ≤ 3600 → valid = 0 ∨ within 1000 design (leAt b 2 2) = true →
      Does s (exec (.setSilence inst b) s) (fun e => e.power.silenceTime = valid ∧ e.power.silenceCeiling = leAt b 2 2
        ∧ e.flash.silenceTime = (if leAt b 4 1 = 1 then valid else d.flash.silenceTime)
        ∧ told (vendor inst 0x04 0 (b.take 4 ++ zeros 4)) d e))
    ∧ ((leadRuns d).isSome = true → d.power.silenceTime ≠ 0 → d.mgmt.silenced = false →
        1000000000 * d.power.silenceTime ≤ d.now - d.mgmt.heard →
      Does s (exec .silenceEngaged s) (fun e => e.mgmt.silenced = true ∧ bitOf e.mgmt.events 11 = true
        ∧ mgmtLimit e = min d.power.ceilings.power d.power.silenceCeiling))
    ∧ (b.length = 8 → valid = 3 → leAt b 2 2 = 4 →
      Does s (exec (.setSetting inst b) s) (fun e =>
        if Config.schemaAllows (releaseOf d.flash.active.manifest) 3 (b.drop 4) = true
        then e.flash.mapLocal = leAt b 4 4 % 1024 ∧ told (vendor inst 0x21 0 []) d e
        else e.flash = d.flash ∧ told (vendor inst 0x21 4 []) d e))
    ∧ (b.length = 4 → fieldOf w 30 24 = 0 → bitOf w 31 = false → isFused (w % 2 ^ 24) d = false →
      Does s (exec (.clearCairn inst b) s) (fun e => e.flash.cairn = kept
        ∧ told (vendor inst 0x12 0 (leBytes 2 (d.flash.cairn.length - kept.length))) d e))

/-- Vendor requests that read and that set. -/
def Obligations.VendorRequestsComplete : Prop :=
  Claims.VendorReadsComplete ∧ Claims.VendorSettingsComplete

/-- Orders of management: a reset that no reset in progress meets is accepted, a power-off begins, a handover and a restart of
the second begin where they may, and a restart of the management controller leaves only the module's own messages (R445, R446,
R447, R463, R464, R467). -/
def Obligations.OrdersComplete : Prop :=
  ∀ (inst i j : Nat) (b : List Byte) (s : State), s.on → mgmtAnswers s.dev = true → s.dev.boot.phase = .running →
    s.dev.unrun = [] →
    let d := s.dev
    let level := leAt b 0 1
    (b.length = 1 → level ≤ 2 → mappedLevel (5 + level) d < 3 → d.reset.level = none →
      Does s (exec (.orderReset inst b) s) (fun e => e.reset.level = some (mappedLevel (5 + level) d)
        ∧ e.always.cause = 2 ^ 24 * (5 + level) + 2 ^ 16 * mappedLevel (5 + level) d
        ∧ e.mgmt.out.getLast? = some (vendor inst 0x08 0 [])))
    ∧ (d.mgmt.orderState ≠ 1 →
      Does s (exec (.orderPowerOff inst []) s) (fun e => e.mgmt.powerOff = true ∧ e.power.filler = 0
        ∧ e.mgmt.out.getLast? = some (vendor inst 0x09 0 [])))
    ∧ (d.mgmt.orderState = 1 →
      Does s (exec (.orderPowerOff inst []) s) (fun e => told (vendor inst 0x09 6 []) d e ∧ e.mgmt.powerOff = d.mgmt.powerOff))
    ∧ (handoverChecks d = [(false, 6), (false, 8)] → d.always.leadSelect = some i →
      Does s (exec (.handover inst []) s) (fun e => e.lead.takeover = some ⟨i, 6, d.now, false, false⟩
        ∧ e.lead.handover = true ∧ e.mgmt.orderKind = 2 ∧ e.mgmt.orderState = 1 ∧ told (vendor inst 0x0C 0 []) d e))
    ∧ (restartChecks d = [(false, 6), (false, 8)] → restartTarget d = some j →
      Does s (exec (.restartSecond inst []) s) (fun e => (complexOf j e).role = .rejoining
        ∧ (pageOf (pComplex j) e).state = .loading ∧ (pageOf (pComplex j) e).cause = .mgmtOrder
        ∧ e.mgmt.orderKind = 3 ∧ e.mgmt.orderState = 1 ∧ told (vendor inst 0x0D 0 []) d e))
    ∧ Gives s (exec .managementControllerRestart s) { d with
        mgmt := { d.mgmt with incoming := none, out := d.mgmt.out.filter (fun x => !isAnswer x), assemblies := [] } }

/-- Staging and activation: a set begins with a manifest that verifies, fragments are assembled, a piece whose hash matches is
counted, staging may be abandoned, an activation writes INTENT, and a copy that verifies commits the set, with the fuse
versions advanced where the order said so, while one that does not is made again (R471, R472, R473, R474, R475, R477). -/
def Sys2Proof.Claims.StagingCompletes : Prop :=
  ∀ (inst tries : Nat) (adv : Bool) (b : List Byte) (set : FwSet) (s : State), s.on → mgmtAnswers s.dev = true →
    s.dev.boot.phase = .running →
    let d := s.dev
    let i := leAt b 0 2
    let old := match assemblyOf i d with | some a => a.bytes | none => []
    (b.length = 8336 → d.mgmt.activation = none → d.flash.staged = none →
      Does s (exec (.stageBegin inst b) s) (fun e => if manifestGood s.fuses b = true ∧ versionsGood s.fuses b = true
        then e.flash.staged = some ⟨b, []⟩ ∧ e.flash.pieces = []
          ∧ told (vendor inst 0x18 0 (leBytes 2 (setPieces b) ++ leBytes 2 0 ++ [0])) d e
        else e.flash = d.flash ∧ told (vendor inst 0x18 7 []) d e))
    ∧ (b.length = 6 + leAt b 4 2 → leAt b 4 2 ≤ 4096 → i < stagedPieces d → leAt b 2 2 + leAt b 4 2 ≤ pieceLength i d →
        writes b d = true → (assemblyOf i d).isSome = true ∨ d.mgmt.assemblies.length < 4 →
      Does s (exec (.stageData inst b) s) (fun e =>
        assemblyOf i e = some ⟨i, old.write (leAt b 2 2) ((b.drop 6).take (leAt b 4 2))⟩ ∧ e.flash = d.flash
          ∧ told (vendor inst 0x19 0 []) d e))
    ∧ (b.length = 34 → i < stagedPieces d → d.flash.staged = some set → d.flash.pieces.contains i = false →
      Does s (exec (.stagePieceDone inst b) s) (fun e => assemblyOf i e = none
        ∧ if sha256 (pieceBytes i d) = (b.drop 2).take 32
          then e.flash.pieces = d.flash.pieces ++ [i]
            ∧ e.flash.staged = some { set with body := set.body.write (65536 * i) (pieceBytes i d) }
            ∧ told (vendor inst 0x1A 0 (leBytes 2 (d.flash.pieces.length + 1))) d e
          else e.flash = d.flash ∧ told (vendor inst 0x1A 7 []) d e))
    ∧ (d.mgmt.activation = none →
      Does s (exec (.stageAbandon inst []) s) (fun e => e.flash.staged = none ∧ e.flash.pieces = [] ∧ e.mgmt.assemblies = []
        ∧ told (vendor inst 0x1C 0 []) d e))
    ∧ (b.length = 1 → leAt b 0 1 ≤ 1 → d.mgmt.orderState ≠ 1 → stagingState d = 2 → d.reset.level = none →
        coolantStopped d = false → d.always.hardTrip = false →
      Does s (exec (.activate inst b) s) (fun e => if stagedGood s.fuses d = true
        then e.mgmt.activation = some (leAt b 0 1 == 1, 0) ∧ (latestCommit e.flash).state = 1
          ∧ (latestCommit e.flash).hash = stagedHash d ∧ e.mgmt.orderKind = 4 ∧ e.mgmt.orderState = 1
          ∧ e.unrun = [1, 2, 3, 4, 5, 6] ∧ told (vendor inst 0x1D 0 []) d e
        else e.flash = d.flash ∧ e.mgmt.orderState = d.mgmt.orderState ∧ told (vendor inst 0x1D 7 []) d e))
    ∧ (d.mgmt.activation = some (adv, tries) → d.flash.staged = some set →
      ∃ t, exec (.activationCopyDone true) s = .next t ∧ t.pending = s.pending ∧ t.dev.flash.active = set
        ∧ (latestCommit t.dev.flash).state = 2 ∧ t.dev.mgmt.activation = none
        ∧ t.fuses = (if adv then { s.fuses with svn := burned s.fuses.svn set.manifest } else s.fuses))
    ∧ (d.mgmt.activation = some (adv, tries) → d.flash.staged = some set → tries < 3 →
      Gives s (exec (.activationCopyDone false) s)
        { d with mgmt := { d.mgmt with activation := some (adv, tries + 1) } })

/-- Attestation and debug: an attestation waits for its signature and is then told, a challenge draws a nonce, and a token that
answers it opens its scopes, voids the nonce and is logged (R480, R482, R483). -/
def Sys2Proof.Claims.AttestationAndDebugComplete : Prop :=
  ∀ (inst : Nat) (b bytes : List Byte) (s : State), s.on → mgmtAnswers s.dev = true → s.dev.boot.phase = .running →
    let d := s.dev
    let scope := Nat.lor d.mgmt.scope (leAt b 12 4)
    (b.length = 36 → leAt b 35 1 = 0 → leAt b 34 1 ≤ 64 → leAt b 32 2 ≤ s.mlog.length → d.mgmt.attest = none →
      Does s (exec (.attest inst b) s) (fun e =>
        e.mgmt.attest = some (vendorBytes inst 0x2A 0 (attestBody s.fuses s.mlog b d)) ∧ e.mgmt.out = d.mgmt.out))
    ∧ (d.mgmt.attest = some bytes →
      Gives s (exec .attestSigned s) { d with mgmt := { d.mgmt with
        attest := none, out := d.mgmt.out ++ interruptFor d.mgmt ++ [.message 0x7F (bytes ++ Config.slhSign (0x7F :: bytes))] } })
    ∧ Does s (exec (.debugChallenge inst []) s) (fun e => e.mgmt.nonce = some (newNonce d) ∧ e.fresh = d.fresh + 4
        ∧ told (vendor inst 0x30 0 (leBytes 8 d.fused.serial ++ leBytes 4 d.flash.powerOns ++ newNonce d)) d e)
    ∧ (∃ t, exec (.debugUnlock inst b) s = .next t ∧ t.pending = s.pending ∧ t.fuses = s.fuses
        ∧ if vendorTakes (unlockRequest inst b) (unlockChecks s.fuses b) d = true
          then t.mlog = logEntry (unlockEntry b d.now) s.mlog ∧ t.dev.mgmt.scope = scope ∧ t.dev.mgmt.nonce = none
            ∧ told (vendor inst 0x31 0 (leBytes 4 scope)) d t.dev
          else t.mlog = s.mlog ∧ t.dev.mgmt.scope = d.mgmt.scope ∧ t.dev.mgmt.nonce = d.mgmt.nonce)
    ∧ (b.length ≠ 7908 → Does s (exec (.debugUnlock inst b) s) (fun e =>
        told (vendor inst 0x31 3 []) d e ∧ e.mgmt.scope = d.mgmt.scope))

/-- Firmware staging and activation, attestation and debug. -/
def Obligations.FirmwareAndDebugComplete : Prop :=
  Claims.StagingCompletes ∧ Claims.AttestationAndDebugComplete

/-! ### JTAG (17_module_and_pins.md) -/

/-- JTAG: BYPASS delays by one bit, IDCODE tells the fixed identification fields, SAMPLE_PRELOAD and EXTEST load the boundary
cells, EXTEST drives the pins only while the tray holds RESET_N low, and TRST_N holds the TAP in reset (R489, R500). -/
def Obligations.JtagCompletes : Prop :=
  ∀ (tdi : Bool) (cells : List Nat) (s : State), s.on →
    let d := s.dev
    let j := d.jtag
    (j.held = false →
      Gives s (exec (.bypass tdi) s) { d with jtag := { j with
        instr := .bypass, bit := tdi, drives := false,
        tdo := j.tdo ++ [BitVec.ofNat 32 (if j.instr = .bypass then b2n j.bit else 0)] } }
      ∧ Gives s (exec .idcode s) { d with jtag := { j with instr := .idcode, drives := false, tdo := j.tdo ++ [idcodeWord] } }
      ∧ Does s (exec (.samplePreload cells) s) (fun e => e.jtag.cells = cells ∧ e.jtag.instr = .samplePreload
        ∧ e.jtag.drives = false ∧ e.jtag.tdo.length = j.tdo.length + cells.length)
      ∧ Does s (exec (.extest cells) s) (fun e => e.jtag.cells = cells ∧ e.jtag.drives = trayHoldsReset d
        ∧ e.jtag.tdo.length = j.tdo.length + cells.length))
    ∧ (j.held = true → Gives s (exec .idcode s) d ∧ Gives s (exec (.extest cells) s) d)
    ∧ idcodeWord.setWidth 28 = 0x5804C6F#28
    ∧ Gives s (exec (.trstN true) s) { d with jtag := { j with held := false } }
    ∧ Gives s (exec (.trstN false) s)
      { d with jtag := { j with held := true, instr := .idcode, bit := false, drives := false } }

/-! ### Reset, and rules over every command -/

/-- The module right after a power-on: every page is OFF with cause POWER_ON and the reset mask, every register reads its reset
value, a cold reset stands with RESET_N driven and RESET_CAUSE telling it, and nothing is linked, enabled, attached or queued
(R29, R33, R349, R424; the pins, the fuses and flash as shipped, and the values of registers that the manual gives none, are the
model's choice: log entries 5, 11 and 12). -/
def Obligations.ResetState : Prop :=
  let d := State.reset.dev
  State.reset.pending = [] ∧ State.reset.mlog = [] ∧ (∀ p, pageOf p d = freshPage .powerOn 0)
    ∧ (∀ p, (pageOf p d).state = .off ∧ (pageOf p d).cause = .powerOn ∧ (pageOf p d).mask = 0x15
      ∧ (pageOf p d).negotiated = false ∧ (pageOf p d).seq = 0 ∧ (pageOf p d).events = 0)
    ∧ (∀ r, rd r d = (regReset (homeOf r)).toNat)
    ∧ rd (rNi 0 0x9C) d = 0x19281440 ∧ rd (rPort 0 0x78) d = 0x63000 ∧ rd (rRing 0 0x78) d = 0x200000
    ∧ rd (rMem 0 0 0x70) d = 0x1000 ∧ rd (rLua 0 0x58) d = 0x1A
    ∧ d.reset.level = some 2 ∧ d.reset.driving = true ∧ d.always.cause = 0x00020000 ∧ d.always.leadSelect = none
    ∧ d.link.phase = .detect ∧ d.window.enabled = false ∧ (∀ n, (ringOf n d).enabled = false)
    ∧ (∀ q, (queueOf q d).enabled = false) ∧ d.job.attached = false ∧ d.mem = [] ∧ d.sram = [] ∧ d.packets = []
    ∧ State.reset.logBounded ∧ d.memoryWf

/-- The measurement log never holds more than 256 entries: no step takes it past them (R480). -/
def Obligations.LogStaysBounded : Prop :=
  ∀ s t : State, s.logBounded → Sys2Proof.Machine.step s = .next t → t.logBounded

/-- Fuses: no step changes the identity, the variant, the reset map or the key slots of the fuse array, and no security version
ever falls (R351, R477). -/
def Obligations.FusesNeverFall : Prop :=
  ∀ s t : State, Sys2Proof.Machine.step s = .next t →
    svnAtLeast t.fuses.svn s.fuses.svn ∧ t.fuses = { s.fuses with svn := t.fuses.svn }

/-- Without its 48 V input the module does nothing: every command but POWER_ON, POWER_LOSS and OVERVOLTAGE leaves the state as it
is (R493). -/
def Obligations.UnpoweredModuleRests : Prop :=
  ∀ (c : Instr) (s : State), s.dev.boot.phase = .unpowered → (∀ p, c ≠ .powerOn p) → c ≠ .powerLoss → c ≠ .overvoltage →
    exec c s = .next s
end

