-- ==== Sys2Proof/Laws/Bytes.lean ====
section
/-!
SUPPORT. What the checksums of frames, chunks and flits are, without the order in which the kernel computes them.
-/

namespace Sys2Proof.Machine

theorem stepwise_eq {w : Nat} {α : Type} (v : BitVec w) (k : BitVec w → α) : stepwise v k = k v := by
  unfold stepwise
  split
  · next h => rw [BitVec.eq_of_toNat_eq (x := v) (y := 0) (by simpa using h)]
  · next n h =>
    congr 1
    apply BitVec.eq_of_toNat_eq
    have hv := v.isLt
    rw [BitVec.toNat_ofNat, show n + 1 = v.toNat from h.symm]
    exact Nat.mod_eq_of_lt hv

theorem fcsReg_cons (v : Word) (b : Byte) (r : List Byte) :
    fcsReg v (b :: r) = fcsReg (fcsStep 8 (v ^^^ b.setWidth 32)) r := stepwise_eq _ _

theorem crcReg_cons (v : DWord) (b : Byte) (r : List Byte) :
    crcReg v (b :: r) = crcReg (crcStep 8 (v ^^^ b.setWidth 64)) r := stepwise_eq _ _

theorem crc32cReg_cons (c : Word) (b : Byte) (r : List Byte) : crc32cReg c (b :: r) = crc32cReg (crcByte c b) r :=
  stepwise_eq _ _

theorem fcsReg_append (v : Word) (l m : List Byte) : fcsReg v (l ++ m) = fcsReg (fcsReg v l) m := by
  induction l generalizing v with
  | nil => rfl
  | cons b r ih => rw [List.cons_append, fcsReg_cons, fcsReg_cons, ih]

theorem crcReg_append (v : DWord) (l m : List Byte) : crcReg v (l ++ m) = crcReg (crcReg v l) m := by
  induction l generalizing v with
  | nil => rfl
  | cons b r ih => rw [List.cons_append, crcReg_cons, crcReg_cons, ih]

theorem crc32cReg_append (c : Word) (l m : List Byte) : crc32cReg c (l ++ m) = crc32cReg (crc32cReg c l) m := by
  induction l generalizing c with
  | nil => rfl
  | cons b r ih => rw [List.cons_append, crc32cReg_cons, crc32cReg_cons, ih]

end Sys2Proof.Machine
end

