-- ==== Sys2Proof/Laws/State.lean ====
section
/-!
SUPPORT. What each update of the device leaves in each field, one lemma for each pair, so that no proof unfolds a record.
-/

namespace Sys2Proof.Machine

/-! ### wr -/

@[simp] theorem wr_fresh (r : RegId) (n : Nat) (d : Dev) : (wr r n d).fresh = d.fresh := rfl
@[simp] theorem wr_now (r : RegId) (n : Nat) (d : Dev) : (wr r n d).now = d.now := rfl
@[simp] theorem wr_always (r : RegId) (n : Nat) (d : Dev) : (wr r n d).always = d.always := rfl
@[simp] theorem wr_reset (r : RegId) (n : Nat) (d : Dev) : (wr r n d).reset = d.reset := rfl
@[simp] theorem wr_regs (r : RegId) (n : Nat) (d : Dev) : (wr r n d).regs = d.regs.set (homeOf r) (BitVec.ofNat 32 n) := rfl
@[simp] theorem wr_versions (r : RegId) (n : Nat) (d : Dev) : (wr r n d).versions = d.versions := rfl
@[simp] theorem wr_pages (r : RegId) (n : Nat) (d : Dev) : (wr r n d).pages = d.pages := rfl
@[simp] theorem wr_units (r : RegId) (n : Nat) (d : Dev) : (wr r n d).units = d.units := rfl
@[simp] theorem wr_flags (r : RegId) (n : Nat) (d : Dev) : (wr r n d).flags = d.flags := rfl
@[simp] theorem wr_startCause (r : RegId) (n : Nat) (d : Dev) : (wr r n d).startCause = d.startCause := rfl
@[simp] theorem wr_link (r : RegId) (n : Nat) (d : Dev) : (wr r n d).link = d.link := rfl
@[simp] theorem wr_hostTx (r : RegId) (n : Nat) (d : Dev) : (wr r n d).hostTx = d.hostTx := rfl
@[simp] theorem wr_hostWait (r : RegId) (n : Nat) (d : Dev) : (wr r n d).hostWait = d.hostWait := rfl
@[simp] theorem wr_window (r : RegId) (n : Nat) (d : Dev) : (wr r n d).window = d.window := rfl
@[simp] theorem wr_queues (r : RegId) (n : Nat) (d : Dev) : (wr r n d).queues = d.queues := rfl
@[simp] theorem wr_dmaTurn (r : RegId) (n : Nat) (d : Dev) : (wr r n d).dmaTurn = d.dmaTurn := rfl
@[simp] theorem wr_dma (r : RegId) (n : Nat) (d : Dev) : (wr r n d).dma = d.dma := rfl
@[simp] theorem wr_rings (r : RegId) (n : Nat) (d : Dev) : (wr r n d).rings = d.rings := rfl
@[simp] theorem wr_job (r : RegId) (n : Nat) (d : Dev) : (wr r n d).job = d.job := rfl
@[simp] theorem wr_cores (r : RegId) (n : Nat) (d : Dev) : (wr r n d).cores = d.cores := rfl
@[simp] theorem wr_sram (r : RegId) (n : Nat) (d : Dev) : (wr r n d).sram = d.sram := rfl
@[simp] theorem wr_sramPoison (r : RegId) (n : Nat) (d : Dev) : (wr r n d).sramPoison = d.sramPoison := rfl
@[simp] theorem wr_packets (r : RegId) (n : Nat) (d : Dev) : (wr r n d).packets = d.packets := rfl
@[simp] theorem wr_routers (r : RegId) (n : Nat) (d : Dev) : (wr r n d).routers = d.routers := rfl
@[simp] theorem wr_relayIds (r : RegId) (n : Nat) (d : Dev) : (wr r n d).relayIds = d.relayIds := rfl
@[simp] theorem wr_meshLosses (r : RegId) (n : Nat) (d : Dev) : (wr r n d).meshLosses = d.meshLosses := rfl
@[simp] theorem wr_mem (r : RegId) (n : Nat) (d : Dev) : (wr r n d).mem = d.mem := rfl
@[simp] theorem wr_memPoison (r : RegId) (n : Nat) (d : Dev) : (wr r n d).memPoison = d.memPoison := rfl
@[simp] theorem wr_memBad (r : RegId) (n : Nat) (d : Dev) : (wr r n d).memBad = d.memBad := rfl
@[simp] theorem wr_memFlaws (r : RegId) (n : Nat) (d : Dev) : (wr r n d).memFlaws = d.memFlaws := rfl
@[simp] theorem wr_markFlaws (r : RegId) (n : Nat) (d : Dev) : (wr r n d).markFlaws = d.markFlaws := rfl
@[simp] theorem wr_burstFlaws (r : RegId) (n : Nat) (d : Dev) : (wr r n d).burstFlaws = d.burstFlaws := rfl
@[simp] theorem wr_memMarks (r : RegId) (n : Nat) (d : Dev) : (wr r n d).memMarks = d.memMarks := rfl
@[simp] theorem wr_memMap (r : RegId) (n : Nat) (d : Dev) : (wr r n d).memMap = d.memMap := rfl
@[simp] theorem wr_memCtls (r : RegId) (n : Nat) (d : Dev) : (wr r n d).memCtls = d.memCtls := rfl
@[simp] theorem wr_engines (r : RegId) (n : Nat) (d : Dev) : (wr r n d).engines = d.engines := rfl
@[simp] theorem wr_net (r : RegId) (n : Nat) (d : Dev) : (wr r n d).net = d.net := rfl
@[simp] theorem wr_fused (r : RegId) (n : Nat) (d : Dev) : (wr r n d).fused = d.fused := rfl
@[simp] theorem wr_flash (r : RegId) (n : Nat) (d : Dev) : (wr r n d).flash = d.flash := rfl
@[simp] theorem wr_boot (r : RegId) (n : Nat) (d : Dev) : (wr r n d).boot = d.boot := rfl
@[simp] theorem wr_power (r : RegId) (n : Nat) (d : Dev) : (wr r n d).power = d.power := rfl
@[simp] theorem wr_sensors (r : RegId) (n : Nat) (d : Dev) : (wr r n d).sensors = d.sensors := rfl
@[simp] theorem wr_spots (r : RegId) (n : Nat) (d : Dev) : (wr r n d).spots = d.spots := rfl
@[simp] theorem wr_coolant (r : RegId) (n : Nat) (d : Dev) : (wr r n d).coolant = d.coolant := rfl
@[simp] theorem wr_complexes (r : RegId) (n : Nat) (d : Dev) : (wr r n d).complexes = d.complexes := rfl
@[simp] theorem wr_lead (r : RegId) (n : Nat) (d : Dev) : (wr r n d).lead = d.lead := rfl
@[simp] theorem wr_mgmt (r : RegId) (n : Nat) (d : Dev) : (wr r n d).mgmt = d.mgmt := rfl
@[simp] theorem wr_pins (r : RegId) (n : Nat) (d : Dev) : (wr r n d).pins = d.pins := rfl
@[simp] theorem wr_jtag (r : RegId) (n : Nat) (d : Dev) : (wr r n d).jtag = d.jtag := rfl
@[simp] theorem wr_unrun (r : RegId) (n : Nat) (d : Dev) : (wr r n d).unrun = d.unrun := rfl

/-! ### putPage -/

@[simp] theorem putPage_fresh (p : PageId) (g : Page) (d : Dev) : (putPage p g d).fresh = d.fresh := rfl
@[simp] theorem putPage_now (p : PageId) (g : Page) (d : Dev) : (putPage p g d).now = d.now := rfl
@[simp] theorem putPage_always (p : PageId) (g : Page) (d : Dev) : (putPage p g d).always = d.always := rfl
@[simp] theorem putPage_reset (p : PageId) (g : Page) (d : Dev) : (putPage p g d).reset = d.reset := rfl
@[simp] theorem putPage_regs (p : PageId) (g : Page) (d : Dev) : (putPage p g d).regs = d.regs := rfl
@[simp] theorem putPage_versions (p : PageId) (g : Page) (d : Dev) : (putPage p g d).versions = d.versions := rfl
@[simp] theorem putPage_pages (p : PageId) (g : Page) (d : Dev) : (putPage p g d).pages = d.pages.set p g := rfl
@[simp] theorem putPage_units (p : PageId) (g : Page) (d : Dev) : (putPage p g d).units = d.units := rfl
@[simp] theorem putPage_flags (p : PageId) (g : Page) (d : Dev) : (putPage p g d).flags = d.flags := rfl
@[simp] theorem putPage_startCause (p : PageId) (g : Page) (d : Dev) : (putPage p g d).startCause = d.startCause := rfl
@[simp] theorem putPage_link (p : PageId) (g : Page) (d : Dev) : (putPage p g d).link = d.link := rfl
@[simp] theorem putPage_hostTx (p : PageId) (g : Page) (d : Dev) : (putPage p g d).hostTx = d.hostTx := rfl
@[simp] theorem putPage_hostWait (p : PageId) (g : Page) (d : Dev) : (putPage p g d).hostWait = d.hostWait := rfl
@[simp] theorem putPage_window (p : PageId) (g : Page) (d : Dev) : (putPage p g d).window = d.window := rfl
@[simp] theorem putPage_queues (p : PageId) (g : Page) (d : Dev) : (putPage p g d).queues = d.queues := rfl
@[simp] theorem putPage_dmaTurn (p : PageId) (g : Page) (d : Dev) : (putPage p g d).dmaTurn = d.dmaTurn := rfl
@[simp] theorem putPage_dma (p : PageId) (g : Page) (d : Dev) : (putPage p g d).dma = d.dma := rfl
@[simp] theorem putPage_rings (p : PageId) (g : Page) (d : Dev) : (putPage p g d).rings = d.rings := rfl
@[simp] theorem putPage_job (p : PageId) (g : Page) (d : Dev) : (putPage p g d).job = d.job := rfl
@[simp] theorem putPage_cores (p : PageId) (g : Page) (d : Dev) : (putPage p g d).cores = d.cores := rfl
@[simp] theorem putPage_sram (p : PageId) (g : Page) (d : Dev) : (putPage p g d).sram = d.sram := rfl
@[simp] theorem putPage_sramPoison (p : PageId) (g : Page) (d : Dev) : (putPage p g d).sramPoison = d.sramPoison := rfl
@[simp] theorem putPage_packets (p : PageId) (g : Page) (d : Dev) : (putPage p g d).packets = d.packets := rfl
@[simp] theorem putPage_routers (p : PageId) (g : Page) (d : Dev) : (putPage p g d).routers = d.routers := rfl
@[simp] theorem putPage_relayIds (p : PageId) (g : Page) (d : Dev) : (putPage p g d).relayIds = d.relayIds := rfl
@[simp] theorem putPage_meshLosses (p : PageId) (g : Page) (d : Dev) : (putPage p g d).meshLosses = d.meshLosses := rfl
@[simp] theorem putPage_mem (p : PageId) (g : Page) (d : Dev) : (putPage p g d).mem = d.mem := rfl
@[simp] theorem putPage_memPoison (p : PageId) (g : Page) (d : Dev) : (putPage p g d).memPoison = d.memPoison := rfl
@[simp] theorem putPage_memBad (p : PageId) (g : Page) (d : Dev) : (putPage p g d).memBad = d.memBad := rfl
@[simp] theorem putPage_memFlaws (p : PageId) (g : Page) (d : Dev) : (putPage p g d).memFlaws = d.memFlaws := rfl
@[simp] theorem putPage_markFlaws (p : PageId) (g : Page) (d : Dev) : (putPage p g d).markFlaws = d.markFlaws := rfl
@[simp] theorem putPage_burstFlaws (p : PageId) (g : Page) (d : Dev) : (putPage p g d).burstFlaws = d.burstFlaws := rfl
@[simp] theorem putPage_memMarks (p : PageId) (g : Page) (d : Dev) : (putPage p g d).memMarks = d.memMarks := rfl
@[simp] theorem putPage_memMap (p : PageId) (g : Page) (d : Dev) : (putPage p g d).memMap = d.memMap := rfl
@[simp] theorem putPage_memCtls (p : PageId) (g : Page) (d : Dev) : (putPage p g d).memCtls = d.memCtls := rfl
@[simp] theorem putPage_engines (p : PageId) (g : Page) (d : Dev) : (putPage p g d).engines = d.engines := rfl
@[simp] theorem putPage_net (p : PageId) (g : Page) (d : Dev) : (putPage p g d).net = d.net := rfl
@[simp] theorem putPage_fused (p : PageId) (g : Page) (d : Dev) : (putPage p g d).fused = d.fused := rfl
@[simp] theorem putPage_flash (p : PageId) (g : Page) (d : Dev) : (putPage p g d).flash = d.flash := rfl
@[simp] theorem putPage_boot (p : PageId) (g : Page) (d : Dev) : (putPage p g d).boot = d.boot := rfl
@[simp] theorem putPage_power (p : PageId) (g : Page) (d : Dev) : (putPage p g d).power = d.power := rfl
@[simp] theorem putPage_sensors (p : PageId) (g : Page) (d : Dev) : (putPage p g d).sensors = d.sensors := rfl
@[simp] theorem putPage_spots (p : PageId) (g : Page) (d : Dev) : (putPage p g d).spots = d.spots := rfl
@[simp] theorem putPage_coolant (p : PageId) (g : Page) (d : Dev) : (putPage p g d).coolant = d.coolant := rfl
@[simp] theorem putPage_complexes (p : PageId) (g : Page) (d : Dev) : (putPage p g d).complexes = d.complexes := rfl
@[simp] theorem putPage_lead (p : PageId) (g : Page) (d : Dev) : (putPage p g d).lead = d.lead := rfl
@[simp] theorem putPage_mgmt (p : PageId) (g : Page) (d : Dev) : (putPage p g d).mgmt = d.mgmt := rfl
@[simp] theorem putPage_pins (p : PageId) (g : Page) (d : Dev) : (putPage p g d).pins = d.pins := rfl
@[simp] theorem putPage_jtag (p : PageId) (g : Page) (d : Dev) : (putPage p g d).jtag = d.jtag := rfl
@[simp] theorem putPage_unrun (p : PageId) (g : Page) (d : Dev) : (putPage p g d).unrun = d.unrun := rfl

/-! ### tickFree -/

@[simp] theorem tickFree_fresh (d : Dev) : (tickFree d).fresh = d.fresh + 1 := rfl
@[simp] theorem tickFree_now (d : Dev) : (tickFree d).now = d.now := rfl
@[simp] theorem tickFree_always (d : Dev) : (tickFree d).always = d.always := rfl
@[simp] theorem tickFree_reset (d : Dev) : (tickFree d).reset = d.reset := rfl
@[simp] theorem tickFree_regs (d : Dev) : (tickFree d).regs = d.regs := rfl
@[simp] theorem tickFree_versions (d : Dev) : (tickFree d).versions = d.versions := rfl
@[simp] theorem tickFree_pages (d : Dev) : (tickFree d).pages = d.pages := rfl
@[simp] theorem tickFree_units (d : Dev) : (tickFree d).units = d.units := rfl
@[simp] theorem tickFree_flags (d : Dev) : (tickFree d).flags = d.flags := rfl
@[simp] theorem tickFree_startCause (d : Dev) : (tickFree d).startCause = d.startCause := rfl
@[simp] theorem tickFree_link (d : Dev) : (tickFree d).link = d.link := rfl
@[simp] theorem tickFree_hostTx (d : Dev) : (tickFree d).hostTx = d.hostTx := rfl
@[simp] theorem tickFree_hostWait (d : Dev) : (tickFree d).hostWait = d.hostWait := rfl
@[simp] theorem tickFree_window (d : Dev) : (tickFree d).window = d.window := rfl
@[simp] theorem tickFree_queues (d : Dev) : (tickFree d).queues = d.queues := rfl
@[simp] theorem tickFree_dmaTurn (d : Dev) : (tickFree d).dmaTurn = d.dmaTurn := rfl
@[simp] theorem tickFree_dma (d : Dev) : (tickFree d).dma = d.dma := rfl
@[simp] theorem tickFree_rings (d : Dev) : (tickFree d).rings = d.rings := rfl
@[simp] theorem tickFree_job (d : Dev) : (tickFree d).job = d.job := rfl
@[simp] theorem tickFree_cores (d : Dev) : (tickFree d).cores = d.cores := rfl
@[simp] theorem tickFree_sram (d : Dev) : (tickFree d).sram = d.sram := rfl
@[simp] theorem tickFree_sramPoison (d : Dev) : (tickFree d).sramPoison = d.sramPoison := rfl
@[simp] theorem tickFree_packets (d : Dev) : (tickFree d).packets = d.packets := rfl
@[simp] theorem tickFree_routers (d : Dev) : (tickFree d).routers = d.routers := rfl
@[simp] theorem tickFree_relayIds (d : Dev) : (tickFree d).relayIds = d.relayIds := rfl
@[simp] theorem tickFree_meshLosses (d : Dev) : (tickFree d).meshLosses = d.meshLosses := rfl
@[simp] theorem tickFree_mem (d : Dev) : (tickFree d).mem = d.mem := rfl
@[simp] theorem tickFree_memPoison (d : Dev) : (tickFree d).memPoison = d.memPoison := rfl
@[simp] theorem tickFree_memBad (d : Dev) : (tickFree d).memBad = d.memBad := rfl
@[simp] theorem tickFree_memFlaws (d : Dev) : (tickFree d).memFlaws = d.memFlaws := rfl
@[simp] theorem tickFree_markFlaws (d : Dev) : (tickFree d).markFlaws = d.markFlaws := rfl
@[simp] theorem tickFree_burstFlaws (d : Dev) : (tickFree d).burstFlaws = d.burstFlaws := rfl
@[simp] theorem tickFree_memMarks (d : Dev) : (tickFree d).memMarks = d.memMarks := rfl
@[simp] theorem tickFree_memMap (d : Dev) : (tickFree d).memMap = d.memMap := rfl
@[simp] theorem tickFree_memCtls (d : Dev) : (tickFree d).memCtls = d.memCtls := rfl
@[simp] theorem tickFree_engines (d : Dev) : (tickFree d).engines = d.engines := rfl
@[simp] theorem tickFree_net (d : Dev) : (tickFree d).net = d.net := rfl
@[simp] theorem tickFree_fused (d : Dev) : (tickFree d).fused = d.fused := rfl
@[simp] theorem tickFree_flash (d : Dev) : (tickFree d).flash = d.flash := rfl
@[simp] theorem tickFree_boot (d : Dev) : (tickFree d).boot = d.boot := rfl
@[simp] theorem tickFree_power (d : Dev) : (tickFree d).power = d.power := rfl
@[simp] theorem tickFree_sensors (d : Dev) : (tickFree d).sensors = d.sensors := rfl
@[simp] theorem tickFree_spots (d : Dev) : (tickFree d).spots = d.spots := rfl
@[simp] theorem tickFree_coolant (d : Dev) : (tickFree d).coolant = d.coolant := rfl
@[simp] theorem tickFree_complexes (d : Dev) : (tickFree d).complexes = d.complexes := rfl
@[simp] theorem tickFree_lead (d : Dev) : (tickFree d).lead = d.lead := rfl
@[simp] theorem tickFree_mgmt (d : Dev) : (tickFree d).mgmt = d.mgmt := rfl
@[simp] theorem tickFree_pins (d : Dev) : (tickFree d).pins = d.pins := rfl
@[simp] theorem tickFree_jtag (d : Dev) : (tickFree d).jtag = d.jtag := rfl
@[simp] theorem tickFree_unrun (d : Dev) : (tickFree d).unrun = d.unrun := rfl

/-! ### putQueue -/

@[simp] theorem putQueue_fresh (q : Nat) (x : DmaQueue) (d : Dev) : (putQueue q x d).fresh = d.fresh := rfl
@[simp] theorem putQueue_now (q : Nat) (x : DmaQueue) (d : Dev) : (putQueue q x d).now = d.now := rfl
@[simp] theorem putQueue_always (q : Nat) (x : DmaQueue) (d : Dev) : (putQueue q x d).always = d.always := rfl
@[simp] theorem putQueue_reset (q : Nat) (x : DmaQueue) (d : Dev) : (putQueue q x d).reset = d.reset := rfl
@[simp] theorem putQueue_regs (q : Nat) (x : DmaQueue) (d : Dev) : (putQueue q x d).regs = d.regs := rfl
@[simp] theorem putQueue_versions (q : Nat) (x : DmaQueue) (d : Dev) : (putQueue q x d).versions = d.versions := rfl
@[simp] theorem putQueue_pages (q : Nat) (x : DmaQueue) (d : Dev) : (putQueue q x d).pages = d.pages := rfl
@[simp] theorem putQueue_units (q : Nat) (x : DmaQueue) (d : Dev) : (putQueue q x d).units = d.units := rfl
@[simp] theorem putQueue_flags (q : Nat) (x : DmaQueue) (d : Dev) : (putQueue q x d).flags = d.flags := rfl
@[simp] theorem putQueue_startCause (q : Nat) (x : DmaQueue) (d : Dev) : (putQueue q x d).startCause = d.startCause := rfl
@[simp] theorem putQueue_link (q : Nat) (x : DmaQueue) (d : Dev) : (putQueue q x d).link = d.link := rfl
@[simp] theorem putQueue_hostTx (q : Nat) (x : DmaQueue) (d : Dev) : (putQueue q x d).hostTx = d.hostTx := rfl
@[simp] theorem putQueue_hostWait (q : Nat) (x : DmaQueue) (d : Dev) : (putQueue q x d).hostWait = d.hostWait := rfl
@[simp] theorem putQueue_window (q : Nat) (x : DmaQueue) (d : Dev) : (putQueue q x d).window = d.window := rfl
@[simp] theorem putQueue_queues (q : Nat) (x : DmaQueue) (d : Dev) : (putQueue q x d).queues = d.queues.set q x := rfl
@[simp] theorem putQueue_dmaTurn (q : Nat) (x : DmaQueue) (d : Dev) : (putQueue q x d).dmaTurn = d.dmaTurn := rfl
@[simp] theorem putQueue_dma (q : Nat) (x : DmaQueue) (d : Dev) : (putQueue q x d).dma = d.dma := rfl
@[simp] theorem putQueue_rings (q : Nat) (x : DmaQueue) (d : Dev) : (putQueue q x d).rings = d.rings := rfl
@[simp] theorem putQueue_job (q : Nat) (x : DmaQueue) (d : Dev) : (putQueue q x d).job = d.job := rfl
@[simp] theorem putQueue_cores (q : Nat) (x : DmaQueue) (d : Dev) : (putQueue q x d).cores = d.cores := rfl
@[simp] theorem putQueue_sram (q : Nat) (x : DmaQueue) (d : Dev) : (putQueue q x d).sram = d.sram := rfl
@[simp] theorem putQueue_sramPoison (q : Nat) (x : DmaQueue) (d : Dev) : (putQueue q x d).sramPoison = d.sramPoison := rfl
@[simp] theorem putQueue_packets (q : Nat) (x : DmaQueue) (d : Dev) : (putQueue q x d).packets = d.packets := rfl
@[simp] theorem putQueue_routers (q : Nat) (x : DmaQueue) (d : Dev) : (putQueue q x d).routers = d.routers := rfl
@[simp] theorem putQueue_relayIds (q : Nat) (x : DmaQueue) (d : Dev) : (putQueue q x d).relayIds = d.relayIds := rfl
@[simp] theorem putQueue_meshLosses (q : Nat) (x : DmaQueue) (d : Dev) : (putQueue q x d).meshLosses = d.meshLosses := rfl
@[simp] theorem putQueue_mem (q : Nat) (x : DmaQueue) (d : Dev) : (putQueue q x d).mem = d.mem := rfl
@[simp] theorem putQueue_memPoison (q : Nat) (x : DmaQueue) (d : Dev) : (putQueue q x d).memPoison = d.memPoison := rfl
@[simp] theorem putQueue_memBad (q : Nat) (x : DmaQueue) (d : Dev) : (putQueue q x d).memBad = d.memBad := rfl
@[simp] theorem putQueue_memFlaws (q : Nat) (x : DmaQueue) (d : Dev) : (putQueue q x d).memFlaws = d.memFlaws := rfl
@[simp] theorem putQueue_markFlaws (q : Nat) (x : DmaQueue) (d : Dev) : (putQueue q x d).markFlaws = d.markFlaws := rfl
@[simp] theorem putQueue_burstFlaws (q : Nat) (x : DmaQueue) (d : Dev) : (putQueue q x d).burstFlaws = d.burstFlaws := rfl
@[simp] theorem putQueue_memMarks (q : Nat) (x : DmaQueue) (d : Dev) : (putQueue q x d).memMarks = d.memMarks := rfl
@[simp] theorem putQueue_memMap (q : Nat) (x : DmaQueue) (d : Dev) : (putQueue q x d).memMap = d.memMap := rfl
@[simp] theorem putQueue_memCtls (q : Nat) (x : DmaQueue) (d : Dev) : (putQueue q x d).memCtls = d.memCtls := rfl
@[simp] theorem putQueue_engines (q : Nat) (x : DmaQueue) (d : Dev) : (putQueue q x d).engines = d.engines := rfl
@[simp] theorem putQueue_net (q : Nat) (x : DmaQueue) (d : Dev) : (putQueue q x d).net = d.net := rfl
@[simp] theorem putQueue_fused (q : Nat) (x : DmaQueue) (d : Dev) : (putQueue q x d).fused = d.fused := rfl
@[simp] theorem putQueue_flash (q : Nat) (x : DmaQueue) (d : Dev) : (putQueue q x d).flash = d.flash := rfl
@[simp] theorem putQueue_boot (q : Nat) (x : DmaQueue) (d : Dev) : (putQueue q x d).boot = d.boot := rfl
@[simp] theorem putQueue_power (q : Nat) (x : DmaQueue) (d : Dev) : (putQueue q x d).power = d.power := rfl
@[simp] theorem putQueue_sensors (q : Nat) (x : DmaQueue) (d : Dev) : (putQueue q x d).sensors = d.sensors := rfl
@[simp] theorem putQueue_spots (q : Nat) (x : DmaQueue) (d : Dev) : (putQueue q x d).spots = d.spots := rfl
@[simp] theorem putQueue_coolant (q : Nat) (x : DmaQueue) (d : Dev) : (putQueue q x d).coolant = d.coolant := rfl
@[simp] theorem putQueue_complexes (q : Nat) (x : DmaQueue) (d : Dev) : (putQueue q x d).complexes = d.complexes := rfl
@[simp] theorem putQueue_lead (q : Nat) (x : DmaQueue) (d : Dev) : (putQueue q x d).lead = d.lead := rfl
@[simp] theorem putQueue_mgmt (q : Nat) (x : DmaQueue) (d : Dev) : (putQueue q x d).mgmt = d.mgmt := rfl
@[simp] theorem putQueue_pins (q : Nat) (x : DmaQueue) (d : Dev) : (putQueue q x d).pins = d.pins := rfl
@[simp] theorem putQueue_jtag (q : Nat) (x : DmaQueue) (d : Dev) : (putQueue q x d).jtag = d.jtag := rfl
@[simp] theorem putQueue_unrun (q : Nat) (x : DmaQueue) (d : Dev) : (putQueue q x d).unrun = d.unrun := rfl

/-! ### putCore -/

@[simp] theorem putCore_fresh (k : Nat) (c : Core) (d : Dev) : (putCore k c d).fresh = d.fresh := rfl
@[simp] theorem putCore_now (k : Nat) (c : Core) (d : Dev) : (putCore k c d).now = d.now := rfl
@[simp] theorem putCore_always (k : Nat) (c : Core) (d : Dev) : (putCore k c d).always = d.always := rfl
@[simp] theorem putCore_reset (k : Nat) (c : Core) (d : Dev) : (putCore k c d).reset = d.reset := rfl
@[simp] theorem putCore_regs (k : Nat) (c : Core) (d : Dev) : (putCore k c d).regs = d.regs := rfl
@[simp] theorem putCore_versions (k : Nat) (c : Core) (d : Dev) : (putCore k c d).versions = d.versions := rfl
@[simp] theorem putCore_pages (k : Nat) (c : Core) (d : Dev) : (putCore k c d).pages = d.pages := rfl
@[simp] theorem putCore_units (k : Nat) (c : Core) (d : Dev) : (putCore k c d).units = d.units := rfl
@[simp] theorem putCore_flags (k : Nat) (c : Core) (d : Dev) : (putCore k c d).flags = d.flags := rfl
@[simp] theorem putCore_startCause (k : Nat) (c : Core) (d : Dev) : (putCore k c d).startCause = d.startCause := rfl
@[simp] theorem putCore_link (k : Nat) (c : Core) (d : Dev) : (putCore k c d).link = d.link := rfl
@[simp] theorem putCore_hostTx (k : Nat) (c : Core) (d : Dev) : (putCore k c d).hostTx = d.hostTx := rfl
@[simp] theorem putCore_hostWait (k : Nat) (c : Core) (d : Dev) : (putCore k c d).hostWait = d.hostWait := rfl
@[simp] theorem putCore_window (k : Nat) (c : Core) (d : Dev) : (putCore k c d).window = d.window := rfl
@[simp] theorem putCore_queues (k : Nat) (c : Core) (d : Dev) : (putCore k c d).queues = d.queues := rfl
@[simp] theorem putCore_dmaTurn (k : Nat) (c : Core) (d : Dev) : (putCore k c d).dmaTurn = d.dmaTurn := rfl
@[simp] theorem putCore_dma (k : Nat) (c : Core) (d : Dev) : (putCore k c d).dma = d.dma := rfl
@[simp] theorem putCore_rings (k : Nat) (c : Core) (d : Dev) : (putCore k c d).rings = d.rings := rfl
@[simp] theorem putCore_job (k : Nat) (c : Core) (d : Dev) : (putCore k c d).job = d.job := rfl
@[simp] theorem putCore_cores (k : Nat) (c : Core) (d : Dev) : (putCore k c d).cores = d.cores.set k c := rfl
@[simp] theorem putCore_sram (k : Nat) (c : Core) (d : Dev) : (putCore k c d).sram = d.sram := rfl
@[simp] theorem putCore_sramPoison (k : Nat) (c : Core) (d : Dev) : (putCore k c d).sramPoison = d.sramPoison := rfl
@[simp] theorem putCore_packets (k : Nat) (c : Core) (d : Dev) : (putCore k c d).packets = d.packets := rfl
@[simp] theorem putCore_routers (k : Nat) (c : Core) (d : Dev) : (putCore k c d).routers = d.routers := rfl
@[simp] theorem putCore_relayIds (k : Nat) (c : Core) (d : Dev) : (putCore k c d).relayIds = d.relayIds := rfl
@[simp] theorem putCore_meshLosses (k : Nat) (c : Core) (d : Dev) : (putCore k c d).meshLosses = d.meshLosses := rfl
@[simp] theorem putCore_mem (k : Nat) (c : Core) (d : Dev) : (putCore k c d).mem = d.mem := rfl
@[simp] theorem putCore_memPoison (k : Nat) (c : Core) (d : Dev) : (putCore k c d).memPoison = d.memPoison := rfl
@[simp] theorem putCore_memBad (k : Nat) (c : Core) (d : Dev) : (putCore k c d).memBad = d.memBad := rfl
@[simp] theorem putCore_memFlaws (k : Nat) (c : Core) (d : Dev) : (putCore k c d).memFlaws = d.memFlaws := rfl
@[simp] theorem putCore_markFlaws (k : Nat) (c : Core) (d : Dev) : (putCore k c d).markFlaws = d.markFlaws := rfl
@[simp] theorem putCore_burstFlaws (k : Nat) (c : Core) (d : Dev) : (putCore k c d).burstFlaws = d.burstFlaws := rfl
@[simp] theorem putCore_memMarks (k : Nat) (c : Core) (d : Dev) : (putCore k c d).memMarks = d.memMarks := rfl
@[simp] theorem putCore_memMap (k : Nat) (c : Core) (d : Dev) : (putCore k c d).memMap = d.memMap := rfl
@[simp] theorem putCore_memCtls (k : Nat) (c : Core) (d : Dev) : (putCore k c d).memCtls = d.memCtls := rfl
@[simp] theorem putCore_engines (k : Nat) (c : Core) (d : Dev) : (putCore k c d).engines = d.engines := rfl
@[simp] theorem putCore_net (k : Nat) (c : Core) (d : Dev) : (putCore k c d).net = d.net := rfl
@[simp] theorem putCore_fused (k : Nat) (c : Core) (d : Dev) : (putCore k c d).fused = d.fused := rfl
@[simp] theorem putCore_flash (k : Nat) (c : Core) (d : Dev) : (putCore k c d).flash = d.flash := rfl
@[simp] theorem putCore_boot (k : Nat) (c : Core) (d : Dev) : (putCore k c d).boot = d.boot := rfl
@[simp] theorem putCore_power (k : Nat) (c : Core) (d : Dev) : (putCore k c d).power = d.power := rfl
@[simp] theorem putCore_sensors (k : Nat) (c : Core) (d : Dev) : (putCore k c d).sensors = d.sensors := rfl
@[simp] theorem putCore_spots (k : Nat) (c : Core) (d : Dev) : (putCore k c d).spots = d.spots := rfl
@[simp] theorem putCore_coolant (k : Nat) (c : Core) (d : Dev) : (putCore k c d).coolant = d.coolant := rfl
@[simp] theorem putCore_complexes (k : Nat) (c : Core) (d : Dev) : (putCore k c d).complexes = d.complexes := rfl
@[simp] theorem putCore_lead (k : Nat) (c : Core) (d : Dev) : (putCore k c d).lead = d.lead := rfl
@[simp] theorem putCore_mgmt (k : Nat) (c : Core) (d : Dev) : (putCore k c d).mgmt = d.mgmt := rfl
@[simp] theorem putCore_pins (k : Nat) (c : Core) (d : Dev) : (putCore k c d).pins = d.pins := rfl
@[simp] theorem putCore_jtag (k : Nat) (c : Core) (d : Dev) : (putCore k c d).jtag = d.jtag := rfl
@[simp] theorem putCore_unrun (k : Nat) (c : Core) (d : Dev) : (putCore k c d).unrun = d.unrun := rfl

/-! ### modCore -/

@[simp] theorem modCore_fresh (k : Nat) (f : Core → Core) (d : Dev) : (modCore k f d).fresh = d.fresh := rfl
@[simp] theorem modCore_now (k : Nat) (f : Core → Core) (d : Dev) : (modCore k f d).now = d.now := rfl
@[simp] theorem modCore_always (k : Nat) (f : Core → Core) (d : Dev) : (modCore k f d).always = d.always := rfl
@[simp] theorem modCore_reset (k : Nat) (f : Core → Core) (d : Dev) : (modCore k f d).reset = d.reset := rfl
@[simp] theorem modCore_regs (k : Nat) (f : Core → Core) (d : Dev) : (modCore k f d).regs = d.regs := rfl
@[simp] theorem modCore_versions (k : Nat) (f : Core → Core) (d : Dev) : (modCore k f d).versions = d.versions := rfl
@[simp] theorem modCore_pages (k : Nat) (f : Core → Core) (d : Dev) : (modCore k f d).pages = d.pages := rfl
@[simp] theorem modCore_units (k : Nat) (f : Core → Core) (d : Dev) : (modCore k f d).units = d.units := rfl
@[simp] theorem modCore_flags (k : Nat) (f : Core → Core) (d : Dev) : (modCore k f d).flags = d.flags := rfl
@[simp] theorem modCore_startCause (k : Nat) (f : Core → Core) (d : Dev) : (modCore k f d).startCause = d.startCause := rfl
@[simp] theorem modCore_link (k : Nat) (f : Core → Core) (d : Dev) : (modCore k f d).link = d.link := rfl
@[simp] theorem modCore_hostTx (k : Nat) (f : Core → Core) (d : Dev) : (modCore k f d).hostTx = d.hostTx := rfl
@[simp] theorem modCore_hostWait (k : Nat) (f : Core → Core) (d : Dev) : (modCore k f d).hostWait = d.hostWait := rfl
@[simp] theorem modCore_window (k : Nat) (f : Core → Core) (d : Dev) : (modCore k f d).window = d.window := rfl
@[simp] theorem modCore_queues (k : Nat) (f : Core → Core) (d : Dev) : (modCore k f d).queues = d.queues := rfl
@[simp] theorem modCore_dmaTurn (k : Nat) (f : Core → Core) (d : Dev) : (modCore k f d).dmaTurn = d.dmaTurn := rfl
@[simp] theorem modCore_dma (k : Nat) (f : Core → Core) (d : Dev) : (modCore k f d).dma = d.dma := rfl
@[simp] theorem modCore_rings (k : Nat) (f : Core → Core) (d : Dev) : (modCore k f d).rings = d.rings := rfl
@[simp] theorem modCore_job (k : Nat) (f : Core → Core) (d : Dev) : (modCore k f d).job = d.job := rfl
@[simp] theorem modCore_cores (k : Nat) (f : Core → Core) (d : Dev) : (modCore k f d).cores = d.cores.set k (f (coreOf k d)) := rfl
@[simp] theorem modCore_sram (k : Nat) (f : Core → Core) (d : Dev) : (modCore k f d).sram = d.sram := rfl
@[simp] theorem modCore_sramPoison (k : Nat) (f : Core → Core) (d : Dev) : (modCore k f d).sramPoison = d.sramPoison := rfl
@[simp] theorem modCore_packets (k : Nat) (f : Core → Core) (d : Dev) : (modCore k f d).packets = d.packets := rfl
@[simp] theorem modCore_routers (k : Nat) (f : Core → Core) (d : Dev) : (modCore k f d).routers = d.routers := rfl
@[simp] theorem modCore_relayIds (k : Nat) (f : Core → Core) (d : Dev) : (modCore k f d).relayIds = d.relayIds := rfl
@[simp] theorem modCore_meshLosses (k : Nat) (f : Core → Core) (d : Dev) : (modCore k f d).meshLosses = d.meshLosses := rfl
@[simp] theorem modCore_mem (k : Nat) (f : Core → Core) (d : Dev) : (modCore k f d).mem = d.mem := rfl
@[simp] theorem modCore_memPoison (k : Nat) (f : Core → Core) (d : Dev) : (modCore k f d).memPoison = d.memPoison := rfl
@[simp] theorem modCore_memBad (k : Nat) (f : Core → Core) (d : Dev) : (modCore k f d).memBad = d.memBad := rfl
@[simp] theorem modCore_memFlaws (k : Nat) (f : Core → Core) (d : Dev) : (modCore k f d).memFlaws = d.memFlaws := rfl
@[simp] theorem modCore_markFlaws (k : Nat) (f : Core → Core) (d : Dev) : (modCore k f d).markFlaws = d.markFlaws := rfl
@[simp] theorem modCore_burstFlaws (k : Nat) (f : Core → Core) (d : Dev) : (modCore k f d).burstFlaws = d.burstFlaws := rfl
@[simp] theorem modCore_memMarks (k : Nat) (f : Core → Core) (d : Dev) : (modCore k f d).memMarks = d.memMarks := rfl
@[simp] theorem modCore_memMap (k : Nat) (f : Core → Core) (d : Dev) : (modCore k f d).memMap = d.memMap := rfl
@[simp] theorem modCore_memCtls (k : Nat) (f : Core → Core) (d : Dev) : (modCore k f d).memCtls = d.memCtls := rfl
@[simp] theorem modCore_engines (k : Nat) (f : Core → Core) (d : Dev) : (modCore k f d).engines = d.engines := rfl
@[simp] theorem modCore_net (k : Nat) (f : Core → Core) (d : Dev) : (modCore k f d).net = d.net := rfl
@[simp] theorem modCore_fused (k : Nat) (f : Core → Core) (d : Dev) : (modCore k f d).fused = d.fused := rfl
@[simp] theorem modCore_flash (k : Nat) (f : Core → Core) (d : Dev) : (modCore k f d).flash = d.flash := rfl
@[simp] theorem modCore_boot (k : Nat) (f : Core → Core) (d : Dev) : (modCore k f d).boot = d.boot := rfl
@[simp] theorem modCore_power (k : Nat) (f : Core → Core) (d : Dev) : (modCore k f d).power = d.power := rfl
@[simp] theorem modCore_sensors (k : Nat) (f : Core → Core) (d : Dev) : (modCore k f d).sensors = d.sensors := rfl
@[simp] theorem modCore_spots (k : Nat) (f : Core → Core) (d : Dev) : (modCore k f d).spots = d.spots := rfl
@[simp] theorem modCore_coolant (k : Nat) (f : Core → Core) (d : Dev) : (modCore k f d).coolant = d.coolant := rfl
@[simp] theorem modCore_complexes (k : Nat) (f : Core → Core) (d : Dev) : (modCore k f d).complexes = d.complexes := rfl
@[simp] theorem modCore_lead (k : Nat) (f : Core → Core) (d : Dev) : (modCore k f d).lead = d.lead := rfl
@[simp] theorem modCore_mgmt (k : Nat) (f : Core → Core) (d : Dev) : (modCore k f d).mgmt = d.mgmt := rfl
@[simp] theorem modCore_pins (k : Nat) (f : Core → Core) (d : Dev) : (modCore k f d).pins = d.pins := rfl
@[simp] theorem modCore_jtag (k : Nat) (f : Core → Core) (d : Dev) : (modCore k f d).jtag = d.jtag := rfl
@[simp] theorem modCore_unrun (k : Nat) (f : Core → Core) (d : Dev) : (modCore k f d).unrun = d.unrun := rfl

/-! ### putMemCtl -/

@[simp] theorem putMemCtl_fresh (c : Nat) (m : MemCtl) (d : Dev) : (putMemCtl c m d).fresh = d.fresh := rfl
@[simp] theorem putMemCtl_now (c : Nat) (m : MemCtl) (d : Dev) : (putMemCtl c m d).now = d.now := rfl
@[simp] theorem putMemCtl_always (c : Nat) (m : MemCtl) (d : Dev) : (putMemCtl c m d).always = d.always := rfl
@[simp] theorem putMemCtl_reset (c : Nat) (m : MemCtl) (d : Dev) : (putMemCtl c m d).reset = d.reset := rfl
@[simp] theorem putMemCtl_regs (c : Nat) (m : MemCtl) (d : Dev) : (putMemCtl c m d).regs = d.regs := rfl
@[simp] theorem putMemCtl_versions (c : Nat) (m : MemCtl) (d : Dev) : (putMemCtl c m d).versions = d.versions := rfl
@[simp] theorem putMemCtl_pages (c : Nat) (m : MemCtl) (d : Dev) : (putMemCtl c m d).pages = d.pages := rfl
@[simp] theorem putMemCtl_units (c : Nat) (m : MemCtl) (d : Dev) : (putMemCtl c m d).units = d.units := rfl
@[simp] theorem putMemCtl_flags (c : Nat) (m : MemCtl) (d : Dev) : (putMemCtl c m d).flags = d.flags := rfl
@[simp] theorem putMemCtl_startCause (c : Nat) (m : MemCtl) (d : Dev) : (putMemCtl c m d).startCause = d.startCause := rfl
@[simp] theorem putMemCtl_link (c : Nat) (m : MemCtl) (d : Dev) : (putMemCtl c m d).link = d.link := rfl
@[simp] theorem putMemCtl_hostTx (c : Nat) (m : MemCtl) (d : Dev) : (putMemCtl c m d).hostTx = d.hostTx := rfl
@[simp] theorem putMemCtl_hostWait (c : Nat) (m : MemCtl) (d : Dev) : (putMemCtl c m d).hostWait = d.hostWait := rfl
@[simp] theorem putMemCtl_window (c : Nat) (m : MemCtl) (d : Dev) : (putMemCtl c m d).window = d.window := rfl
@[simp] theorem putMemCtl_queues (c : Nat) (m : MemCtl) (d : Dev) : (putMemCtl c m d).queues = d.queues := rfl
@[simp] theorem putMemCtl_dmaTurn (c : Nat) (m : MemCtl) (d : Dev) : (putMemCtl c m d).dmaTurn = d.dmaTurn := rfl
@[simp] theorem putMemCtl_dma (c : Nat) (m : MemCtl) (d : Dev) : (putMemCtl c m d).dma = d.dma := rfl
@[simp] theorem putMemCtl_rings (c : Nat) (m : MemCtl) (d : Dev) : (putMemCtl c m d).rings = d.rings := rfl
@[simp] theorem putMemCtl_job (c : Nat) (m : MemCtl) (d : Dev) : (putMemCtl c m d).job = d.job := rfl
@[simp] theorem putMemCtl_cores (c : Nat) (m : MemCtl) (d : Dev) : (putMemCtl c m d).cores = d.cores := rfl
@[simp] theorem putMemCtl_sram (c : Nat) (m : MemCtl) (d : Dev) : (putMemCtl c m d).sram = d.sram := rfl
@[simp] theorem putMemCtl_sramPoison (c : Nat) (m : MemCtl) (d : Dev) : (putMemCtl c m d).sramPoison = d.sramPoison := rfl
@[simp] theorem putMemCtl_packets (c : Nat) (m : MemCtl) (d : Dev) : (putMemCtl c m d).packets = d.packets := rfl
@[simp] theorem putMemCtl_routers (c : Nat) (m : MemCtl) (d : Dev) : (putMemCtl c m d).routers = d.routers := rfl
@[simp] theorem putMemCtl_relayIds (c : Nat) (m : MemCtl) (d : Dev) : (putMemCtl c m d).relayIds = d.relayIds := rfl
@[simp] theorem putMemCtl_meshLosses (c : Nat) (m : MemCtl) (d : Dev) : (putMemCtl c m d).meshLosses = d.meshLosses := rfl
@[simp] theorem putMemCtl_mem (c : Nat) (m : MemCtl) (d : Dev) : (putMemCtl c m d).mem = d.mem := rfl
@[simp] theorem putMemCtl_memPoison (c : Nat) (m : MemCtl) (d : Dev) : (putMemCtl c m d).memPoison = d.memPoison := rfl
@[simp] theorem putMemCtl_memBad (c : Nat) (m : MemCtl) (d : Dev) : (putMemCtl c m d).memBad = d.memBad := rfl
@[simp] theorem putMemCtl_memFlaws (c : Nat) (m : MemCtl) (d : Dev) : (putMemCtl c m d).memFlaws = d.memFlaws := rfl
@[simp] theorem putMemCtl_markFlaws (c : Nat) (m : MemCtl) (d : Dev) : (putMemCtl c m d).markFlaws = d.markFlaws := rfl
@[simp] theorem putMemCtl_burstFlaws (c : Nat) (m : MemCtl) (d : Dev) : (putMemCtl c m d).burstFlaws = d.burstFlaws := rfl
@[simp] theorem putMemCtl_memMarks (c : Nat) (m : MemCtl) (d : Dev) : (putMemCtl c m d).memMarks = d.memMarks := rfl
@[simp] theorem putMemCtl_memMap (c : Nat) (m : MemCtl) (d : Dev) : (putMemCtl c m d).memMap = d.memMap := rfl
@[simp] theorem putMemCtl_memCtls (c : Nat) (m : MemCtl) (d : Dev) : (putMemCtl c m d).memCtls = d.memCtls.set c m := rfl
@[simp] theorem putMemCtl_engines (c : Nat) (m : MemCtl) (d : Dev) : (putMemCtl c m d).engines = d.engines := rfl
@[simp] theorem putMemCtl_net (c : Nat) (m : MemCtl) (d : Dev) : (putMemCtl c m d).net = d.net := rfl
@[simp] theorem putMemCtl_fused (c : Nat) (m : MemCtl) (d : Dev) : (putMemCtl c m d).fused = d.fused := rfl
@[simp] theorem putMemCtl_flash (c : Nat) (m : MemCtl) (d : Dev) : (putMemCtl c m d).flash = d.flash := rfl
@[simp] theorem putMemCtl_boot (c : Nat) (m : MemCtl) (d : Dev) : (putMemCtl c m d).boot = d.boot := rfl
@[simp] theorem putMemCtl_power (c : Nat) (m : MemCtl) (d : Dev) : (putMemCtl c m d).power = d.power := rfl
@[simp] theorem putMemCtl_sensors (c : Nat) (m : MemCtl) (d : Dev) : (putMemCtl c m d).sensors = d.sensors := rfl
@[simp] theorem putMemCtl_spots (c : Nat) (m : MemCtl) (d : Dev) : (putMemCtl c m d).spots = d.spots := rfl
@[simp] theorem putMemCtl_coolant (c : Nat) (m : MemCtl) (d : Dev) : (putMemCtl c m d).coolant = d.coolant := rfl
@[simp] theorem putMemCtl_complexes (c : Nat) (m : MemCtl) (d : Dev) : (putMemCtl c m d).complexes = d.complexes := rfl
@[simp] theorem putMemCtl_lead (c : Nat) (m : MemCtl) (d : Dev) : (putMemCtl c m d).lead = d.lead := rfl
@[simp] theorem putMemCtl_mgmt (c : Nat) (m : MemCtl) (d : Dev) : (putMemCtl c m d).mgmt = d.mgmt := rfl
@[simp] theorem putMemCtl_pins (c : Nat) (m : MemCtl) (d : Dev) : (putMemCtl c m d).pins = d.pins := rfl
@[simp] theorem putMemCtl_jtag (c : Nat) (m : MemCtl) (d : Dev) : (putMemCtl c m d).jtag = d.jtag := rfl
@[simp] theorem putMemCtl_unrun (c : Nat) (m : MemCtl) (d : Dev) : (putMemCtl c m d).unrun = d.unrun := rfl

/-! ### modEng -/

@[simp] theorem modEng_fresh (c : Nat) (f : UpdEng → UpdEng) (d : Dev) : (modEng c f d).fresh = d.fresh := rfl
@[simp] theorem modEng_now (c : Nat) (f : UpdEng → UpdEng) (d : Dev) : (modEng c f d).now = d.now := rfl
@[simp] theorem modEng_always (c : Nat) (f : UpdEng → UpdEng) (d : Dev) : (modEng c f d).always = d.always := rfl
@[simp] theorem modEng_reset (c : Nat) (f : UpdEng → UpdEng) (d : Dev) : (modEng c f d).reset = d.reset := rfl
@[simp] theorem modEng_regs (c : Nat) (f : UpdEng → UpdEng) (d : Dev) : (modEng c f d).regs = d.regs := rfl
@[simp] theorem modEng_versions (c : Nat) (f : UpdEng → UpdEng) (d : Dev) : (modEng c f d).versions = d.versions := rfl
@[simp] theorem modEng_pages (c : Nat) (f : UpdEng → UpdEng) (d : Dev) : (modEng c f d).pages = d.pages := rfl
@[simp] theorem modEng_units (c : Nat) (f : UpdEng → UpdEng) (d : Dev) : (modEng c f d).units = d.units := rfl
@[simp] theorem modEng_flags (c : Nat) (f : UpdEng → UpdEng) (d : Dev) : (modEng c f d).flags = d.flags := rfl
@[simp] theorem modEng_startCause (c : Nat) (f : UpdEng → UpdEng) (d : Dev) : (modEng c f d).startCause = d.startCause := rfl
@[simp] theorem modEng_link (c : Nat) (f : UpdEng → UpdEng) (d : Dev) : (modEng c f d).link = d.link := rfl
@[simp] theorem modEng_hostTx (c : Nat) (f : UpdEng → UpdEng) (d : Dev) : (modEng c f d).hostTx = d.hostTx := rfl
@[simp] theorem modEng_hostWait (c : Nat) (f : UpdEng → UpdEng) (d : Dev) : (modEng c f d).hostWait = d.hostWait := rfl
@[simp] theorem modEng_window (c : Nat) (f : UpdEng → UpdEng) (d : Dev) : (modEng c f d).window = d.window := rfl
@[simp] theorem modEng_queues (c : Nat) (f : UpdEng → UpdEng) (d : Dev) : (modEng c f d).queues = d.queues := rfl
@[simp] theorem modEng_dmaTurn (c : Nat) (f : UpdEng → UpdEng) (d : Dev) : (modEng c f d).dmaTurn = d.dmaTurn := rfl
@[simp] theorem modEng_dma (c : Nat) (f : UpdEng → UpdEng) (d : Dev) : (modEng c f d).dma = d.dma := rfl
@[simp] theorem modEng_rings (c : Nat) (f : UpdEng → UpdEng) (d : Dev) : (modEng c f d).rings = d.rings := rfl
@[simp] theorem modEng_job (c : Nat) (f : UpdEng → UpdEng) (d : Dev) : (modEng c f d).job = d.job := rfl
@[simp] theorem modEng_cores (c : Nat) (f : UpdEng → UpdEng) (d : Dev) : (modEng c f d).cores = d.cores := rfl
@[simp] theorem modEng_sram (c : Nat) (f : UpdEng → UpdEng) (d : Dev) : (modEng c f d).sram = d.sram := rfl
@[simp] theorem modEng_sramPoison (c : Nat) (f : UpdEng → UpdEng) (d : Dev) : (modEng c f d).sramPoison = d.sramPoison := rfl
@[simp] theorem modEng_packets (c : Nat) (f : UpdEng → UpdEng) (d : Dev) : (modEng c f d).packets = d.packets := rfl
@[simp] theorem modEng_routers (c : Nat) (f : UpdEng → UpdEng) (d : Dev) : (modEng c f d).routers = d.routers := rfl
@[simp] theorem modEng_relayIds (c : Nat) (f : UpdEng → UpdEng) (d : Dev) : (modEng c f d).relayIds = d.relayIds := rfl
@[simp] theorem modEng_meshLosses (c : Nat) (f : UpdEng → UpdEng) (d : Dev) : (modEng c f d).meshLosses = d.meshLosses := rfl
@[simp] theorem modEng_mem (c : Nat) (f : UpdEng → UpdEng) (d : Dev) : (modEng c f d).mem = d.mem := rfl
@[simp] theorem modEng_memPoison (c : Nat) (f : UpdEng → UpdEng) (d : Dev) : (modEng c f d).memPoison = d.memPoison := rfl
@[simp] theorem modEng_memBad (c : Nat) (f : UpdEng → UpdEng) (d : Dev) : (modEng c f d).memBad = d.memBad := rfl
@[simp] theorem modEng_memFlaws (c : Nat) (f : UpdEng → UpdEng) (d : Dev) : (modEng c f d).memFlaws = d.memFlaws := rfl
@[simp] theorem modEng_markFlaws (c : Nat) (f : UpdEng → UpdEng) (d : Dev) : (modEng c f d).markFlaws = d.markFlaws := rfl
@[simp] theorem modEng_burstFlaws (c : Nat) (f : UpdEng → UpdEng) (d : Dev) : (modEng c f d).burstFlaws = d.burstFlaws := rfl
@[simp] theorem modEng_memMarks (c : Nat) (f : UpdEng → UpdEng) (d : Dev) : (modEng c f d).memMarks = d.memMarks := rfl
@[simp] theorem modEng_memMap (c : Nat) (f : UpdEng → UpdEng) (d : Dev) : (modEng c f d).memMap = d.memMap := rfl
@[simp] theorem modEng_memCtls (c : Nat) (f : UpdEng → UpdEng) (d : Dev) : (modEng c f d).memCtls = d.memCtls := rfl
@[simp] theorem modEng_engines (c : Nat) (f : UpdEng → UpdEng) (d : Dev) : (modEng c f d).engines = d.engines.set c (f (engOf c d)) := rfl
@[simp] theorem modEng_net (c : Nat) (f : UpdEng → UpdEng) (d : Dev) : (modEng c f d).net = d.net := rfl
@[simp] theorem modEng_fused (c : Nat) (f : UpdEng → UpdEng) (d : Dev) : (modEng c f d).fused = d.fused := rfl
@[simp] theorem modEng_flash (c : Nat) (f : UpdEng → UpdEng) (d : Dev) : (modEng c f d).flash = d.flash := rfl
@[simp] theorem modEng_boot (c : Nat) (f : UpdEng → UpdEng) (d : Dev) : (modEng c f d).boot = d.boot := rfl
@[simp] theorem modEng_power (c : Nat) (f : UpdEng → UpdEng) (d : Dev) : (modEng c f d).power = d.power := rfl
@[simp] theorem modEng_sensors (c : Nat) (f : UpdEng → UpdEng) (d : Dev) : (modEng c f d).sensors = d.sensors := rfl
@[simp] theorem modEng_spots (c : Nat) (f : UpdEng → UpdEng) (d : Dev) : (modEng c f d).spots = d.spots := rfl
@[simp] theorem modEng_coolant (c : Nat) (f : UpdEng → UpdEng) (d : Dev) : (modEng c f d).coolant = d.coolant := rfl
@[simp] theorem modEng_complexes (c : Nat) (f : UpdEng → UpdEng) (d : Dev) : (modEng c f d).complexes = d.complexes := rfl
@[simp] theorem modEng_lead (c : Nat) (f : UpdEng → UpdEng) (d : Dev) : (modEng c f d).lead = d.lead := rfl
@[simp] theorem modEng_mgmt (c : Nat) (f : UpdEng → UpdEng) (d : Dev) : (modEng c f d).mgmt = d.mgmt := rfl
@[simp] theorem modEng_pins (c : Nat) (f : UpdEng → UpdEng) (d : Dev) : (modEng c f d).pins = d.pins := rfl
@[simp] theorem modEng_jtag (c : Nat) (f : UpdEng → UpdEng) (d : Dev) : (modEng c f d).jtag = d.jtag := rfl
@[simp] theorem modEng_unrun (c : Nat) (f : UpdEng → UpdEng) (d : Dev) : (modEng c f d).unrun = d.unrun := rfl

/-! ### modNet -/

@[simp] theorem modNet_fresh (f : Net → Net) (d : Dev) : (modNet f d).fresh = d.fresh := rfl
@[simp] theorem modNet_now (f : Net → Net) (d : Dev) : (modNet f d).now = d.now := rfl
@[simp] theorem modNet_always (f : Net → Net) (d : Dev) : (modNet f d).always = d.always := rfl
@[simp] theorem modNet_reset (f : Net → Net) (d : Dev) : (modNet f d).reset = d.reset := rfl
@[simp] theorem modNet_regs (f : Net → Net) (d : Dev) : (modNet f d).regs = d.regs := rfl
@[simp] theorem modNet_versions (f : Net → Net) (d : Dev) : (modNet f d).versions = d.versions := rfl
@[simp] theorem modNet_pages (f : Net → Net) (d : Dev) : (modNet f d).pages = d.pages := rfl
@[simp] theorem modNet_units (f : Net → Net) (d : Dev) : (modNet f d).units = d.units := rfl
@[simp] theorem modNet_flags (f : Net → Net) (d : Dev) : (modNet f d).flags = d.flags := rfl
@[simp] theorem modNet_startCause (f : Net → Net) (d : Dev) : (modNet f d).startCause = d.startCause := rfl
@[simp] theorem modNet_link (f : Net → Net) (d : Dev) : (modNet f d).link = d.link := rfl
@[simp] theorem modNet_hostTx (f : Net → Net) (d : Dev) : (modNet f d).hostTx = d.hostTx := rfl
@[simp] theorem modNet_hostWait (f : Net → Net) (d : Dev) : (modNet f d).hostWait = d.hostWait := rfl
@[simp] theorem modNet_window (f : Net → Net) (d : Dev) : (modNet f d).window = d.window := rfl
@[simp] theorem modNet_queues (f : Net → Net) (d : Dev) : (modNet f d).queues = d.queues := rfl
@[simp] theorem modNet_dmaTurn (f : Net → Net) (d : Dev) : (modNet f d).dmaTurn = d.dmaTurn := rfl
@[simp] theorem modNet_dma (f : Net → Net) (d : Dev) : (modNet f d).dma = d.dma := rfl
@[simp] theorem modNet_rings (f : Net → Net) (d : Dev) : (modNet f d).rings = d.rings := rfl
@[simp] theorem modNet_job (f : Net → Net) (d : Dev) : (modNet f d).job = d.job := rfl
@[simp] theorem modNet_cores (f : Net → Net) (d : Dev) : (modNet f d).cores = d.cores := rfl
@[simp] theorem modNet_sram (f : Net → Net) (d : Dev) : (modNet f d).sram = d.sram := rfl
@[simp] theorem modNet_sramPoison (f : Net → Net) (d : Dev) : (modNet f d).sramPoison = d.sramPoison := rfl
@[simp] theorem modNet_packets (f : Net → Net) (d : Dev) : (modNet f d).packets = d.packets := rfl
@[simp] theorem modNet_routers (f : Net → Net) (d : Dev) : (modNet f d).routers = d.routers := rfl
@[simp] theorem modNet_relayIds (f : Net → Net) (d : Dev) : (modNet f d).relayIds = d.relayIds := rfl
@[simp] theorem modNet_meshLosses (f : Net → Net) (d : Dev) : (modNet f d).meshLosses = d.meshLosses := rfl
@[simp] theorem modNet_mem (f : Net → Net) (d : Dev) : (modNet f d).mem = d.mem := rfl
@[simp] theorem modNet_memPoison (f : Net → Net) (d : Dev) : (modNet f d).memPoison = d.memPoison := rfl
@[simp] theorem modNet_memBad (f : Net → Net) (d : Dev) : (modNet f d).memBad = d.memBad := rfl
@[simp] theorem modNet_memFlaws (f : Net → Net) (d : Dev) : (modNet f d).memFlaws = d.memFlaws := rfl
@[simp] theorem modNet_markFlaws (f : Net → Net) (d : Dev) : (modNet f d).markFlaws = d.markFlaws := rfl
@[simp] theorem modNet_burstFlaws (f : Net → Net) (d : Dev) : (modNet f d).burstFlaws = d.burstFlaws := rfl
@[simp] theorem modNet_memMarks (f : Net → Net) (d : Dev) : (modNet f d).memMarks = d.memMarks := rfl
@[simp] theorem modNet_memMap (f : Net → Net) (d : Dev) : (modNet f d).memMap = d.memMap := rfl
@[simp] theorem modNet_memCtls (f : Net → Net) (d : Dev) : (modNet f d).memCtls = d.memCtls := rfl
@[simp] theorem modNet_engines (f : Net → Net) (d : Dev) : (modNet f d).engines = d.engines := rfl
@[simp] theorem modNet_net (f : Net → Net) (d : Dev) : (modNet f d).net = f d.net := rfl
@[simp] theorem modNet_fused (f : Net → Net) (d : Dev) : (modNet f d).fused = d.fused := rfl
@[simp] theorem modNet_flash (f : Net → Net) (d : Dev) : (modNet f d).flash = d.flash := rfl
@[simp] theorem modNet_boot (f : Net → Net) (d : Dev) : (modNet f d).boot = d.boot := rfl
@[simp] theorem modNet_power (f : Net → Net) (d : Dev) : (modNet f d).power = d.power := rfl
@[simp] theorem modNet_sensors (f : Net → Net) (d : Dev) : (modNet f d).sensors = d.sensors := rfl
@[simp] theorem modNet_spots (f : Net → Net) (d : Dev) : (modNet f d).spots = d.spots := rfl
@[simp] theorem modNet_coolant (f : Net → Net) (d : Dev) : (modNet f d).coolant = d.coolant := rfl
@[simp] theorem modNet_complexes (f : Net → Net) (d : Dev) : (modNet f d).complexes = d.complexes := rfl
@[simp] theorem modNet_lead (f : Net → Net) (d : Dev) : (modNet f d).lead = d.lead := rfl
@[simp] theorem modNet_mgmt (f : Net → Net) (d : Dev) : (modNet f d).mgmt = d.mgmt := rfl
@[simp] theorem modNet_pins (f : Net → Net) (d : Dev) : (modNet f d).pins = d.pins := rfl
@[simp] theorem modNet_jtag (f : Net → Net) (d : Dev) : (modNet f d).jtag = d.jtag := rfl
@[simp] theorem modNet_unrun (f : Net → Net) (d : Dev) : (modNet f d).unrun = d.unrun := rfl

/-! ### putComplex -/

@[simp] theorem putComplex_fresh (i : Nat) (c : Complex) (d : Dev) : (putComplex i c d).fresh = d.fresh := rfl
@[simp] theorem putComplex_now (i : Nat) (c : Complex) (d : Dev) : (putComplex i c d).now = d.now := rfl
@[simp] theorem putComplex_always (i : Nat) (c : Complex) (d : Dev) : (putComplex i c d).always = d.always := rfl
@[simp] theorem putComplex_reset (i : Nat) (c : Complex) (d : Dev) : (putComplex i c d).reset = d.reset := rfl
@[simp] theorem putComplex_regs (i : Nat) (c : Complex) (d : Dev) : (putComplex i c d).regs = d.regs := rfl
@[simp] theorem putComplex_versions (i : Nat) (c : Complex) (d : Dev) : (putComplex i c d).versions = d.versions := rfl
@[simp] theorem putComplex_pages (i : Nat) (c : Complex) (d : Dev) : (putComplex i c d).pages = d.pages := rfl
@[simp] theorem putComplex_units (i : Nat) (c : Complex) (d : Dev) : (putComplex i c d).units = d.units := rfl
@[simp] theorem putComplex_flags (i : Nat) (c : Complex) (d : Dev) : (putComplex i c d).flags = d.flags := rfl
@[simp] theorem putComplex_startCause (i : Nat) (c : Complex) (d : Dev) : (putComplex i c d).startCause = d.startCause := rfl
@[simp] theorem putComplex_link (i : Nat) (c : Complex) (d : Dev) : (putComplex i c d).link = d.link := rfl
@[simp] theorem putComplex_hostTx (i : Nat) (c : Complex) (d : Dev) : (putComplex i c d).hostTx = d.hostTx := rfl
@[simp] theorem putComplex_hostWait (i : Nat) (c : Complex) (d : Dev) : (putComplex i c d).hostWait = d.hostWait := rfl
@[simp] theorem putComplex_window (i : Nat) (c : Complex) (d : Dev) : (putComplex i c d).window = d.window := rfl
@[simp] theorem putComplex_queues (i : Nat) (c : Complex) (d : Dev) : (putComplex i c d).queues = d.queues := rfl
@[simp] theorem putComplex_dmaTurn (i : Nat) (c : Complex) (d : Dev) : (putComplex i c d).dmaTurn = d.dmaTurn := rfl
@[simp] theorem putComplex_dma (i : Nat) (c : Complex) (d : Dev) : (putComplex i c d).dma = d.dma := rfl
@[simp] theorem putComplex_rings (i : Nat) (c : Complex) (d : Dev) : (putComplex i c d).rings = d.rings := rfl
@[simp] theorem putComplex_job (i : Nat) (c : Complex) (d : Dev) : (putComplex i c d).job = d.job := rfl
@[simp] theorem putComplex_cores (i : Nat) (c : Complex) (d : Dev) : (putComplex i c d).cores = d.cores := rfl
@[simp] theorem putComplex_sram (i : Nat) (c : Complex) (d : Dev) : (putComplex i c d).sram = d.sram := rfl
@[simp] theorem putComplex_sramPoison (i : Nat) (c : Complex) (d : Dev) : (putComplex i c d).sramPoison = d.sramPoison := rfl
@[simp] theorem putComplex_packets (i : Nat) (c : Complex) (d : Dev) : (putComplex i c d).packets = d.packets := rfl
@[simp] theorem putComplex_routers (i : Nat) (c : Complex) (d : Dev) : (putComplex i c d).routers = d.routers := rfl
@[simp] theorem putComplex_relayIds (i : Nat) (c : Complex) (d : Dev) : (putComplex i c d).relayIds = d.relayIds := rfl
@[simp] theorem putComplex_meshLosses (i : Nat) (c : Complex) (d : Dev) : (putComplex i c d).meshLosses = d.meshLosses := rfl
@[simp] theorem putComplex_mem (i : Nat) (c : Complex) (d : Dev) : (putComplex i c d).mem = d.mem := rfl
@[simp] theorem putComplex_memPoison (i : Nat) (c : Complex) (d : Dev) : (putComplex i c d).memPoison = d.memPoison := rfl
@[simp] theorem putComplex_memBad (i : Nat) (c : Complex) (d : Dev) : (putComplex i c d).memBad = d.memBad := rfl
@[simp] theorem putComplex_memFlaws (i : Nat) (c : Complex) (d : Dev) : (putComplex i c d).memFlaws = d.memFlaws := rfl
@[simp] theorem putComplex_markFlaws (i : Nat) (c : Complex) (d : Dev) : (putComplex i c d).markFlaws = d.markFlaws := rfl
@[simp] theorem putComplex_burstFlaws (i : Nat) (c : Complex) (d : Dev) : (putComplex i c d).burstFlaws = d.burstFlaws := rfl
@[simp] theorem putComplex_memMarks (i : Nat) (c : Complex) (d : Dev) : (putComplex i c d).memMarks = d.memMarks := rfl
@[simp] theorem putComplex_memMap (i : Nat) (c : Complex) (d : Dev) : (putComplex i c d).memMap = d.memMap := rfl
@[simp] theorem putComplex_memCtls (i : Nat) (c : Complex) (d : Dev) : (putComplex i c d).memCtls = d.memCtls := rfl
@[simp] theorem putComplex_engines (i : Nat) (c : Complex) (d : Dev) : (putComplex i c d).engines = d.engines := rfl
@[simp] theorem putComplex_net (i : Nat) (c : Complex) (d : Dev) : (putComplex i c d).net = d.net := rfl
@[simp] theorem putComplex_fused (i : Nat) (c : Complex) (d : Dev) : (putComplex i c d).fused = d.fused := rfl
@[simp] theorem putComplex_flash (i : Nat) (c : Complex) (d : Dev) : (putComplex i c d).flash = d.flash := rfl
@[simp] theorem putComplex_boot (i : Nat) (c : Complex) (d : Dev) : (putComplex i c d).boot = d.boot := rfl
@[simp] theorem putComplex_power (i : Nat) (c : Complex) (d : Dev) : (putComplex i c d).power = d.power := rfl
@[simp] theorem putComplex_sensors (i : Nat) (c : Complex) (d : Dev) : (putComplex i c d).sensors = d.sensors := rfl
@[simp] theorem putComplex_spots (i : Nat) (c : Complex) (d : Dev) : (putComplex i c d).spots = d.spots := rfl
@[simp] theorem putComplex_coolant (i : Nat) (c : Complex) (d : Dev) : (putComplex i c d).coolant = d.coolant := rfl
@[simp] theorem putComplex_complexes (i : Nat) (c : Complex) (d : Dev) : (putComplex i c d).complexes = d.complexes.set i c := rfl
@[simp] theorem putComplex_lead (i : Nat) (c : Complex) (d : Dev) : (putComplex i c d).lead = d.lead := rfl
@[simp] theorem putComplex_mgmt (i : Nat) (c : Complex) (d : Dev) : (putComplex i c d).mgmt = d.mgmt := rfl
@[simp] theorem putComplex_pins (i : Nat) (c : Complex) (d : Dev) : (putComplex i c d).pins = d.pins := rfl
@[simp] theorem putComplex_jtag (i : Nat) (c : Complex) (d : Dev) : (putComplex i c d).jtag = d.jtag := rfl
@[simp] theorem putComplex_unrun (i : Nat) (c : Complex) (d : Dev) : (putComplex i c d).unrun = d.unrun := rfl

/-! ### setRole -/

@[simp] theorem setRole_fresh (i : Nat) (r : Role) (d : Dev) : (setRole i r d).fresh = d.fresh := rfl
@[simp] theorem setRole_now (i : Nat) (r : Role) (d : Dev) : (setRole i r d).now = d.now := rfl
@[simp] theorem setRole_always (i : Nat) (r : Role) (d : Dev) : (setRole i r d).always = d.always := rfl
@[simp] theorem setRole_reset (i : Nat) (r : Role) (d : Dev) : (setRole i r d).reset = d.reset := rfl
@[simp] theorem setRole_regs (i : Nat) (r : Role) (d : Dev) : (setRole i r d).regs = d.regs := rfl
@[simp] theorem setRole_versions (i : Nat) (r : Role) (d : Dev) : (setRole i r d).versions = d.versions := rfl
@[simp] theorem setRole_pages (i : Nat) (r : Role) (d : Dev) : (setRole i r d).pages = d.pages := rfl
@[simp] theorem setRole_units (i : Nat) (r : Role) (d : Dev) : (setRole i r d).units = d.units := rfl
@[simp] theorem setRole_flags (i : Nat) (r : Role) (d : Dev) : (setRole i r d).flags = d.flags := rfl
@[simp] theorem setRole_startCause (i : Nat) (r : Role) (d : Dev) : (setRole i r d).startCause = d.startCause := rfl
@[simp] theorem setRole_link (i : Nat) (r : Role) (d : Dev) : (setRole i r d).link = d.link := rfl
@[simp] theorem setRole_hostTx (i : Nat) (r : Role) (d : Dev) : (setRole i r d).hostTx = d.hostTx := rfl
@[simp] theorem setRole_hostWait (i : Nat) (r : Role) (d : Dev) : (setRole i r d).hostWait = d.hostWait := rfl
@[simp] theorem setRole_window (i : Nat) (r : Role) (d : Dev) : (setRole i r d).window = d.window := rfl
@[simp] theorem setRole_queues (i : Nat) (r : Role) (d : Dev) : (setRole i r d).queues = d.queues := rfl
@[simp] theorem setRole_dmaTurn (i : Nat) (r : Role) (d : Dev) : (setRole i r d).dmaTurn = d.dmaTurn := rfl
@[simp] theorem setRole_dma (i : Nat) (r : Role) (d : Dev) : (setRole i r d).dma = d.dma := rfl
@[simp] theorem setRole_rings (i : Nat) (r : Role) (d : Dev) : (setRole i r d).rings = d.rings := rfl
@[simp] theorem setRole_job (i : Nat) (r : Role) (d : Dev) : (setRole i r d).job = d.job := rfl
@[simp] theorem setRole_cores (i : Nat) (r : Role) (d : Dev) : (setRole i r d).cores = d.cores := rfl
@[simp] theorem setRole_sram (i : Nat) (r : Role) (d : Dev) : (setRole i r d).sram = d.sram := rfl
@[simp] theorem setRole_sramPoison (i : Nat) (r : Role) (d : Dev) : (setRole i r d).sramPoison = d.sramPoison := rfl
@[simp] theorem setRole_packets (i : Nat) (r : Role) (d : Dev) : (setRole i r d).packets = d.packets := rfl
@[simp] theorem setRole_routers (i : Nat) (r : Role) (d : Dev) : (setRole i r d).routers = d.routers := rfl
@[simp] theorem setRole_relayIds (i : Nat) (r : Role) (d : Dev) : (setRole i r d).relayIds = d.relayIds := rfl
@[simp] theorem setRole_meshLosses (i : Nat) (r : Role) (d : Dev) : (setRole i r d).meshLosses = d.meshLosses := rfl
@[simp] theorem setRole_mem (i : Nat) (r : Role) (d : Dev) : (setRole i r d).mem = d.mem := rfl
@[simp] theorem setRole_memPoison (i : Nat) (r : Role) (d : Dev) : (setRole i r d).memPoison = d.memPoison := rfl
@[simp] theorem setRole_memBad (i : Nat) (r : Role) (d : Dev) : (setRole i r d).memBad = d.memBad := rfl
@[simp] theorem setRole_memFlaws (i : Nat) (r : Role) (d : Dev) : (setRole i r d).memFlaws = d.memFlaws := rfl
@[simp] theorem setRole_markFlaws (i : Nat) (r : Role) (d : Dev) : (setRole i r d).markFlaws = d.markFlaws := rfl
@[simp] theorem setRole_burstFlaws (i : Nat) (r : Role) (d : Dev) : (setRole i r d).burstFlaws = d.burstFlaws := rfl
@[simp] theorem setRole_memMarks (i : Nat) (r : Role) (d : Dev) : (setRole i r d).memMarks = d.memMarks := rfl
@[simp] theorem setRole_memMap (i : Nat) (r : Role) (d : Dev) : (setRole i r d).memMap = d.memMap := rfl
@[simp] theorem setRole_memCtls (i : Nat) (r : Role) (d : Dev) : (setRole i r d).memCtls = d.memCtls := rfl
@[simp] theorem setRole_engines (i : Nat) (r : Role) (d : Dev) : (setRole i r d).engines = d.engines := rfl
@[simp] theorem setRole_net (i : Nat) (r : Role) (d : Dev) : (setRole i r d).net = d.net := rfl
@[simp] theorem setRole_fused (i : Nat) (r : Role) (d : Dev) : (setRole i r d).fused = d.fused := rfl
@[simp] theorem setRole_flash (i : Nat) (r : Role) (d : Dev) : (setRole i r d).flash = d.flash := rfl
@[simp] theorem setRole_boot (i : Nat) (r : Role) (d : Dev) : (setRole i r d).boot = d.boot := rfl
@[simp] theorem setRole_power (i : Nat) (r : Role) (d : Dev) : (setRole i r d).power = d.power := rfl
@[simp] theorem setRole_sensors (i : Nat) (r : Role) (d : Dev) : (setRole i r d).sensors = d.sensors := rfl
@[simp] theorem setRole_spots (i : Nat) (r : Role) (d : Dev) : (setRole i r d).spots = d.spots := rfl
@[simp] theorem setRole_coolant (i : Nat) (r : Role) (d : Dev) : (setRole i r d).coolant = d.coolant := rfl
@[simp] theorem setRole_lead (i : Nat) (r : Role) (d : Dev) : (setRole i r d).lead = d.lead := rfl
@[simp] theorem setRole_mgmt (i : Nat) (r : Role) (d : Dev) : (setRole i r d).mgmt = d.mgmt := rfl
@[simp] theorem setRole_pins (i : Nat) (r : Role) (d : Dev) : (setRole i r d).pins = d.pins := rfl
@[simp] theorem setRole_jtag (i : Nat) (r : Role) (d : Dev) : (setRole i r d).jtag = d.jtag := rfl
@[simp] theorem setRole_unrun (i : Nat) (r : Role) (d : Dev) : (setRole i r d).unrun = d.unrun := rfl

/-! ### modLead -/

@[simp] theorem modLead_fresh (f : Lead → Lead) (d : Dev) : (modLead f d).fresh = d.fresh := rfl
@[simp] theorem modLead_now (f : Lead → Lead) (d : Dev) : (modLead f d).now = d.now := rfl
@[simp] theorem modLead_always (f : Lead → Lead) (d : Dev) : (modLead f d).always = d.always := rfl
@[simp] theorem modLead_reset (f : Lead → Lead) (d : Dev) : (modLead f d).reset = d.reset := rfl
@[simp] theorem modLead_regs (f : Lead → Lead) (d : Dev) : (modLead f d).regs = d.regs := rfl
@[simp] theorem modLead_versions (f : Lead → Lead) (d : Dev) : (modLead f d).versions = d.versions := rfl
@[simp] theorem modLead_pages (f : Lead → Lead) (d : Dev) : (modLead f d).pages = d.pages := rfl
@[simp] theorem modLead_units (f : Lead → Lead) (d : Dev) : (modLead f d).units = d.units := rfl
@[simp] theorem modLead_flags (f : Lead → Lead) (d : Dev) : (modLead f d).flags = d.flags := rfl
@[simp] theorem modLead_startCause (f : Lead → Lead) (d : Dev) : (modLead f d).startCause = d.startCause := rfl
@[simp] theorem modLead_link (f : Lead → Lead) (d : Dev) : (modLead f d).link = d.link := rfl
@[simp] theorem modLead_hostTx (f : Lead → Lead) (d : Dev) : (modLead f d).hostTx = d.hostTx := rfl
@[simp] theorem modLead_hostWait (f : Lead → Lead) (d : Dev) : (modLead f d).hostWait = d.hostWait := rfl
@[simp] theorem modLead_window (f : Lead → Lead) (d : Dev) : (modLead f d).window = d.window := rfl
@[simp] theorem modLead_queues (f : Lead → Lead) (d : Dev) : (modLead f d).queues = d.queues := rfl
@[simp] theorem modLead_dmaTurn (f : Lead → Lead) (d : Dev) : (modLead f d).dmaTurn = d.dmaTurn := rfl
@[simp] theorem modLead_dma (f : Lead → Lead) (d : Dev) : (modLead f d).dma = d.dma := rfl
@[simp] theorem modLead_rings (f : Lead → Lead) (d : Dev) : (modLead f d).rings = d.rings := rfl
@[simp] theorem modLead_job (f : Lead → Lead) (d : Dev) : (modLead f d).job = d.job := rfl
@[simp] theorem modLead_cores (f : Lead → Lead) (d : Dev) : (modLead f d).cores = d.cores := rfl
@[simp] theorem modLead_sram (f : Lead → Lead) (d : Dev) : (modLead f d).sram = d.sram := rfl
@[simp] theorem modLead_sramPoison (f : Lead → Lead) (d : Dev) : (modLead f d).sramPoison = d.sramPoison := rfl
@[simp] theorem modLead_packets (f : Lead → Lead) (d : Dev) : (modLead f d).packets = d.packets := rfl
@[simp] theorem modLead_routers (f : Lead → Lead) (d : Dev) : (modLead f d).routers = d.routers := rfl
@[simp] theorem modLead_relayIds (f : Lead → Lead) (d : Dev) : (modLead f d).relayIds = d.relayIds := rfl
@[simp] theorem modLead_meshLosses (f : Lead → Lead) (d : Dev) : (modLead f d).meshLosses = d.meshLosses := rfl
@[simp] theorem modLead_mem (f : Lead → Lead) (d : Dev) : (modLead f d).mem = d.mem := rfl
@[simp] theorem modLead_memPoison (f : Lead → Lead) (d : Dev) : (modLead f d).memPoison = d.memPoison := rfl
@[simp] theorem modLead_memBad (f : Lead → Lead) (d : Dev) : (modLead f d).memBad = d.memBad := rfl
@[simp] theorem modLead_memFlaws (f : Lead → Lead) (d : Dev) : (modLead f d).memFlaws = d.memFlaws := rfl
@[simp] theorem modLead_markFlaws (f : Lead → Lead) (d : Dev) : (modLead f d).markFlaws = d.markFlaws := rfl
@[simp] theorem modLead_burstFlaws (f : Lead → Lead) (d : Dev) : (modLead f d).burstFlaws = d.burstFlaws := rfl
@[simp] theorem modLead_memMarks (f : Lead → Lead) (d : Dev) : (modLead f d).memMarks = d.memMarks := rfl
@[simp] theorem modLead_memMap (f : Lead → Lead) (d : Dev) : (modLead f d).memMap = d.memMap := rfl
@[simp] theorem modLead_memCtls (f : Lead → Lead) (d : Dev) : (modLead f d).memCtls = d.memCtls := rfl
@[simp] theorem modLead_engines (f : Lead → Lead) (d : Dev) : (modLead f d).engines = d.engines := rfl
@[simp] theorem modLead_net (f : Lead → Lead) (d : Dev) : (modLead f d).net = d.net := rfl
@[simp] theorem modLead_fused (f : Lead → Lead) (d : Dev) : (modLead f d).fused = d.fused := rfl
@[simp] theorem modLead_flash (f : Lead → Lead) (d : Dev) : (modLead f d).flash = d.flash := rfl
@[simp] theorem modLead_boot (f : Lead → Lead) (d : Dev) : (modLead f d).boot = d.boot := rfl
@[simp] theorem modLead_power (f : Lead → Lead) (d : Dev) : (modLead f d).power = d.power := rfl
@[simp] theorem modLead_sensors (f : Lead → Lead) (d : Dev) : (modLead f d).sensors = d.sensors := rfl
@[simp] theorem modLead_spots (f : Lead → Lead) (d : Dev) : (modLead f d).spots = d.spots := rfl
@[simp] theorem modLead_coolant (f : Lead → Lead) (d : Dev) : (modLead f d).coolant = d.coolant := rfl
@[simp] theorem modLead_complexes (f : Lead → Lead) (d : Dev) : (modLead f d).complexes = d.complexes := rfl
@[simp] theorem modLead_lead (f : Lead → Lead) (d : Dev) : (modLead f d).lead = f d.lead := rfl
@[simp] theorem modLead_mgmt (f : Lead → Lead) (d : Dev) : (modLead f d).mgmt = d.mgmt := rfl
@[simp] theorem modLead_pins (f : Lead → Lead) (d : Dev) : (modLead f d).pins = d.pins := rfl
@[simp] theorem modLead_jtag (f : Lead → Lead) (d : Dev) : (modLead f d).jtag = d.jtag := rfl
@[simp] theorem modLead_unrun (f : Lead → Lead) (d : Dev) : (modLead f d).unrun = d.unrun := rfl

/-! ### modMgmt -/

@[simp] theorem modMgmt_fresh (f : Mgmt → Mgmt) (d : Dev) : (modMgmt f d).fresh = d.fresh := rfl
@[simp] theorem modMgmt_now (f : Mgmt → Mgmt) (d : Dev) : (modMgmt f d).now = d.now := rfl
@[simp] theorem modMgmt_always (f : Mgmt → Mgmt) (d : Dev) : (modMgmt f d).always = d.always := rfl
@[simp] theorem modMgmt_reset (f : Mgmt → Mgmt) (d : Dev) : (modMgmt f d).reset = d.reset := rfl
@[simp] theorem modMgmt_regs (f : Mgmt → Mgmt) (d : Dev) : (modMgmt f d).regs = d.regs := rfl
@[simp] theorem modMgmt_versions (f : Mgmt → Mgmt) (d : Dev) : (modMgmt f d).versions = d.versions := rfl
@[simp] theorem modMgmt_pages (f : Mgmt → Mgmt) (d : Dev) : (modMgmt f d).pages = d.pages := rfl
@[simp] theorem modMgmt_units (f : Mgmt → Mgmt) (d : Dev) : (modMgmt f d).units = d.units := rfl
@[simp] theorem modMgmt_flags (f : Mgmt → Mgmt) (d : Dev) : (modMgmt f d).flags = d.flags := rfl
@[simp] theorem modMgmt_startCause (f : Mgmt → Mgmt) (d : Dev) : (modMgmt f d).startCause = d.startCause := rfl
@[simp] theorem modMgmt_link (f : Mgmt → Mgmt) (d : Dev) : (modMgmt f d).link = d.link := rfl
@[simp] theorem modMgmt_hostTx (f : Mgmt → Mgmt) (d : Dev) : (modMgmt f d).hostTx = d.hostTx := rfl
@[simp] theorem modMgmt_hostWait (f : Mgmt → Mgmt) (d : Dev) : (modMgmt f d).hostWait = d.hostWait := rfl
@[simp] theorem modMgmt_window (f : Mgmt → Mgmt) (d : Dev) : (modMgmt f d).window = d.window := rfl
@[simp] theorem modMgmt_queues (f : Mgmt → Mgmt) (d : Dev) : (modMgmt f d).queues = d.queues := rfl
@[simp] theorem modMgmt_dmaTurn (f : Mgmt → Mgmt) (d : Dev) : (modMgmt f d).dmaTurn = d.dmaTurn := rfl
@[simp] theorem modMgmt_dma (f : Mgmt → Mgmt) (d : Dev) : (modMgmt f d).dma = d.dma := rfl
@[simp] theorem modMgmt_rings (f : Mgmt → Mgmt) (d : Dev) : (modMgmt f d).rings = d.rings := rfl
@[simp] theorem modMgmt_job (f : Mgmt → Mgmt) (d : Dev) : (modMgmt f d).job = d.job := rfl
@[simp] theorem modMgmt_cores (f : Mgmt → Mgmt) (d : Dev) : (modMgmt f d).cores = d.cores := rfl
@[simp] theorem modMgmt_sram (f : Mgmt → Mgmt) (d : Dev) : (modMgmt f d).sram = d.sram := rfl
@[simp] theorem modMgmt_sramPoison (f : Mgmt → Mgmt) (d : Dev) : (modMgmt f d).sramPoison = d.sramPoison := rfl
@[simp] theorem modMgmt_packets (f : Mgmt → Mgmt) (d : Dev) : (modMgmt f d).packets = d.packets := rfl
@[simp] theorem modMgmt_routers (f : Mgmt → Mgmt) (d : Dev) : (modMgmt f d).routers = d.routers := rfl
@[simp] theorem modMgmt_relayIds (f : Mgmt → Mgmt) (d : Dev) : (modMgmt f d).relayIds = d.relayIds := rfl
@[simp] theorem modMgmt_meshLosses (f : Mgmt → Mgmt) (d : Dev) : (modMgmt f d).meshLosses = d.meshLosses := rfl
@[simp] theorem modMgmt_mem (f : Mgmt → Mgmt) (d : Dev) : (modMgmt f d).mem = d.mem := rfl
@[simp] theorem modMgmt_memPoison (f : Mgmt → Mgmt) (d : Dev) : (modMgmt f d).memPoison = d.memPoison := rfl
@[simp] theorem modMgmt_memBad (f : Mgmt → Mgmt) (d : Dev) : (modMgmt f d).memBad = d.memBad := rfl
@[simp] theorem modMgmt_memFlaws (f : Mgmt → Mgmt) (d : Dev) : (modMgmt f d).memFlaws = d.memFlaws := rfl
@[simp] theorem modMgmt_markFlaws (f : Mgmt → Mgmt) (d : Dev) : (modMgmt f d).markFlaws = d.markFlaws := rfl
@[simp] theorem modMgmt_burstFlaws (f : Mgmt → Mgmt) (d : Dev) : (modMgmt f d).burstFlaws = d.burstFlaws := rfl
@[simp] theorem modMgmt_memMarks (f : Mgmt → Mgmt) (d : Dev) : (modMgmt f d).memMarks = d.memMarks := rfl
@[simp] theorem modMgmt_memMap (f : Mgmt → Mgmt) (d : Dev) : (modMgmt f d).memMap = d.memMap := rfl
@[simp] theorem modMgmt_memCtls (f : Mgmt → Mgmt) (d : Dev) : (modMgmt f d).memCtls = d.memCtls := rfl
@[simp] theorem modMgmt_engines (f : Mgmt → Mgmt) (d : Dev) : (modMgmt f d).engines = d.engines := rfl
@[simp] theorem modMgmt_net (f : Mgmt → Mgmt) (d : Dev) : (modMgmt f d).net = d.net := rfl
@[simp] theorem modMgmt_fused (f : Mgmt → Mgmt) (d : Dev) : (modMgmt f d).fused = d.fused := rfl
@[simp] theorem modMgmt_flash (f : Mgmt → Mgmt) (d : Dev) : (modMgmt f d).flash = d.flash := rfl
@[simp] theorem modMgmt_boot (f : Mgmt → Mgmt) (d : Dev) : (modMgmt f d).boot = d.boot := rfl
@[simp] theorem modMgmt_power (f : Mgmt → Mgmt) (d : Dev) : (modMgmt f d).power = d.power := rfl
@[simp] theorem modMgmt_sensors (f : Mgmt → Mgmt) (d : Dev) : (modMgmt f d).sensors = d.sensors := rfl
@[simp] theorem modMgmt_spots (f : Mgmt → Mgmt) (d : Dev) : (modMgmt f d).spots = d.spots := rfl
@[simp] theorem modMgmt_coolant (f : Mgmt → Mgmt) (d : Dev) : (modMgmt f d).coolant = d.coolant := rfl
@[simp] theorem modMgmt_complexes (f : Mgmt → Mgmt) (d : Dev) : (modMgmt f d).complexes = d.complexes := rfl
@[simp] theorem modMgmt_lead (f : Mgmt → Mgmt) (d : Dev) : (modMgmt f d).lead = d.lead := rfl
@[simp] theorem modMgmt_mgmt (f : Mgmt → Mgmt) (d : Dev) : (modMgmt f d).mgmt = f d.mgmt := rfl
@[simp] theorem modMgmt_pins (f : Mgmt → Mgmt) (d : Dev) : (modMgmt f d).pins = d.pins := rfl
@[simp] theorem modMgmt_jtag (f : Mgmt → Mgmt) (d : Dev) : (modMgmt f d).jtag = d.jtag := rfl
@[simp] theorem modMgmt_unrun (f : Mgmt → Mgmt) (d : Dev) : (modMgmt f d).unrun = d.unrun := rfl

/-! ### modPower -/

@[simp] theorem modPower_fresh (f : PowerSt → PowerSt) (d : Dev) : (modPower f d).fresh = d.fresh := rfl
@[simp] theorem modPower_now (f : PowerSt → PowerSt) (d : Dev) : (modPower f d).now = d.now := rfl
@[simp] theorem modPower_always (f : PowerSt → PowerSt) (d : Dev) : (modPower f d).always = d.always := rfl
@[simp] theorem modPower_reset (f : PowerSt → PowerSt) (d : Dev) : (modPower f d).reset = d.reset := rfl
@[simp] theorem modPower_regs (f : PowerSt → PowerSt) (d : Dev) : (modPower f d).regs = d.regs := rfl
@[simp] theorem modPower_versions (f : PowerSt → PowerSt) (d : Dev) : (modPower f d).versions = d.versions := rfl
@[simp] theorem modPower_pages (f : PowerSt → PowerSt) (d : Dev) : (modPower f d).pages = d.pages := rfl
@[simp] theorem modPower_units (f : PowerSt → PowerSt) (d : Dev) : (modPower f d).units = d.units := rfl
@[simp] theorem modPower_flags (f : PowerSt → PowerSt) (d : Dev) : (modPower f d).flags = d.flags := rfl
@[simp] theorem modPower_startCause (f : PowerSt → PowerSt) (d : Dev) : (modPower f d).startCause = d.startCause := rfl
@[simp] theorem modPower_link (f : PowerSt → PowerSt) (d : Dev) : (modPower f d).link = d.link := rfl
@[simp] theorem modPower_hostTx (f : PowerSt → PowerSt) (d : Dev) : (modPower f d).hostTx = d.hostTx := rfl
@[simp] theorem modPower_hostWait (f : PowerSt → PowerSt) (d : Dev) : (modPower f d).hostWait = d.hostWait := rfl
@[simp] theorem modPower_window (f : PowerSt → PowerSt) (d : Dev) : (modPower f d).window = d.window := rfl
@[simp] theorem modPower_queues (f : PowerSt → PowerSt) (d : Dev) : (modPower f d).queues = d.queues := rfl
@[simp] theorem modPower_dmaTurn (f : PowerSt → PowerSt) (d : Dev) : (modPower f d).dmaTurn = d.dmaTurn := rfl
@[simp] theorem modPower_dma (f : PowerSt → PowerSt) (d : Dev) : (modPower f d).dma = d.dma := rfl
@[simp] theorem modPower_rings (f : PowerSt → PowerSt) (d : Dev) : (modPower f d).rings = d.rings := rfl
@[simp] theorem modPower_job (f : PowerSt → PowerSt) (d : Dev) : (modPower f d).job = d.job := rfl
@[simp] theorem modPower_cores (f : PowerSt → PowerSt) (d : Dev) : (modPower f d).cores = d.cores := rfl
@[simp] theorem modPower_sram (f : PowerSt → PowerSt) (d : Dev) : (modPower f d).sram = d.sram := rfl
@[simp] theorem modPower_sramPoison (f : PowerSt → PowerSt) (d : Dev) : (modPower f d).sramPoison = d.sramPoison := rfl
@[simp] theorem modPower_packets (f : PowerSt → PowerSt) (d : Dev) : (modPower f d).packets = d.packets := rfl
@[simp] theorem modPower_routers (f : PowerSt → PowerSt) (d : Dev) : (modPower f d).routers = d.routers := rfl
@[simp] theorem modPower_relayIds (f : PowerSt → PowerSt) (d : Dev) : (modPower f d).relayIds = d.relayIds := rfl
@[simp] theorem modPower_meshLosses (f : PowerSt → PowerSt) (d : Dev) : (modPower f d).meshLosses = d.meshLosses := rfl
@[simp] theorem modPower_mem (f : PowerSt → PowerSt) (d : Dev) : (modPower f d).mem = d.mem := rfl
@[simp] theorem modPower_memPoison (f : PowerSt → PowerSt) (d : Dev) : (modPower f d).memPoison = d.memPoison := rfl
@[simp] theorem modPower_memBad (f : PowerSt → PowerSt) (d : Dev) : (modPower f d).memBad = d.memBad := rfl
@[simp] theorem modPower_memFlaws (f : PowerSt → PowerSt) (d : Dev) : (modPower f d).memFlaws = d.memFlaws := rfl
@[simp] theorem modPower_markFlaws (f : PowerSt → PowerSt) (d : Dev) : (modPower f d).markFlaws = d.markFlaws := rfl
@[simp] theorem modPower_burstFlaws (f : PowerSt → PowerSt) (d : Dev) : (modPower f d).burstFlaws = d.burstFlaws := rfl
@[simp] theorem modPower_memMarks (f : PowerSt → PowerSt) (d : Dev) : (modPower f d).memMarks = d.memMarks := rfl
@[simp] theorem modPower_memMap (f : PowerSt → PowerSt) (d : Dev) : (modPower f d).memMap = d.memMap := rfl
@[simp] theorem modPower_memCtls (f : PowerSt → PowerSt) (d : Dev) : (modPower f d).memCtls = d.memCtls := rfl
@[simp] theorem modPower_engines (f : PowerSt → PowerSt) (d : Dev) : (modPower f d).engines = d.engines := rfl
@[simp] theorem modPower_net (f : PowerSt → PowerSt) (d : Dev) : (modPower f d).net = d.net := rfl
@[simp] theorem modPower_fused (f : PowerSt → PowerSt) (d : Dev) : (modPower f d).fused = d.fused := rfl
@[simp] theorem modPower_flash (f : PowerSt → PowerSt) (d : Dev) : (modPower f d).flash = d.flash := rfl
@[simp] theorem modPower_boot (f : PowerSt → PowerSt) (d : Dev) : (modPower f d).boot = d.boot := rfl
@[simp] theorem modPower_power (f : PowerSt → PowerSt) (d : Dev) : (modPower f d).power = f d.power := rfl
@[simp] theorem modPower_sensors (f : PowerSt → PowerSt) (d : Dev) : (modPower f d).sensors = d.sensors := rfl
@[simp] theorem modPower_spots (f : PowerSt → PowerSt) (d : Dev) : (modPower f d).spots = d.spots := rfl
@[simp] theorem modPower_coolant (f : PowerSt → PowerSt) (d : Dev) : (modPower f d).coolant = d.coolant := rfl
@[simp] theorem modPower_complexes (f : PowerSt → PowerSt) (d : Dev) : (modPower f d).complexes = d.complexes := rfl
@[simp] theorem modPower_lead (f : PowerSt → PowerSt) (d : Dev) : (modPower f d).lead = d.lead := rfl
@[simp] theorem modPower_mgmt (f : PowerSt → PowerSt) (d : Dev) : (modPower f d).mgmt = d.mgmt := rfl
@[simp] theorem modPower_pins (f : PowerSt → PowerSt) (d : Dev) : (modPower f d).pins = d.pins := rfl
@[simp] theorem modPower_jtag (f : PowerSt → PowerSt) (d : Dev) : (modPower f d).jtag = d.jtag := rfl
@[simp] theorem modPower_unrun (f : PowerSt → PowerSt) (d : Dev) : (modPower f d).unrun = d.unrun := rfl

/-! ### setPins -/

@[simp] theorem setPins_fresh (f : Pins → Pins) (d : Dev) : (setPins f d).fresh = d.fresh := rfl
@[simp] theorem setPins_now (f : Pins → Pins) (d : Dev) : (setPins f d).now = d.now := rfl
@[simp] theorem setPins_always (f : Pins → Pins) (d : Dev) : (setPins f d).always = d.always := rfl
@[simp] theorem setPins_reset (f : Pins → Pins) (d : Dev) : (setPins f d).reset = d.reset := rfl
@[simp] theorem setPins_regs (f : Pins → Pins) (d : Dev) : (setPins f d).regs = d.regs := rfl
@[simp] theorem setPins_versions (f : Pins → Pins) (d : Dev) : (setPins f d).versions = d.versions := rfl
@[simp] theorem setPins_pages (f : Pins → Pins) (d : Dev) : (setPins f d).pages = d.pages := rfl
@[simp] theorem setPins_units (f : Pins → Pins) (d : Dev) : (setPins f d).units = d.units := rfl
@[simp] theorem setPins_flags (f : Pins → Pins) (d : Dev) : (setPins f d).flags = d.flags := rfl
@[simp] theorem setPins_startCause (f : Pins → Pins) (d : Dev) : (setPins f d).startCause = d.startCause := rfl
@[simp] theorem setPins_link (f : Pins → Pins) (d : Dev) : (setPins f d).link = d.link := rfl
@[simp] theorem setPins_hostTx (f : Pins → Pins) (d : Dev) : (setPins f d).hostTx = d.hostTx := rfl
@[simp] theorem setPins_hostWait (f : Pins → Pins) (d : Dev) : (setPins f d).hostWait = d.hostWait := rfl
@[simp] theorem setPins_window (f : Pins → Pins) (d : Dev) : (setPins f d).window = d.window := rfl
@[simp] theorem setPins_queues (f : Pins → Pins) (d : Dev) : (setPins f d).queues = d.queues := rfl
@[simp] theorem setPins_dmaTurn (f : Pins → Pins) (d : Dev) : (setPins f d).dmaTurn = d.dmaTurn := rfl
@[simp] theorem setPins_dma (f : Pins → Pins) (d : Dev) : (setPins f d).dma = d.dma := rfl
@[simp] theorem setPins_rings (f : Pins → Pins) (d : Dev) : (setPins f d).rings = d.rings := rfl
@[simp] theorem setPins_job (f : Pins → Pins) (d : Dev) : (setPins f d).job = d.job := rfl
@[simp] theorem setPins_cores (f : Pins → Pins) (d : Dev) : (setPins f d).cores = d.cores := rfl
@[simp] theorem setPins_sram (f : Pins → Pins) (d : Dev) : (setPins f d).sram = d.sram := rfl
@[simp] theorem setPins_sramPoison (f : Pins → Pins) (d : Dev) : (setPins f d).sramPoison = d.sramPoison := rfl
@[simp] theorem setPins_packets (f : Pins → Pins) (d : Dev) : (setPins f d).packets = d.packets := rfl
@[simp] theorem setPins_routers (f : Pins → Pins) (d : Dev) : (setPins f d).routers = d.routers := rfl
@[simp] theorem setPins_relayIds (f : Pins → Pins) (d : Dev) : (setPins f d).relayIds = d.relayIds := rfl
@[simp] theorem setPins_meshLosses (f : Pins → Pins) (d : Dev) : (setPins f d).meshLosses = d.meshLosses := rfl
@[simp] theorem setPins_mem (f : Pins → Pins) (d : Dev) : (setPins f d).mem = d.mem := rfl
@[simp] theorem setPins_memPoison (f : Pins → Pins) (d : Dev) : (setPins f d).memPoison = d.memPoison := rfl
@[simp] theorem setPins_memBad (f : Pins → Pins) (d : Dev) : (setPins f d).memBad = d.memBad := rfl
@[simp] theorem setPins_memFlaws (f : Pins → Pins) (d : Dev) : (setPins f d).memFlaws = d.memFlaws := rfl
@[simp] theorem setPins_markFlaws (f : Pins → Pins) (d : Dev) : (setPins f d).markFlaws = d.markFlaws := rfl
@[simp] theorem setPins_burstFlaws (f : Pins → Pins) (d : Dev) : (setPins f d).burstFlaws = d.burstFlaws := rfl
@[simp] theorem setPins_memMarks (f : Pins → Pins) (d : Dev) : (setPins f d).memMarks = d.memMarks := rfl
@[simp] theorem setPins_memMap (f : Pins → Pins) (d : Dev) : (setPins f d).memMap = d.memMap := rfl
@[simp] theorem setPins_memCtls (f : Pins → Pins) (d : Dev) : (setPins f d).memCtls = d.memCtls := rfl
@[simp] theorem setPins_engines (f : Pins → Pins) (d : Dev) : (setPins f d).engines = d.engines := rfl
@[simp] theorem setPins_net (f : Pins → Pins) (d : Dev) : (setPins f d).net = d.net := rfl
@[simp] theorem setPins_fused (f : Pins → Pins) (d : Dev) : (setPins f d).fused = d.fused := rfl
@[simp] theorem setPins_flash (f : Pins → Pins) (d : Dev) : (setPins f d).flash = d.flash := rfl
@[simp] theorem setPins_boot (f : Pins → Pins) (d : Dev) : (setPins f d).boot = d.boot := rfl
@[simp] theorem setPins_power (f : Pins → Pins) (d : Dev) : (setPins f d).power = d.power := rfl
@[simp] theorem setPins_sensors (f : Pins → Pins) (d : Dev) : (setPins f d).sensors = d.sensors := rfl
@[simp] theorem setPins_spots (f : Pins → Pins) (d : Dev) : (setPins f d).spots = d.spots := rfl
@[simp] theorem setPins_coolant (f : Pins → Pins) (d : Dev) : (setPins f d).coolant = d.coolant := rfl
@[simp] theorem setPins_complexes (f : Pins → Pins) (d : Dev) : (setPins f d).complexes = d.complexes := rfl
@[simp] theorem setPins_lead (f : Pins → Pins) (d : Dev) : (setPins f d).lead = d.lead := rfl
@[simp] theorem setPins_mgmt (f : Pins → Pins) (d : Dev) : (setPins f d).mgmt = d.mgmt := rfl
@[simp] theorem setPins_pins (f : Pins → Pins) (d : Dev) : (setPins f d).pins = f d.pins := rfl
@[simp] theorem setPins_jtag (f : Pins → Pins) (d : Dev) : (setPins f d).jtag = d.jtag := rfl
@[simp] theorem setPins_unrun (f : Pins → Pins) (d : Dev) : (setPins f d).unrun = d.unrun := rfl

/-! ### setCoolant -/

@[simp] theorem setCoolant_fresh (f : Coolant → Coolant) (d : Dev) : (setCoolant f d).fresh = d.fresh := rfl
@[simp] theorem setCoolant_now (f : Coolant → Coolant) (d : Dev) : (setCoolant f d).now = d.now := rfl
@[simp] theorem setCoolant_always (f : Coolant → Coolant) (d : Dev) : (setCoolant f d).always = d.always := rfl
@[simp] theorem setCoolant_reset (f : Coolant → Coolant) (d : Dev) : (setCoolant f d).reset = d.reset := rfl
@[simp] theorem setCoolant_regs (f : Coolant → Coolant) (d : Dev) : (setCoolant f d).regs = d.regs := rfl
@[simp] theorem setCoolant_versions (f : Coolant → Coolant) (d : Dev) : (setCoolant f d).versions = d.versions := rfl
@[simp] theorem setCoolant_pages (f : Coolant → Coolant) (d : Dev) : (setCoolant f d).pages = d.pages := rfl
@[simp] theorem setCoolant_units (f : Coolant → Coolant) (d : Dev) : (setCoolant f d).units = d.units := rfl
@[simp] theorem setCoolant_flags (f : Coolant → Coolant) (d : Dev) : (setCoolant f d).flags = d.flags := rfl
@[simp] theorem setCoolant_startCause (f : Coolant → Coolant) (d : Dev) : (setCoolant f d).startCause = d.startCause := rfl
@[simp] theorem setCoolant_link (f : Coolant → Coolant) (d : Dev) : (setCoolant f d).link = d.link := rfl
@[simp] theorem setCoolant_hostTx (f : Coolant → Coolant) (d : Dev) : (setCoolant f d).hostTx = d.hostTx := rfl
@[simp] theorem setCoolant_hostWait (f : Coolant → Coolant) (d : Dev) : (setCoolant f d).hostWait = d.hostWait := rfl
@[simp] theorem setCoolant_window (f : Coolant → Coolant) (d : Dev) : (setCoolant f d).window = d.window := rfl
@[simp] theorem setCoolant_queues (f : Coolant → Coolant) (d : Dev) : (setCoolant f d).queues = d.queues := rfl
@[simp] theorem setCoolant_dmaTurn (f : Coolant → Coolant) (d : Dev) : (setCoolant f d).dmaTurn = d.dmaTurn := rfl
@[simp] theorem setCoolant_dma (f : Coolant → Coolant) (d : Dev) : (setCoolant f d).dma = d.dma := rfl
@[simp] theorem setCoolant_rings (f : Coolant → Coolant) (d : Dev) : (setCoolant f d).rings = d.rings := rfl
@[simp] theorem setCoolant_job (f : Coolant → Coolant) (d : Dev) : (setCoolant f d).job = d.job := rfl
@[simp] theorem setCoolant_cores (f : Coolant → Coolant) (d : Dev) : (setCoolant f d).cores = d.cores := rfl
@[simp] theorem setCoolant_sram (f : Coolant → Coolant) (d : Dev) : (setCoolant f d).sram = d.sram := rfl
@[simp] theorem setCoolant_sramPoison (f : Coolant → Coolant) (d : Dev) : (setCoolant f d).sramPoison = d.sramPoison := rfl
@[simp] theorem setCoolant_packets (f : Coolant → Coolant) (d : Dev) : (setCoolant f d).packets = d.packets := rfl
@[simp] theorem setCoolant_routers (f : Coolant → Coolant) (d : Dev) : (setCoolant f d).routers = d.routers := rfl
@[simp] theorem setCoolant_relayIds (f : Coolant → Coolant) (d : Dev) : (setCoolant f d).relayIds = d.relayIds := rfl
@[simp] theorem setCoolant_meshLosses (f : Coolant → Coolant) (d : Dev) : (setCoolant f d).meshLosses = d.meshLosses := rfl
@[simp] theorem setCoolant_mem (f : Coolant → Coolant) (d : Dev) : (setCoolant f d).mem = d.mem := rfl
@[simp] theorem setCoolant_memPoison (f : Coolant → Coolant) (d : Dev) : (setCoolant f d).memPoison = d.memPoison := rfl
@[simp] theorem setCoolant_memBad (f : Coolant → Coolant) (d : Dev) : (setCoolant f d).memBad = d.memBad := rfl
@[simp] theorem setCoolant_memFlaws (f : Coolant → Coolant) (d : Dev) : (setCoolant f d).memFlaws = d.memFlaws := rfl
@[simp] theorem setCoolant_markFlaws (f : Coolant → Coolant) (d : Dev) : (setCoolant f d).markFlaws = d.markFlaws := rfl
@[simp] theorem setCoolant_burstFlaws (f : Coolant → Coolant) (d : Dev) : (setCoolant f d).burstFlaws = d.burstFlaws := rfl
@[simp] theorem setCoolant_memMarks (f : Coolant → Coolant) (d : Dev) : (setCoolant f d).memMarks = d.memMarks := rfl
@[simp] theorem setCoolant_memMap (f : Coolant → Coolant) (d : Dev) : (setCoolant f d).memMap = d.memMap := rfl
@[simp] theorem setCoolant_memCtls (f : Coolant → Coolant) (d : Dev) : (setCoolant f d).memCtls = d.memCtls := rfl
@[simp] theorem setCoolant_engines (f : Coolant → Coolant) (d : Dev) : (setCoolant f d).engines = d.engines := rfl
@[simp] theorem setCoolant_net (f : Coolant → Coolant) (d : Dev) : (setCoolant f d).net = d.net := rfl
@[simp] theorem setCoolant_fused (f : Coolant → Coolant) (d : Dev) : (setCoolant f d).fused = d.fused := rfl
@[simp] theorem setCoolant_flash (f : Coolant → Coolant) (d : Dev) : (setCoolant f d).flash = d.flash := rfl
@[simp] theorem setCoolant_boot (f : Coolant → Coolant) (d : Dev) : (setCoolant f d).boot = d.boot := rfl
@[simp] theorem setCoolant_power (f : Coolant → Coolant) (d : Dev) : (setCoolant f d).power = d.power := rfl
@[simp] theorem setCoolant_sensors (f : Coolant → Coolant) (d : Dev) : (setCoolant f d).sensors = d.sensors := rfl
@[simp] theorem setCoolant_spots (f : Coolant → Coolant) (d : Dev) : (setCoolant f d).spots = d.spots := rfl
@[simp] theorem setCoolant_coolant (f : Coolant → Coolant) (d : Dev) : (setCoolant f d).coolant = f d.coolant := rfl
@[simp] theorem setCoolant_complexes (f : Coolant → Coolant) (d : Dev) : (setCoolant f d).complexes = d.complexes := rfl
@[simp] theorem setCoolant_lead (f : Coolant → Coolant) (d : Dev) : (setCoolant f d).lead = d.lead := rfl
@[simp] theorem setCoolant_mgmt (f : Coolant → Coolant) (d : Dev) : (setCoolant f d).mgmt = d.mgmt := rfl
@[simp] theorem setCoolant_pins (f : Coolant → Coolant) (d : Dev) : (setCoolant f d).pins = d.pins := rfl
@[simp] theorem setCoolant_jtag (f : Coolant → Coolant) (d : Dev) : (setCoolant f d).jtag = d.jtag := rfl
@[simp] theorem setCoolant_unrun (f : Coolant → Coolant) (d : Dev) : (setCoolant f d).unrun = d.unrun := rfl

/-! ### setReset -/

@[simp] theorem setReset_fresh (f : ResetCtl → ResetCtl) (d : Dev) : (setReset f d).fresh = d.fresh := rfl
@[simp] theorem setReset_now (f : ResetCtl → ResetCtl) (d : Dev) : (setReset f d).now = d.now := rfl
@[simp] theorem setReset_always (f : ResetCtl → ResetCtl) (d : Dev) : (setReset f d).always = d.always := rfl
@[simp] theorem setReset_reset (f : ResetCtl → ResetCtl) (d : Dev) : (setReset f d).reset = f d.reset := rfl
@[simp] theorem setReset_regs (f : ResetCtl → ResetCtl) (d : Dev) : (setReset f d).regs = d.regs := rfl
@[simp] theorem setReset_versions (f : ResetCtl → ResetCtl) (d : Dev) : (setReset f d).versions = d.versions := rfl
@[simp] theorem setReset_pages (f : ResetCtl → ResetCtl) (d : Dev) : (setReset f d).pages = d.pages := rfl
@[simp] theorem setReset_units (f : ResetCtl → ResetCtl) (d : Dev) : (setReset f d).units = d.units := rfl
@[simp] theorem setReset_flags (f : ResetCtl → ResetCtl) (d : Dev) : (setReset f d).flags = d.flags := rfl
@[simp] theorem setReset_startCause (f : ResetCtl → ResetCtl) (d : Dev) : (setReset f d).startCause = d.startCause := rfl
@[simp] theorem setReset_link (f : ResetCtl → ResetCtl) (d : Dev) : (setReset f d).link = d.link := rfl
@[simp] theorem setReset_hostTx (f : ResetCtl → ResetCtl) (d : Dev) : (setReset f d).hostTx = d.hostTx := rfl
@[simp] theorem setReset_hostWait (f : ResetCtl → ResetCtl) (d : Dev) : (setReset f d).hostWait = d.hostWait := rfl
@[simp] theorem setReset_window (f : ResetCtl → ResetCtl) (d : Dev) : (setReset f d).window = d.window := rfl
@[simp] theorem setReset_queues (f : ResetCtl → ResetCtl) (d : Dev) : (setReset f d).queues = d.queues := rfl
@[simp] theorem setReset_dmaTurn (f : ResetCtl → ResetCtl) (d : Dev) : (setReset f d).dmaTurn = d.dmaTurn := rfl
@[simp] theorem setReset_dma (f : ResetCtl → ResetCtl) (d : Dev) : (setReset f d).dma = d.dma := rfl
@[simp] theorem setReset_rings (f : ResetCtl → ResetCtl) (d : Dev) : (setReset f d).rings = d.rings := rfl
@[simp] theorem setReset_job (f : ResetCtl → ResetCtl) (d : Dev) : (setReset f d).job = d.job := rfl
@[simp] theorem setReset_cores (f : ResetCtl → ResetCtl) (d : Dev) : (setReset f d).cores = d.cores := rfl
@[simp] theorem setReset_sram (f : ResetCtl → ResetCtl) (d : Dev) : (setReset f d).sram = d.sram := rfl
@[simp] theorem setReset_sramPoison (f : ResetCtl → ResetCtl) (d : Dev) : (setReset f d).sramPoison = d.sramPoison := rfl
@[simp] theorem setReset_packets (f : ResetCtl → ResetCtl) (d : Dev) : (setReset f d).packets = d.packets := rfl
@[simp] theorem setReset_routers (f : ResetCtl → ResetCtl) (d : Dev) : (setReset f d).routers = d.routers := rfl
@[simp] theorem setReset_relayIds (f : ResetCtl → ResetCtl) (d : Dev) : (setReset f d).relayIds = d.relayIds := rfl
@[simp] theorem setReset_meshLosses (f : ResetCtl → ResetCtl) (d : Dev) : (setReset f d).meshLosses = d.meshLosses := rfl
@[simp] theorem setReset_mem (f : ResetCtl → ResetCtl) (d : Dev) : (setReset f d).mem = d.mem := rfl
@[simp] theorem setReset_memPoison (f : ResetCtl → ResetCtl) (d : Dev) : (setReset f d).memPoison = d.memPoison := rfl
@[simp] theorem setReset_memBad (f : ResetCtl → ResetCtl) (d : Dev) : (setReset f d).memBad = d.memBad := rfl
@[simp] theorem setReset_memFlaws (f : ResetCtl → ResetCtl) (d : Dev) : (setReset f d).memFlaws = d.memFlaws := rfl
@[simp] theorem setReset_markFlaws (f : ResetCtl → ResetCtl) (d : Dev) : (setReset f d).markFlaws = d.markFlaws := rfl
@[simp] theorem setReset_burstFlaws (f : ResetCtl → ResetCtl) (d : Dev) : (setReset f d).burstFlaws = d.burstFlaws := rfl
@[simp] theorem setReset_memMarks (f : ResetCtl → ResetCtl) (d : Dev) : (setReset f d).memMarks = d.memMarks := rfl
@[simp] theorem setReset_memMap (f : ResetCtl → ResetCtl) (d : Dev) : (setReset f d).memMap = d.memMap := rfl
@[simp] theorem setReset_memCtls (f : ResetCtl → ResetCtl) (d : Dev) : (setReset f d).memCtls = d.memCtls := rfl
@[simp] theorem setReset_engines (f : ResetCtl → ResetCtl) (d : Dev) : (setReset f d).engines = d.engines := rfl
@[simp] theorem setReset_net (f : ResetCtl → ResetCtl) (d : Dev) : (setReset f d).net = d.net := rfl
@[simp] theorem setReset_fused (f : ResetCtl → ResetCtl) (d : Dev) : (setReset f d).fused = d.fused := rfl
@[simp] theorem setReset_flash (f : ResetCtl → ResetCtl) (d : Dev) : (setReset f d).flash = d.flash := rfl
@[simp] theorem setReset_boot (f : ResetCtl → ResetCtl) (d : Dev) : (setReset f d).boot = d.boot := rfl
@[simp] theorem setReset_power (f : ResetCtl → ResetCtl) (d : Dev) : (setReset f d).power = d.power := rfl
@[simp] theorem setReset_sensors (f : ResetCtl → ResetCtl) (d : Dev) : (setReset f d).sensors = d.sensors := rfl
@[simp] theorem setReset_spots (f : ResetCtl → ResetCtl) (d : Dev) : (setReset f d).spots = d.spots := rfl
@[simp] theorem setReset_coolant (f : ResetCtl → ResetCtl) (d : Dev) : (setReset f d).coolant = d.coolant := rfl
@[simp] theorem setReset_complexes (f : ResetCtl → ResetCtl) (d : Dev) : (setReset f d).complexes = d.complexes := rfl
@[simp] theorem setReset_lead (f : ResetCtl → ResetCtl) (d : Dev) : (setReset f d).lead = d.lead := rfl
@[simp] theorem setReset_mgmt (f : ResetCtl → ResetCtl) (d : Dev) : (setReset f d).mgmt = d.mgmt := rfl
@[simp] theorem setReset_pins (f : ResetCtl → ResetCtl) (d : Dev) : (setReset f d).pins = d.pins := rfl
@[simp] theorem setReset_jtag (f : ResetCtl → ResetCtl) (d : Dev) : (setReset f d).jtag = d.jtag := rfl
@[simp] theorem setReset_unrun (f : ResetCtl → ResetCtl) (d : Dev) : (setReset f d).unrun = d.unrun := rfl

/-! ### putSensor -/

@[simp] theorem putSensor_fresh (n : Nat) (x : Sensor) (d : Dev) : (putSensor n x d).fresh = d.fresh := rfl
@[simp] theorem putSensor_now (n : Nat) (x : Sensor) (d : Dev) : (putSensor n x d).now = d.now := rfl
@[simp] theorem putSensor_always (n : Nat) (x : Sensor) (d : Dev) : (putSensor n x d).always = d.always := rfl
@[simp] theorem putSensor_reset (n : Nat) (x : Sensor) (d : Dev) : (putSensor n x d).reset = d.reset := rfl
@[simp] theorem putSensor_regs (n : Nat) (x : Sensor) (d : Dev) : (putSensor n x d).regs = d.regs := rfl
@[simp] theorem putSensor_versions (n : Nat) (x : Sensor) (d : Dev) : (putSensor n x d).versions = d.versions := rfl
@[simp] theorem putSensor_pages (n : Nat) (x : Sensor) (d : Dev) : (putSensor n x d).pages = d.pages := rfl
@[simp] theorem putSensor_units (n : Nat) (x : Sensor) (d : Dev) : (putSensor n x d).units = d.units := rfl
@[simp] theorem putSensor_flags (n : Nat) (x : Sensor) (d : Dev) : (putSensor n x d).flags = d.flags := rfl
@[simp] theorem putSensor_startCause (n : Nat) (x : Sensor) (d : Dev) : (putSensor n x d).startCause = d.startCause := rfl
@[simp] theorem putSensor_link (n : Nat) (x : Sensor) (d : Dev) : (putSensor n x d).link = d.link := rfl
@[simp] theorem putSensor_hostTx (n : Nat) (x : Sensor) (d : Dev) : (putSensor n x d).hostTx = d.hostTx := rfl
@[simp] theorem putSensor_hostWait (n : Nat) (x : Sensor) (d : Dev) : (putSensor n x d).hostWait = d.hostWait := rfl
@[simp] theorem putSensor_window (n : Nat) (x : Sensor) (d : Dev) : (putSensor n x d).window = d.window := rfl
@[simp] theorem putSensor_queues (n : Nat) (x : Sensor) (d : Dev) : (putSensor n x d).queues = d.queues := rfl
@[simp] theorem putSensor_dmaTurn (n : Nat) (x : Sensor) (d : Dev) : (putSensor n x d).dmaTurn = d.dmaTurn := rfl
@[simp] theorem putSensor_dma (n : Nat) (x : Sensor) (d : Dev) : (putSensor n x d).dma = d.dma := rfl
@[simp] theorem putSensor_rings (n : Nat) (x : Sensor) (d : Dev) : (putSensor n x d).rings = d.rings := rfl
@[simp] theorem putSensor_job (n : Nat) (x : Sensor) (d : Dev) : (putSensor n x d).job = d.job := rfl
@[simp] theorem putSensor_cores (n : Nat) (x : Sensor) (d : Dev) : (putSensor n x d).cores = d.cores := rfl
@[simp] theorem putSensor_sram (n : Nat) (x : Sensor) (d : Dev) : (putSensor n x d).sram = d.sram := rfl
@[simp] theorem putSensor_sramPoison (n : Nat) (x : Sensor) (d : Dev) : (putSensor n x d).sramPoison = d.sramPoison := rfl
@[simp] theorem putSensor_packets (n : Nat) (x : Sensor) (d : Dev) : (putSensor n x d).packets = d.packets := rfl
@[simp] theorem putSensor_routers (n : Nat) (x : Sensor) (d : Dev) : (putSensor n x d).routers = d.routers := rfl
@[simp] theorem putSensor_relayIds (n : Nat) (x : Sensor) (d : Dev) : (putSensor n x d).relayIds = d.relayIds := rfl
@[simp] theorem putSensor_meshLosses (n : Nat) (x : Sensor) (d : Dev) : (putSensor n x d).meshLosses = d.meshLosses := rfl
@[simp] theorem putSensor_mem (n : Nat) (x : Sensor) (d : Dev) : (putSensor n x d).mem = d.mem := rfl
@[simp] theorem putSensor_memPoison (n : Nat) (x : Sensor) (d : Dev) : (putSensor n x d).memPoison = d.memPoison := rfl
@[simp] theorem putSensor_memBad (n : Nat) (x : Sensor) (d : Dev) : (putSensor n x d).memBad = d.memBad := rfl
@[simp] theorem putSensor_memFlaws (n : Nat) (x : Sensor) (d : Dev) : (putSensor n x d).memFlaws = d.memFlaws := rfl
@[simp] theorem putSensor_markFlaws (n : Nat) (x : Sensor) (d : Dev) : (putSensor n x d).markFlaws = d.markFlaws := rfl
@[simp] theorem putSensor_burstFlaws (n : Nat) (x : Sensor) (d : Dev) : (putSensor n x d).burstFlaws = d.burstFlaws := rfl
@[simp] theorem putSensor_memMarks (n : Nat) (x : Sensor) (d : Dev) : (putSensor n x d).memMarks = d.memMarks := rfl
@[simp] theorem putSensor_memMap (n : Nat) (x : Sensor) (d : Dev) : (putSensor n x d).memMap = d.memMap := rfl
@[simp] theorem putSensor_memCtls (n : Nat) (x : Sensor) (d : Dev) : (putSensor n x d).memCtls = d.memCtls := rfl
@[simp] theorem putSensor_engines (n : Nat) (x : Sensor) (d : Dev) : (putSensor n x d).engines = d.engines := rfl
@[simp] theorem putSensor_net (n : Nat) (x : Sensor) (d : Dev) : (putSensor n x d).net = d.net := rfl
@[simp] theorem putSensor_fused (n : Nat) (x : Sensor) (d : Dev) : (putSensor n x d).fused = d.fused := rfl
@[simp] theorem putSensor_flash (n : Nat) (x : Sensor) (d : Dev) : (putSensor n x d).flash = d.flash := rfl
@[simp] theorem putSensor_boot (n : Nat) (x : Sensor) (d : Dev) : (putSensor n x d).boot = d.boot := rfl
@[simp] theorem putSensor_power (n : Nat) (x : Sensor) (d : Dev) : (putSensor n x d).power = d.power := rfl
@[simp] theorem putSensor_sensors (n : Nat) (x : Sensor) (d : Dev) : (putSensor n x d).sensors = d.sensors.set n x := rfl
@[simp] theorem putSensor_spots (n : Nat) (x : Sensor) (d : Dev) : (putSensor n x d).spots = d.spots := rfl
@[simp] theorem putSensor_coolant (n : Nat) (x : Sensor) (d : Dev) : (putSensor n x d).coolant = d.coolant := rfl
@[simp] theorem putSensor_complexes (n : Nat) (x : Sensor) (d : Dev) : (putSensor n x d).complexes = d.complexes := rfl
@[simp] theorem putSensor_lead (n : Nat) (x : Sensor) (d : Dev) : (putSensor n x d).lead = d.lead := rfl
@[simp] theorem putSensor_mgmt (n : Nat) (x : Sensor) (d : Dev) : (putSensor n x d).mgmt = d.mgmt := rfl
@[simp] theorem putSensor_pins (n : Nat) (x : Sensor) (d : Dev) : (putSensor n x d).pins = d.pins := rfl
@[simp] theorem putSensor_jtag (n : Nat) (x : Sensor) (d : Dev) : (putSensor n x d).jtag = d.jtag := rfl
@[simp] theorem putSensor_unrun (n : Nat) (x : Sensor) (d : Dev) : (putSensor n x d).unrun = d.unrun := rfl

/-! ### putSpot -/

@[simp] theorem putSpot_fresh (h : Nat) (x : HotSpot) (d : Dev) : (putSpot h x d).fresh = d.fresh := rfl
@[simp] theorem putSpot_now (h : Nat) (x : HotSpot) (d : Dev) : (putSpot h x d).now = d.now := rfl
@[simp] theorem putSpot_always (h : Nat) (x : HotSpot) (d : Dev) : (putSpot h x d).always = d.always := rfl
@[simp] theorem putSpot_reset (h : Nat) (x : HotSpot) (d : Dev) : (putSpot h x d).reset = d.reset := rfl
@[simp] theorem putSpot_regs (h : Nat) (x : HotSpot) (d : Dev) : (putSpot h x d).regs = d.regs := rfl
@[simp] theorem putSpot_versions (h : Nat) (x : HotSpot) (d : Dev) : (putSpot h x d).versions = d.versions := rfl
@[simp] theorem putSpot_pages (h : Nat) (x : HotSpot) (d : Dev) : (putSpot h x d).pages = d.pages := rfl
@[simp] theorem putSpot_units (h : Nat) (x : HotSpot) (d : Dev) : (putSpot h x d).units = d.units := rfl
@[simp] theorem putSpot_flags (h : Nat) (x : HotSpot) (d : Dev) : (putSpot h x d).flags = d.flags := rfl
@[simp] theorem putSpot_startCause (h : Nat) (x : HotSpot) (d : Dev) : (putSpot h x d).startCause = d.startCause := rfl
@[simp] theorem putSpot_link (h : Nat) (x : HotSpot) (d : Dev) : (putSpot h x d).link = d.link := rfl
@[simp] theorem putSpot_hostTx (h : Nat) (x : HotSpot) (d : Dev) : (putSpot h x d).hostTx = d.hostTx := rfl
@[simp] theorem putSpot_hostWait (h : Nat) (x : HotSpot) (d : Dev) : (putSpot h x d).hostWait = d.hostWait := rfl
@[simp] theorem putSpot_window (h : Nat) (x : HotSpot) (d : Dev) : (putSpot h x d).window = d.window := rfl
@[simp] theorem putSpot_queues (h : Nat) (x : HotSpot) (d : Dev) : (putSpot h x d).queues = d.queues := rfl
@[simp] theorem putSpot_dmaTurn (h : Nat) (x : HotSpot) (d : Dev) : (putSpot h x d).dmaTurn = d.dmaTurn := rfl
@[simp] theorem putSpot_dma (h : Nat) (x : HotSpot) (d : Dev) : (putSpot h x d).dma = d.dma := rfl
@[simp] theorem putSpot_rings (h : Nat) (x : HotSpot) (d : Dev) : (putSpot h x d).rings = d.rings := rfl
@[simp] theorem putSpot_job (h : Nat) (x : HotSpot) (d : Dev) : (putSpot h x d).job = d.job := rfl
@[simp] theorem putSpot_cores (h : Nat) (x : HotSpot) (d : Dev) : (putSpot h x d).cores = d.cores := rfl
@[simp] theorem putSpot_sram (h : Nat) (x : HotSpot) (d : Dev) : (putSpot h x d).sram = d.sram := rfl
@[simp] theorem putSpot_sramPoison (h : Nat) (x : HotSpot) (d : Dev) : (putSpot h x d).sramPoison = d.sramPoison := rfl
@[simp] theorem putSpot_packets (h : Nat) (x : HotSpot) (d : Dev) : (putSpot h x d).packets = d.packets := rfl
@[simp] theorem putSpot_routers (h : Nat) (x : HotSpot) (d : Dev) : (putSpot h x d).routers = d.routers := rfl
@[simp] theorem putSpot_relayIds (h : Nat) (x : HotSpot) (d : Dev) : (putSpot h x d).relayIds = d.relayIds := rfl
@[simp] theorem putSpot_meshLosses (h : Nat) (x : HotSpot) (d : Dev) : (putSpot h x d).meshLosses = d.meshLosses := rfl
@[simp] theorem putSpot_mem (h : Nat) (x : HotSpot) (d : Dev) : (putSpot h x d).mem = d.mem := rfl
@[simp] theorem putSpot_memPoison (h : Nat) (x : HotSpot) (d : Dev) : (putSpot h x d).memPoison = d.memPoison := rfl
@[simp] theorem putSpot_memBad (h : Nat) (x : HotSpot) (d : Dev) : (putSpot h x d).memBad = d.memBad := rfl
@[simp] theorem putSpot_memFlaws (h : Nat) (x : HotSpot) (d : Dev) : (putSpot h x d).memFlaws = d.memFlaws := rfl
@[simp] theorem putSpot_markFlaws (h : Nat) (x : HotSpot) (d : Dev) : (putSpot h x d).markFlaws = d.markFlaws := rfl
@[simp] theorem putSpot_burstFlaws (h : Nat) (x : HotSpot) (d : Dev) : (putSpot h x d).burstFlaws = d.burstFlaws := rfl
@[simp] theorem putSpot_memMarks (h : Nat) (x : HotSpot) (d : Dev) : (putSpot h x d).memMarks = d.memMarks := rfl
@[simp] theorem putSpot_memMap (h : Nat) (x : HotSpot) (d : Dev) : (putSpot h x d).memMap = d.memMap := rfl
@[simp] theorem putSpot_memCtls (h : Nat) (x : HotSpot) (d : Dev) : (putSpot h x d).memCtls = d.memCtls := rfl
@[simp] theorem putSpot_engines (h : Nat) (x : HotSpot) (d : Dev) : (putSpot h x d).engines = d.engines := rfl
@[simp] theorem putSpot_net (h : Nat) (x : HotSpot) (d : Dev) : (putSpot h x d).net = d.net := rfl
@[simp] theorem putSpot_fused (h : Nat) (x : HotSpot) (d : Dev) : (putSpot h x d).fused = d.fused := rfl
@[simp] theorem putSpot_flash (h : Nat) (x : HotSpot) (d : Dev) : (putSpot h x d).flash = d.flash := rfl
@[simp] theorem putSpot_boot (h : Nat) (x : HotSpot) (d : Dev) : (putSpot h x d).boot = d.boot := rfl
@[simp] theorem putSpot_power (h : Nat) (x : HotSpot) (d : Dev) : (putSpot h x d).power = d.power := rfl
@[simp] theorem putSpot_sensors (h : Nat) (x : HotSpot) (d : Dev) : (putSpot h x d).sensors = d.sensors := rfl
@[simp] theorem putSpot_spots (h : Nat) (x : HotSpot) (d : Dev) : (putSpot h x d).spots = d.spots.set h x := rfl
@[simp] theorem putSpot_coolant (h : Nat) (x : HotSpot) (d : Dev) : (putSpot h x d).coolant = d.coolant := rfl
@[simp] theorem putSpot_complexes (h : Nat) (x : HotSpot) (d : Dev) : (putSpot h x d).complexes = d.complexes := rfl
@[simp] theorem putSpot_lead (h : Nat) (x : HotSpot) (d : Dev) : (putSpot h x d).lead = d.lead := rfl
@[simp] theorem putSpot_mgmt (h : Nat) (x : HotSpot) (d : Dev) : (putSpot h x d).mgmt = d.mgmt := rfl
@[simp] theorem putSpot_pins (h : Nat) (x : HotSpot) (d : Dev) : (putSpot h x d).pins = d.pins := rfl
@[simp] theorem putSpot_jtag (h : Nat) (x : HotSpot) (d : Dev) : (putSpot h x d).jtag = d.jtag := rfl
@[simp] theorem putSpot_unrun (h : Nat) (x : HotSpot) (d : Dev) : (putSpot h x d).unrun = d.unrun := rfl

end Sys2Proof.Machine
end

