-- ==== Sys2Proof/Laws/Tables.lean ====
section
/-!
SUPPORT. Laws of tables, byte memories and registers: a read after a write gives what was written, and every other place is as
it was; a byte memory keeps its canonical form.
-/

namespace Sys2Proof.Machine

section Tables
variable {κ α : Type} [DecidableEq κ]

@[simp] theorem tbl_get_set_same (t : Tbl κ α) (a v : α) (k : κ) : (t.set k v).get a k = v := by
  induction t with
  | nil => simp [Tbl.set, Tbl.get]
  | cons e r ih =>
    obtain ⟨k', v'⟩ := e
    by_cases h : k' = k <;> simp [Tbl.set, Tbl.get, h, ih]

theorem tbl_get_set_other (t : Tbl κ α) (a v : α) {j k : κ} (h : j ≠ k) : (t.set k v).get a j = t.get a j := by
  induction t with
  | nil => simp [Tbl.set, Tbl.get, Ne.symm h]
  | cons e r ih =>
    obtain ⟨k', v'⟩ := e
    by_cases hk : k' = k
    · subst hk
      simp [Tbl.set, Tbl.get, Ne.symm h]
    · by_cases hj : k' = j
      · subst hj
        simp [Tbl.set, Tbl.get, h]
      · simp [Tbl.set, Tbl.get, hk, hj, ih]

theorem tbl_get_set (t : Tbl κ α) (a v : α) (j k : κ) : (t.set k v).get a j = if j = k then v else t.get a j := by
  by_cases h : j = k
  · simp [h]
  · simp [h, tbl_get_set_other t a v h]

end Tables

/-! ### Registers and pages -/

@[simp] theorem rd_wr_same (r : RegId) (n : Nat) (d : Dev) : rd r (wr r n d) = n % 2 ^ 32 := by
  simp [rd, wr]

theorem rd_wr_other {q r : RegId} (n : Nat) (d : Dev) (h : homeOf q ≠ homeOf r) : rd q (wr r n d) = rd q d := by
  simp [rd, wr, tbl_get_set_other _ _ _ h]

@[simp] theorem pageOf_putPage_same (p : PageId) (g : Page) (d : Dev) : pageOf p (putPage p g d) = g := by
  simp [pageOf]

theorem pageOf_putPage_other {p q : PageId} (g : Page) (d : Dev) (h : q ≠ p) : pageOf q (putPage p g d) = pageOf q d := by
  simp [pageOf, tbl_get_set_other _ _ _ h]

@[simp] theorem pageOf_wr (p : PageId) (r : RegId) (n : Nat) (d : Dev) : pageOf p (wr r n d) = pageOf p d := rfl

@[simp] theorem rd_putPage (r : RegId) (p : PageId) (g : Page) (d : Dev) : rd r (putPage p g d) = rd r d := rfl

/-! ### Byte memories -/

theorem mem_byte_below {m : Mem} {a : Nat} (hw : Mem.wf m = true) (h : ∀ c ∈ m, a < c.1) : Mem.byte m a = Mem.unlisted := by
  cases m with
  | nil => rfl
  | cons c r =>
    have := h c (by simp)
    simp [Mem.byte, Nat.ne_of_gt this, this]

/-- Every listed address of a tail lies above its head. -/
theorem mem_wf_above {a : Nat} {b : Byte} {m : Mem} (h : Mem.wf ((a, b) :: m) = true) : ∀ c ∈ m, a < c.1 := by
  induction m generalizing a b with
  | nil => simp
  | cons e r ih =>
    obtain ⟨a', b'⟩ := e
    simp only [Mem.wf, Bool.and_eq_true, decide_eq_true_eq] at h
    intro c hc
    rcases List.mem_cons.1 hc with rfl | hc
    · exact h.1.2
    · exact Nat.lt_trans h.1.2 (ih (a := a') (b := b') (by simp [Mem.wf, h.2]) c hc)

theorem mem_wf_tail {c : Host.Cell} {m : Mem} (h : Mem.wf (c :: m) = true) : Mem.wf m = true := by
  obtain ⟨a, b⟩ := c
  simp only [Mem.wf, Bool.and_eq_true] at h
  exact h.2

/-- A cell that is not 0 may stand before a canonical memory whose addresses lie above it. -/
theorem mem_wf_cons {a : Nat} {b : Byte} {m : Mem} (hb : b ≠ Mem.unlisted) (hm : Mem.wf m = true) (h : ∀ c ∈ m, a < c.1) :
    Mem.wf ((a, b) :: m) = true := by
  cases m with
  | nil => simp [Mem.wf, hb]
  | cons e r =>
    have := h e (by simp)
    simp [Mem.wf, hb, this]
    simpa [Mem.wf] using hm

theorem mem_wf_head {a : Nat} {b : Byte} {m : Mem} (h : Mem.wf ((a, b) :: m) = true) : b ≠ Mem.unlisted := by
  simp only [Mem.wf, Bool.and_eq_true, bne_iff_ne] at h
  exact h.1.1

/-- Addresses listed after a write: the one written, or one listed before. -/
theorem mem_put_listed {m : Mem} {a : Nat} {b : Byte} {c : Host.Cell} (h : c ∈ Mem.put m a b) : c.1 = a ∨ c ∈ m := by
  induction m with
  | nil =>
    by_cases hb : b = Mem.unlisted <;> simp [Mem.put, hb] at h
    exact .inl (by rw [h])
  | cons e r ih =>
    obtain ⟨a', b'⟩ := e
    simp only [Mem.put] at h
    split at h
    · split at h
      · exact .inr h
      · rcases List.mem_cons.1 h with rfl | h
        · exact .inl rfl
        · exact .inr h
    · split at h
      · split at h
        · exact .inr (List.mem_cons_of_mem _ h)
        · rcases List.mem_cons.1 h with rfl | h
          · exact .inl rfl
          · exact .inr (List.mem_cons_of_mem _ h)
      · rcases List.mem_cons.1 h with rfl | h
        · exact .inr (by simp)
        · rcases ih h with h | h
          · exact .inl h
          · exact .inr (List.mem_cons_of_mem _ h)

/-- A write of one byte keeps the canonical form. -/
theorem mem_wf_put {m : Mem} (a : Nat) (b : Byte) (h : Mem.wf m = true) : Mem.wf (Mem.put m a b) = true := by
  induction m with
  | nil => by_cases hb : b = Mem.unlisted <;> simp [Mem.put, hb, Mem.wf]
  | cons e r ih =>
    obtain ⟨a', b'⟩ := e
    have ht := mem_wf_tail h
    have hup := mem_wf_above h
    simp only [Mem.put]
    split
    · rename_i hlt
      split
      · exact h
      · rename_i hb
        refine mem_wf_cons hb h ?_
        intro c hc
        rcases List.mem_cons.1 hc with rfl | hc
        · exact hlt
        · exact Nat.lt_trans hlt (hup c hc)
    · split
      · rename_i heq
        split
        · exact ht
        · rename_i hb
          exact mem_wf_cons hb ht (by subst heq; exact hup)
      · rename_i hlt heq
        refine mem_wf_cons (mem_wf_head h) (ih ht) ?_
        intro c hc
        rcases mem_put_listed hc with hc | hc
        · omega
        · exact hup c hc

/-- A write of bytes keeps the canonical form. -/
theorem mem_wf_write {m : Mem} (a : Nat) (bs : List Byte) (h : Mem.wf m = true) : Mem.wf (Mem.write m a bs) = true := by
  induction bs generalizing m a with
  | nil => exact h
  | cons b r ih => exact ih (a + 1) (mem_wf_put a b h)

/-- What a write of one byte leaves at each address. -/
theorem mem_byte_put {m : Mem} (a : Nat) (b : Byte) (x : Nat) (h : Mem.wf m = true) :
    Mem.byte (Mem.put m a b) x = if x = a then b else Mem.byte m x := by
  induction m with
  | nil =>
    by_cases hb : b = Mem.unlisted
    · by_cases hx : x = a <;> simp [Mem.put, Mem.byte, hb, hx]
    · by_cases hx : x = a
      · simp [Mem.put, Mem.byte, hb, hx]
      · have : a ≠ x := fun q => hx q.symm
        simp [Mem.put, Mem.byte, hb, hx, this]
  | cons e r ih =>
    obtain ⟨a', b'⟩ := e
    have ht := mem_wf_tail h
    have hup := mem_wf_above h
    have hr : ∀ y, y ≤ a' → Mem.byte r y = Mem.unlisted := fun y hy =>
      mem_byte_below ht (fun c hc => Nat.lt_of_le_of_lt hy (hup c hc))
    simp only [Mem.put]
    split
    · rename_i hlt
      by_cases hb : b = Mem.unlisted
      · by_cases hx : x = a
        · subst hx
          have : a' ≠ x := by omega
          simp [hb, Mem.byte, this, hlt]
        · simp [hb, hx]
      · by_cases hx : x = a
        · simp [hb, hx, Mem.byte]
        · have hax : a ≠ x := fun q => hx q.symm
          by_cases hxa : x < a
          · have h1 : a' ≠ x := by omega
            have h2 : x < a' := by omega
            simp [hb, hx, Mem.byte, hax, hxa, h1, h2]
          · simp [hb, hx, Mem.byte, hax, hxa]
    · split
      · rename_i heq
        subst heq
        by_cases hb : b = Mem.unlisted
        · by_cases hx : x = a
          · subst hx
            simp [hb, hr x (Nat.le_refl x)]
          · have hax : a ≠ x := fun q => hx q.symm
            by_cases hxa : x < a
            · simp [hb, hx, Mem.byte, hax, hxa, hr x (Nat.le_of_lt hxa)]
            · simp [hb, hx, Mem.byte, hax, hxa]
        · by_cases hx : x = a
          · simp [hb, hx, Mem.byte]
          · have hax : a ≠ x := fun q => hx q.symm
            simp [hb, hx, Mem.byte, hax]
      · rename_i hlt hne
        by_cases hx : x = a'
        · subst hx
          have : x ≠ a := fun q => hne q.symm
          simp [Mem.byte, this]
        · have h1 : a' ≠ x := fun q => hx q.symm
          by_cases hxa : x < a'
          · have h2 : x ≠ a := by omega
            simp [Mem.byte, h1, hxa, h2]
          · simp [Mem.byte, h1, hxa, ih ht]

/-- A write of bytes leaves every byte outside its range. -/
theorem mem_byte_write_outside {m : Mem} (a : Nat) (bs : List Byte) (x : Nat) (h : Mem.wf m = true)
    (hx : x < a ∨ a + bs.length ≤ x) : Mem.byte (Mem.write m a bs) x = Mem.byte m x := by
  induction bs generalizing m a with
  | nil => rfl
  | cons b r ih =>
    simp only [List.length_cons] at hx
    have h1 : x < a + 1 ∨ a + 1 + r.length ≤ x := by omega
    have h2 : x ≠ a := by omega
    simp [Mem.write, ih (a + 1) (mem_wf_put a b h) h1, mem_byte_put a b x h, h2]

/-- A read gives back what a write of the same range stored. -/
theorem mem_read_write {m : Mem} (a : Nat) (bs : List Byte) (h : Mem.wf m = true) :
    Mem.read (Mem.write m a bs) a bs.length = bs := by
  induction bs generalizing m a with
  | nil => rfl
  | cons b r ih =>
    have hw := mem_wf_put a b h
    have : Mem.byte (Mem.write (Mem.put m a b) (a + 1) r) a = b := by
      rw [mem_byte_write_outside (a + 1) r a hw (.inl (by omega)), mem_byte_put a b a h]
      simp
    simp [Mem.write, Mem.read, this, ih (a + 1) hw]

/-- A part of a canonical memory is canonical. -/
theorem mem_wf_filter {m : Mem} (p : Host.Cell → Bool) (h : Mem.wf m = true) : Mem.wf (m.filter p) = true := by
  induction m with
  | nil => rfl
  | cons e r ih =>
    obtain ⟨a, b⟩ := e
    by_cases hp : p (a, b) = true
    · rw [List.filter_cons_of_pos hp]
      exact mem_wf_cons (mem_wf_head h) (ih (mem_wf_tail h)) (fun c hc => mem_wf_above h c (List.mem_filter.1 hc).1)
    · rw [List.filter_cons_of_neg (by simpa using hp)]
      exact ih (mem_wf_tail h)

/-- Forgetting a range keeps the canonical form. -/
theorem mem_wf_clear {m : Mem} (lo hi : Nat) (h : Mem.wf m = true) : Mem.wf (Mem.clear m lo hi) = true := mem_wf_filter _ h

end Sys2Proof.Machine
end

