-- ==== Sys2Proof/Laws/Reports.lean ====
section
/-!
SUPPORT. Laws of reports: messages to the host, the shared window, event rings and page events change nothing but reports
(`Reported`); an event's bit is set (R48).
-/

namespace Sys2Proof.Machine

theorem Reported.refl (d : Dev) : Reported d d := ⟨rfl, fun _ => rfl, fun _ => rfl, fun _ _ _ => rfl⟩

theorem Reported.trans {a b c : Dev} (h : Reported a b) (k : Reported b c) : Reported a c :=
  ⟨k.1.trans h.1, fun p => (k.2.1 p).trans (h.2.1 p), fun n => (k.2.2.1 n).trans (h.2.2.1 n),
    fun r x y => (k.2.2.2 r x y).trans (h.2.2.2 r x y)⟩

/-- Reports that leave page headers and registers as they are. -/
structure Sent (d e : Dev) : Prop where
  quiet : e.quiet = d.quiet
  pages : e.pages = d.pages
  regs : e.regs = d.regs
  rings : ∀ n, (ringOf n e).quiet = (ringOf n d).quiet

theorem Sent.refl (d : Dev) : Sent d d := ⟨rfl, rfl, rfl, fun _ => rfl⟩

theorem Sent.trans {a b c : Dev} (h : Sent a b) (k : Sent b c) : Sent a c :=
  ⟨k.quiet.trans h.quiet, k.pages.trans h.pages, k.regs.trans h.regs, fun n => (k.rings n).trans (h.rings n)⟩

theorem Sent.reported {d e : Dev} (h : Sent d e) : Reported d e := by
  have hc : e.quiet.startCause = d.quiet.startCause := by rw [h.quiet]
  have hc : e.startCause = d.startCause := hc
  refine ⟨h.quiet, fun p => ?_, h.rings, fun r _ _ => ?_⟩
  · simp [pageOf, h.pages, hc]
  · simp [rd, h.regs]

/-! ### Messages and the shared window -/

theorem linkSend_quiet (m : HostMsg) (l : Link) : (linkSend m l).quiet = l.quiet := by
  have h : ∀ (ps : List (List Byte)) (x : Link), (ps.foldl sendData x).quiet = x.quiet := by
    intro ps
    induction ps with
    | nil => intro x; rfl
    | cons p ps ih => intro x; rw [List.foldl_cons, ih]; rfl
  exact h _ _

theorem sent_pump (k : Nat) (d : Dev) : Sent d (pump k d) := by
  induction k generalizing d with
  | zero => exact Sent.refl d
  | succ k ih =>
    unfold pump
    split
    · rename_i k' m r hk hm
      obtain rfl : k = k' := by omega
      split
      · refine Sent.trans ?_ (ih _)
        exact ⟨by simp [Dev.quiet, linkSend_quiet], rfl, rfl, fun _ => rfl⟩
      · exact Sent.refl d
    · exact Sent.refl d

theorem sent_hostSend (m : HostMsg) (d : Dev) : Sent d (hostSend m d) :=
  Sent.trans (b := { d with hostWait := d.hostWait ++ [m] }) ⟨rfl, rfl, rfl, fun _ => rfl⟩ (sent_pump _ _)

theorem sent_requestLine (a : Nat) (own : Bool) (d : Dev) : Sent d (requestLine a own d) := by
  unfold requestLine
  split
  · exact Sent.refl d
  · split
    · exact Sent.refl d
    · exact Sent.trans (b := { d with window := { d.window with requests := d.window.requests ++ [⟨a, own, _⟩] } })
        ⟨rfl, rfl, rfl, fun _ => rfl⟩ (sent_hostSend _ _)

/-- A ring that keeps its set-up. -/
theorem sent_rings {n : Nat} {r : EventRing} {d : Dev} (h : r.quiet = (ringOf n d).quiet) :
    Sent d { d with rings := d.rings.set n r } := by
  refine ⟨rfl, rfl, rfl, fun k => ?_⟩
  by_cases hk : k = n
  · subst hk; simp [ringOf] at h ⊢; exact h
  · simp [ringOf, tbl_get_set_other _ _ _ hk]

theorem sent_signalRing (n : Nat) (d : Dev) : Sent d (signalRing n d) := by
  unfold signalRing
  simp only
  split
  · split
    · exact sent_rings rfl
    · refine Sent.trans ?_ (sent_hostSend _ _)
      exact sent_rings rfl
  · refine Sent.trans ?_ (sent_hostSend _ _)
    exact sent_rings rfl

theorem sent_drainWindow (k : Nat) (d : Dev) : Sent d (drainWindow k d) := by
  induction k generalizing d with
  | zero => exact Sent.refl d
  | succ k ih =>
    unfold drainWindow
    split
    · rename_i k' a bs r hk hm
      obtain rfl : k = k' := by omega
      split
      · split
        · exact sent_requestLine _ _ _
        · refine Sent.trans ?_ (ih _)
          exact ⟨rfl, rfl, rfl, fun _ => rfl⟩
      · exact sent_requestLine _ _ _
    · rename_i k' n r hk hm
      obtain rfl : k = k' := by omega
      exact Sent.trans (Sent.trans (b := { d with window := { d.window with waiting := r } })
        ⟨rfl, rfl, rfl, fun _ => rfl⟩ (sent_signalRing n _)) (ih _)
    · exact Sent.refl d

theorem sent_windowWrite (a : Nat) (bs : List Byte) (d : Dev) : Sent d (windowWrite a bs d) :=
  Sent.trans (b := { d with window := { d.window with waiting := d.window.waiting ++ [.write a bs] } })
    ⟨rfl, rfl, rfl, fun _ => rfl⟩ (sent_drainWindow _ _)

theorem sent_windowSignal (n : Nat) (d : Dev) : Sent d (windowSignal n d) :=
  Sent.trans (b := { d with window := { d.window with waiting := d.window.waiting ++ [.signal n] } })
    ⟨rfl, rfl, rfl, fun _ => rfl⟩ (sent_drainWindow _ _)

theorem reported_hostSend (m : HostMsg) (d : Dev) : Reported d (hostSend m d) := (sent_hostSend m d).reported

theorem reported_pump (k : Nat) (d : Dev) : Reported d (pump k d) := (sent_pump k d).reported

theorem reported_drainWindow (k : Nat) (d : Dev) : Reported d (drainWindow k d) := (sent_drainWindow k d).reported

/-! ### Event rings -/

/-- Indices and counts of the event rings are reports. -/
theorem reported_wr_ring (n off v : Nat) (d : Dev) : Reported d (wr (rEvt n off) v d) := by
  refine ⟨rfl, fun _ => rfl, fun _ => rfl, fun r _ h => rd_wr_other v d ?_⟩
  intro e
  rw [e] at h
  simp [ringIndex, homeOf] at h

theorem reported_addWrap_ring (n off v : Nat) (d : Dev) : Reported d (addWrap (rEvt n off) v d) := reported_wr_ring _ _ _ _

theorem reported_bump_ring (n off : Nat) (d : Dev) : Reported d (bump (rEvt n off) d) := reported_wr_ring _ _ _ _

theorem reported_putEntry (n : Nat) (e : Entry) (d : Dev) : Reported d (putEntry n e d) := by
  unfold putEntry
  have h := (reported_addWrap_ring n 0x10 1 d).trans (sent_windowWrite
    ((ringOf n d).base + 32 * (rd (rEvt n 0x10) d % 2 ^ (ringOf n d).sizeLog2))
    (entryBytes e ((rd (rEvt n 0x10) d / 2 ^ (ringOf n d).sizeLog2) % 2 == 0) d.now) (addWrap (rEvt n 0x10) 1 d)).reported
  simp only
  split
  · refine h.trans (Sent.reported (Sent.trans ?_ (sent_windowSignal _ _)))
    exact sent_rings rfl
  · exact h

theorem reported_loseEntry (n : Nat) (d : Dev) : Reported d (loseEntry n d) :=
  by
  refine Reported.trans ?_ (reported_bump_ring n 0x14 _)
  refine Sent.reported ?_
  exact sent_rings rfl

theorem reported_payOverflow (n : Nat) (d : Dev) : Reported d (payOverflow n d) := by
  unfold payOverflow
  simp only
  split
  · refine Reported.trans ?_ (reported_putEntry _ _ _)
    refine Sent.reported ?_
    exact sent_rings rfl
  · exact Reported.refl d

theorem reported_tryDeliver (n : Nat) (e : Entry) (d : Dev) : Reported d (tryDeliver n e d).1 := by
  unfold tryDeliver
  simp only
  split
  · exact (reported_payOverflow n d).trans (reported_putEntry _ _ _)
  · exact (reported_payOverflow n d).trans (reported_loseEntry _ _)

/-! ### Page events -/

/-- A page written again with the same fields but its event bits. -/
theorem reported_putPage_events (p : PageId) (g : Page) (d : Dev) (h : g.quiet = (pageOf p d).quiet) :
    Reported d (putPage p g d) := by
  refine ⟨rfl, fun q => ?_, fun _ => rfl, fun r _ _ => rfl⟩
  by_cases hq : q = p
  · subst hq; simp [h]
  · rw [pageOf_putPage_other _ _ hq]

theorem reported_setOverflow (d : Dev) : Reported d (setOverflow d) := by
  unfold setOverflow
  simp only
  have h : Reported d (putPage pLua
      { pageOf pLua d with events := (pageOf pLua d).events ||| (1 <<< 19 : Word) } d) :=
    reported_putPage_events _ _ _ rfl
  split
  · exact h.trans (reported_tryDeliver _ _ _)
  · exact h

theorem reported_deliver (g : Nat) (e : Entry) (d : Dev) : Reported d (deliver g e d) := by
  unfold deliver
  simp only
  split
  · exact Reported.refl d
  · split
    · exact (reported_tryDeliver _ _ _).trans (reported_setOverflow _)
    · exact reported_tryDeliver _ _ _

theorem reported_raise (p : PageId) (bit : Nat) (d : Dev) : Reported d (raise p bit d) := by
  unfold raise
  simp only
  have h : Reported d (putPage p
      { pageOf p d with events := (pageOf p d).events ||| BitVec.ofNat 32 (2 ^ bit) } d) :=
    reported_putPage_events _ _ _ rfl
  split
  · exact h.trans (reported_deliver _ _ _)
  · exact h

/-! ### Reports before a write stay reports after it -/

theorem Reported.pageFields {d e : Dev} (h : Reported d e) (p : PageId) :
    ∃ w, pageOf p e = { pageOf p d with events := w } := by
  have hq := h.2.1 p
  refine ⟨(pageOf p e).events, ?_⟩
  cases he : pageOf p e
  cases hd : pageOf p d
  simp only [he, hd, Page.quiet, Page.mk.injEq] at hq ⊢
  simp [hq]

theorem Reported.putPage {d e : Dev} (h : Reported d e) (p : PageId) {g k : Page} (hg : k.quiet = g.quiet) :
    Reported (putPage p g d) (putPage p k e) := by
  refine ⟨by simpa [Dev.quiet, Machine.putPage] using h.1, fun q => ?_, fun n => h.2.2.1 n, fun r x y => h.2.2.2 r x y⟩
  by_cases hq : q = p
  · subst hq; simp [hg]
  · rw [pageOf_putPage_other _ _ hq, pageOf_putPage_other _ _ hq]; exact h.2.1 q

theorem Reported.wr {d e : Dev} (h : Reported d e) (r : RegId) (n : Nat) : Reported (wr r n d) (wr r n e) := by
  refine ⟨by simpa [Dev.quiet, Machine.wr] using h.1, fun q => h.2.1 q, fun n => h.2.2.1 n, fun q x y => ?_⟩
  by_cases hq : homeOf q = homeOf r
  · simp [rd, Machine.wr, hq]
  · rw [rd_wr_other _ _ hq, rd_wr_other _ _ hq]; exact h.2.2.2 q x y

theorem Reported.stateOf {d e : Dev} (h : Reported d e) (p : PageId) : stateOf p e = stateOf p d := by
  obtain ⟨w, hw⟩ := h.pageFields p
  simp [Machine.stateOf, hw]

theorem Reported.rd {d e : Dev} (h : Reported d e) {r : RegId} (hr : ringIndex r = false)
    (hh : ringIndex (homeOf r) = false) : rd r e = rd r d := h.2.2.2 r hr hh

/-- A transition writes STATE, CAUSE and GEN in one write, and beside them only reports (R30, R34). -/
theorem reported_setState (p : PageId) (st : PState) (c : Cause) (d : Dev) :
    Reported (putPage p { pageOf p d with state := st, cause := c, gen := fpGen d % 65536 } d) (setState p st c d) :=
  reported_raise p 0 _

/-- An entry changes no page header. -/
theorem tryDeliver_pages (n : Nat) (e : Entry) (d : Dev) : (tryDeliver n e d).1.pages = d.pages := by
  have hput : ∀ (n : Nat) (e : Entry) (d : Dev), (putEntry n e d).pages = d.pages := by
    intro n e d
    unfold putEntry
    simp only
    split
    · exact (sent_windowSignal _ _).pages.trans ((sent_windowWrite _ _ _).pages.trans rfl)
    · exact (sent_windowWrite _ _ _).pages.trans rfl
  have hpay : (payOverflow n d).pages = d.pages := by
    unfold payOverflow
    simp only
    split
    · exact hput _ _ _
    · rfl
  unfold tryDeliver
  simp only
  split
  · exact (hput _ _ _).trans hpay
  · exact hpay

end Sys2Proof.Machine
end

