-- ==== Sys2Proof/Laws/PageCommands.lean ====
section
/-!
SUPPORT. Laws of page commands: how a command acts on the state, what the judgement of R39 does in each of its cases, and
what the end of a command writes.
-/

namespace Sys2Proof.Machine

/-- With the 48 V input there, a command's effect is its effect on the device. -/
theorem onDev_on {s : State} (h : s.on) (f : Dev → Dev) : onDev f s = .next { s with dev := f s.dev } := by
  have h : s.dev.boot.phase ≠ .unpowered := h
  simp [onDev, powered, h]

/-- A command that starts no part acts on the device alone. -/
theorem onDevPart_none {s : State} (part : Nat) (starts : Dev → Bool) (f : Dev → Dev) (h : s.dev.unrun = []) :
    onDevPart part starts f s = onDev f s := by
  simp [onDevPart, h]

theorem gives_onDev {s : State} (h : s.on) (f : Dev → Dev) : Gives s (onDev f s) (f s.dev) := onDev_on h f

theorem gives_of_eq {s : State} (h : s.on) {f : Dev → Dev} {d : Dev} (e : f s.dev = d) : Gives s (onDev f s) d := by
  rw [← e]; exact gives_onDev h f

theorem reaches_of_reported {s : State} (h : s.on) {f : Dev → Dev} {d : Dev} (e : Reported d (f s.dev)) :
    Reaches s (onDev f s) d := ⟨_, onDev_on h f, rfl, rfl, rfl, e⟩

theorem does_of {s : State} (h : s.on) {f : Dev → Dev} {P : Dev → Prop} (e : P (f s.dev)) : Does s (onDev f s) P :=
  ⟨_, onDev_on h f, rfl, rfl, rfl, e⟩

/-! ### The judgement of R39 -/

theorem endCmd_idle {p : PageId} {d : Dev} (ok : Bool) (h : (pageOf p d).cmd = none) : endCmd p ok d = d := by
  simp [endCmd, h]

theorem mayCommand_parts {p : PageId} {d : Dev} (h : mayCommand p d = true) :
    pageSilent p d = false ∧ d.lead.safe = false ∧ (pageOf p d).negotiated = true ∧ (pageOf p d).cmd = none := by
  simpa [mayCommand, and_assoc] using h

/-- A command that passes every check is accepted (R39, R42). -/
theorem pageCommand_accepted {p : PageId} {d : Dev} (code arg : Nat) {defined legal inRange : Bool} (start : Dev → Dev)
    (h : mayCommand p d = true) (h3 : defined = true) (h4 : legal = true) (h5 : inRange = true) :
    pageCommand p code arg defined legal inRange start d = start (accept p code arg d) := by
  obtain ⟨a, b, c, e⟩ := mayCommand_parts h
  simp [pageCommand, a, b, c, e, h3, h4, h5, endCmd]

/-- A page that is not negotiated rejects every command (R39, check 1). -/
theorem pageCommand_unnegotiated {p : PageId} {d : Dev} (code arg : Nat) (defined legal inRange : Bool) (start : Dev → Dev)
    (h1 : pageSilent p d = false) (h2 : d.lead.safe = false) (h3 : (pageOf p d).negotiated = false) :
    pageCommand p code arg defined legal inRange start d = reject p code .rejectedVersion d := by
  simp [pageCommand, h1, h2, h3]

/-- A command behind one in progress is dropped (R39, check 2; R41). -/
theorem pageCommand_dropped {p : PageId} {d : Dev} {code : Nat} (arg : Nat) (defined legal inRange : Bool) (start : Dev → Dev)
    (h1 : pageSilent p d = false) (h2 : d.lead.safe = false) (h3 : (pageOf p d).negotiated = true)
    (h4 : (pageOf p d).cmd.isSome = true) (h5 : code ≠ 4) :
    pageCommand p code arg defined legal inRange start d = dropCmd p code d := by
  simp [pageCommand, h1, h2, h3, h4, h5]

/-- Checks 3 to 5 of R39. -/
theorem pageCommand_judged {p : PageId} {d : Dev} (code arg : Nat) (defined legal inRange : Bool) (start : Dev → Dev)
    (h : mayCommand p d = true) :
    pageCommand p code arg defined legal inRange start d =
      if !defined then reject p code .rejectedVersion d
      else if !legal then reject p code .rejectedState d
      else if !inRange then reject p code .rejectedRange d
      else start (accept p code arg d) := by
  obtain ⟨a, b, c, e⟩ := mayCommand_parts h
  simp [pageCommand, a, b, c, e, endCmd]

/-- What a rejection writes (R40, R46). -/
theorem reported_reject (p : PageId) (code : Nat) (r : Result) (d : Dev) :
    Reported (putPage p
      ({ pageOf p d with seq := ((pageOf p d).seq + 1) % 65536, lastCmd := code, result := r }.erred
        (2 ^ 12 * rejectClass r + 2 ^ 8 * stateCode (pageOf p d).state + code)) d) (reject p code r d) := by
  unfold reject
  refine Reported.trans ?_ (reported_raise p 2 _)
  simp only [classError, recordError, stateOf, pageOf_putPage_same, Page.erred]
  refine ⟨rfl, fun q => ?_, fun _ => rfl, fun _ _ _ => rfl⟩
  by_cases hq : q = p
  · subst hq; simp
  · simp [pageOf_putPage_other _ _ hq]

/-- What a drop writes (R41, R46). -/
theorem reported_dropCmd (p : PageId) (code : Nat) (d : Dev) :
    Reported (putPage p ((pageOf p d).erred (2 ^ 12 * 4 + 2 ^ 8 * stateCode (pageOf p d).state + code)) d)
      (dropCmd p code d) := by
  unfold dropCmd
  exact (Reported.refl _).trans (reported_raise p 2 _)

/-- A command that ends DONE (R42). -/
theorem reported_endCmd_done {p : PageId} {d : Dev} (h : (pageOf p d).cmd.isSome = true) :
    Reported (putPage p { pageOf p d with result := .done, cmd := none } d) (endCmd p true d) := by
  obtain ⟨c, hc⟩ := Option.isSome_iff_exists.1 h
  simp only [endCmd, hc, if_true]
  exact reported_raise p 1 _

/-- A command that ends FAILED (R42, R46). -/
theorem reported_endCmd_failed {p : PageId} {d : Dev} {c : PageCmd} (h : (pageOf p d).cmd = some c) :
    Reported (putPage p ({ pageOf p d with result := .failed, cmd := none }.erred
      (2 ^ 12 * 5 + 2 ^ 8 * stateCode (pageOf p d).state + c.code)) d) (endCmd p false d) := by
  simp only [endCmd, h, Bool.false_eq_true, if_false]
  refine Reported.trans ?_ (reported_raise p 1 _)
  simp only [classError, recordError, stateOf, pageOf_putPage_same, Page.erred]
  refine ⟨rfl, fun q => ?_, fun _ => rfl, fun _ _ _ => rfl⟩
  by_cases hq : q = p
  · subst hq; simp
  · simp [pageOf_putPage_other _ _ hq]

/-- Writing a page twice leaves the second. -/
theorem reported_putPage_twice (p : PageId) (g k : Page) (d : Dev) :
    Reported (putPage p k d) (putPage p k (putPage p g d)) := by
  refine ⟨rfl, fun q => ?_, fun _ => rfl, fun _ _ _ => rfl⟩
  by_cases hq : q = p
  · subst hq; simp
  · simp [pageOf_putPage_other _ _ hq]

/-- The state after a transition is the state written. -/
theorem stateOf_setState (p : PageId) (st : PState) (c : Cause) (d : Dev) : stateOf p (setState p st c d) = st := by
  rw [(reported_setState p st c d).stateOf p]
  simp [stateOf]

end Sys2Proof.Machine
end

