-- ==== Sys2Proof/Laws/Races.lean ====
section
/-!
SUPPORT. Laws of accesses that meet (R156, R179, R180, R239): where nothing else runs, nothing becomes undefined.
-/

namespace Sys2Proof.Machine

@[simp] theorem commonRanges_nil_left (ys : List (Nat × Nat)) : commonRanges [] ys = [] := rfl

@[simp] theorem commonRanges_nil_right (xs : List (Nat × Nat)) : commonRanges xs [] = [] := by simp [commonRanges]

@[simp] theorem freeBytes_nil (k : Nat) (d : Dev) : freeBytes k [] d = d := rfl

@[simp] theorem freeMemory_nil (d : Dev) : freeMemory [] d = d := rfl

@[simp] theorem landed_nil (a : Nat) (bs : List Byte) (d : Dev) : landed [] a bs d = (bs, d) := rfl

@[simp] theorem addRaced_nil (k : Nat) (t : Word) (d : Dev) : addRaced k t [] d = d := rfl

/-- A write to a core none of whose commands runs leaves nothing undefined. -/
theorem agentWrote_idle {k : Nat} {d : Dev} (own : Option (Nat × Word)) (w : List (Nat × Nat))
    (h : ∀ e < 3, running k e d = []) : agentWrote k own w d = d := by
  simp [agentWrote, h 0 (by omega), h 1 (by omega), h 2 (by omega)]

/-- No line belongs to a stream while no chunk is armed, pending or running. -/
theorem streamLine_no_plans {d : Dev} (writer : Option Nat) (ring : Bool) (l : Nat) (h : noPlans d = true) :
    streamLine writer ring l d = false := by
  unfold streamLine
  split
  · rfl
  · rw [List.any_eq_false]
    intro g hg
    have hp : openChunks g.2 = [] := List.isEmpty_iff.mp (List.all_eq_true.mp h g hg)
    simp [hp]

/-- A write to module memory leaves nothing undefined while no chunk is armed, pending or running. -/
theorem memWrote_no_plans {d : Dev} (a n : Nat) (h : noPlans d = true) : memWrote a n d = d := by
  have hn : (linesIn a n).filter (fun l => streamLine none false l d) = [] :=
    List.filter_eq_nil_iff.mpr (by simp [streamLine_no_plans _ _ _ h])
  simp [memWrote, hn]

theorem ringWrote_no_plans {d : Dev} (a n : Nat) (h : noPlans d = true) : ringWrote a n d = d := by
  have hn : (linesIn a n).filter (fun l => streamLine none true l d) = [] :=
    List.filter_eq_nil_iff.mpr (by simp [streamLine_no_plans _ _ _ h])
  simp [ringWrote, hn]

end Sys2Proof.Machine
end

