-- ==== Sys2Proof/WellFormed.lean ====
section
/-!
DEFINITION. Well-formed commands: every operand names an instance that the module has, or fits the field that carries it.
-/

namespace Sys2Proof

/-- A flit of 256 bytes, and places of it that arrive in error (R59). -/
def flitFits (flit : List Byte) (errors : FlitErrors) : Bool := flit.length == 256 && errors.all (fun e => decide (e.place < 256))

/-- Errors of memory devices lie in channels that the module has (R191, R192). -/
def errorsFit (l : DeviceErrors) : Bool :=
  l.all (fun e => match e with
    | .word _ _ => true
    | .marks channel _ copy _ => decide (channel < 384) && decide (copy < 3)
    | .burst channel _ => decide (channel < 384))

/-- A PFC frame names eight priorities, with quanta of 16 bits (R281). -/
def quantaFit (l : PauseQuanta) : Bool :=
  decide (l.length ≤ 8) && l.all (fun q => match q with | some n => decide (n < 65536) | none => true)

/-- A detour entry: a router, a rectangle of destinations with the edge's columns, and a waypoint in the grid (R167, R175). -/
def detourFits (t : Detour) : Bool :=
  decide (t.router < 2560) && decide (t.x0 < 128) && decide (t.y0 < 64) && decide (t.x1 < 128) && decide (t.y1 < 64)
    && decide (t.wpx < 64) && decide (t.wpy < 40)

/-- A unit code has 24 bits (R364). -/
def codeFits (u : Nat) : Bool := decide (u < 16777216)

/-- The operands of a command lie in the ranges of their fields. -/
def wellFormed (i : Instr) : Bool :=
  match i with
  | .quiesce ty inst => decide (inst < Machine.instances ty)
  | .quiescedAtSafePoint ty inst => decide (inst < Machine.instances ty)
  | .resume ty inst => decide (inst < Machine.instances ty)
  | .retest ty inst => decide (inst < Machine.instances ty)
  | .retire ty inst arg => decide (inst < Machine.instances ty) && decide (arg < 16777216)
  | .load ty inst arg => decide (inst < Machine.instances ty) && decide (arg < 16777216)
  | .retrain ty inst arg => decide (inst < Machine.instances ty) && decide (arg < 16777216)
  | .selfFault unit => decide (unit < 16777216)
  | .ownerRetest unit => decide (unit < 16777216)
  | .pageNegotiate ty inst _ => decide (inst < Machine.instances ty)
  | .pageError ty inst _ => decide (inst < Machine.instances ty)
  | .pageEvents ty inst _ _ => decide (inst < Machine.instances ty)
  | .pageEventMask ty inst _ => decide (inst < Machine.instances ty)
  | .registerWrite off _ => decide (off < 67108864)
  | .loRead off => decide (off < 67108864)
  | .hiWrite off _ => decide (off < 67108864)
  | .rcRead off _ => decide (off < 67108864)
  | .negotiateAll _ => true
  | .linkTrained _ _ => true
  | .linkTrainingFailed => true
  | .linkFailure => true
  | .linkLostTimeout => true
  | .dataFlit flit errors => flitFits flit errors
  | .replayRequest r => flitFits r.flit r.errors
  | .regRead32 tag _ => decide (tag < 4096)
  | .regRead64 tag _ => decide (tag < 4096)
  | .regWrite32 tag _ _ => decide (tag < 4096)
  | .regWrite64 tag _ _ => decide (tag < 4096)
  | .dmaReadData tag _ _ data => decide (tag < 4096) && decide (data.length ≤ 4096)
  | .unusedOpcode m => decide (m.opcode < 256) && decide (m.length < 65536)
  | .cohSnoopInv h => decide (h.tag < 4096)
  | .cohSnoopShare h => decide (h.tag < 4096)
  | .cohGrant h _ data => decide (h.tag < 4096) && data.length == 64
  | .cohWbAck h => decide (h.tag < 4096)
  | .lineEviction _ => true
  | .sharedEnable => true
  | .sharedDisable => true
  | .queueEnable arg => decide (arg < 16777216)
  | .queueDisable arg => decide (arg < 16777216)
  | .ringEnable arg => decide (arg < 16777216)
  | .ringDisable arg => decide (arg < 16777216)
  | .doorbell q _ => decide (q < 16)
  | .nop q => decide (q < 16)
  | .hostToModule q => decide (q < 16)
  | .moduleToHost q => decide (q < 16)
  | .slotFill q => decide (q < 16)
  | .descriptorComplete q => decide (q < 16)
  | .eConsumer n _ => decide (n < 8)
  | .intHoldoff n => decide (n < 8)
  | .attach arg => decide (arg < 16777216)
  | .detach => true
  | .openContext arg => decide (arg < 16777216)
  | .closeContext arg => decide (arg < 16777216)
  | .contextDrained ctx => decide (ctx < 8)
  | .scalarInstruction core => decide (core < 2560)
  | .ecall core => decide (core < 2560)
  | .fenceI core => decide (core < 2560)
  | .mret core => decide (core < 2560)
  | .vxbeacon core => decide (core < 2560)
  | .vxseed core _ => decide (core < 2560)
  | .mxIssue core rd rs1 => decide (core < 2560) && decide (rd < 32) && decide (rs1 < 32)
  | .vxIssue core rd rs1 => decide (core < 2560) && decide (rd < 32) && decide (rs1 < 32)
  | .msgSend core rd rs1 => decide (core < 2560) && decide (rd < 32) && decide (rs1 < 32)
  | .engWait core rd rs1 rs2 => decide (core < 2560) && decide (rd < 32) && decide (rs1 < 32) && decide (rs2 < 32)
  | .engPoll core rd rs1 => decide (core < 2560) && decide (rd < 32) && decide (rs1 < 32)
  | .flagRead core rd imm => decide (core < 2560) && decide (rd < 32) && decide (imm < 4096)
  | .flagAdd core rd rs1 imm => decide (core < 2560) && decide (rd < 32) && decide (rs1 < 32) && decide (imm < 4096)
  | .flagSet core rd rs1 imm => decide (core < 2560) && decide (rd < 32) && decide (rs1 < 32) && decide (imm < 4096)
  | .flagWait core rd rs1 imm => decide (core < 2560) && decide (rd < 32) && decide (rs1 < 32) && decide (imm < 4096)
  | .flagTest core rd rs1 imm => decide (core < 2560) && decide (rd < 32) && decide (rs1 < 32) && decide (imm < 4096)
  | .waitSatisfied core => decide (core < 2560)
  | .waitTimeout core => decide (core < 2560)
  | .beaconReq core => decide (core < 2560)
  | .matmul core => decide (core < 2560)
  | .add core => decide (core < 2560)
  | .sub core => decide (core < 2560)
  | .mul core => decide (core < 2560)
  | .fma core => decide (core < 2560)
  | .max core => decide (core < 2560)
  | .min core => decide (core < 2560)
  | .copy core => decide (core < 2560)
  | .transpose core => decide (core < 2560)
  | .exp2 core => decide (core < 2560)
  | .log2 core => decide (core < 2560)
  | .recip core => decide (core < 2560)
  | .rsqrt core => decide (core < 2560)
  | .tanh core => decide (core < 2560)
  | .sigmoid core => decide (core < 2560)
  | .erf core => decide (core < 2560)
  | .rsum core => decide (core < 2560)
  | .rmax core => decide (core < 2560)
  | .rmin core => decide (core < 2560)
  | .rsumsq core => decide (core < 2560)
  | .ramax core => decide (core < 2560)
  | .messagePut core => decide (core < 2560)
  | .messageGet core => decide (core < 2560)
  | .rowMulticast core => decide (core < 2560)
  | .columnMulticast core => decide (core < 2560)
  | .counterMessage core => decide (core < 2560)
  | .updateQueueMessage core => decide (core < 2560)
  | .engineCommandComplete core engine ticket => decide (core < 2560) && decide (engine < 3) && decide (ticket < 4294967296)
  | .msgStall core ticket => decide (core < 2560) && decide (ticket < 4294967296)
  | .sramScrub core addr _ => decide (core < 2560) && decide (addr < 2097152)
  | .start core arg => decide (core < 2560) && decide (arg < 16777216)
  | .stop core => decide (core < 2560)
  | .kernelEnd core => decide (core < 2560)
  | .routerFlit router _ _ _ _ => decide (router < 2560)
  | .put _ => true
  | .putMem _ => true
  | .getReq _ => true
  | .getData _ => true
  | .completion _ => true
  | .counterAdd _ => true
  | .updatePut _ => true
  | .mcPut _ => true
  | .relayPut _ => true
  | .targetEntryTimeout core => decide (core < 2560)
  | .sourceMessageTimeout core => decide (core < 2560)
  | .mapFixed => true
  | .scrubStep c errors => decide (c < 24) && errorsFit errors
  | .scrubNow c => decide (c < 24)
  | .wck2dqRead c _ => decide (c < 24)
  | .mr4Read c _ _ => decide (c < 24)
  | .channelRetrainStart c j => decide (c < 24) && decide (j < 16)
  | .channelRetrainEnd c _ => decide (c < 24)
  | .injectCtrl c _ => decide (c < 24)
  | .mapLocalNext _ => true
  | .selfRefreshEntry c => decide (c < 24)
  | .enablePlan c arg => decide (c < 24) && decide (arg < 16777216)
  | .disablePlan c arg => decide (c < 24) && decide (arg < 16777216)
  | .arm c arg => decide (c < 24) && decide (arg < 16777216)
  | .disarm c arg => decide (c < 24) && decide (arg < 16777216)
  | .fire c arg => decide (c < 24) && decide (arg < 16777216)
  | .stateQuery c _ => decide (c < 24)
  | .chunkRun c => decide (c < 24)
  | .chunkEnd c => decide (c < 24)
  | .portTrainingDone p _ => decide (p < 48)
  | .linkDown l => decide (l.port < 48) && decide (l.lanes < 16)
  | .linkUp p => decide (p < 48)
  | .fecInterval l _ _ => decide (l.port < 48) && decide (l.lanes < 16)
  | .laserCheck _ => true
  | .laserSwitched e => decide (e < 6)
  | .laserSelect p arg => decide (p < 48) && decide (arg < 16777216)
  | .neighborSolicitation p x => decide (p < 48) && decide (x.source < 2 ^ 128) && decide (x.target < 2 ^ 128)
  | .unsupportedFrame p _ => decide (p < 48)
  | .data p _ => decide (p < 48)
  | .pfcFrame p _ quanta => decide (p < 48) && quantaFit quanta
  | .pfcRepeat side port _ => decide (side < 2) && decide (port < 24)
  | .pfcStorm p _ => decide (p < 48)
  | .ack p _ => decide (p < 48)
  | .nack p _ => decide (p < 48)
  | .credit p _ => decide (p < 48)
  | .abortPacket p _ => decide (p < 48)
  | .send p => decide (p < 48)
  | .packetSend x =>
    decide (x.stream.side < 2) && decide (x.stream.channel < 4) && decide (x.stream.peer < 4096) && errorsFit x.errors
  | .ackDelay k => decide (k.side < 2) && decide (k.channel < 4) && decide (k.peer < 4096)
  | .nackDelay k => decide (k.side < 2) && decide (k.channel < 4) && decide (k.peer < 4096)
  | .retxTimeout k => decide (k.side < 2) && decide (k.channel < 4) && decide (k.peer < 4096)
  | .holdProbe k => decide (k.side < 2) && decide (k.channel < 4) && decide (k.peer < 4096)
  | .streamGiveup k => decide (k.side < 2) && decide (k.channel < 4) && decide (k.peer < 4096)
  | .rateRise k => decide (k.side < 2) && decide (k.channel < 4) && decide (k.peer < 4096)
  | .openWindow p arg => decide (p < 48) && decide (arg < 16777216)
  | .closeWindow p arg => decide (p < 48) && decide (arg < 16777216)
  | .winQuery p _ => decide (p < 48)
  | .streamQuery p _ => decide (p < 48)
  | .flush side arg => decide (side < 2) && decide (arg < 16777216)
  | .applyReserves side => decide (side < 2)
  | .poolInject side _ => decide (side < 2)
  | .queueLinkLost side e => decide (side < 2) && decide (e.queue < 120)
  | .cellReclaim side q => decide (side < 2) && decide (q < 120)
  | .setHalf r arg => decide (r < 48) && decide (arg < 16777216)
  | .clearHalf r arg => decide (r < 48) && decide (arg < 16777216)
  | .counterWrite side c _ => decide (side < 2) && decide (c < 512)
  | .armEntry side arg => decide (side < 2) && decide (arg < 16777216)
  | .disarmEntry side arg => decide (side < 2) && decide (arg < 16777216)
  | .sendOp r => decide (r < 48)
  | .reduceSend x => decide (x.ring < 48) && errorsFit x.errors
  | .copyOp x => decide (x.ring < 48) && errorsFit x.errors
  | .signalOp r => decide (r < 48)
  | .opEnd r _ => decide (r < 48)
  | .launch r => decide (r < 48)
  | .abort r => decide (r < 48)
  | .acknowledge r => decide (r < 48)
  | .passEnd r => decide (r < 48)
  | .stepTimeout r => decide (r < 48)
  | .powerOn pins => decide (pins.slotId < 16)
  | .inputDip => true
  | .powerLoss => true
  | .overvoltage => true
  | .romStart r => decide (r.slotId < 16)
  | .dieControllerRelease d _ => decide (d < 10)
  | .knownAnswerRunEnd unit _ => decide (unit < 16777216)
  | .meshTestEnd x detours cut => x.failed.all codeFits && x.corrected.all codeFits && detours.all detourFits && cut.all (fun k => decide (k < 2560))
  | .coreWave d w => decide (d < 8) && decide (w < 5)
  | .inSessionRetirement unit _ detours cut => decide (unit < 16777216) && detours.all detourFits && cut.all (fun k => decide (k < 2560))
  | .powerPeriod a => a.clusters.length == 160 && a.dies.length == 10 && a.stepRates.length == 160
  | .afterglowMaxHold => true
  | .paceBelowJob i => decide (i < 160)
  | .applyTargets => true
  | .controlCycle _ => true
  | .sensorConversion n _ => decide (n < 88)
  | .sensorFault n => decide (n < 88)
  | .sensorSplit h => decide (h < 44)
  | .trimChanged i => decide (i < 160)
  | .opPointChanged => true
  | .coolantOkFall => true
  | .coolantStop => true
  | .coolantOkRise => true
  | .coolantReturn => true
  | .coolantGrace => true
  | .supervisorBeacon i _ => decide (i < 160)
  | .dieControllerBeacon d _ => decide (d < 10)
  | .beacon => true
  | .requestReset arg => decide (arg < 16777216)
  | .resetNFall => true
  | .pinReset => true
  | .meshDrained => true
  | .resetNRelease => true
  | .resetNRise => true
  | .recoveryDone => true
  | .mirrorRecord _ => true
  | .ropeResend => true
  | .watchdog => true
  | .silence => true
  | .takeover => true
  | .takeoverCheckEnd _ => true
  | .rejoined => true
  | .enec events => decide (events < 256)
  | .disec events => decide (events < 256)
  | .rstdaa => true
  | .entdaa addr => decide (addr < 128)
  | .setdasa static addr => decide (static < 128) && decide (addr < 128)
  | .setnewda addr => decide (addr < 128)
  | .getpid => true
  | .getbcr => true
  | .getdcr => true
  | .getstatus => true
  | .getmrl => true
  | .getmwl => true
  | .setmrl length => decide (length < 65536)
  | .setmwl length => decide (length < 65536)
  | .setEndpointId inst op eid => decide (inst < 32) && decide (op < 4) && decide (eid < 256)
  | .getEndpointId inst => decide (inst < 32)
  | .getEndpointUuid inst => decide (inst < 32)
  | .getMctpVersionSupport inst mtype => decide (inst < 32) && decide (mtype < 256)
  | .getMessageTypeSupport inst => decide (inst < 32)
  | .getVendorDefinedMessageSupport inst selector => decide (inst < 32) && decide (selector < 256)
  | .unsupportedMessageType mtype => decide (mtype < 256)
  | .assemblyTimeout => true
  | .getTid inst => decide (inst < 32)
  | .setTid inst tid => decide (inst < 32) && decide (tid < 256)
  | .getPldmVersion inst ptype => decide (inst < 32) && decide (ptype < 64)
  | .getPldmTypes inst => decide (inst < 32)
  | .getPldmCommands inst ptype => decide (inst < 32) && decide (ptype < 64)
  | .setEventReceiver inst enable receiver => decide (inst < 32) && decide (enable < 256) && decide (receiver < 256)
  | .getPdrRepositoryInfo inst => decide (inst < 32)
  | .getPdr inst handle => decide (inst < 32) && decide (handle < 4294967296)
  | .getSensorReading inst sensor => decide (inst < 32) && decide (sensor < 65536)
  | .getStateSensorReadings inst sensor => decide (inst < 32) && decide (sensor < 65536)
  | .pollForPlatformEventMessage inst => decide (inst < 32)
  | .getState inst body => decide (inst < 256) && decide (body.length ≤ 32768)
  | .getCeilings inst body => decide (inst < 256) && decide (body.length ≤ 32768)
  | .setCeilings inst body => decide (inst < 256) && decide (body.length ≤ 32768)
  | .setSilence inst body => decide (inst < 256) && decide (body.length ≤ 32768)
  | .silenceEngaged => true
  | .orderReset inst body => decide (inst < 256) && decide (body.length ≤ 32768)
  | .orderPowerOff inst body => decide (inst < 256) && decide (body.length ≤ 32768)
  | .handover inst body => decide (inst < 256) && decide (body.length ≤ 32768)
  | .restartSecond inst body => decide (inst < 256) && decide (body.length ≤ 32768)
  | .getFloorPlan inst body => decide (inst < 256) && decide (body.length ≤ 32768)
  | .getCairn inst body => decide (inst < 256) && decide (body.length ≤ 32768)
  | .clearCairn inst body => decide (inst < 256) && decide (body.length ≤ 32768)
  | .stageBegin inst body => decide (inst < 256) && decide (body.length ≤ 32768)
  | .stageData inst body => decide (inst < 256) && decide (body.length ≤ 32768)
  | .stagePieceDone inst body => decide (inst < 256) && decide (body.length ≤ 32768)
  | .stageStatus inst body => decide (inst < 256) && decide (body.length ≤ 32768)
  | .stageAbandon inst body => decide (inst < 256) && decide (body.length ≤ 32768)
  | .activate inst body => decide (inst < 256) && decide (body.length ≤ 32768)
  | .activationCopyDone _ => true
  | .getSetting inst body => decide (inst < 256) && decide (body.length ≤ 32768)
  | .setSetting inst body => decide (inst < 256) && decide (body.length ≤ 32768)
  | .getMeasurements inst body => decide (inst < 256) && decide (body.length ≤ 32768)
  | .getCertificate inst body => decide (inst < 256) && decide (body.length ≤ 32768)
  | .attest inst body => decide (inst < 256) && decide (body.length ≤ 32768)
  | .attestSigned => true
  | .debugChallenge inst body => decide (inst < 256) && decide (body.length ≤ 32768)
  | .debugUnlock inst body => decide (inst < 256) && decide (body.length ≤ 32768)
  | .bypass _ => true
  | .idcode => true
  | .samplePreload _ => true
  | .extest _ => true
  | .loadComplete ty inst _ => decide (inst < Machine.instances ty)
  | .idleFlit r => flitFits r.flit r.errors
  | .pauseQuantaExpired p _ => decide (p < 48)
  | .errorUnsupportedPldmCmd inst ptype cmd => decide (inst < 32) && decide (ptype < 64) && decide (cmd < 256)
  | .undefinedVendorCommand inst cmd => decide (inst < 256) && decide (cmd < 256)
  | .shadowFailure i => decide (i < 160)
  | .managementControllerRestart => true
  | .trstN _ => true
  | .w1cWrite off _ => decide (off < 67108864)
  | .resetNHeldByTray => true

end Sys2Proof
end

