-- ==== Sys2Proof/Tests/Slice0.lean ====
section
/-!
SUPPORT. Tests: states and operands that meet the premises of the statements, ill-formed commands that WellFormed refuses, and
single steps whose results stand in the manual.
-/

namespace Sys2Proof.Tests

open Sys2Proof.Machine

set_option Elab.async false


/-- The module of Tests as State.reset leaves it, once its bring-up is over. -/
def up : Dev :=
  { State.reset.dev with
    now := 5000000
    reset := { State.reset.dev.reset with level := none, phase := .starting, driving := false }
    boot := { freshBoot with phase := .running, meshTested := true, complete := true }
    always := { State.reset.dev.always with leadSelect := some 0 }
    link := { freshLink with phase := .active, lanes := 16, rate := 64 } }

def st (d : Dev) : State := { State.reset with dev := d }

/-- A negotiated page in a state. -/
def pg (p : PageId) (x : PState) (d : Dev) : Dev := putPage p { pageOf p d with state := x, negotiated := true } d
def mp (p : PageId) (f : Page → Page) (d : Dev) : Dev := putPage p (f (pageOf p d)) d
def ust (u : Nat) (x : PState) (d : Dev) : Dev := { d with units := d.units.set u { unitRec u d with state := x } }

/-- Core 0 with its page ACTIVE, its record changed. -/
def cr (f : Core → Core) (d : Dev) : Dev := modCore 0 f (pg (pCore 0) .active d)
/-- Core 0 runs a kernel of context 0 in user mode, with x5 = `a` and x6 = `b`. -/
def kern (a b : DWord) (d : Dev) : Dev :=
  { cr (fun c => { c with machine := false, kernel := some 0, pc := 0x1000, mtvec := 0x1F0001, xs := [(5, a), (6, b)],
                          flags := [(63, 7)], engines := [(0, ⟨0, 9, []⟩)] }) d with job := { d.job with attached := true, open_ := [0] } }
/-- Bytes of core 0's SRAM. -/
def sr (a : Nat) (b : List Byte) (d : Dev) : Dev := sramWrite 0 a b [] d
/-- Registers of a list. -/
def rg (l : List (RegId × Nat)) (d : Dev) : Dev := l.foldl (fun x e => wr e.1 e.2 x) d
/-- The memory map of one usable channel. -/
def mm (d : Dev) : Dev := { d with memMap := some ⟨0, [0]⟩ }
/-- The shared window, enabled, of 64 MB. -/
def win (d : Dev) : Dev := { d with window := { d.window with enabled := true, base := 0, sizeLog2 := 26 } }

/-- A data flit of the host that carries nothing. -/
def flit0 : LinkFlit := ⟨.data, 0, 0, false, 0, 0, zeros 240⟩

/-- A descriptor of 32-bit words. -/
def dw (l : List Nat) : List Byte := l.flatMap (leBytes 4) ++ zeros (64 - 4 * l.length)
/-- An engine command with ticket 1. -/
def ec (b : List Byte) : EngCmd := ⟨1, 0x8000, b, 0, true, 0x1000, 0, 0, 0, false, 0, 0, none, false, false, 0, 0, [], [], [], [], [], [], []⟩
def eng (e : Nat) (c : EngCmd) (d : Dev) : Dev := modCore 0 (fun x => { x with engines := [(e, ⟨1, 0, [c]⟩)] }) (kern 0 0 d)
/-- A vector descriptor: operation, shape, three operands, output. -/
def vd (op : Nat) : List Byte := dw [op, 0, 0, 0x10004, 0x1000, 0x1100, 0x1200, 0x1300, 0x400040, 0x3F800000, 0x3F800000, 0x3F800000]
/-- A message descriptor: options, length, remote, target coordinates. -/
def md (w8 len remote xy : Nat) : List Byte := dw [1, 0, w8, 5, 0x2000, len, remote, 0, xy]
def pk : Packet := { completionPacket 1 0 0 0 .done 0 with sx := 1, sy := 0, dx := 0, dy := 0 }
/-- The way of that packet is open: routers 0 and 1 and the link between them are READY. -/
def way (d : Dev) : Dev := ust (linkCode 1 0) .ready (ust (uRouter 0) .ready (ust (uRouter 1) .ready d))
/-- The router at an edge block, and its link to it, are READY. -/
def edge (x y : Nat) (d : Dev) : Dev :=
  ust ((linkOfPort (routerAt x y) (portAt x y)).getD 0) .ready (ust (uRouter (routerAt x y)) .ready d)
/-- A plan of context 0 with two chunks, in slot `n` of engine 0. -/
def pl : Plan := ⟨0, [], 16, 2, 4, 4096, [⟨0, 1, 0⟩], false, 0, false, 0⟩
def plan' (pl : Plan) (l : List (Nat × ChunkState × Nat)) (d : Dev) : Dev :=
  modEng 0 (fun g => { g with plans := [(15, pl)], table := l }) (pg (pMem 0) .active (pg (pUpd 0) .active (mm { d with job := { d.job with attached := true, open_ := [0] } })))
def plan (l : List (Nat × ChunkState × Nat)) (d : Dev) : Dev :=
  modEng 0 (fun g => { g with plans := [(15, pl)], table := l }) (pg (pMem 0) .active (pg (pUpd 0) .active (mm { d with job := { d.job with attached := true, open_ := [0] } })))

/-- A job of two ranks is attached, context 0 is open, and port 0 carries. -/
def net (d : Dev) : Dev :=
  rg [(rPort 0 0x80, 4791)] (modPort 0 (fun x => { x with up := true }) (pg (pPort 0) .active (pg (pNi 0) .active (mm { d with
    job := { d.job with attached := true, rank := 0, rankCount := 2, rankTable := [1, 2], open_ := [0] } }))))
/-- The stream to and from rank 1. -/
def sk : StreamId := ⟨0, 0, 1⟩
/-- The bytes of a packet from rank 1 that arrives at port 0, and what they say. -/
def frb (type : Nat) (f : Frame → Frame) : List Byte :=
  frameBytes ⟨1, 2, 0, 0, 64, 4791, 0⟩
    (f { plainFrame 0 sk type (net up) with srcAddr := addrOf 0 1 (net up), dstAddr := addrOf 0 0 (net up), srcRank := 1, dstRank := 0 })
def fr (type : Nat) (f : Frame → Frame) : Frame := readFrame (frb type f)
def tx (f : TxHalf → TxHalf) (d : Dev) : Dev := modTx sk f d
def rx (f : RxHalf → RxHalf) (d : Dev) : Dev := modRx sk f d
/-- A send of two packets on that stream. -/
def sn : Send := ⟨1, .host 0, sk, 1, 0, 2 ^ 63, 4112, 2 ^ 63, 1, false, 0, false, false, 0, 0, 0, 0, 0, false, false, none, none⟩
def sends (l : List Send) (d : Dev) : Dev := modNet (fun n => { n with sends := l }) d

/-- A pass of two members whose chunks are 64 bytes, and ring 0 in it. -/
def ps : Pass := ⟨0, 0, false, false, 0, 0, 16, 2, 0, 1, 1, 0, 0, 64, 0, 64, 2 ^ 63, 1, 0, 1, 0, 0, 0, 0, 0, 0, 0, 0, 0, 0⟩
def rop (op : Nat) : RingOp := ⟨7, 0, 0, op, 0x10000, 0, 0, none, none, false, none, none, false, none⟩
def ring (f : RingSt → RingSt) (d : Dev) : Dev :=
  modRing 0 (fun x => f { x with pass := some ps, result := 1 })
    (ust (uReduction 0) .ready (ust (uChannel 0) .ready (pg (pMem 0) .ready (pg (pRing 0) .active (net d)))))
/-- Ring 0's registers describe that pass, with `n` entries. -/
def load (n : Nat) (d : Dev) : Dev :=
  rg [(rRing 0 0x44, 16), (rRing 0 0x48, 2), (rRing 0 0x50, 0x10001), (rRing 0 0x5C, 64), (rRing 0 0x68, 64), (rRing 0 0x74, 0x80000000),
    (rRing 0 0x78, 65536), (rRing 0 0x8C, 0x10000 * n)] (pg (pRing 0) .ready (net d))

/-- The complexes in their roles, complex 0 the lead. -/
def duo (other : Role) (d : Dev) : Dev := putComplex 0 ⟨.lead, 5, 1⟩ (putComplex 1 ⟨other, 5, 1⟩ (pg (pComplex 0) .active (pg (pComplex 1) .ready d)))
def pw (f : PowerSt → PowerSt) (d : Dev) : Dev := modPower f d
def mg (f : Mgmt → Mgmt) (d : Dev) : Dev := modMgmt f d
def rst (f : ResetCtl → ResetCtl) (d : Dev) : Dev := { d with reset := f d.reset }
def ld (f : Lead → Lead) (d : Dev) : Dev := { d with lead := f d.lead }
/-- Two sensors of hot spot 0. -/
def hot (a b : Sensor) (d : Dev) : Dev := putSensor 0 a (putSensor 1 b d)
def cycle0 : CycleInputs := ⟨3000, 4800, 1000, false, none, 0⟩
/-- States and operands that meet the premises of each clause of EmptyQueueTicks. -/
theorem test_meets_EmptyQueueTicks :
      (let s : State := State.reset
       s.pending = [])
    ∧ (let s : State := { State.reset with dev := { State.reset.dev with boot := { freshBoot with phase := .unpowered } } }
       s.pending = [] ∧ ¬ s.on) := by
  decide +kernel

/-- States and operands that meet the premises of each clause of QuiesceAndResumeComplete. -/
theorem test_meets_QuiesceAndResumeComplete :
      (let ty : BlockType := .core
       let inst : Nat := 0
       let s : State := st (pg (pCore 0) .ready up)
       let p : PageId := ⟨ty, inst⟩
       let d := s.dev
       let g := pageOf p d
       s.on ∧ mayCommand p d = true ∧ definesCommon ty 1 = true ∧ (g.state = .ready ∨ g.state = .active))
    ∧ (let ty : BlockType := .core
       let inst : Nat := 0
       let s : State := st (mp (pCore 0) (fun g => { g with cmd := some ⟨1, 7⟩ }) (pg (pCore 0) .active up))
       let p : PageId := ⟨ty, inst⟩
       let d := s.dev
       let g := pageOf p d
       let arg := 7
       s.on ∧ g.cmd = some ⟨1, arg⟩ ∧ (g.state = .ready ∨ g.state = .active) ∧ atSafePoint p d = true)
    ∧ (let ty : BlockType := .core
       let inst : Nat := 0
       let s : State := st (mp (pCore 0) (fun g => { g with holds := [.host], before := .active }) (pg (pCore 0) .quiesced up))
       let p : PageId := ⟨ty, inst⟩
       let d := s.dev
       let g := pageOf p d
       s.on ∧ mayCommand p d = true ∧ definesCommon ty 2 = true ∧ g.state = .quiesced ∧ d.mgmt.powerOff = false ∧ g.holds =
           [.host] ∧ (g.before = .ready ∨ g.before = .active) ∧ (memCtl inst d).held = [])
    ∧ (let ty : BlockType := .core
       let inst : Nat := 0
       let s : State := st (mp (pCore 0) (fun g => { g with holds := [.coolant, .host], before := .active }) (pg (pCore 0) .quiesced up))
       let p : PageId := ⟨ty, inst⟩
       let d := s.dev
       let g := pageOf p d
       s.on ∧ mayCommand p d = true ∧ definesCommon ty 2 = true ∧ g.state = .quiesced ∧ d.mgmt.powerOff = false ∧
           g.holds.contains .host = true ∧ (Hold.coolant ≠ .host ∧ Hold.coolant ∈ g.holds)) := by
  decide +kernel

/-- States and operands that meet the premises of clauses of JudgedCommandsAreRejected, part 1. -/
theorem test_meets_JudgedCommandsAreRejected_1 :
      (let ty : BlockType := .core
       let inst : Nat := 2559
       let s : State := st up
       let p : PageId := ⟨ty, inst⟩
       let d := s.dev
       let g := pageOf p d
       s.on ∧ pageSilent ⟨ty, inst⟩ s.dev = false ∧ s.dev.lead.safe = false ∧ g.negotiated = false)
    ∧ (let ty : BlockType := .core
       let inst : Nat := 2559
       let s : State := st (mp (pCore 2559) (fun g => { g with cmd := some ⟨5, 0⟩ }) (pg (pCore 2559) .loading up))
       let p : PageId := ⟨ty, inst⟩
       let d := s.dev
       let g := pageOf p d
       let code : Nat := 5
       s.on ∧ pageSilent ⟨ty, inst⟩ s.dev = false ∧ s.dev.lead.safe = false ∧ g.negotiated = true ∧ g.cmd.isSome = true ∧
           code ≠ 4)
    ∧ (let ty : BlockType := .core
       let inst : Nat := 2559
       let s : State := st (pg (pCore 2559) .fault up)
       let p : PageId := ⟨ty, inst⟩
       let d := s.dev
       let g := pageOf p d
       let code : Nat := 9
       let defined : Bool := false
       s.on ∧ pageSilent ⟨ty, inst⟩ s.dev = false ∧ s.dev.lead.safe = false ∧ g.negotiated = true ∧ (g.cmd = none ∨ code =
           4) ∧ defined = false)
    ∧ (let ty : BlockType := .core
       let inst : Nat := 2559
       let s : State := st (pg (pCore 2559) .fault up)
       let p : PageId := ⟨ty, inst⟩
       let d := s.dev
       let g := pageOf p d
       let code : Nat := 5
       let defined : Bool := true
       let legal : Bool := false
       s.on ∧ pageSilent ⟨ty, inst⟩ s.dev = false ∧ s.dev.lead.safe = false ∧ g.negotiated = true ∧ (g.cmd = none ∨ code =
           4) ∧ defined = true ∧ legal = false) := by
  decide +kernel

/-- States and operands that meet the premises of clauses of JudgedCommandsAreRejected, part 2. -/
theorem test_meets_JudgedCommandsAreRejected_2 :
      (let ty : BlockType := .core
       let inst : Nat := 2559
       let s : State := st (pg (pCore 2559) .ready up)
       let p : PageId := ⟨ty, inst⟩
       let d := s.dev
       let g := pageOf p d
       let code : Nat := 5
       let defined : Bool := true
       let legal : Bool := true
       let inRange : Bool := false
       s.on ∧ pageSilent ⟨ty, inst⟩ s.dev = false ∧ s.dev.lead.safe = false ∧ g.negotiated = true ∧ (g.cmd = none ∨ code =
           4) ∧ defined = true ∧ legal = true ∧ inRange = false)
    ∧ (let ty : BlockType := .core
       let inst : Nat := 2559
       let s : State := st (mp (pCore 2559) (fun g => { g with cmd := some ⟨5, 0⟩ }) (pg (pCore 2559) .loading up))
       let p : PageId := ⟨ty, inst⟩
       let d := s.dev
       let g := pageOf p d
       let code : Nat := 4
       let defined : Bool := true
       let legal : Bool := true
       let inRange : Bool := true
       s.on ∧ pageSilent ⟨ty, inst⟩ s.dev = false ∧ s.dev.lead.safe = false ∧ g.negotiated = true ∧ (g.cmd = none ∨ code =
           4) ∧ defined = true ∧ legal = true ∧ inRange = true)
    ∧ (let ty : BlockType := .core
       let inst : Nat := 2559
       let s : State := st (pg (pCore 2559) .ready up)
       let p : PageId := ⟨ty, inst⟩
       let d := s.dev
       let g := pageOf p d
       s.on ∧ pageSilent ⟨ty, inst⟩ s.dev = false ∧ s.dev.lead.safe = false ∧ g.cmd = none)
    ∧ (let ty : BlockType := .module
       let inst : Nat := 0
       let s : State := st (pg pModule .ready up)
       let p : PageId := ⟨ty, inst⟩
       let d := s.dev
       let g := pageOf p d
       s.on ∧ pageSilent ⟨ty, inst⟩ s.dev = false ∧ s.dev.lead.safe = false ∧ g.negotiated = true ∧ g.cmd = none ∧
           definesCommon ty 1 = false) := by
  decide +kernel

/-- States and operands that meet the premises of clauses of JudgedCommandsAreRejected, part 3. -/
theorem test_meets_JudgedCommandsAreRejected_3 :
      (let ty : BlockType := .core
       let inst : Nat := 2559
       let s : State := st (pg (pCore 2559) .fault up)
       let p : PageId := ⟨ty, inst⟩
       let d := s.dev
       let g := pageOf p d
       s.on ∧ pageSilent ⟨ty, inst⟩ s.dev = false ∧ s.dev.lead.safe = false ∧ g.negotiated = true ∧ g.cmd = none ∧
           definesCommon ty 1 = true ∧ g.state ≠ .ready ∧ g.state ≠ .active)
    ∧ (let ty : BlockType := .core
       let inst : Nat := 2559
       let s : State := st (pg (pCore 2559) .active up)
       let p : PageId := ⟨ty, inst⟩
       let d := s.dev
       let g := pageOf p d
       s.on ∧ pageSilent ⟨ty, inst⟩ s.dev = false ∧ s.dev.lead.safe = false ∧ g.negotiated = true ∧ g.cmd = none ∧
           definesCommon ty 2 = true ∧ g.state ≠ .quiesced)
    ∧ (let ty : BlockType := .core
       let inst : Nat := 2559
       let arg : Nat := 1
       let s : State := st (pg (pCore 2559) .quiesced up)
       let p : PageId := ⟨ty, inst⟩
       let d := s.dev
       let g := pageOf p d
       s.on ∧ pageSilent ⟨ty, inst⟩ s.dev = false ∧ s.dev.lead.safe = false ∧ g.negotiated = true ∧ g.cmd = none ∧
           definesCommon ty 5 = true ∧ (g.state = .ready ∨ g.state = .quiesced) ∧ arg % 2 ^ 24 ≠ 0)
    ∧ (let ty : BlockType := .core
       let inst : Nat := 2559
       let s : State := st (mp (pCore 2559) (fun g => { g with cmd := some ⟨5, 0⟩ }) (pg (pCore 2559) .loading up))
       let p : PageId := ⟨ty, inst⟩
       let d := s.dev
       let g := pageOf p d
       s.on ∧ pageSilent ⟨ty, inst⟩ s.dev = false ∧ s.dev.lead.safe = false ∧ g.negotiated = true ∧ g.cmd.isSome = true) := by
  decide +kernel

/-- States and operands that meet the premises of clauses of TestLoadTrainComplete, part 1. -/
theorem test_meets_TestLoadTrainComplete_1 :
      (let ty : BlockType := .memoryController
       let inst : Nat := 0
       let s : State := st (pg (pMem 0) .fault up)
       let p : PageId := ⟨ty, inst⟩
       let d := s.dev
       let g := pageOf p d
       s.on ∧ s.dev.unrun = [] ∧ mayCommand p d = true ∧ (ty = .memoryController ∨ ty = .port) ∧ (g.state = .ready ∨ g.state
           = .quiesced ∨ g.state = .fault))
    ∧ (let ty : BlockType := .core
       let inst : Nat := 0
       let arg : Nat := 0
       let s : State := st (pg (pCore 0) .quiesced up)
       let p : PageId := ⟨ty, inst⟩
       let d := s.dev
       let g := pageOf p d
       s.on ∧ s.dev.unrun = [] ∧ mayCommand p d = true ∧ definesCommon ty 5 = true ∧ (g.state = .ready ∨ g.state =
           .quiesced) ∧ arg % 2 ^ 24 = 0)
    ∧ (let ty : BlockType := .core
       let inst : Nat := 0
       let s : State := st (mp (pCore 0) (fun g => { g with cmd := some ⟨5, 0⟩, back := .ready }) (pg (pCore 0) .loading up))
       let p : PageId := ⟨ty, inst⟩
       let d := s.dev
       let g := pageOf p d
       s.on ∧ s.dev.unrun = [] ∧ inProgress p 5 d = true ∧ g.state = .loading ∧ ty = .core ∧ g.back = .ready ∧ g.holds = [])
    ∧ (let ty : BlockType := .core
       let inst : Nat := 0
       let s : State := st (mp (pCore 0) (fun g => { g with cmd := some ⟨5, 0⟩, back := .ready }) (pg (pCore 0) .loading up))
       let p : PageId := ⟨ty, inst⟩
       let d := s.dev
       let g := pageOf p d
       s.on ∧ s.dev.unrun = [] ∧ inProgress p 5 d = true ∧ g.state = .loading ∧ (ty = .core ∨ ty = .updateEngine))
    ∧ (let ty : BlockType := .port
       let inst : Nat := 47
       let arg : Nat := 0
       let s : State := st (pg (pPort 47) .active up)
       let p : PageId := ⟨ty, inst⟩
       let d := s.dev
       let g := pageOf p d
       s.on ∧ s.dev.unrun = [] ∧ mayCommand p d = true ∧ ty = .port ∧ (g.state = .ready ∨ g.state = .active ∨ g.state =
           .quiesced) ∧ arg % 2 ^ 24 = 0) := by
  decide +kernel

/-- States and operands that meet the premises of clauses of TestLoadTrainComplete, part 2. -/
theorem test_meets_TestLoadTrainComplete_2 :
      (let ty : BlockType := .luawick
       let inst : Nat := 0
       let arg : Nat := 0
       let s : State := st (pg pLua .active up)
       let p : PageId := ⟨ty, inst⟩
       let d := s.dev
       let g := pageOf p d
       s.on ∧ s.dev.unrun = [] ∧ mayCommand p d = true ∧ ty = .luawick ∧ (g.state = .ready ∨ g.state = .active) ∧ arg % 2 ^
           24 = 0)
    ∧ (let ty : BlockType := .memoryController
       let inst : Nat := 23
       let arg : Nat := 15
       let s : State := st (ust (uChannel 383) .ready (pg (pMem 23) .ready up))
       let p : PageId := ⟨ty, inst⟩
       let d := s.dev
       let g := pageOf p d
       s.on ∧ s.dev.unrun = [] ∧ mayCommand p d = true ∧ ty = .memoryController ∧ (g.state = .ready ∨ g.state = .active) ∧
           arg < 16 ∧ (unitRec (uChannel (16 * inst + arg)) d).state = .ready ∧ (memCtl inst d).selfRefresh = false ∧
           trainingChannels inst d = [])
    ∧ (let ty : BlockType := .memoryController
       let inst : Nat := 23
       let arg : Nat := 15
       let s : State := st (ust (uChannel 382) .training (ust (uChannel 383) .ready (pg (pMem 23) .ready up)))
       let p : PageId := ⟨ty, inst⟩
       let d := s.dev
       let g := pageOf p d
       s.on ∧ s.dev.unrun = [] ∧ mayCommand p d = true ∧ ty = .memoryController ∧ (g.state = .ready ∨ g.state = .active) ∧
           arg < 16 ∧ (unitRec (uChannel (16 * inst + arg)) d).state = .ready ∧ (memCtl inst d).selfRefresh = false ∧
           trainingChannels inst d ≠ []) := by
  decide +kernel

/-- States and operands that meet the premises of each clause of RetireCompletes. -/
theorem test_meets_RetireCompletes :
      (let ty : BlockType := .core
       let inst : Nat := 5
       let u : Nat := uCore 5
       let s : State := st (ust (uCore 5) .ready (pg (pCore 5) .ready up))
       let p : PageId := ⟨ty, inst⟩
       let d := s.dev
       let g := pageOf p d
       s.on ∧ pageSilent ⟨ty, inst⟩ s.dev = false ∧ s.dev.lead.safe = false ∧ g.negotiated = true ∧ ty ≠ .dieController ∧
           definesCommon ty 4 = true ∧ g.state ≠ .off ∧ g.state ≠ .retired ∧ unitOfPage p = some u)
    ∧ (let ty : BlockType := .dieController
       let inst : Nat := 0
       let arg : Nat := uRouter 3
       let s : State := st (ust (uRouter 3) .ready (pg ⟨.dieController, 0⟩ .ready up))
       let p : PageId := ⟨ty, inst⟩
       let d := s.dev
       let g := pageOf p d
       s.on ∧ pageSilent ⟨ty, inst⟩ s.dev = false ∧ s.dev.lead.safe = false ∧ g.negotiated = true ∧ ty = .dieController ∧
           (g.state = .ready ∨ g.state = .active) ∧ dieAccepts inst (arg % 2 ^ 24) = true ∧ usable (arg % 2 ^ 24) d = true)
    ∧ (let ty : BlockType := .core
       let inst : Nat := 5
       let s : State := st (mp (pCore 5) (fun g => { g with cmd := some ⟨1, 0⟩ }) (pg (pCore 5) .ready up))
       let p : PageId := ⟨ty, inst⟩
       let d := s.dev
       let g := pageOf p d
       let c := ⟨1, 0⟩
       s.on ∧ pageSilent ⟨ty, inst⟩ s.dev = false ∧ s.dev.lead.safe = false ∧ g.negotiated = true ∧ g.cmd = some c)
    ∧ (let ty : BlockType := .core
       let inst : Nat := 5
       let s : State := st (pg (pCore 5) .ready up)
       let p : PageId := ⟨ty, inst⟩
       let d := s.dev
       let g := pageOf p d
       s.on ∧ pageSilent ⟨ty, inst⟩ s.dev = false ∧ s.dev.lead.safe = false ∧ g.negotiated = true) := by
  decide +kernel

/-- States and operands that meet the premises of each clause of RetirementIsOneDecision. -/
theorem test_meets_RetirementIsOneDecision :
      (let ls : List Loss := [⟨uCore 5, .hostCommand, false⟩, ⟨uCore 6, .selfFault, false⟩]
       let d : Dev := ust (uCore 6) .ready (pg (pCore 6) .ready (ust (uCore 5) .ready (pg (pCore 5) .ready up)))
       ls ≠ [] ∧ (∀ l ∈ ls, unitExists l.unit = true ∧ usable l.unit d = true) ∧ (ls.map (·.unit)).Nodup)
    ∧ (let ls : List Loss := [⟨uCore 5, .hostCommand, false⟩, ⟨uCore 6, .selfFault, false⟩]
       let d : Dev := ust (uCore 6) .ready (pg (pCore 6) .ready (ust (uCore 5) .ready (pg (pCore 5) .ready up)))
       let l := ⟨uCore 5, .hostCommand, false⟩
       ls ≠ [] ∧ (∀ l ∈ ls, unitExists l.unit = true ∧ usable l.unit d = true) ∧ (ls.map (·.unit)).Nodup ∧ l ∈ ls) := by
  decide +kernel

/-- States and operands that meet the premises of each clause of FaultReportsComplete. -/
theorem test_meets_FaultReportsComplete :
      (let i : Nat := 23
       let s : State := st (pg (pMem 23) .ready up)
       let d := s.dev
       s.on ∧ i < 24 ∧ inState (pMem i) [.ready, .active, .quiesced] d = true)
    ∧ (let i : Nat := 2559
       let s : State := st (pg (pCore 2559) .active up)
       let d := s.dev
       s.on ∧ i < 2560 ∧ inState (pCore i) [.ready, .active, .quiesced] d = true)
    ∧ (let i : Nat := 0
       let s : State := st (mp (pMem 0) (fun g => { g with cause := .selfFault }) (pg (pMem 0) .fault up))
       let d := s.dev
       s.on ∧ i < 24 ∧ (pageOf (pMem i) d).state = .fault ∧ (pageOf (pMem i) d).cause = .selfFault) := by
  decide +kernel

/-- States and operands that meet the premises of clauses of HeaderWritesComplete, part 1. -/
theorem test_meets_HeaderWritesComplete_1 :
      (let ty : BlockType := .core
       let inst : Nat := 0
       let v : Word := 0x01000000
       let s : State := st (mp (pCore 0) (fun g => { g with errCount := 3, errFirst := 5, events := 3 }) (pg (pCore 0) .ready up))
       s.on ∧ pageSilent ⟨ty, inst⟩ s.dev = false ∧ v ≠ 0)
    ∧ (let ty : BlockType := .core
       let inst : Nat := 0
       let s : State := st (mp (pCore 0) (fun g => { g with errCount := 3, errFirst := 5, events := 3 }) (pg (pCore 0) .ready up))
       s.on ∧ pageSilent ⟨ty, inst⟩ s.dev = false)
    ∧ (let ty : BlockType := .core
       let inst : Nat := 0
       let s : State := st (mp (pCore 0) (fun g => { g with errCount := 3, errFirst := 5, events := 3 }) (pg (pCore 0) .ready up))
       let b := 0
       s.on ∧ pageSilent ⟨ty, inst⟩ s.dev = false ∧ b < 32 ∧ eventBits.getLsbD b = true)
    ∧ (let ty : BlockType := .core
       let inst : Nat := 0
       let v : Word := 0x01000000
       let s : State := st (mp (pCore 0) (fun g => { g with errCount := 3, errFirst := 5, events := 3 }) (pg (pCore 0) .ready up))
       let p : PageId := ⟨ty, inst⟩
       let d := s.dev
       let g := pageOf p d
       let major := fieldOf v.toNat 31 24
       s.on ∧ pageSilent ⟨ty, inst⟩ s.dev = false ∧ g.cmd = none ∧ d.lead.latches = [] ∧ (versionOf ty d).oldest ≤ major ∧
           major ≤ (versionOf ty d).major ∧ fieldOf v.toNat 31 16 ≠ 0)
    ∧ (let ty : BlockType := .core
       let inst : Nat := 0
       let v : Word := 0x02000000
       let s : State := st (mp (pCore 0) (fun g => { g with errCount := 3, errFirst := 5, events := 3 }) (pg (pCore 0) .ready up))
       let p : PageId := ⟨ty, inst⟩
       let d := s.dev
       let g := pageOf p d
       let major := fieldOf v.toNat 31 24
       s.on ∧ pageSilent ⟨ty, inst⟩ s.dev = false ∧ g.cmd = none ∧ d.lead.latches = [] ∧ (major < (versionOf ty d).oldest ∨
           (versionOf ty d).major < major) ∧ fieldOf v.toNat 31 16 ≠ 0)
    ∧ (let ty : BlockType := .core
       let inst : Nat := 0
       let v : Word := 2
       let s : State := st (mp (pCore 0) (fun g => { g with errCount := 3, errFirst := 5, events := 3 }) (pg (pCore 0) .ready up))
       let p : PageId := ⟨ty, inst⟩
       let d := s.dev
       let g := pageOf p d
       s.on ∧ pageSilent ⟨ty, inst⟩ s.dev = false ∧ g.cmd = none ∧ d.lead.latches = [] ∧ fieldOf v.toNat 31 16 = 0)
    ∧ (let ty : BlockType := .core
       let inst : Nat := 0
       let s : State := st (mp (pCore 0) (fun g => { g with errCount := 0, errFirst := 5 }) (pg (pCore 0) .ready up))
       let p : PageId := ⟨ty, inst⟩
       let d := s.dev
       let g := pageOf p d
       s.on ∧ pageSilent ⟨ty, inst⟩ s.dev = false ∧ g.errCount = 0) := by
  decide +kernel

/-- States and operands that meet the premises of clauses of HeaderWritesComplete, part 2. -/
theorem test_meets_HeaderWritesComplete_2 :
      (let ty : BlockType := .core
       let inst : Nat := 0
       let s : State := st (mp (pCore 0) (fun g => { g with errCount := 3, errFirst := 5, events := 3 }) (pg (pCore 0) .ready up))
       let p : PageId := ⟨ty, inst⟩
       let d := s.dev
       let g := pageOf p d
       s.on ∧ pageSilent ⟨ty, inst⟩ s.dev = false ∧ g.errCount ≠ 0) := by
  decide +kernel

/-- States and operands that meet the premises of each clause of EventsSetTheirBit. -/
theorem test_meets_EventsSetTheirBit :
      (let p : PageId := pCore 0
       let b : Nat := 31
       let s : State := st (mp (pCore 0) (fun g => { g with events := 8, mask := 0 }) up)
       b < 32 ∧ s.on ∧ pageSilent p s.dev = false)
    ∧ (let p : PageId := pCore 0
       let b : Nat := 31
       let s : State := st (mp (pCore 0) (fun g => { g with events := 8, mask := 0 }) up)
       let d := s.dev
       let g := pageOf p d
       let i := 3
       b < 32 ∧ s.on ∧ pageSilent p s.dev = false ∧ g.events.getLsbD i = true)
    ∧ (let p : PageId := pCore 0
       let b : Nat := 31
       let s : State := st (mp (pCore 0) (fun g => { g with events := 8, mask := 0x80000000 }) up)
       let d := s.dev
       let g := pageOf p d
       b < 32 ∧ s.on ∧ pageSilent p s.dev = false ∧ g.mask.getLsbD b = true ∧ g.events.getLsbD b = false)
    ∧ (let p : PageId := pCore 0
       let b : Nat := 31
       let s : State := st (mp (pCore 0) (fun g => { g with events := 8, mask := 0 }) up)
       let d := s.dev
       let g := pageOf p d
       b < 32 ∧ s.on ∧ pageSilent p s.dev = false ∧ (g.mask.getLsbD b = false ∨ g.events.getLsbD b = true))
    ∧ (let p : PageId := pCore 0
       let b : Nat := 31
       let v : Word := 0x8
       let s : State := st (mp (pCore 0) (fun g => { g with events := 8, mask := 0 }) up)
       let d := s.dev
       let g := pageOf p d
       b < 32 ∧ s.on ∧ pageSilent p s.dev = false ∧ v &&& eventBits &&& ~~~g.mask &&& g.events ≠ 0)
    ∧ (let p : PageId := pCore 0
       let b : Nat := 31
       let v : Word := 0x10
       let s : State := st (mp (pCore 0) (fun g => { g with events := 8, mask := 0 }) up)
       let d := s.dev
       let g := pageOf p d
       b < 32 ∧ s.on ∧ pageSilent p s.dev = false ∧ v &&& eventBits &&& ~~~g.mask &&& g.events = 0) := by
  decide +kernel

/-- States and operands that meet the premises of each clause of NegotiateAllCounts. -/
theorem test_meets_NegotiateAllCounts :
      (let s : State := st (pg pModule .ready up)
       s.on ∧ pageSilent pModule s.dev = false ∧ (pageOf pModule s.dev).negotiated = true ∧ pageSilent pReset s.dev = false
           ∧ (pageOf pReset s.dev).cmd = none ∧ s.dev.lead.latches = [] ∧ versionOf .reset s.dev = ⟨1, 0, 1, []⟩) := by
  decide +kernel

/-- States and operands that meet the premises of clauses of WindowAccessesComplete, part 1. -/
theorem test_meets_WindowAccessesComplete_1 :
      (let o : Nat := 0x1000058
       let r : RegId := (locate o).getD (rCore 0 0)
       let row : RegRow := (rowAt r).getD ⟨.rw, 0, 0, false⟩
       let s : State := st (pg ⟨r.ty, r.inst⟩ .ready up)
       let p : PageId := ⟨r.ty, r.inst⟩
       let d := s.dev
       let g := pageOf p d
       s.on ∧ locate o = some r ∧ rowAt r = some row ∧ o % 4 = 0 ∧ 0x40 ≤ r.off ∧ pageSilent ⟨r.ty, r.inst⟩ s.dev = false ∧
           g.negotiated = true ∧ storesOnly r = true ∧ row.acc = .rw ∧ row.wide = false)
    ∧ (let o : Nat := 0x1000058
       let r : RegId := (locate o).getD (rCore 0 0)
       let row : RegRow := (rowAt r).getD ⟨.rw, 0, 0, false⟩
       let s : State := st up
       let p : PageId := ⟨r.ty, r.inst⟩
       let d := s.dev
       let g := pageOf p d
       s.on ∧ locate o = some r ∧ rowAt r = some row ∧ o % 4 = 0 ∧ 0x40 ≤ r.off ∧ pageSilent ⟨r.ty, r.inst⟩ s.dev = false ∧
           g.negotiated = false ∧ storesOnly r = true ∧ row.acc = .rw ∧ row.wide = false)
    ∧ (let o : Nat := 4325472
       let r : RegId := (locate o).getD (rCore 0 0)
       let row : RegRow := (rowAt r).getD ⟨.rw, 0, 0, false⟩
       let s : State := st (rg [(r, 7)] (pg ⟨r.ty, r.inst⟩ .ready up))
       let p : PageId := ⟨r.ty, r.inst⟩
       let d := s.dev
       let g := pageOf p d
       s.on ∧ locate o = some r ∧ rowAt r = some row ∧ o % 4 = 0 ∧ 0x40 ≤ r.off ∧ pageSilent ⟨r.ty, r.inst⟩ s.dev = false ∧
           g.negotiated = true ∧ storesOnly r = true ∧ row.acc = .w1c ∧ row.wide = false) := by
  decide +kernel

/-- States and operands that meet the premises of clauses of WindowAccessesComplete, part 2. -/
theorem test_meets_WindowAccessesComplete_2 :
      (let o : Nat := 0x1000050
       let r : RegId := (locate o).getD (rCore 0 0)
       let row : RegRow := (rowAt r).getD ⟨.rw, 0, 0, false⟩
       let s : State := st (pg ⟨r.ty, r.inst⟩ .ready up)
       let p : PageId := ⟨r.ty, r.inst⟩
       let d := s.dev
       let g := pageOf p d
       s.on ∧ locate o = some r ∧ rowAt r = some row ∧ o % 4 = 0 ∧ 0x40 ≤ r.off ∧ pageSilent ⟨r.ty, r.inst⟩ s.dev = false ∧
           g.negotiated = true ∧ row.acc = .rw ∧ row.wide = true)
    ∧ (let o : Nat := 0x1000050
       let r : RegId := (locate o).getD (rCore 0 0)
       let row : RegRow := (rowAt r).getD ⟨.rw, 0, 0, false⟩
       let s : State := st (mp ⟨r.ty, r.inst⟩ (fun g => { g with held := [(0, 9)] }) (pg ⟨r.ty, r.inst⟩ .ready up))
       let p : PageId := ⟨r.ty, r.inst⟩
       let d := s.dev
       let g := pageOf p d
       let low := 9
       s.on ∧ locate o = some r ∧ rowAt r = some row ∧ o % 4 = 0 ∧ 0x40 ≤ r.off ∧ pageSilent ⟨r.ty, r.inst⟩ s.dev = false ∧
           g.negotiated = true ∧ row.acc = .rw ∧ row.wide = true ∧ locate (o + 4) = some (hiOf r) ∧ rowAt (hiOf r) = none ∧
           isHi (hiOf r) = true ∧ g.held.find? (fun e => e.1 == r.page) = some (r.page, low))
    ∧ (let o : Nat := 72
       let r : RegId := (locate o).getD (rCore 0 0)
       let row : RegRow := (rowAt r).getD ⟨.rw, 0, 0, false⟩
       let s : State := st up
       s.on ∧ locate o = some r ∧ rowAt r = some row ∧ o % 4 = 0 ∧ 0x40 ≤ r.off ∧ pageSilent ⟨r.ty, r.inst⟩ s.dev = false ∧
           row.acc = .ro ∧ row.wide = true) := by
  decide +kernel

/-- States and operands that meet the premises of clauses of WindowAccessesComplete, part 3. -/
theorem test_meets_WindowAccessesComplete_3 :
      (let o : Nat := 2097232
       let r : RegId := (locate o).getD (rCore 0 0)
       let row : RegRow := (rowAt r).getD ⟨.rw, 0, 0, false⟩
       let s : State := st (rg [(r, 7)] up)
       s.on ∧ locate o = some r ∧ rowAt r = some row ∧ o % 4 = 0 ∧ 0x40 ≤ r.off ∧ pageSilent ⟨r.ty, r.inst⟩ s.dev = false ∧
           row.acc = .rc ∧ row.wide = false)
    ∧ (let o : Nat := 2097224
       let r : RegId := (locate o).getD (rCore 0 0)
       let row : RegRow := (rowAt r).getD ⟨.rw, 0, 0, false⟩
       let s : State := st (rg [(r, 7), (hiOf r, 8)] up)
       s.on ∧ locate o = some r ∧ rowAt r = some row ∧ o % 4 = 0 ∧ 0x40 ≤ r.off ∧ pageSilent ⟨r.ty, r.inst⟩ s.dev = false ∧
           row.acc = .rc ∧ row.wide = true ∧ o % 8 = 0) := by
  decide +kernel

/-- States and operands that meet the premises of clauses of RegisterMessagesComplete, part 1. -/
theorem test_meets_RegisterMessagesComplete_1 :
      (let a : DWord := 64
       let r : RegId := (locate a.toNat).getD (rCore 0 0)
       let row : RegRow := (rowAt r).getD ⟨.rw, 0, 0, false⟩
       let s : State := st up
       s.on ∧ s.dev.link.phase = .active ∧ pageSilent ⟨r.ty, r.inst⟩ s.dev = false ∧ locate a.toNat = some r ∧ a.toNat % 4 =
           0 ∧ rowAt r = some row ∧ 0x40 ≤ r.off ∧ row.acc = .ro ∧ row.wide = false ∧ isHi r = false)
    ∧ (let a : DWord := 72
       let r : RegId := (locate a.toNat).getD (rCore 0 0)
       let row : RegRow := (rowAt r).getD ⟨.rw, 0, 0, false⟩
       let s : State := st up
       s.on ∧ s.dev.link.phase = .active ∧ pageSilent ⟨r.ty, r.inst⟩ s.dev = false ∧ locate a.toNat = some r ∧ a.toNat % 8 =
           0 ∧ rowAt r = some row ∧ 0x40 ≤ r.off ∧ row.acc = .ro ∧ row.wide = true)
    ∧ (let a : DWord := 0x1000058
       let r : RegId := (locate a.toNat).getD (rCore 0 0)
       let row : RegRow := (rowAt r).getD ⟨.rw, 0, 0, false⟩
       let s : State := st (pg ⟨r.ty, r.inst⟩ .ready up)
       let p : PageId := ⟨r.ty, r.inst⟩
       let g := pageOf p s.dev
       s.on ∧ s.dev.link.phase = .active ∧ pageSilent ⟨r.ty, r.inst⟩ s.dev = false ∧ locate a.toNat = some r ∧ a.toNat % 4 =
           0 ∧ rowAt r = some row ∧ 0x40 ≤ r.off ∧ g.negotiated = true ∧ storesOnly r = true ∧ row.acc = .rw ∧ row.wide =
           false) := by
  decide +kernel

/-- States and operands that meet the premises of clauses of RegisterMessagesComplete, part 2. -/
theorem test_meets_RegisterMessagesComplete_2 :
      (let a : DWord := 0x1000050
       let r : RegId := (locate a.toNat).getD (rCore 0 0)
       let row : RegRow := (rowAt r).getD ⟨.rw, 0, 0, false⟩
       let s : State := st (pg ⟨r.ty, r.inst⟩ .ready up)
       let p : PageId := ⟨r.ty, r.inst⟩
       let g := pageOf p s.dev
       s.on ∧ s.dev.link.phase = .active ∧ pageSilent ⟨r.ty, r.inst⟩ s.dev = false ∧ locate a.toNat = some r ∧ a.toNat % 8 =
           0 ∧ rowAt r = some row ∧ 0x40 ≤ r.off ∧ g.negotiated = true ∧ row.acc = .rw ∧ row.wide = true)
    ∧ (let a : DWord := 0x4000000
       let r : RegId := (locate a.toNat).getD (rCore 0 0)
       let s : State := st up
       s.on ∧ s.dev.link.phase = .active ∧ pageSilent ⟨r.ty, r.inst⟩ s.dev = false ∧ 2 ^ 26 ≤ a.toNat) := by
  decide +kernel

/-- States and operands that meet the premises of clauses of ResetSilencesPages, part 1. -/
theorem test_meets_ResetSilencesPages_1 :
      (let o : Nat := 0x1000058
       let r : RegId := (locate o).getD (rCore 0 0)
       let s : State := st { up with reset := { up.reset with level := some 0, phase := .draining } }
       s.on ∧ locate o = some r ∧ pageSilent ⟨r.ty, r.inst⟩ s.dev = true)
    ∧ (let o : Nat := 0x1000000
       let r : RegId := (locate o).getD (rCore 0 0)
       let s : State := st { up with reset := { up.reset with level := some 0, phase := .draining } }
       s.on ∧ locate o = some r ∧ pageSilent ⟨r.ty, r.inst⟩ s.dev = true ∧ r.off = 0)
    ∧ (let o : Nat := 0x1000004
       let r : RegId := (locate o).getD (rCore 0 0)
       let s : State := st { up with reset := { up.reset with level := some 0, phase := .draining } }
       s.on ∧ locate o = some r ∧ pageSilent ⟨r.ty, r.inst⟩ s.dev = true ∧ r.off = 4)
    ∧ (let o : Nat := 0x1000008
       let r : RegId := (locate o).getD (rCore 0 0)
       let s : State := st { up with reset := { up.reset with level := some 0, phase := .draining } }
       s.on ∧ locate o = some r ∧ pageSilent ⟨r.ty, r.inst⟩ s.dev = true ∧ r.off = 8)
    ∧ (let o : Nat := 0x1000058
       let a : DWord := 0x1000058
       let r : RegId := (locate o).getD (rCore 0 0)
       let s : State := st { up with reset := { up.reset with level := some 0, phase := .draining } }
       s.on ∧ locate o = some r ∧ pageSilent ⟨r.ty, r.inst⟩ s.dev = true ∧ a.toNat = o ∧ o % 4 = 0 ∧ s.dev.link.phase =
           .active)
    ∧ (let o : Nat := 0x1000058
       let r : RegId := (locate o).getD (rCore 0 0)
       let s : State := st { up with reset := { up.reset with level := some 0, phase := .draining } }
       s.on ∧ locate o = some r ∧ pageSilent ⟨r.ty, r.inst⟩ s.dev = true ∧ o % 4 = 0 ∧ 0x0C ≤ r.off) := by
  decide +kernel

/-- States and operands that meet the premises of clauses of ResetSilencesPages, part 2. -/
theorem test_meets_ResetSilencesPages_2 :
      (let o : Nat := 0x1000058
       let a : DWord := 0x1000058
       let r : RegId := (locate o).getD (rCore 0 0)
       let s : State := st { up with reset := { up.reset with level := some 0, phase := .draining } }
       s.on ∧ locate o = some r ∧ pageSilent ⟨r.ty, r.inst⟩ s.dev = true ∧ a.toNat = o ∧ o % 4 = 0 ∧ 0x0C ≤ r.off ∧
           s.dev.link.phase = .active) := by
  decide +kernel

/-- States and operands that meet the premises of each clause of HostMessagesKeepOrder. -/
theorem test_meets_HostMessagesKeepOrder :
      (let m : HostMsg := msg 0x2C 64 [1, 2, 3]
       let d : Dev := up
       linkTakes m d)
    ∧ (let d : Dev := { up with link := freshLink, hostWait := [msg 0x10 0 []] }
       d.link.phase ≠ .active) := by
  decide +kernel

/-- States and operands that meet the premises of each clause of LinkCommandsComplete. -/
theorem test_meets_LinkCommandsComplete :
      (let lanes : Nat := 8
       let rate : Nat := 64
       let s : State := st (pg pLua .training { up with link := freshLink })
       let d := s.dev
       s.on ∧ d.link.phase ≠ .active ∧ stateOf pLua d = .training ∧ linkOk lanes rate = true ∧ d.link.leftAt = none)
    ∧ (let s : State := st { up with link := { freshLink with phase := .config } }
       let d := s.dev
       s.on ∧ d.link.phase ≠ .active)
    ∧ (let s : State := st (pg pLua .active up)
       let d := s.dev
       s.on ∧ d.link.phase = .active)
    ∧ (let s : State := st { win up with now := 2000000000, link := { freshLink with leftAt := some 1 }, queues := [(0, ⟨true, 0, 4, 0, false⟩)], rings := [(7, ⟨true, 0, 6, false, none, false, 0⟩)] }
       let d := s.dev
       let t := 1
       s.on ∧ d.link.phase ≠ .active ∧ d.link.leftAt = some t ∧ d.link.lost = false ∧ t + 1000000 * clampReg 1 10000 (rd
           (rLua 0 0x60) d) ≤ d.now) := by
  decide +kernel

/-- States and operands that meet the premises of clauses of FlitsComplete, part 1. -/
theorem test_meets_FlitsComplete_1 :
      (let f : LinkFlit := { flit0 with seq := 4095, ack := 7, ackValid := true, creditClass := 3, creditCount := 255, payload := (List.range 240).map (BitVec.ofNat 8) }
       let e : FlitErrors := [⟨0, 5⟩, ⟨1, 255⟩, ⟨254, 1⟩]
       let s : State := st up
       s.on ∧ s.dev.link.phase = .active ∧ f.seq < 4096 ∧ f.ack < 4096 ∧ f.creditClass < 4 ∧ f.creditCount < 256 ∧
           f.payload.length = 240 ∧ correctable e = true)
    ∧ (let f : LinkFlit := { flit0 with seq := 0 }
       let bs : List Byte := flitBytes f
       let e : FlitErrors := []
       let s : State := st up
       let d := s.dev
       s.on ∧ s.dev.link.phase = .active ∧ readFlit bs e = some f ∧ corrected e = false ∧ f.kind = .data ∧ f.seq =
           d.link.rxSeq)
    ∧ (let s : State := st up
       s.on ∧ s.dev.link.phase = .active)
    ∧ (let f : LinkFlit := flit0
       let bs : List Byte := flitBytes f
       let e : FlitErrors := [⟨0, 5⟩, ⟨3, 5⟩]
       let s : State := st up
       let d := s.dev
       s.on ∧ s.dev.link.phase = .active ∧ readFlit bs e = none ∧ d.link.askTries = 0)
    ∧ (let f : LinkFlit := { flit0 with kind := .idle }
       let bs : List Byte := flitBytes f
       let e : FlitErrors := []
       let s : State := st up
       s.on ∧ s.dev.link.phase = .active ∧ readFlit bs e = some f ∧ corrected e = false ∧ f.kind = .idle)
    ∧ (let f : LinkFlit := { flit0 with kind := .idle }
       let bs : List Byte := flitBytes f
       let e : FlitErrors := [⟨9, 5⟩]
       let s : State := st up
       s.on ∧ s.dev.link.phase = .active ∧ readFlit bs e = some f ∧ corrected e = true ∧ f.kind = .idle) := by
  decide +kernel

/-- States and operands that meet the premises of clauses of FlitsComplete, part 2. -/
theorem test_meets_FlitsComplete_2 :
      (let f : LinkFlit := { flit0 with kind := .replayRequest }
       let bs : List Byte := flitBytes f
       let e : FlitErrors := []
       let s : State := st up
       let d := s.dev
       s.on ∧ s.dev.link.phase = .active ∧ readFlit bs e = some f ∧ corrected e = false ∧ f.kind = .replayRequest ∧
           d.link.replayTries = 0)
    ∧ (let s : State := st up
       let op := 5
       s.on ∧ s.dev.link.phase = .active ∧ usedOpcode op = false) := by
  decide +kernel

/-- States and operands that meet the premises of clauses of CoherenceComplete, part 1. -/
theorem test_meets_CoherenceComplete_1 :
      (let a : DWord := 64
       let s : State := st (win up)
       let d := s.dev
       let w := d.window
       let x := lineOf a.toNat
       s.on ∧ s.dev.link.phase = .active ∧ findLine x w = none ∧ writingBack x w = false)
    ∧ (let a : DWord := 64
       let l : Line := ⟨64, .exclusive, zeros 64⟩
       let s : State := st { win up with window := { (win up).window with lines := [l] } }
       let d := s.dev
       let w := d.window
       let x := lineOf a.toNat
       s.on ∧ s.dev.link.phase = .active ∧ findLine x w = some l ∧ writingBack x w = false ∧ l.state ≠ .modified)
    ∧ (let a : DWord := 64
       let l : Line := ⟨64, .modified, zeros 64⟩
       let s : State := st { win up with window := { (win up).window with lines := [l] } }
       let d := s.dev
       let w := d.window
       let x := lineOf a.toNat
       s.on ∧ s.dev.link.phase = .active ∧ findLine x w = some l ∧ writingBack x w = false ∧ l.state = .modified)
    ∧ (let tag : Nat := 3
       let a : DWord := 64
       let s : State := st { win up with window := { (win up).window with requests := [⟨64, true, 3⟩] } }
       let d := s.dev
       let w := d.window
       let x := lineOf a.toNat
       s.on ∧ s.dev.link.phase = .active ∧ w.requests.any (fun r => r.addr == x && r.tag == tag) = true ∧ w.lines.length <
           32768 ∧ w.waiting = [] ∧ inProgress pLua 0x41 d = false)
    ∧ (let tag : Nat := 3
       let a : DWord := 64
       let s : State := st { win up with window := { (win up).window with writebacks := [(64, 3), (128, 4)] } }
       let d := s.dev
       let w := d.window
       let x := lineOf a.toNat
       s.on ∧ s.dev.link.phase = .active ∧ w.waiting = [] ∧ w.writebacks.contains (x, tag) = true ∧ inProgress pLua 0x41 d =
           false)
    ∧ (let a : DWord := 64
       let l : Line := ⟨64, .modified, zeros 64⟩
       let s : State := st { win up with window := { (win up).window with lines := [l] } }
       let d := s.dev
       let w := d.window
       let x := lineOf a.toNat
       let t := 0
       s.on ∧ s.dev.link.phase = .active ∧ findLine x w = some l ∧ l.state = .modified ∧ freeCohTag (dropLine l.addr w) =
           some t) := by
  decide +kernel

/-- States and operands that meet the premises of clauses of CoherenceComplete, part 2. -/
theorem test_meets_CoherenceComplete_2 :
      (let a : DWord := 64
       let l : Line := ⟨64, .exclusive, zeros 64⟩
       let s : State := st { win up with window := { (win up).window with lines := [l] } }
       let d := s.dev
       let w := d.window
       let x := lineOf a.toNat
       s.on ∧ s.dev.link.phase = .active ∧ findLine x w = some l ∧ l.state ≠ .modified)
    ∧ (let a : DWord := 64
       let s : State := st { win up with window := { (win up).window with writebacks := [(64, 9)] } }
       let d := s.dev
       let w := d.window
       let x := lineOf a.toNat
       s.on ∧ s.dev.link.phase = .active ∧ writingBack x w = true)
    ∧ (let tag : Nat := 3
       let a : DWord := 64
       let s : State := st { win up with window := { (win up).window with requests := [⟨64, true, 4⟩] } }
       let d := s.dev
       let w := d.window
       let x := lineOf a.toNat
       s.on ∧ s.dev.link.phase = .active ∧ w.requests.any (fun r => r.addr == x && r.tag == tag) = false)
    ∧ (let tag : Nat := 3
       let a : DWord := 64
       let s : State := st { win up with window := { (win up).window with writebacks := [(64, 4)] } }
       let d := s.dev
       let w := d.window
       let x := lineOf a.toNat
       s.on ∧ s.dev.link.phase = .active ∧ w.writebacks.contains (x, tag) = false) := by
  decide +kernel

/-- States and operands that meet the premises of clauses of LuawickPageCompletes, part 1. -/
theorem test_meets_LuawickPageCompletes_1 :
      (let s : State := st (rg [(rLua 0 0x58, 26)] { pg pLua .ready up with window := { up.window with sizeLog2 := 26 } })
       let d := s.dev
       s.on ∧ mayCommand pLua s.dev = true ∧ inState pLua [.ready, .active] s.dev = true ∧ 26 ≤ rd (rLua 0 0x58) d ∧ rd
           (rLua 0 0x58) d ≤ 32 ∧ rd64 (rLua 0 0x50) d % 2 ^ rd (rLua 0 0x58) d = 0 ∧ d.window.base = rd64 (rLua 0 0x50) d ∧
           d.window.sizeLog2 = rd (rLua 0 0x58) d)
    ∧ (let s : State := st (win (pg pLua .ready up))
       let d := s.dev
       s.on ∧ mayCommand pLua s.dev = true ∧ inState pLua [.ready, .active] s.dev = true ∧ windowUsed d = false ∧
           d.window.lines = [] ∧ d.window.waiting = [] ∧ d.window.requests = [])
    ∧ (let arg : Nat := 15
       let s : State := st (win (rg [(rQueue 15 8, 12), (rQueue 15 0, 64)] (pg pLua .active up)))
       let d := s.dev
       s.on ∧ mayCommand pLua s.dev = true ∧ inState pLua [.ready, .active] s.dev = true ∧ arg < 16 ∧ d.window.enabled =
           true ∧ 4 ≤ rd (rQueue arg 8) d ∧ rd (rQueue arg 8) d ≤ 12 ∧ rd64 (rQueue arg 0) d % 64 = 0 ∧ inWindow (rd64
           (rQueue arg 0) d) (64 * 2 ^ rd (rQueue arg 8) d) d = true ∧ (queueOf arg d).enabled = false) := by
  decide +kernel

/-- States and operands that meet the premises of clauses of LuawickPageCompletes, part 2. -/
theorem test_meets_LuawickPageCompletes_2 :
      (let arg : Nat := 15
       let s : State := st { win (pg pLua .active up) with queues := [(15, ⟨true, 0, 4, 0, false⟩)] }
       let d := s.dev
       s.on ∧ mayCommand pLua s.dev = true ∧ inState pLua [.ready, .active] s.dev = true ∧ arg < 16 ∧ (queueOf arg
           d).enabled = true ∧ (queueOf arg d).next = producerOf arg d ∧ d.dma.any (fun r => r.queue == arg) = false)
    ∧ (let arg : Nat := 0
       let s : State := st (win (pg pLua .active up))
       let d := s.dev
       s.on ∧ mayCommand pLua s.dev = true ∧ inState pLua [.ready, .active] s.dev = true ∧ arg < 16 ∧ (queueOf arg
           d).enabled = false)
    ∧ (let arg : Nat := 7
       let s : State := st (win (rg [(rEvt 7 8, 16)] (pg pLua .active up)))
       let d := s.dev
       s.on ∧ mayCommand pLua s.dev = true ∧ inState pLua [.ready, .active] s.dev = true ∧ arg < 8 ∧ d.window.enabled = true
           ∧ 6 ≤ rd (rEvt arg 8) d ∧ rd (rEvt arg 8) d ≤ 16 ∧ rd64 (rEvt arg 0) d % 4096 = 0 ∧ inWindow (rd64 (rEvt arg 0)
           d) (32 * 2 ^ rd (rEvt arg 8) d) d = true)
    ∧ (let arg : Nat := 7
       let s : State := st (win { pg pLua .active up with rings := [(7, ⟨true, 0, 6, false, none, false, 0⟩)] })
       s.on ∧ mayCommand pLua s.dev = true ∧ inState pLua [.ready, .active] s.dev = true ∧ arg < 8) := by
  decide +kernel

/-- States and operands that meet the premises of each clause of RingIndicesComplete. -/
theorem test_meets_RingIndicesComplete :
      (let n : Nat := 7
       let s : State := st (pg pLua .active { up with rings := [(7, ⟨true, 0, 6, true, none, true, 0⟩)] })
       let d := s.dev
       s.on ∧ n < 8 ∧ pageSilent pLua d = false ∧ (pageOf pLua d).negotiated = true)
    ∧ (let n : Nat := 7
       let s : State := st { up with rings := [(7, ⟨true, 0, 6, true, none, true, 0⟩)] }
       let d := s.dev
       s.on ∧ (ringOf n d).held = true)
    ∧ (let n : Nat := 7
       let s : State := st up
       let d := s.dev
       s.on ∧ (ringOf n d).held = false) := by
  decide +kernel

/-- States and operands that meet the premises of each clause of DoorbellsAreJudged. -/
theorem test_meets_DoorbellsAreJudged :
      (let q : Nat := 15
       let v : Word := 16
       let s : State := st (rg [(rQueue 15 8, 4)] (pg pLua .active up))
       let d := s.dev
       let size := 2 ^ (if (queueOf q d).enabled then (queueOf q d).sizeLog2 else rd (rQueue q 8) d)
       let used := (v.toNat % 2 ^ 16 + 2 ^ 16 - consumerOf q d) % 2 ^ 16
       s.on ∧ q < 16 ∧ pageSilent pLua s.dev = false ∧ (pageOf pLua s.dev).negotiated = true ∧ used ≤ size)
    ∧ (let q : Nat := 15
       let v : Word := 17
       let s : State := st (rg [(rQueue 15 8, 4)] (pg pLua .active up))
       let d := s.dev
       let size := 2 ^ (if (queueOf q d).enabled then (queueOf q d).sizeLog2 else rd (rQueue q 8) d)
       let used := (v.toNat % 2 ^ 16 + 2 ^ 16 - consumerOf q d) % 2 ^ 16
       s.on ∧ q < 16 ∧ pageSilent pLua s.dev = false ∧ (pageOf pLua s.dev).negotiated = true ∧ size < used) := by
  decide +kernel

/-- States and operands that meet the premises of clauses of DescriptorsComplete, part 1. -/
theorem test_meets_DescriptorsComplete_1 :
      (let q : Nat := 0
       let b : List Byte := zeros 64
       let s : State := st (mm (rg [(rQueue 0 0x10, 1), (rLua 1 0x48, 4096)] { win up with job := { up.job with attached := true, open_ := [0], slotCapacity := 4 }, queues := [(0, ⟨true, 0, 4, 0, false⟩)], window := { (win up).window with lines := [⟨0, .shared, b⟩] } }))
       let d := s.dev
       let x := queueOf q d
       let r := runOf q x.next b d
       s.on ∧ x.enabled = true ∧ x.disabling = false ∧ x.next ≠ producerOf q d ∧ d.dma = [] ∧ queueTurn d = some q ∧
           windowRead (x.base + 64 * (x.next % 2 ^ x.sizeLog2)) 64 d = some b ∧ judgeRun r d = .done ∧
           d.job.closing.contains r.context = false ∧ r.op = 0)
    ∧ (let q : Nat := 0
       let b : List Byte := [1] ++ zeros 7 ++ [64] ++ zeros 55
       let s : State := st (mm (rg [(rQueue 0 0x10, 1), (rLua 1 0x48, 4096)] { win up with job := { up.job with attached := true, open_ := [0], slotCapacity := 4 }, queues := [(0, ⟨true, 0, 4, 0, false⟩)], window := { (win up).window with lines := [⟨0, .shared, b⟩] } }))
       let d := s.dev
       let x := queueOf q d
       let r := runOf q x.next b d
       s.on ∧ x.enabled = true ∧ x.disabling = false ∧ x.next ≠ producerOf q d ∧ d.dma = [] ∧ queueTurn d = some q ∧
           windowRead (x.base + 64 * (x.next % 2 ^ x.sizeLog2)) 64 d = some b ∧ judgeRun r d = .done ∧
           d.job.closing.contains r.context = false ∧ r.op = 1 ∧ r.length ≠ 0) := by
  decide +kernel

/-- States and operands that meet the premises of clauses of DescriptorsComplete, part 2. -/
theorem test_meets_DescriptorsComplete_2 :
      (let q : Nat := 0
       let b : List Byte := [2] ++ zeros 7 ++ [64] ++ zeros 55
       let s : State := st (mm (rg [(rQueue 0 0x10, 1), (rLua 1 0x48, 4096)] { win up with job := { up.job with attached := true, open_ := [0], slotCapacity := 4 }, queues := [(0, ⟨true, 0, 4, 0, false⟩)], window := { (win up).window with lines := [⟨0, .shared, b⟩] } }))
       let d := s.dev
       let x := queueOf q d
       let r := runOf q x.next b d
       s.on ∧ x.enabled = true ∧ x.disabling = false ∧ x.next ≠ producerOf q d ∧ d.dma = [] ∧ queueTurn d = some q ∧
           windowRead (x.base + 64 * (x.next % 2 ^ x.sizeLog2)) 64 d = some b ∧ judgeRun r d = .done ∧
           d.job.closing.contains r.context = false ∧ r.op = 2 ∧ r.length ≠ 0)
    ∧ (let q : Nat := 0
       let b : List Byte := [3] ++ zeros 7 ++ [4] ++ zeros 55
       let s : State := st (mm (rg [(rQueue 0 0x10, 1), (rLua 1 0x48, 4096)] { win up with job := { up.job with attached := true, open_ := [0], slotCapacity := 4 }, queues := [(0, ⟨true, 0, 4, 0, false⟩)], window := { (win up).window with lines := [⟨0, .shared, b⟩] } }))
       let d := s.dev
       let x := queueOf q d
       let r := runOf q x.next b d
       s.on ∧ x.enabled = true ∧ x.disabling = false ∧ x.next ≠ producerOf q d ∧ d.dma = [] ∧ queueTurn d = some q ∧
           windowRead (x.base + 64 * (x.next % 2 ^ x.sizeLog2)) 64 d = some b ∧ judgeRun r d = .done ∧
           d.job.closing.contains r.context = false ∧ r.op = 3 ∧ r.length ≠ 0 ∧ d.job.slotCapacity ≠ 0) := by
  decide +kernel

/-- States and operands that meet the premises of clauses of DescriptorsComplete, part 3. -/
theorem test_meets_DescriptorsComplete_3 :
      (let q : Nat := 0
       let b : List Byte := [1, 1] ++ zeros 6 ++ [64] ++ zeros 55
       let s : State := st (mm (rg [(rQueue 0 0x10, 1), (rLua 1 0x48, 4096)] { win up with job := { up.job with attached := true, open_ := [0], slotCapacity := 4 }, queues := [(0, ⟨true, 0, 4, 0, false⟩)], window := { (win up).window with lines := [⟨0, .shared, b⟩] } }))
       let d := s.dev
       let x := queueOf q d
       let r := runOf q x.next b d
       s.on ∧ x.enabled = true ∧ x.disabling = false ∧ x.next ≠ producerOf q d ∧ d.dma = [] ∧ queueTurn d = some q ∧
           windowRead (x.base + 64 * (x.next % 2 ^ x.sizeLog2)) 64 d = some b ∧ judgeRun r d ≠ .done ∧ r.op = 1 ∧
           d.job.closing.contains r.context = false)
    ∧ (let s : State := st (mm { up with dma := [⟨0, 3, 1, 0, 0, false, false, 4, 0, 0, 0, 0, 4, 0, some 9, none, .done, 0, .data, 0, 0, 0, []⟩] })
       let d := s.dev
       let y : DmaRun := ⟨0, 3, 1, 0, 0, false, false, 4, 0, 0, 0, 0, 4, 0, some 9, none, .done, 0, .data, 0, 0, 0, []⟩
       let tag : Nat := 9
       let data : List Byte := [1,2,3,4]
       let came := cameIn 1 (slotsFor data.length) d
       let ps := dmaPuts y.msgId y.context (y.moduleAddr + y.moved) data false came
       s.on ∧ d.link.phase = .active ∧ d.dma = [y] ∧ y.tag = some tag ∧ data.length = y.asked ∧ y.stage = .data ∧ y.result =
           .done ∧ y.moved + data.length = bytesOf y d.job ∧ ps ≠ [])
    ∧ (let s : State := st (mm { up with dma := [⟨0, 3, 1, 0, 0, false, false, 4, 0, 0, 0, 0, 4, 4, none, none, .done, 0, .data, 0, 0, 1, []⟩] })
       let d := s.dev
       let y : DmaRun := ⟨0, 3, 1, 0, 0, false, false, 4, 0, 0, 0, 0, 4, 4, none, none, .done, 0, .data, 0, 0, 1, []⟩
       let p : Packet := pk
       s.on ∧ d.dma = [y] ∧ y.op = 1 ∧ y.tag = none ∧ y.stage = .data ∧ y.moved = bytesOf y d.job ∧ y.awaited = 1 ∧ p.msgId
           = y.msgId ∧ p.result = .done) := by
  decide +kernel

/-- States and operands that meet the premises of clauses of DescriptorsComplete, part 4. -/
theorem test_meets_DescriptorsComplete_4 :
      (let q : Nat := 0
       let s : State := st { win up with dma := [⟨0, 3, 0, 0, 0, false, false, 0, 0, 0, 0, 0, 0, 0, none, none, .done, 0, .ended, 0, 0, 0, []⟩], queues := [(0, ⟨true, 0, 4, 4, false⟩)], window := { (win up).window with lines := [⟨0, .modified, zeros 64⟩, ⟨192, .modified, zeros 64⟩] } }
       let d := s.dev
       let x := queueOf q d
       let y : DmaRun := ⟨0, 3, 0, 0, 0, false, false, 0, 0, 0, 0, 0, 0, 0, none, none, .done, 0, .ended, 0, 0, 0, []⟩
       let rest : List DmaRun := []
       s.on ∧ d.dma = y :: rest ∧ y.queue = q ∧ y.stage = .ended ∧ y.awaited = 0 ∧ y.op = 0 ∧ y.result = .done ∧ y.detail =
           0 ∧ y.event = false ∧ y.signalFlag = false ∧ x.disabling = false ∧ rest.any (fun z => z.queue == q && z.index ==
           y.index) = false ∧ windowTook (d.job.slotRecord + 32 * y.slot) 32 d = true ∧ windowTook (descriptorAddr y d +
           0x28) 20 (windowPut (descriptorAddr y d + 0x28) (leBytes 8 y.moved ++ leBytes 8 (y.poisonAddr.getD 0) ++ leBytes
           4 (2 ^ 31 + resultCode .done)) d) = true) := by
  decide +kernel

/-- States and operands that meet the premises of clauses of JobCommandsComplete, part 1. -/
theorem test_meets_JobCommandsComplete_1 :
      (let s : State := st { win (mm (rg [(rLua 1 0x48, 4096), (rJob 0x4C, 1), (rJob 0x68, 0), (rJob 0x70, 0)] (pg pJob .ready up))) with job := freshJob }
       let d := s.dev
       let g := pageOf pJob d
       s.on ∧ mayCommand pJob d = true ∧ g.state = .ready ∧ attachInRange d = true)
    ∧ (let s : State := st (mm { pg pJob .ready up with job := { freshJob with rankCount := 2, load := some ⟨[], 16, some 9, false, 0, 0⟩ } })
       let d := s.dev
       let l : RankLoad := ⟨[], 16, some 9, false, 0, 0⟩
       let tag : Nat := 9
       let data : List Byte := zeros 16
       s.on ∧ d.link.phase = .active ∧ d.dma = [] ∧ d.job.load = some l ∧ l.tag = some tag ∧ l.poisoned = false ∧
           data.length = l.asked ∧ l.table.length + data.length = 8 * d.job.rankCount)
    ∧ (let s : State := st (mm (mp pJob (fun g => { g with cmd := some ⟨0x40, 0⟩ }) { pg pJob .ready up with job := { freshJob with rankCount := 2, load := some ⟨zeros 16, 16, none, false, 0, 1⟩ } }))
       let d := s.dev
       let g := pageOf pJob d
       let l : RankLoad := ⟨zeros 16, 16, none, false, 0, 1⟩
       let p : Packet := pk
       s.on ∧ d.dma = [] ∧ d.job.load = some l ∧ l.msgId = p.msgId ∧ l.awaited = 1 ∧ inProgress pJob 0x40 d = true ∧ g.state
           = .ready)
    ∧ (let s : State := st { pg pJob .active up with job := { freshJob with attached := true } }
       let d := s.dev
       let g := pageOf pJob d
       s.on ∧ mayCommand pJob d = true ∧ g.state = .active ∧ d.job.open_ = [])
    ∧ (let arg : Nat := 7
       let s : State := st { pg pJob .active up with job := { freshJob with attached := true } }
       let d := s.dev
       let g := pageOf pJob d
       s.on ∧ mayCommand pJob d = true ∧ g.state = .active ∧ arg ≤ 7 ∧ ctxOpen arg d = false) := by
  decide +kernel

/-- States and operands that meet the premises of clauses of JobCommandsComplete, part 2. -/
theorem test_meets_JobCommandsComplete_2 :
      (let arg : Nat := 7
       let s : State := st { pg pJob .active up with job := { freshJob with attached := true, open_ := [7] } }
       let d := s.dev
       let g := pageOf pJob d
       s.on ∧ mayCommand pJob d = true ∧ g.state = .active ∧ arg ≤ 7 ∧ ctxOpen arg d = true ∧ ringUses arg d = false)
    ∧ (let arg : Nat := 7
       let s : State := st (mp pJob (fun g => { g with cmd := some ⟨0x43, 7⟩ }) { pg pJob .active up with job := { freshJob with attached := true, closing := [7] } })
       let d := s.dev
       let g := pageOf pJob d
       let c := 7
       s.on ∧ g.cmd = some ⟨0x43, c⟩ ∧ d.job.closing.contains arg = true ∧ contextBusy arg d = false) := by
  decide +kernel

/-- States and operands that meet the premises of each clause of CustomInstructionsComplete. -/
theorem test_meets_CustomInstructionsComplete :
      (let k : Nat := 0
       let f : Nat := 63
       let s : State := st (kern 4 9 up)
       s.on ∧ runs k s.dev ∧ f ≤ 63)
    ∧ (let k : Nat := 0
       let a : Nat := 5
       let f : Nat := 63
       let s : State := st (kern 4 9 up)
       let d := s.dev
       let c := coreOf k d
       let e := (xreg c a).toNat % 4
       s.on ∧ runs k s.dev ∧ f ≤ 63 ∧ e ≠ 3)
    ∧ (let k : Nat := 0
       let a : Nat := 5
       let b : Nat := 6
       let f : Nat := 63
       let s : State := st (kern 4 9 up)
       let d := s.dev
       let c := coreOf k d
       let e := (xreg c a).toNat % 4
       let t := low32 (xreg c b)
       s.on ∧ runs k s.dev ∧ f ≤ 63 ∧ e ≠ 3 ∧ reached (engineOf c e).completed t = true)
    ∧ (let k : Nat := 0
       let a : Nat := 5
       let f : Nat := 63
       let s : State := st (kern 4 9 up)
       let d := s.dev
       let c := coreOf k d
       let old := flagOf c f
       let v := low32 (xreg c a)
       s.on ∧ runs k s.dev ∧ f ≤ 63 ∧ reached old v = true)
    ∧ (let k : Nat := 0
       let a : Nat := 5
       let f : Nat := 63
       let s : State := st (kern 9 9 up)
       let d := s.dev
       let c := coreOf k d
       let old := flagOf c f
       let v := low32 (xreg c a)
       s.on ∧ runs k s.dev ∧ f ≤ 63 ∧ reached old v = false)
    ∧ (let k : Nat := 0
       let a : Nat := 0
       let b : Nat := 5
       let f : Nat := 63
       let s : State := st (kern 10 9 up)
       let d := s.dev
       let c := coreOf k d
       let e := (xreg c a).toNat % 4
       let t := low32 (xreg c b)
       s.on ∧ runs k s.dev ∧ f ≤ 63 ∧ e ≠ 3 ∧ reached (engineOf c e).completed t = false) := by
  decide +kernel

/-- States and operands that meet the premises of each clause of WaitsEnd. -/
theorem test_meets_WaitsEnd :
      (let k : Nat := 0
       let r : Nat := 1
       let f : Nat := 63
       let v : Word := 7
       let s : State := st (modCore 0 (fun c => { c with waiting := some (.flag 1 63 7) }) (kern 0 0 up))
       let d := s.dev
       let c := coreOf k d
       s.on ∧ interrupted k s.dev = false ∧ mayRun k s.dev = true ∧ c.waiting = some (.flag r f v) ∧ reached (flagOf c f) v
           = true)
    ∧ (let k : Nat := 0
       let r : Nat := 1
       let v : Word := 7
       let s : State := st (modCore 0 (fun c => { c with waiting := some (.engine 1 0 7) }) (kern 0 0 up))
       let d := s.dev
       let c := coreOf k d
       let e := 0
       s.on ∧ interrupted k s.dev = false ∧ mayRun k s.dev = true ∧ c.waiting = some (.engine r e v) ∧ reached (engineOf c
           e).completed v = true)
    ∧ (let k : Nat := 0
       let s : State := st (rg [(rCore 0 0x7C, 1)] (modCore 0 (fun c => { c with waiting := some (.engine 1 0 10), waitSince := some 1000000 }) (kern 0 0 up)))
       let d := s.dev
       let c := coreOf k d
       let t := 1000000
       s.on ∧ interrupted k s.dev = false ∧ mayRun k s.dev = true ∧ c.waiting.isSome = true ∧ waitOver c = false ∧ c.machine
           = false ∧ c.waitSince = some t ∧ rd (rCore k 0x7C) d ≠ 0 ∧ 1000 * rd (rCore k 0x7C) d < d.now - t) := by
  decide +kernel

/-- States and operands that meet the premises of clauses of ScalarInstructionsComplete, part 1. -/
theorem test_meets_ScalarInstructionsComplete_1 :
      (let k : Nat := 0
       let w : Nat := 0x00530313
       let s : State := st (sr 0x1000 [0x13, 0x03, 0x53, 0x00] (kern 0 0 up))
       let d := s.dev
       let c := coreOf k d
       s.on ∧ runs k s.dev ∧ inProgress (pCore k) 0x40 d = false ∧ c.pc + 4 ≤ reach (!c.machine) ∧ sramPoisoned k c.pc 2 d =
           false ∧ sramPoisoned k (c.pc + 2) 2 d = false ∧ leNat (sramRead k c.pc 4 d) = w ∧ w % 4 = 3 ∧ leNat (sramRead k
           c.pc 2 d) % 4 = 3)
    ∧ (let k : Nat := 0
       let w : Nat := 0x00530313
       let v : DWord := 5
       let s : State := st (sr 0x1000 [0x13, 0x03, 0x53, 0x00] (kern 0 0 up))
       let d := s.dev
       let c := coreOf k d
       s.on ∧ runs k s.dev ∧ inProgress (pCore k) 0x40 d = false ∧ c.pc + 4 ≤ reach (!c.machine) ∧ sramPoisoned k c.pc 2 d =
           false ∧ sramPoisoned k (c.pc + 2) 2 d = false ∧ leNat (sramRead k c.pc 4 d) = w ∧ w % 4 = 3 ∧ leNat (sramRead k
           c.pc 2 d) % 4 = 3 ∧ w % 128 = 0x13 ∧ aluI (fieldOf w 31 20) (fieldOf w 14 12) (xreg c (fieldOf w 19 15)) = some v) := by
  decide +kernel

/-- States and operands that meet the premises of clauses of ScalarInstructionsComplete, part 2. -/
theorem test_meets_ScalarInstructionsComplete_2 :
      (let k : Nat := 0
       let w : Nat := 0x006282B3
       let v : DWord := 5
       let s : State := st (sr 0x1000 [0xB3, 0x82, 0x62, 0x00] (kern 2 3 up))
       let d := s.dev
       let c := coreOf k d
       s.on ∧ runs k s.dev ∧ inProgress (pCore k) 0x40 d = false ∧ c.pc + 4 ≤ reach (!c.machine) ∧ sramPoisoned k c.pc 2 d =
           false ∧ sramPoisoned k (c.pc + 2) 2 d = false ∧ leNat (sramRead k c.pc 4 d) = w ∧ w % 4 = 3 ∧ leNat (sramRead k
           c.pc 2 d) % 4 = 3 ∧ w % 128 = 0x33 ∧ aluR (fieldOf w 31 25) (fieldOf w 14 12) (xreg c (fieldOf w 19 15)) (xreg c
           (fieldOf w 24 20)) = some v)
    ∧ (let k : Nat := 0
       let w : Nat := (expandC 0x0305).getD 0
       let s : State := st (sr 0x1000 [0x05, 0x03] (kern 2 3 up))
       let d := s.dev
       let c := coreOf k d
       s.on ∧ runs k s.dev ∧ inProgress (pCore k) 0x40 d = false ∧ c.pc + 2 ≤ reach (!c.machine) ∧ sramPoisoned k c.pc 2 d =
           false ∧ leNat (sramRead k c.pc 2 d) % 4 ≠ 3 ∧ expandC (leNat (sramRead k c.pc 2 d)) = some w)
    ∧ (let k : Nat := 0
       let s : State := st (kern 0 0 up)
       let d := s.dev
       let c := coreOf k d
       s.on ∧ runs k s.dev ∧ c.machine = false ∧ xreg c 17 = 0 ∧ c.kernel.isSome = true ∧ c.ending = none)
    ∧ (let k : Nat := 0
       let s : State := st (modCore 0 (fun c => { c with xs := [(17, 1)] }) (kern 0 0 up))
       let d := s.dev
       let c := coreOf k d
       s.on ∧ runs k s.dev ∧ c.machine = false ∧ xreg c 17 ≠ 0) := by
  decide +kernel

/-- States and operands that meet the premises of clauses of ScalarInstructionsComplete, part 3. -/
theorem test_meets_ScalarInstructionsComplete_3 :
      (let k : Nat := 0
       let s : State := st (modCore 0 (fun c => { c with machine := true, mstatus := 0x1880, mepc := 0x2000 }) (kern 0 0 up))
       let d := s.dev
       let c := coreOf k d
       s.on ∧ runs k s.dev ∧ c.machine = true)
    ∧ (let k : Nat := 0
       let s : State := st (kern 0 0 up)
       s.on ∧ runs k s.dev)
    ∧ (let k : Nat := 0
       let s : State := st (modCore 0 (fun c => { c with machine := true, beaconPending := true, mip := 0x10000 }) (kern 0 0 up))
       let d := s.dev
       let c := coreOf k d
       s.on ∧ runs k s.dev ∧ c.machine = true ∧ c.beaconPending = true ∧ c.loaded = false) := by
  decide +kernel

/-- States and operands that meet the premises of each clause of IssuesComplete. -/
theorem test_meets_IssuesComplete :
      (let k : Nat := 0
       let r : Nat := 1
       let a : Nat := 5
       let e : Nat := 1
       let i : Instr := Instr.vxIssue k r a
       let s : State := st (sr 0x40 ([1] ++ zeros 63) (kern 0x40 0 up))
       let d := s.dev
       let c := coreOf k d
       let at_ := (xreg c a).toNat
       let b := sramRead k at_ 64 d
       let g := engineOf c e
       s.on ∧ runs k s.dev ∧ (i, e) ∈ [(Instr.mxIssue k r a, 0), (Instr.vxIssue k r a, 1), (Instr.msgSend k r a, 2)] ∧ at_ %
           64 = 0 ∧ inSram (!c.machine) at_ 64 = true ∧ ctxOpen c.vxctx d = true ∧ sramPoisoned k at_ 64 d = false ∧
           descInvalid e b = false ∧ (g.cmds.filter (fun x => !x.completed)).length < 16)
    ∧ (let k : Nat := 0
       let r : Nat := 1
       let a : Nat := 5
       let e : Nat := 1
       let i : Instr := Instr.vxIssue k r a
       let s : State := st (kern 0x41 0 up)
       let d := s.dev
       let c := coreOf k d
       let at_ := (xreg c a).toNat
       s.on ∧ runs k s.dev ∧ (i, e) ∈ [(Instr.mxIssue k r a, 0), (Instr.vxIssue k r a, 1), (Instr.msgSend k r a, 2)] ∧
           c.machine = false ∧ at_ % 64 ≠ 0) := by
  decide +kernel

/-- States and operands that meet the premises of each clause of InterruptsComeFirst. -/
theorem test_meets_InterruptsComeFirst :
      (let k : Nat := 0
       let b : Nat := 19
       let s : State := st (modCore 0 (fun c => { c with mip := 0x80000, mie := 0x80000 }) (kern 0 0 up))
       s.on ∧ coreUp k s.dev = true ∧ nextInterrupt (coreOf k s.dev) = some b ∧ (coreOf k s.dev).mtvec.toNat % 4 = 1) := by
  decide +kernel

/-- States and operands that meet the premises of each clause of KernelsComplete. -/
theorem test_meets_KernelsComplete :
      (let k : Nat := 0
       let arg : Nat := 0
       let s : State := st (mm (rg [(rCore 0 0x58, 16), (rCore 0 0x5C, 0x1000), (rCore 0 0x60, 0x1001), (rCore 0 0x68, 3)] { pg (pCore 0) .ready up with job := { up.job with attached := true, open_ := [0] } }))
       let d := s.dev
       let p := pCore k
       let a := rd64 (rCore k 0x50) d / 16 * 16
       s.on ∧ k < 2560 ∧ mayCommand p d = true ∧ stateOf p d = .ready ∧ ctxOpen (arg % 8) d = true ∧ kernelLen k d ≠ 0 ∧
           inMemory (rd64 (rCore k 0x50) d) (kernelLen k d) d = true ∧ rd (rCore k 0x5C) d / 16 * 16 + kernelLen k d ≤
           kernelWindow ∧ rd (rCore k 0x60) d / 2 * 2 < kernelWindow ∧ rangeHeld a (kernelLen k d) false d = false ∧
           memPoisonWords a (kernelLen k d) (memTouch a (kernelLen k d) (some (arg % 8)) (runtimeTold p (accept p 0x40 arg
           d))) = [])
    ∧ (let k : Nat := 0
       let s : State := st (kern 0 0 up)
       let d := s.dev
       let c := coreOf k d
       let p := pCore k
       s.on ∧ k < 2560 ∧ mayCommand p d = true ∧ (stateOf p d = .active ∨ stateOf p d = .quiesced) ∧ c.kernel.isSome = true
           ∧ c.ending = none)
    ∧ (let k : Nat := 0
       let s : State := st (modCore 0 (fun c => { c with ending := some (255, 3), engines := [] }) (kern 0 0 up))
       let d := s.dev
       let c := coreOf k d
       let p := pCore k
       let cause : Nat := 255
       let ctx : Nat := 0
       let value : Word := 3
       s.on ∧ k < 2560 ∧ stateOf p d = .active ∧ inProgress p 0x41 d = false ∧ c.ending = some (cause, value) ∧ c.kernel =
           some ctx ∧ cause < 256 ∧ ctx < 8 ∧ (∀ e < 3, (engineOf c e).cmds = [])) := by
  decide +kernel

/-- States and operands that meet the premises of each clause of EngineCommandsEnd. -/
theorem test_meets_EngineCommandsEnd :
      (let k : Nat := 0
       let e : Nat := 2
       let t : Nat := 1
       let c : EngCmd := ⟨1, 64, [0, 1, 1, 0, 5] ++ zeros 59, 0, true, 0x1000, 0, 0, 0, true, 0, 0, some (.failed, 3), false, false, 0, 0, [], [], [], [], [], [], []⟩
       let r : Result := .failed
       let detail : Nat := 3
       let s : State := st (modCore 0 (fun x => { x with engines := [(2, ⟨1, 0, [c]⟩)] }) (kern 0 0 up))
       s.on ∧ e < 3 ∧ (engineOf (coreOf k s.dev) e).cmds = [c] ∧ c.ticket = BitVec.ofNat 32 t ∧ c.ended = some (r, detail) ∧
           c.completed = false ∧ stateOf (pCore k) s.dev ≠ .retired ∧ stateOf (pCore k) s.dev ≠ .off) := by
  decide +kernel

/-- States and operands that meet the premises of clauses of CoreWatchesComplete, part 1. -/
theorem test_meets_CoreWatchesComplete_1 :
      (let k : Nat := 0
       let t : Nat := 1
       let c : EngCmd := ⟨1, 64, zeros 64, 7, true, 0x1000, 0, 0, 0, true, 0, 0, none, false, false, 0, 0, [], [], [], [], [], [], []⟩
       let s : State := st { modCore 0 (fun x => { x with engines := [(2, ⟨1, 0, [c]⟩)] }) (kern 0 0 up) with now := 20000000000 }
       let d := s.dev
       s.on ∧ k < 2560 ∧ coreTakes k s.dev = true ∧ findCmd (coreOf k d) 2 (BitVec.ofNat 32 t) = some c ∧ c.started = true ∧
           c.completed = false ∧ bitOf (rd (rCore k 0xA0) d) 31 = false ∧ c.ctx < 8 ∧ 1000 * clampReg 1 1000000 (rd (rCore k
           0xA8) d) < d.now - c.startedAt)
    ∧ (let k : Nat := 0
       let c : EngCmd := ⟨1, 64, zeros 64, 7, true, 0x1000, 0, 0, 0, true, 0, 0, none, false, false, 0, 0, [], [], [], [], [], [], []⟩
       let s : State := st { modCore 0 (fun x => { x with engines := [(2, ⟨1, 0, [c]⟩)] }) (kern 0 0 up) with now := 20000000000 }
       s.on ∧ k < 2560 ∧ coreTakes k s.dev = true)
    ∧ (let k : Nat := 0
       let a : Nat := 0x1FFFFF
       let c : EngCmd := ⟨1, 64, zeros 64, 7, true, 0x1000, 0, 0, 0, true, 0, 0, none, false, false, 0, 0, [], [], [], [], [], [], []⟩
       let s : State := st { modCore 0 (fun x => { x with engines := [(2, ⟨1, 0, [c]⟩)] }) (kern 0 0 up) with now := 20000000000 }
       let d := s.dev
       let b := 143
       s.on ∧ k < 2560 ∧ coreTakes k s.dev = true ∧ b < 144 ∧ a < sramSize ∧ sramPoisoned k (a / 16 * 16) 16 d = false)
    ∧ (let k : Nat := 0
       let a : Nat := 0
       let c : EngCmd := ⟨1, 64, zeros 64, 7, true, 0x1000, 0, 0, 0, true, 0, 0, none, false, false, 0, 0, [], [], [], [], [], [], []⟩
       let s : State := st { modCore 0 (fun x => { x with engines := [(2, ⟨1, 0, [c]⟩)] }) (kern 0 0 up) with now := 20000000000 }
       let d := s.dev
       let bits : WordNoise := 3
       s.on ∧ k < 2560 ∧ coreTakes k s.dev = true ∧ a < kernelWindow ∧ sramPoisoned k (a / 16 * 16) 16 d = false ∧ judgeWord
           false bits = .uncorrectable)
    ∧ (let k : Nat := 0
       let t : Nat := 1
       let c : EngCmd := ⟨1, 64, zeros 64, 7, true, 0x1000, 0, 0, 0, true, 0, 0, none, false, false, 0, 0, [], [], [], [], [], [], []⟩
       let s : State := st { modCore 0 (fun x => { x with engines := [(2, ⟨1, 0, [c]⟩)] }) (kern 0 0 up) with now := 20000000000 }
       let d := s.dev
       s.on ∧ k < 2560 ∧ coreTakes k s.dev = true ∧ resetActs .core d = false ∧ (coreOf k d).beaconPending = false ∧ (coreOf
           k d).beaconAt.all (fun t => decide (1000000 ≤ d.now - t)) = true) := by
  decide +kernel

/-- States and operands that meet the premises of clauses of CoreWatchesComplete, part 2. -/
theorem test_meets_CoreWatchesComplete_2 :
      (let k : Nat := 0
       let t : Nat := 1
       let s : State := st (modCore 0 (fun x => { x with beaconPending := true }) (kern 0 0 up))
       let d := s.dev
       s.on ∧ k < 2560 ∧ coreTakes k s.dev = true ∧ resetActs .core d = false ∧ (coreOf k d).beaconPending = true ∧ rd
           (rCore k 0xE4) d < 3 ∧ (coreOf k d).beaconAt.all (fun t => decide (1000000 ≤ d.now - t)) = true) := by
  decide +kernel

/-- States and operands that meet the premises of clauses of VectorCommandsComplete, part 1. -/
theorem test_meets_VectorCommandsComplete_1 :
      (let k : Nat := 0
       let op : Nat := 1
       let i : Instr := Instr.add k
       let c : EngCmd := ec (dw [1])
       let s : State := st (eng 1 c up)
       let v := vecDesc c.desc
       s.on ∧ nextCmd (coreOf k s.dev) 1 = some c ∧ engineIdle (coreOf k s.dev) 1 = true ∧ inState (pCore k) [.ready,
           .active, .loading] s.dev = true ∧ descOp c.desc = op ∧ (i, op) ∈ [(Instr.add k, 0x01), (.sub k, 0x02), (.mul k,
           0x03), (.fma k, 0x04), (.max k, 0x05), (.min k, 0x06), (.copy k, 0x07), (.transpose k, 0x08), (.exp2 k, 0x10),
           (.log2 k, 0x11), (.recip k, 0x12), (.rsqrt k, 0x13), (.tanh k, 0x14), (.sigmoid k, 0x15), (.erf k, 0x16), (.rsum
           k, 0x20), (.rmax k, 0x21), (.rmin k, 0x22), (.rsumsq k, 0x23), (.ramax k, 0x24)] ∧ (v.len = 0 ∨ v.rows = 0))
    ∧ (let k : Nat := 0
       let op : Nat := 1
       let i : Instr := Instr.add k
       let c : EngCmd := ec (dw [1, 0, 0xC, 0x10004])
       let s : State := st (eng 1 c up)
       let v := vecDesc c.desc
       s.on ∧ nextCmd (coreOf k s.dev) 1 = some c ∧ engineIdle (coreOf k s.dev) 1 = true ∧ inState (pCore k) [.ready,
           .active, .loading] s.dev = true ∧ descOp c.desc = op ∧ (i, op) ∈ [(Instr.add k, 0x01), (.sub k, 0x02), (.mul k,
           0x03), (.fma k, 0x04), (.max k, 0x05), (.min k, 0x06), (.copy k, 0x07), (.transpose k, 0x08), (.exp2 k, 0x10),
           (.log2 k, 0x11), (.recip k, 0x12), (.rsqrt k, 0x13), (.tanh k, 0x14), (.sigmoid k, 0x15), (.erf k, 0x16), (.rsum
           k, 0x20), (.rmax k, 0x21), (.rmin k, 0x22), (.rsumsq k, 0x23), (.ramax k, 0x24)] ∧ v.len ≠ 0 ∧ v.rows ≠ 0 ∧
           vecInRange c.user v = false)
    ∧ (let k : Nat := 0
       let op : Nat := 1
       let i : Instr := Instr.add k
       let c : EngCmd := ec (vd 1)
       let s : State := st (sr 0x1000 (dw [0x3F800000]) (eng 1 c up))
       let v := vecDesc c.desc
       s.on ∧ nextCmd (coreOf k s.dev) 1 = some c ∧ engineIdle (coreOf k s.dev) 1 = true ∧ inState (pCore k) [.ready,
           .active, .loading] s.dev = true ∧ descOp c.desc = op ∧ (i, op) ∈ [(Instr.add k, 0x01), (.sub k, 0x02), (.mul k,
           0x03), (.fma k, 0x04), (.max k, 0x05), (.min k, 0x06), (.copy k, 0x07), (.transpose k, 0x08), (.exp2 k, 0x10),
           (.log2 k, 0x11), (.recip k, 0x12), (.rsqrt k, 0x13), (.tanh k, 0x14), (.sigmoid k, 0x15), (.erf k, 0x16), (.rsum
           k, 0x20), (.rmax k, 0x21), (.rmin k, 0x22), (.rsumsq k, 0x23), (.ramax k, 0x24)] ∧ v.len ≠ 0 ∧ v.rows ≠ 0 ∧
           vecInRange c.user v = true) := by
  decide +kernel

/-- States and operands that meet the premises of clauses of VectorCommandsComplete, part 2. -/
theorem test_meets_VectorCommandsComplete_2 :
      (let k : Nat := 0
       let op : Nat := 1
       let i : Instr := Instr.add k
       let c : EngCmd := ec (vd 1)
       let s : State := st (sr 0x1000 (dw [0x3F800000]) (eng 1 c up))
       let d := s.dev
       let v := vecDesc c.desc
       s.on ∧ nextCmd (coreOf k s.dev) 1 = some c ∧ engineIdle (coreOf k s.dev) 1 = true ∧ inState (pCore k) [.ready,
           .active, .loading] s.dev = true ∧ descOp c.desc = op ∧ (i, op) ∈ [(Instr.add k, 0x01), (.sub k, 0x02), (.mul k,
           0x03), (.fma k, 0x04), (.max k, 0x05), (.min k, 0x06), (.copy k, 0x07), (.transpose k, 0x08), (.exp2 k, 0x10),
           (.log2 k, 0x11), (.recip k, 0x12), (.rsqrt k, 0x13), (.tanh k, 0x14), (.sigmoid k, 0x15), (.erf k, 0x16), (.rsum
           k, 0x20), (.rmax k, 0x21), (.rmin k, 0x22), (.rsumsq k, 0x23), (.ramax k, 0x24)] ∧ v.len ≠ 0 ∧ v.rows ≠ 0 ∧
           vecInRange c.user v = true ∧ (∀ f < 3, running k f d = []) ∧ Mem.wf d.sram = true ∧ (vecIns v).any (fun r =>
           sramPoisoned k r.1 r.2 d) = false ∧ apart c.addr (vecSpans v) = true)
    ∧ (let k : Nat := 0
       let op : Nat := 1
       let i : Instr := Instr.add k
       let c : EngCmd := ec (vd 1)
       let s : State := st { eng 1 c up with sramPoison := [sramWord 0 0x1000] }
       let d := s.dev
       let v := vecDesc c.desc
       s.on ∧ nextCmd (coreOf k s.dev) 1 = some c ∧ engineIdle (coreOf k s.dev) 1 = true ∧ inState (pCore k) [.ready,
           .active, .loading] s.dev = true ∧ descOp c.desc = op ∧ (i, op) ∈ [(Instr.add k, 0x01), (.sub k, 0x02), (.mul k,
           0x03), (.fma k, 0x04), (.max k, 0x05), (.min k, 0x06), (.copy k, 0x07), (.transpose k, 0x08), (.exp2 k, 0x10),
           (.log2 k, 0x11), (.recip k, 0x12), (.rsqrt k, 0x13), (.tanh k, 0x14), (.sigmoid k, 0x15), (.erf k, 0x16), (.rsum
           k, 0x20), (.rmax k, 0x21), (.rmin k, 0x22), (.rsumsq k, 0x23), (.ramax k, 0x24)] ∧ v.len ≠ 0 ∧ v.rows ≠ 0 ∧
           vecInRange c.user v = true ∧ (∀ f < 3, running k f d = []) ∧ (vecIns v).any (fun r => sramPoisoned k r.1 r.2 d) =
           true) := by
  decide +kernel

/-- States and operands that meet the premises of clauses of MatmulCompletes, part 1. -/
theorem test_meets_MatmulCompletes_1 :
      (let k : Nat := 0
       let c : EngCmd := ec (dw [1])
       let s : State := st (eng 0 c up)
       let m := matDesc c.desc
       s.on ∧ nextCmd (coreOf k s.dev) 0 = some c ∧ engineIdle (coreOf k s.dev) 0 = true ∧ inState (pCore k) [.ready,
           .active, .loading] s.dev = true ∧ descOp c.desc = 1 ∧ (m.m = 0 ∨ m.n = 0 ∨ m.k = 0))
    ∧ (let k : Nat := 0
       let c : EngCmd := ec (dw [1, 0, 0xC, 0x10001, 1])
       let s : State := st (eng 0 c up)
       let m := matDesc c.desc
       s.on ∧ nextCmd (coreOf k s.dev) 0 = some c ∧ engineIdle (coreOf k s.dev) 0 = true ∧ inState (pCore k) [.ready,
           .active, .loading] s.dev = true ∧ descOp c.desc = 1 ∧ m.m ≠ 0 ∧ m.n ≠ 0 ∧ m.k ≠ 0 ∧ matInRange c.user m = false)
    ∧ (let k : Nat := 0
       let c : EngCmd := ec (dw [1, 0, 0, 0x10001, 1, 0x1000, 0x1100, 0x1200, 0x1300, 0x3F800000, 0x3F800000, 0x3F800000, 0x400040, 0x400040])
       let s : State := st (sr 0x1000 (dw [0x3F800000]) (eng 0 c up))
       let m := matDesc c.desc
       s.on ∧ nextCmd (coreOf k s.dev) 0 = some c ∧ engineIdle (coreOf k s.dev) 0 = true ∧ inState (pCore k) [.ready,
           .active, .loading] s.dev = true ∧ descOp c.desc = 1 ∧ m.m ≠ 0 ∧ m.n ≠ 0 ∧ m.k ≠ 0 ∧ matInRange c.user m = true) := by
  decide +kernel

/-- States and operands that meet the premises of clauses of MatmulCompletes, part 2. -/
theorem test_meets_MatmulCompletes_2 :
      (let k : Nat := 0
       let c : EngCmd := ec (dw [1, 0, 0, 0x10001, 1, 0x1000, 0x1100, 0x1200, 0x1300, 0x3F800000, 0x3F800000, 0x3F800000, 0x400040, 0x400040])
       let s : State := st (sr 0x1000 (dw [0x3F800000]) (eng 0 c up))
       let d := s.dev
       let m := matDesc c.desc
       s.on ∧ nextCmd (coreOf k s.dev) 0 = some c ∧ engineIdle (coreOf k s.dev) 0 = true ∧ inState (pCore k) [.ready,
           .active, .loading] s.dev = true ∧ descOp c.desc = 1 ∧ m.m ≠ 0 ∧ m.n ≠ 0 ∧ m.k ≠ 0 ∧ matInRange c.user m = true ∧
           (∀ f < 3, running k f d = []) ∧ Mem.wf d.sram = true ∧ (matIns m).any (fun r => sramPoisoned k r.1 r.2 d) = false
           ∧ apart c.addr (matSpans m) = true) := by
  decide +kernel

/-- States and operands that meet the premises of each clause of LoneAccessesAreDefined. -/
theorem test_meets_LoneAccessesAreDefined :
      (let k : Nat := 0
       let e : Nat := 0
       let t : Word := 1
       let c : EngCmd := { ec (dw [1]) with started := true, ended := some (.done, 0), writes := [(0x1000, 16)] }
       let d : Dev := sr 0x1000 (dw [1, 2, 3]) (eng 0 c up)
       (∀ f < 3, ∀ x ∈ running k f d, f = e ∧ x.ticket = t))
    ∧ (let k : Nat := 0
       let d : Dev := sr 0x1000 (dw [1, 2, 3]) (kern 0 0 up)
       (∀ f < 3, running k f d = []) ∧ inFlight d = [])
    ∧ (let k : Nat := 0
       let a : Nat := 0x1000
       let c : EngCmd := { ec (dw [1]) with started := true, ended := some (.done, 0), writes := [(0x1000, 16)] }
       let bs : List Byte := [7, 8]
       let d : Dev := sr 0x1000 (dw [1, 2, 3]) (eng 0 c up)
       let i := 3
       running k 0 d = [c] ∧ running k 1 d = [] ∧ running k 2 d = [] ∧ inFlight d = [] ∧ a % 16 = 0 ∧ c.inputs = [] ∧
           c.writes = [(a, 16)] ∧ 0 < bs.length ∧ bs.length ≤ 16 ∧ Mem.wf d.sram = true ∧ i < 16)
    ∧ (let k : Nat := 0
       let outs : List (Nat × Nat) := [(0x2000, 64)]
       let d : Dev := up
       let l : List KeptWord := [⟨0x1000, zeros 16, false⟩]
       let now : Dev := up
       let w := ⟨0x1000, zeros 16, false⟩
       w ∈ (oldOrNew k outs l now d).1)
    ∧ (let x : Contest := ⟨0x1000, some (zeros 16), [(3, 1)]⟩
       let m := zeros 16
       x.data = some m) := by
  decide +kernel

/-- States and operands that meet the premises of clauses of VectorElementsFollowTheTable, part 1. -/
theorem test_meets_VectorElementsFollowTheTable_1 :
      (let v : VecDesc := vecDesc (vd 1)
       let j : Nat := 3
       j < v.len ∧ isMx v.a.code = false ∧ v.scalar = false ∧ v.a.n = v.len ∧ v.b.n = v.len ∧ v.c.n = v.len ∧ v.op = 1)
    ∧ (let v : VecDesc := vecDesc (vd 2)
       let j : Nat := 3
       j < v.len ∧ isMx v.a.code = false ∧ v.scalar = false ∧ v.a.n = v.len ∧ v.b.n = v.len ∧ v.c.n = v.len ∧ v.op = 2)
    ∧ (let v : VecDesc := vecDesc (vd 3)
       let j : Nat := 3
       j < v.len ∧ isMx v.a.code = false ∧ v.scalar = false ∧ v.a.n = v.len ∧ v.b.n = v.len ∧ v.c.n = v.len ∧ v.op = 3)
    ∧ (let v : VecDesc := vecDesc (vd 4)
       let j : Nat := 3
       j < v.len ∧ isMx v.a.code = false ∧ v.scalar = false ∧ v.a.n = v.len ∧ v.b.n = v.len ∧ v.c.n = v.len ∧ v.op = 4) := by
  decide +kernel

/-- States and operands that meet the premises of clauses of VectorElementsFollowTheTable, part 2. -/
theorem test_meets_VectorElementsFollowTheTable_2 :
      (let v : VecDesc := vecDesc (vd 5)
       let j : Nat := 3
       j < v.len ∧ isMx v.a.code = false ∧ v.scalar = false ∧ v.a.n = v.len ∧ v.b.n = v.len ∧ v.c.n = v.len ∧ v.op = 5)
    ∧ (let v : VecDesc := vecDesc (vd 6)
       let j : Nat := 3
       j < v.len ∧ isMx v.a.code = false ∧ v.scalar = false ∧ v.a.n = v.len ∧ v.b.n = v.len ∧ v.c.n = v.len ∧ v.op = 6)
    ∧ (let v : VecDesc := vecDesc (vd 7)
       let j : Nat := 3
       j < v.len ∧ isMx v.a.code = false ∧ v.scalar = false ∧ v.a.n = v.len ∧ v.b.n = v.len ∧ v.c.n = v.len ∧ v.op = 7) := by
  decide +kernel

/-- States and operands that meet the premises of clauses of MessagesStart, part 1. -/
theorem test_meets_MessagesStart_1 :
      (let k : Nat := 0
       let c : EngCmd := ec (md 0x30 0 511 1)
       let s : State := st (eng 2 c up)
       let d := s.dev
       let m := msgDesc c.desc
       s.on ∧ k < 2560 ∧ nextCmd (coreOf k s.dev) 2 = some c ∧ inState (pCore k) [.ready, .active, .loading] s.dev = true ∧
           (m.fence = false ∨ (engineOf (coreOf k d) 2).cmds.any (fun x => x.started && !x.completed) = false) ∧ m.length ≤
           65536 ∧ m.get = false ∧ m.target = 3 ∧ m.length = 0 ∧ m.remote ≤ 511)
    ∧ (let k : Nat := 0
       let c : EngCmd := ec (md 0x000 65536 0x1E0000 0)
       let s : State := st (eng 2 c up)
       let d := s.dev
       let m := msgDesc c.desc
       s.on ∧ k < 2560 ∧ nextCmd (coreOf k s.dev) 2 = some c ∧ inState (pCore k) [.ready, .active, .loading] s.dev = true ∧
           (m.fence = false ∨ (engineOf (coreOf k d) 2).cmds.any (fun x => x.started && !x.completed) = false) ∧ m.length ≤
           65536 ∧ inSram c.user m.localAddr m.length = true ∧ m.get = false ∧ m.target = 0 ∧ m.y ≤ 39 ∧ m.remote + m.length
           ≤ kernelWindow ∧ coreSendable (coreAt m.x m.y) d = true) := by
  decide +kernel

/-- States and operands that meet the premises of clauses of MessagesStart, part 2. -/
theorem test_meets_MessagesStart_2 :
      (let k : Nat := 0
       let c : EngCmd := ec (md 0x001 65536 0x1E0000 0)
       let s : State := st (eng 2 c up)
       let d := s.dev
       let m := msgDesc c.desc
       s.on ∧ k < 2560 ∧ nextCmd (coreOf k s.dev) 2 = some c ∧ inState (pCore k) [.ready, .active, .loading] s.dev = true ∧
           (m.fence = false ∨ (engineOf (coreOf k d) 2).cmds.any (fun x => x.started && !x.completed) = false) ∧ m.length ≤
           65536 ∧ inSram c.user m.localAddr m.length = true ∧ m.get = true ∧ m.target = 0 ∧ m.y ≤ 39 ∧ m.remote + m.length
           ≤ kernelWindow ∧ m.length ≠ 0 ∧ coreSendable (coreAt m.x m.y) d = true)
    ∧ (let k : Nat := 0
       let c : EngCmd := ec (md 0x20 32 0 23)
       let s : State := st (eng 2 c up)
       let d := s.dev
       let m := msgDesc c.desc
       s.on ∧ k < 2560 ∧ nextCmd (coreOf k s.dev) 2 = some c ∧ inState (pCore k) [.ready, .active, .loading] s.dev = true ∧
           (m.fence = false ∨ (engineOf (coreOf k d) 2).cmds.any (fun x => x.started && !x.completed) = false) ∧ m.length ≤
           65536 ∧ inSram c.user m.localAddr m.length = true ∧ m.get = false ∧ m.target = 2 ∧ m.x ≤ 23) := by
  decide +kernel

/-- States and operands that meet the premises of clauses of MessagesStart, part 3. -/
theorem test_meets_MessagesStart_3 :
      (let k : Nat := 0
       let c : EngCmd := ec (md 0x40 1024 0 0x00010000)
       let s : State := st (ust (uRouter 0) .ready (ust (uRouter 1) .ready (eng 2 c up)))
       let d := s.dev
       let m := msgDesc c.desc
       s.on ∧ k < 2560 ∧ nextCmd (coreOf k s.dev) 2 = some c ∧ inState (pCore k) [.ready, .active, .loading] s.dev = true ∧
           (m.fence = false ∨ (engineOf (coreOf k d) 2).cmds.any (fun x => x.started && !x.completed) = false) ∧ m.length ≤
           65536 ∧ inSram c.user m.localAddr m.length = true ∧ m.get = false ∧ m.target = 4 ∧ m.x ≤ m.x2 ∧ m.y ≤ 39 ∧
           m.remote + m.length ≤ kernelWindow ∧ (∀ x < m.x2 + 1, m.x ≤ x → usable (uRouter (coreAt x m.y)) d = true))
    ∧ (let k : Nat := 0
       let c : EngCmd := ec (md 0x50 1024 0 0x27002700)
       let s : State := st (ust (uRouter 2496) .ready (eng 2 c up))
       let d := s.dev
       let m := msgDesc c.desc
       s.on ∧ k < 2560 ∧ nextCmd (coreOf k s.dev) 2 = some c ∧ inState (pCore k) [.ready, .active, .loading] s.dev = true ∧
           (m.fence = false ∨ (engineOf (coreOf k d) 2).cmds.any (fun x => x.started && !x.completed) = false) ∧ m.length ≤
           65536 ∧ inSram c.user m.localAddr m.length = true ∧ m.get = false ∧ m.target = 5 ∧ m.y ≤ m.y2 ∧ m.y2 ≤ 39 ∧
           m.remote + m.length ≤ kernelWindow ∧ (∀ y < m.y2 + 1, m.y ≤ y → usable (uRouter (coreAt m.x y)) d = true)) := by
  decide +kernel

/-- States and operands that meet the premises of clauses of CorePacketsArrive, part 1. -/
theorem test_meets_CorePacketsArrive_1 :
      (let n : Nat := 0
       let p : Packet := { pk with kind := .put, msgId := 255, address := 0x40, payload := dw [7], flagEn := true, flag := 63, amount := 5 }
       let s : State := st { way (kern 0 0 up) with packets := [p] }
       s.on ∧ s.dev.packets[n]? = some p ∧ resetActs .core s.dev = false ∧ reaches p s.dev = true ∧ p.kind = .put)
    ∧ (let w_c := { ec (md 1 64 0 0) with started := true, msgId := 3, awaited := 64 }
       let n : Nat := 0
       let p : Packet := { pk with kind := .getData, msgId := 3, payload := dw [7], returnAddr := 0x100 }
       let s : State := st { way (eng 2 w_c up) with packets := [p] }
       s.on ∧ s.dev.packets[n]? = some p ∧ resetActs .core s.dev = false ∧ reaches p s.dev = true ∧ p.kind = .getData ∧
           toDma p = false)
    ∧ (let n : Nat := 0
       let p : Packet := { pk with kind := .put, msgId := 255, address := 0x40, payload := dw [7], flagEn := true, flag := 63, amount := 5 }
       let s : State := st { way (kern 0 0 up) with packets := [p] }
       let d := s.dev
       let t := coreAt p.dx p.dy
       s.on ∧ s.dev.packets[n]? = some p ∧ resetActs .core s.dev = false ∧ reaches p s.dev = true ∧ p.kind = .put ∧ toCore p
           = true ∧ (coreOf t d).arrivals = [] ∧ p.index = 0 ∧ p.last = 0 ∧ coreTakes t d = true ∧ ctxOpen p.ctx d = true ∧
           p.poison = [] ∧ racedOf (senderOf p) p.msgId d = [] ∧ (∀ f < 3, running t f d = [])) := by
  decide +kernel

/-- States and operands that meet the premises of clauses of CorePacketsArrive, part 2. -/
theorem test_meets_CorePacketsArrive_2 :
      (let n : Nat := 0
       let p : Packet := { pk with kind := .getReq, msgId := 255, address := 0x2000, amount := 1024 }
       let s : State := st { sr 0x2000 (dw [1, 2, 3]) (way (kern 0 0 up)) with packets := [p] }
       s.on ∧ s.dev.packets[n]? = some p ∧ resetActs .core s.dev = false ∧ reaches p s.dev = true ∧ p.kind = .getReq ∧
           toCore p = true)
    ∧ (let n : Nat := 0
       let p : Packet := { pk with kind := .getReq, msgId := 255, address := 0x2000, amount := 1024 }
       let s : State := st { sr 0x2000 (dw [1, 2, 3]) (way (kern 0 0 up)) with packets := [p] }
       let d := s.dev
       let t := coreAt p.dx p.dy
       s.on ∧ s.dev.packets[n]? = some p ∧ resetActs .core s.dev = false ∧ reaches p s.dev = true ∧ p.kind = .getReq ∧
           toCore p = true ∧ coreTakes t d = true ∧ ctxOpen p.ctx d = true)
    ∧ (let w_c := { ec (md 1 64 0 0) with started := true, msgId := 3, awaited := 64 }
       let n : Nat := 0
       let p : Packet := { pk with kind := .getData, msgId := 3, payload := dw [7], returnAddr := 0x100 }
       let s : State := st { way (eng 2 w_c up) with packets := [p] }
       let d := s.dev
       let t := coreAt p.dx p.dy
       let c := w_c
       s.on ∧ s.dev.packets[n]? = some p ∧ resetActs .core s.dev = false ∧ reaches p s.dev = true ∧ p.kind = .getData ∧
           toDma p = false ∧ findMsg (coreOf t d) p.msgId = some c ∧ p.poison = [] ∧ c.awaited = p.payload.length ∧
           c.outcomes = [] ∧ c.raced = [] ∧ (∀ f < 3, ∀ x ∈ running t f d, f = 2 ∧ x.ticket = c.ticket)) := by
  decide +kernel

/-- States and operands that meet the premises of clauses of CorePacketsArrive, part 3. -/
theorem test_meets_CorePacketsArrive_3 :
      (let w_c := { ec (md 0 64 0 0) with started := true, msgId := 3, awaited := 1 }
       let n : Nat := 0
       let p : Packet := { pk with kind := .completion, msgId := 3, result := .failed, detail := 5 }
       let s : State := st { way (eng 2 w_c up) with packets := [p] }
       let d := s.dev
       let t := coreAt p.dx p.dy
       let c := w_c
       s.on ∧ s.dev.packets[n]? = some p ∧ resetActs .core s.dev = false ∧ reaches p s.dev = true ∧ p.kind = .completion ∧
           p.die = none ∧ toDma p = false ∧ findMsg (coreOf t d) p.msgId = some c ∧ (msgDesc c.desc).get = false ∧ c.awaited
           = 1 ∧ c.outcomes = [] ∧ p.result ≠ .done)
    ∧ (let n : Nat := 0
       let p : Packet := { pk with kind := .mcPut, row := true, runLo := 0, runHi := 1, address := 0x40, payload := dw [7] }
       let s : State := st { way (pg (pCore 1) .active (kern 0 0 up)) with packets := [p] }
       s.on ∧ s.dev.packets[n]? = some p ∧ resetActs .core s.dev = false ∧ reaches p s.dev = true ∧ p.kind = .mcPut)
    ∧ (let n : Nat := 0
       let p : Packet := { pk with kind := .relayPut, row := false, runLo := 0, runHi := 0, address := 0x40, payload := dw [7] }
       let s : State := st { way (pg (pCore 64) .active (kern 0 0 up)) with packets := [p] }
       s.on ∧ s.dev.packets[n]? = some p ∧ resetActs .core s.dev = false ∧ reaches p s.dev = true ∧ p.kind = .relayPut)
    ∧ (let n : Nat := 0
       let p : Packet := { pk with kind := .mcPut, row := true, runLo := 0, runHi := 0, address := 0x40, payload := dw [7] }
       let s : State := st { way (kern 0 0 up) with packets := [p] }
       let d := s.dev
       s.on ∧ s.dev.packets[n]? = some p ∧ resetActs .core s.dev = false ∧ reaches p s.dev = true ∧ p.kind = .mcPut ∧ p.hurt
           = [] ∧ p.cutAt = [] ∧ onward p (routerAt p.dx p.dy) d = []) := by
  decide +kernel

/-- States and operands that meet the premises of clauses of CorePacketsArrive, part 4. -/
theorem test_meets_CorePacketsArrive_4 :
      (let n : Nat := 0
       let p : Packet := { pk with kind := .relayPut, row := true, runLo := 0, runHi := 0, relayEnd := 0, address := 0x40, payload := dw [7] }
       let s : State := st { way (kern 0 0 up) with packets := [p] }
       let d := s.dev
       s.on ∧ s.dev.packets[n]? = some p ∧ resetActs .core s.dev = false ∧ reaches p s.dev = true ∧ p.kind = .relayPut ∧
           p.hurt = [] ∧ p.cutAt = [] ∧ onward p (routerAt p.dx p.dy) d = []) := by
  decide +kernel

/-- States and operands that meet the premises of clauses of EdgePacketsArrive, part 1. -/
theorem test_meets_EdgePacketsArrive_1 :
      (let n : Nat := 0
       let c : Nat := 0
       let p : Packet := { pk with kind := .putMem, address := 0x40, payload := dw [7] }
       let s : State := st { way (mm (pg (pMem 0) .ready (ust (uChannel 0) .ready up))) with packets := [p] }
       let d := s.dev
       s.on ∧ s.dev.packets[n]? = some p ∧ reaches p s.dev = true ∧ p.kind = .putMem ∧ controllerAt p.address d = some c ∧
           holdFull c d = false ∧ rangeHeld p.address (memSpan p) true d = false)
    ∧ (let n : Nat := 0
       let c : Nat := 0
       let p : Packet := { pk with kind := .putMem, address := 0x40, payload := dw [7] }
       let s : State := st { way (mm (pg (pMem 0) .ready (ust (uChannel 0) .ready up))) with packets := [p] }
       let d := s.dev
       s.on ∧ s.dev.packets[n]? = some p ∧ reaches p s.dev = true ∧ p.kind = .putMem ∧ controllerAt p.address d = some c ∧
           holdFull c d = false ∧ rangeHeld p.address (memSpan p) true d = false ∧ racedOf (senderOf p) p.msgId d = [] ∧
           noPlans d = true)
    ∧ (let n : Nat := 0
       let c : Nat := 0
       let p : Packet := { pk with kind := .putMem, address := 0x40, payload := dw [7] }
       let s : State := st { way (mm (pg (pMem 0) .quiesced (ust (uChannel 0) .training up))) with packets := [p] }
       let d := s.dev
       s.on ∧ s.dev.packets[n]? = some p ∧ reaches p s.dev = true ∧ p.kind = .putMem ∧ controllerAt p.address d = some c ∧
           holdFull c d = false ∧ rangeHeld p.address (memSpan p) true d = true)
    ∧ (let n : Nat := 0
       let c : Nat := 0
       let p : Packet := { pk with kind := .putMem, address := 0x40, payload := dw [7] }
       let s : State := st ((fun d => putMemCtl 0 { memCtl 0 d with held := List.replicate 256 { pk with address := 0x40 } } d) { way (mm (pg (pMem 0) .quiesced (ust (uChannel 0) .training up))) with packets := [p] })
       let d := s.dev
       s.on ∧ s.dev.packets[n]? = some p ∧ reaches p s.dev = true ∧ p.kind = .putMem ∧ controllerAt p.address d = some c ∧
           holdFull c d = true) := by
  decide +kernel

/-- States and operands that meet the premises of clauses of EdgePacketsArrive, part 2. -/
theorem test_meets_EdgePacketsArrive_2 :
      (let n : Nat := 0
       let c : Nat := 0
       let p : Packet := { pk with kind := .getReq, dx := 0x7F, address := 0x40, amount := 64 }
       let s : State := st { memWrite 0x40 (dw [9]) [] (edge 0x7F 0 <| way (mm (pg (pMem 0) .ready (ust (uChannel 0) .ready up)))) with packets := [p] }
       let d := s.dev
       s.on ∧ s.dev.packets[n]? = some p ∧ reaches p s.dev = true ∧ p.kind = .getReq ∧ toCore p = false ∧ controllerAt
           p.address d = some c ∧ holdFull c d = false ∧ rangeHeld p.address (memSpan p) false d = false ∧ memClean d)
    ∧ (let n : Nat := 0
       let p : Packet := { pk with kind := .counterAdd, dx := 0x7F, address := 511, amount := 3 }
       let s : State := st { edge 0x7F 0 <| way (pg (pCounters 0) .ready up) with packets := [p] }
       let d := s.dev
       s.on ∧ s.dev.packets[n]? = some p ∧ reaches p s.dev = true ∧ p.kind = .counterAdd ∧ inState (pCounters (if p.dx =
           0x7F then 0 else 1)) [.off, .retired] d = false)
    ∧ (let w_x := (controllerPort 0 0).1
       let w_y := (controllerPort 0 0).2
       let n : Nat := 0
       let c : Nat := 0
       let p : Packet := { pk with kind := .updatePut, sx := gridX w_x, sy := gridY w_y, dx := w_x, dy := w_y, place := 0, payload := dw [0xF00001, 77] }
       let s : State := st { edge w_x w_y (plan [(5, .armed, 0)] up) with packets := [p] }
       let d := s.dev
       s.on ∧ s.dev.packets[n]? = some p ∧ reaches p s.dev = true ∧ p.kind = .updatePut ∧ controllerOf p.dx p.dy = c ∧
           holdFull c d = false ∧ inState (pUpd c) [.off, .retired] d = false ∧ p.poison = [] ∧ racedOf (senderOf p) p.msgId
           d = [])
    ∧ (let n : Nat := 0
       let c : Nat := 23
       let p : Packet := { pk with kind := .putMem, address := 0x40, payload := dw [7] }
       let s : State := st { way up with packets := [p] }
       s.on ∧ s.dev.packets[n]? = some p ∧ reaches p s.dev = true ∧ c < 24) := by
  decide +kernel

/-- States and operands that meet the premises of clauses of MeshErrorsComplete, part 1. -/
theorem test_meets_MeshErrorsComplete_1 :
      (let k : Nat := 0
       let p : Packet := { pk with kind := .relayPut, wp := some (63, 0x7F), ctx := 7, msgId := 255, index := 127, last := 100, runHi := 63, relayEnd := 39, flag := 63, flagEn := true, result := .failed, detail := 15, address := 2 ^ 64 - 1, amount := 2 ^ 32 - 1, returnAddr := 2 ^ 21 - 1, payload := zeros 512 }
       let s : State := st { way up with packets := [p] }
       s.on ∧ k < 2560 ∧ headerFits p = true)
    ∧ (let w_p := { pk with kind := .put, payload := dw [7], trail := [⟨0, .east, .a0, 1⟩, ⟨1, .localPort, .a0, 5⟩] }
       let w_s := st { way up with packets := [w_p] }
       let k : Nat := 0
       let n : Nat := 0
       let port : MeshPort := .east
       let h : FlitHop := (bodyHop 0 .east w_p w_s.dev).getD ⟨w_p, 0, false⟩
       let p : Packet := w_p
       let s : State := w_s
       let d := s.dev
       s.on ∧ k < 2560 ∧ d.packets[n]? = some p ∧ usable (uRouter k) d = true ∧ linkUsable k port d = true ∧ bodyHop k port
           p d = some h)
    ∧ (let w_p := { pk with kind := .put, payload := dw [7], trail := [⟨1, .localPort, .a0, 3⟩] }
       let w_s := st { way up with packets := [w_p] }
       let k : Nat := 0
       let n : Nat := 0
       let port : MeshPort := .east
       let h : FlitHop := (headHop 0 .east w_p w_s.dev).getD ⟨w_p, 0, false⟩
       let p : Packet := w_p
       let s : State := w_s
       let d := s.dev
       s.on ∧ k < 2560 ∧ d.packets[n]? = some p ∧ usable (uRouter k) d = true ∧ linkUsable k port d = true ∧ bodyHop k port
           p d = none ∧ headHop k port p d = some h)
    ∧ (let k : Nat := 0
       let n : Nat := 0
       let port : MeshPort := .east
       let p : Packet := { pk with kind := .put, payload := dw [7] }
       let s : State := st { way up with packets := [p] }
       let d := s.dev
       s.on ∧ k < 2560 ∧ d.packets[n]? = some p ∧ bodyHop k port p d = none ∧ headHop k port p d = none)
    ∧ (let k : Nat := 0
       let h : FlitHop := ⟨{ pk with kind := .put, payload := dw [7], trail := [⟨0, .east, .a0, 1⟩, ⟨1, .localPort, .a0, 5⟩] }, 1, false⟩
       let p : Packet := { pk with kind := .put, payload := dw [7] }
       let s : State := st { way up with packets := [p] }
       s.on ∧ k < 2560 ∧ h.flit ≠ 0)
    ∧ (let k : Nat := 0
       let h : FlitHop := ⟨{ pk with kind := .put, payload := dw [7], trail := [⟨0, .east, .a0, 1⟩, ⟨1, .localPort, .a0, 5⟩] }, 1, false⟩
       let p : Packet := { pk with kind := .put, payload := dw [7] }
       let s : State := st { way up with packets := [p] }
       let b := 143
       s.on ∧ k < 2560 ∧ b < 144 ∧ h.flit ≠ 0 ∧ h.packet.poison = []) := by
  decide +kernel

/-- States and operands that meet the premises of clauses of MeshErrorsComplete, part 2. -/
theorem test_meets_MeshErrorsComplete_2 :
      (let k : Nat := 0
       let h : FlitHop := ⟨{ pk with kind := .put, payload := dw [7], trail := [⟨0, .east, .a0, 1⟩, ⟨1, .localPort, .a0, 5⟩] }, 1, false⟩
       let once : FlitNoise := ⟨3, 0⟩
       let p : Packet := { pk with kind := .put, payload := dw [7] }
       let s : State := st { way up with packets := [p] }
       s.on ∧ k < 2560 ∧ h.flit ≠ 0 ∧ h.packet.poison = [] ∧ judgeWord false once.word0 = .uncorrectable ∧ once.word1 = 0)
    ∧ (let k : Nat := 0
       let i : Nat := 0
       let h : FlitHop := ⟨{ pk with kind := .put, payload := dw [7], trail := [⟨0, .east, .a0, 1⟩, ⟨1, .localPort, .a0, 5⟩] }, 1, false⟩
       let once : FlitNoise := ⟨3, 0⟩
       let p : Packet := { pk with kind := .put, payload := dw [7] }
       let s : State := st { way up with packets := [p] }
       s.on ∧ k < 2560 ∧ h.flit ≠ 0 ∧ h.branch = false ∧ i = 2 * h.flit - 2 ∧ i < payWords h.packet ∧ h.packet.poison = [] ∧
           judgeWord false once.word0 = .uncorrectable ∧ once.word1 = 0)
    ∧ (let k : Nat := 0
       let u : Nat := linkCode 1 0
       let port : MeshPort := .east
       let h : FlitHop := ⟨{ pk with kind := .put, payload := dw [7], trail := [⟨0, .east, .a0, 0⟩, ⟨1, .localPort, .a0, 5⟩] }, 0, false⟩
       let once : FlitNoise := ⟨3, 0⟩
       let p : Packet := { pk with kind := .put, payload := dw [7] }
       let s : State := st { way up with packets := [p] }
       s.on ∧ k < 2560 ∧ h.flit = 0 ∧ h.branch = false ∧ judgeWord false once.word0 = .uncorrectable ∧ once.word1 = 0 ∧
           linkOfPort k port = some u)
    ∧ (let k : Nat := 0
       let s : State := st { modCore 0 (fun x => { x with arrivals := [⟨1, 9, 0, 0, 1, [0], false, 0, 0, true, 0, 0, .done, 0, [], false, []⟩] }) (kern 0 0 up) with meshLosses := [(1, 0)] }
       let d := s.dev
       s.on ∧ k < 2560 ∧ coreTakes k d = true ∧ (coreOf k d).arrivals ≠ [] ∧ (∀ a ∈ (coreOf k d).arrivals, staleArrival d a
           = true)) := by
  decide +kernel

/-- States and operands that meet the premises of clauses of MeshErrorsComplete, part 3. -/
theorem test_meets_MeshErrorsComplete_3 :
      (let k : Nat := 0
       let s : State := st { eng 2 { ec (md 0 64 0 0) with started := true, msgId := 3, awaited := 1 } up with meshLosses := [(1, 0)] }
       let d := s.dev
       let c := { ec (md 0 64 0 0) with started := true, msgId := 3, awaited := 1 }
       s.on ∧ k < 2560 ∧ c ∈ (engineOf (coreOf k d) 2).cmds ∧ staleMessage d c = true) := by
  decide +kernel

/-- States and operands that meet the premises of each clause of MapFixedCompletes. -/
theorem test_meets_MapFixedCompletes :
      (let s : State := st (ust (uChannel 0) .ready ((List.range 24).foldl (fun d c => pg (pMem c) .training d) up))
       s.on ∧ bringsUp s.dev = true ∧ s.dev.memMap = none ∧ (∀ c < 24, trained c s.dev = true)) := by
  decide +kernel

/-- States and operands that meet the premises of each clause of ScrubsComplete. -/
theorem test_meets_ScrubsComplete :
      (let c : Nat := 23
       let s : State := st (putMemCtl 23 { freshMemCtl with scrubbing := true } (pg (pMem 23) .ready up))
       let d := s.dev
       let m := memCtl c d
       s.on ∧ passRuns c d = true ∧ memClean d ∧ m.position + 1 < channelGroups)
    ∧ (let c : Nat := 23
       let s : State := st (putMemCtl 23 { freshMemCtl with scrubbing := true, position := 15624999 } (pg (pMem 23) .ready up))
       let d := s.dev
       let m := memCtl c d
       s.on ∧ passRuns c d = true ∧ memClean d ∧ m.position + 1 = channelGroups ∧ m.fast = false)
    ∧ (let c : Nat := 23
       let s : State := st (pg (pMem 23) .active up)
       let d := s.dev
       s.on ∧ mayCommand (pMem c) d = true ∧ inState (pMem c) [.ready, .active] d = true) := by
  decide +kernel

/-- States and operands that meet the premises of each clause of ChannelCommandsComplete. -/
theorem test_meets_ChannelCommandsComplete :
      (let c : Nat := 23
       let j : Nat := 15
       let s : State := st (ust (uChannel 383) .ready (pg (pMem 23) .quiesced up))
       let d := s.dev
       let n := 16 * c + j
       s.on ∧ s.dev.unrun = [] ∧ devicesAwake c d = true ∧ j < 16 ∧ (unitRec (uChannel n) d).state = .ready)
    ∧ (let c : Nat := 23
       let s : State := st (ust (uChannel 383) .ready (pg (pMem 23) .quiesced up))
       let d := s.dev
       s.on ∧ s.dev.unrun = [] ∧ devicesAwake c d = true)
    ∧ (let c : Nat := 23
       let j : Nat := 15
       let s : State := st (putMemCtl 23 { freshMemCtl with wanted := [15] } (ust (uChannel 383) .ready (pg (pMem 23) .quiesced up)))
       let d := s.dev
       s.on ∧ s.dev.unrun = [] ∧ mayRetrain c j d = true)
    ∧ (let c : Nat := 23
       let j : Nat := 15
       let s : State := st (putMemCtl 23 { freshMemCtl with retraining := some 15 } (ust (uChannel 383) .training (pg (pMem 23) .active up)))
       let d := s.dev
       let m := memCtl c d
       let n := 16 * c + j
       s.on ∧ s.dev.unrun = [] ∧ c < 24 ∧ trainingChannels c d = [n] ∧ m.selfRefresh = false ∧ inState (pMem c) [.ready,
           .active] d = true ∧ (pageOf (pMem c) d).cmd = none ∧ m.held = []) := by
  decide +kernel

/-- States and operands that meet the premises of each clause of MemoryControlsComplete. -/
theorem test_meets_MemoryControlsComplete :
      (let c : Nat := 0
       let v : Word := 0x8000008F
       let s : State := st (mm (ust (uChannel 0) .ready (pg (pMem 0) .ready up)))
       let d := s.dev
       let g := pageOf (pMem c) d
       s.on ∧ pageSilent (pMem c) d = false ∧ g.negotiated = true ∧ v.getLsbD 31 = true ∧ injectOk c v.toNat d = true)
    ∧ (let c : Nat := 0
       let v : Word := 0x80000090
       let s : State := st (mm (ust (uChannel 0) .ready (pg (pMem 0) .ready up)))
       let d := s.dev
       let g := pageOf (pMem c) d
       s.on ∧ pageSilent (pMem c) d = false ∧ g.negotiated = true ∧ v.getLsbD 31 = true ∧ injectOk c v.toNat d = false)
    ∧ (let s : State := st (mm (ust (uChannel 0) .ready (pg (pMem 0) .ready up)))
       let d := s.dev
       s.on ∧ pageSilent (pMem 0) d = false ∧ (pageOf (pMem 0) d).negotiated = true)
    ∧ (let c : Nat := 0
       let s : State := st (mp (pMem 0) (fun g => { g with holds := [.coolant], before := .ready }) (pg (pMem 0) .quiesced up))
       let d := s.dev
       let g := pageOf (pMem c) d
       s.on ∧ c < 24 ∧ (g.holds.contains .coolant = true ∨ g.holds.contains .powerOff = true) ∧ g.state = .quiesced ∧
           (memCtl c d).selfRefresh = false)
    ∧ (let c : Nat := 0
       let s : State := st (mp (pMem 0) (fun g => { g with holds := [.coolant], before := .ready }) (pg (pMem 0) .quiesced up))
       let d := s.dev
       let g := pageOf (pMem c) d
       s.on ∧ c < 24 ∧ (g.holds.contains .coolant = true ∨ g.holds.contains .powerOff = true) ∧ g.state = .quiesced ∧
           (memCtl c d).selfRefresh = false ∧ d.mgmt.powerOff = false) := by
  decide +kernel

/-- States and operands that meet the premises of clauses of PlanCommandsComplete, part 1. -/
theorem test_meets_PlanCommandsComplete_1 :
      (let c : Nat := 0
       let arg : Nat := 15
       let s : State := st (rg [(rPlan 0 15 4, 16), (rPlan 0 15 8, 1), (rPlan 0 15 0x40, 1)] (modEng 0 (fun g => { g with plans := [] }) (plan [] up)))
       let d := s.dev
       let q := pUpd c
       let n := arg % 16
       let g := pageOf q d
       s.on ∧ c < 24 ∧ mayCommand q d = true ∧ (g.state = .ready ∨ g.state = .active) ∧ planOf c n d = none ∧ ctxOpen
           (readPlan c n d).context d = true ∧ planInRange c n (readPlan c n d) d = true)
    ∧ (let c : Nat := 0
       let arg : Nat := 15
       let p : Plan := pl
       let s : State := st (plan [(5, .applied, 3)] up)
       let d := s.dev
       let q := pUpd c
       let n := arg % 16
       s.on ∧ c < 24 ∧ mayCommand q d = true ∧ inState q [.ready, .active, .quiesced] d = true ∧ planOf c n d = some p ∧
           (engOf c d).running = none)
    ∧ (let c : Nat := 0
       let arg : Nat := 15
       let p : Plan := pl
       let s : State := st (rg [(rUpd 0 0 0x4C, 2)] (plan [(5, .applied, 3)] up))
       let d := s.dev
       let q := pUpd c
       let n := arg % 16
       s.on ∧ c < 24 ∧ mayCommand q d = true ∧ inState q [.active, .quiesced] d = true ∧ planOf c n d = some p ∧ bitOf arg 4
           = false ∧ armFirst c d + armCount c d ≤ p.chunks ∧ (∀ k ∈ armRange c d, (chunkAt c p k d).1 ∈ [.idle, .applied,
           .skipped]))
    ∧ (let c : Nat := 0
       let arg : Nat := 15
       let p : Plan := pl
       let s : State := st (rg [(rUpd 0 0 0x4C, 2)] (plan [(5, .pending, 3)] up))
       let d := s.dev
       let q := pUpd c
       let n := arg % 16
       s.on ∧ c < 24 ∧ mayCommand q d = true ∧ inState q [.active, .quiesced] d = true ∧ planOf c n d = some p ∧ armFirst c
           d + armCount c d ≤ p.chunks ∧ (engOf c d).running = none) := by
  decide +kernel

/-- States and operands that meet the premises of clauses of PlanCommandsComplete, part 2. -/
theorem test_meets_PlanCommandsComplete_2 :
      (let c : Nat := 0
       let arg : Nat := 15
       let p : Plan := pl
       let s : State := st (rg [(rUpd 0 0 0x48, 1)] (plan [(5, .armed, 3)] up))
       let d := s.dev
       let q := pUpd c
       let n := arg % 16
       s.on ∧ c < 24 ∧ mayCommand q d = true ∧ inState q [.active, .quiesced] d = true ∧ planOf c n d = some p ∧ armFirst c
           d % 2 ^ 18 < p.chunks ∧ (chunkAt c p (armFirst c d % 2 ^ 18) d).1 = .armed)
    ∧ (let c : Nat := 0
       let arg : Nat := 15
       let p : Plan := pl
       let s : State := st (rg [(rUpd 0 0 0x48, 1)] (plan [(5, .applied, 3)] up))
       let d := s.dev
       let q := pUpd c
       let n := arg % 16
       s.on ∧ c < 24 ∧ mayCommand q d = true ∧ inState q [.active, .quiesced] d = true ∧ planOf c n d = some p ∧ armFirst c
           d % 2 ^ 18 < p.chunks ∧ (chunkAt c p (armFirst c d % 2 ^ 18) d).1 = .applied)
    ∧ (let c : Nat := 0
       let s : State := st (plan [] up)
       let d := s.dev
       let q := pUpd c
       let g := pageOf q d
       s.on ∧ c < 24 ∧ pageSilent q d = false ∧ g.negotiated = true) := by
  decide +kernel

/-- States and operands that meet the premises of clauses of ChunkRunsComplete, part 1. -/
theorem test_meets_ChunkRunsComplete_1 :
      (let c : Nat := 0
       let n : Nat := 15
       let k : Nat := 0
       let p : Plan := pl
       let m : MemMap := ⟨0, [0]⟩
       let s : State := st (plan [(4, .pending, 3)] up)
       let d := s.dev
       s.on ∧ s.dev.memMap = some m ∧ (engOf c d).running = none ∧ nextServed c d = some (n, k) ∧ planOf c n d = some p ∧
           engineHeld c d = false ∧ stateOf (pUpd c) d = .active ∧ inProgress (pUpd c) 1 d = false ∧ shareOf c p k m ≠ [])
    ∧ (let c : Nat := 0
       let n : Nat := 15
       let k : Nat := 1
       let p : Plan := pl
       let m : MemMap := ⟨0, [0]⟩
       let s : State := st (plan [(5, .pending, 3)] up)
       let d := s.dev
       let alone := endChunk c n p k .applied none (clearRun c (modEng c (fun g => { g with lastPlan := n }) d))
       s.on ∧ s.dev.memMap = some m ∧ (engOf c d).running = none ∧ nextServed c d = some (n, k) ∧ planOf c n d = some p ∧
           engineHeld c d = false ∧ stateOf (pUpd c) d = .active ∧ inProgress (pUpd c) 1 d = false ∧ shareOf c p k m = [] ∧
           nextServed c alone = none ∧ (engOf c alone).running = none)
    ∧ (let c : Nat := 0
       let m : MemMap := ⟨0, [0]⟩
       let r : ChunkRun := ⟨15, 1, pl, [], 0, 0, some 64, false, true, []⟩
       let s : State := st (modEng 0 (fun g => { g with running := some r }) (plan [(5, .running, 3)] up))
       let d := s.dev
       let a := 64
       s.on ∧ s.dev.memMap = some m ∧ (engOf c d).running = some r ∧ r.checked = true ∧ runHeld c d = false ∧ inState (pUpd
           c) [.ready, .active, .quiesced] d = true ∧ r.disabled = false ∧ r.marked = some a) := by
  decide +kernel

/-- States and operands that meet the premises of clauses of ChunkRunsComplete, part 2. -/
theorem test_meets_ChunkRunsComplete_2 :
      (let c : Nat := 0
       let m : MemMap := ⟨0, [0]⟩
       let r : ChunkRun := ⟨15, 1, pl, [], 0, 0, none, false, true, []⟩
       let s : State := st (modEng 0 (fun g => { g with running := some r }) (plan [(5, .running, 3)] up))
       let d := s.dev
       let share := shareOf c r.copy r.chunk m
       let done := applyPart c r m share d
       s.on ∧ s.dev.memMap = some m ∧ (engOf c d).running = some r ∧ r.checked = true ∧ runHeld c d = false ∧ inState (pUpd
           c) [.ready, .active, .quiesced] d = true ∧ r.disabled = false ∧ r.marked = none ∧ done.2 = none)
    ∧ (let c : Nat := 0
       let m : MemMap := ⟨0, [0]⟩
       let r : ChunkRun := ⟨15, 0, { pl with program := [0x04004000], streams := [⟨0, 1, 0⟩, ⟨0, 3, 4096⟩], length := 4 }, [], 0, 0, none, false, true, []⟩
       let s : State := st { modEng 0 (fun g => { g with running := some r }) (plan [(4, .running, 3)] up) with memPoison := [64] }
       let d := s.dev
       let share := shareOf c r.copy r.chunk m
       let done := applyPart c r m share d
       let a := 4096
       s.on ∧ s.dev.memMap = some m ∧ (engOf c d).running = some r ∧ r.checked = true ∧ runHeld c d = false ∧ inState (pUpd
           c) [.ready, .active, .quiesced] d = true ∧ r.disabled = false ∧ r.marked = none ∧ done.2 = some a)
    ∧ (let c : Nat := 0
       let m : MemMap := ⟨0, [0]⟩
       let r : ChunkRun := ⟨15, 0, { pl with length := 4 }, [], 0, 0, none, false, true, []⟩
       let s : State := st (pg (pMem 0) .quiesced (modEng 0 (fun g => { g with running := some r }) (plan [(4, .running, 3)] up)))
       let d := s.dev
       s.on ∧ s.dev.memMap = some m ∧ (engOf c d).running = some r ∧ r.checked = true ∧ runHeld c d = true) := by
  decide +kernel

/-- States and operands that meet the premises of clauses of PortLinksComplete, part 1. -/
theorem test_meets_PortLinksComplete_1 :
      (let p : Nat := 47
       let lanes : Nat := 9
       let s : State := st (mp (pPort 47) (fun g => { g with cause := .hostCommand, cmd := some ⟨6, 0⟩, back := .active }) (pg (pPort 47) .training up))
       let d := s.dev
       let g := pageOf (pPort p) d
       s.on ∧ p < 48 ∧ lanes < 16 ∧ g.state = .training ∧ g.cause = .hostCommand ∧ inProgress (pPort p) 6 d = true ∧ (g.back
           = .ready ∨ g.back = .active) ∧ g.holds = [])
    ∧ (let p : Nat := 47
       let lanes : Nat := 9
       let s : State := st (mp (pPort 47) (fun g => { g with cause := .hostCommand, cmd := some ⟨6, 0⟩, back := .active }) (pg (pPort 47) .training up))
       let d := s.dev
       let g := pageOf (pPort p) d
       s.on ∧ p < 48 ∧ lanes < 16 ∧ g.state = .training ∧ g.cause = .hostCommand ∧ inProgress (pPort p) 6 d = true)
    ∧ (let p : Nat := 47
       let lanes : Nat := 9
       let lasted : Nat := 200000
       let s : State := st (modPort 47 (fun x => { x with up := true }) (pg (pPort 47) .active up))
       let d := s.dev
       s.on ∧ p < 48 ∧ lanes < 16 ∧ linkWanted p d = true ∧ (portOf p d).up = true ∧ clampReg 10 100000 (rd (rPort p 0x58)
           d) < lasted)
    ∧ (let p : Nat := 47
       let lanes : Nat := 9
       let lasted : Nat := 10
       let s : State := st (modPort 47 (fun x => { x with up := true }) (pg (pPort 47) .active up))
       let d := s.dev
       s.on ∧ p < 48 ∧ lanes < 16 ∧ linkWanted p d = true ∧ lasted ≤ clampReg 10 100000 (rd (rPort p 0x58) d))
    ∧ (let p : Nat := 47
       let lanes : Nat := 9
       let s : State := st (pg (pPort 47) .active up)
       let d := s.dev
       s.on ∧ p < 48 ∧ lanes < 16 ∧ linkWanted p d = true ∧ (portOf p d).up = false) := by
  decide +kernel

/-- States and operands that meet the premises of clauses of PortLinksComplete, part 2. -/
theorem test_meets_PortLinksComplete_2 :
      (let p : Nat := 47
       let m : Nat := 3
       let lanes : Nat := 9
       let s : State := st (rg [(rPort 47 0x54, 3)] (pg (pPort 47) .active up))
       let d := s.dev
       s.on ∧ p < 48 ∧ lanes < 16 ∧ linkWanted p d = true ∧ m ≤ rd (rPort p 0x54) d)
    ∧ (let p : Nat := 47
       let m : Nat := 0x7FFFFFFF
       let lanes : Nat := 9
       let s : State := st (rg [(rPort 47 0x54, 3)] (pg (pPort 47) .active up))
       let d := s.dev
       s.on ∧ p < 48 ∧ lanes < 16 ∧ linkWanted p d = true ∧ rd (rPort p 0x54) d < m) := by
  decide +kernel

/-- States and operands that meet the premises of each clause of LasersComplete. -/
theorem test_meets_LasersComplete :
      (let s : State := st (ust (uOptical 0) .ready up)
       s.on)
    ∧ (let e : Nat := 5
       let s : State := st (ust (uOptical 5) .ready (putOptic 5 ⟨1, 0, 0, false, none⟩ up))
       let d := s.dev
       s.on ∧ usable (uOptical e) d = true ∧ d.net.optics.any (fun x => x.1 == e) = true)
    ∧ (let e : Nat := 5
       let s : State := st (ust (uOptical 5) .ready (putOptic 5 ⟨0, -1000000, 1000, false, some 4990000⟩ up))
       let d := s.dev
       let o := opticOf e d
       let since := 4990000
       s.on ∧ e < 6 ∧ usable (uOptical e) d = true ∧ o.lowSince = some since ∧ since + 10000 ≤ d.now ∧ laserLow e d ≤
           inputPower o (1 - o.input))
    ∧ (let p : Nat := 47
       let arg : Nat := 1
       let s : State := st (pg (pPort 47) .active (putOptic 5 ⟨0, -1000000, 1000, false, some 3⟩ up))
       let d := s.dev
       s.on ∧ mayCommand (pPort p) d = true ∧ inState (pPort p) [.ready, .active, .quiesced] d = true ∧ laserLow (p / 8) d ≤
           inputPower (opticOf (p / 8) d) (arg % 2)) := by
  decide +kernel

/-- States and operands that meet the premises of each clause of OtherFramesComplete. -/
theorem test_meets_OtherFramesComplete :
      (let p : Nat := 0
       let target : Nat := addrOf 0 0 (net up)
       let s : State := st (net up)
       let d := s.dev
       s.on ∧ carries p s.dev = true ∧ d.job.attached = true ∧ rd (rPort p 0x80) d ≠ 0 ∧ (target = addrOf p d.job.rank d ∨
           target = 0xFE80 * 2 ^ 112 + identOf d.job.rank d))
    ∧ (let p : Nat := 0
       let s : State := st { net up with job := freshJob }
       let d := s.dev
       s.on ∧ carries p s.dev = true ∧ d.job.attached = false ∧ rd (rPort p 0x80) d ≠ 0)
    ∧ (let p : Nat := 0
       let s : State := st (net up)
       s.on ∧ carries p s.dev = true)
    ∧ (let p : Nat := 0
       let s : State := st (rg [(rPort 0 0x80, 0)] (net up))
       let d := s.dev
       s.on ∧ carries p s.dev = true ∧ rd (rPort p 0x80) d = 0)
    ∧ (let p : Nat := 0
       let s : State := st (net up)
       let d := s.dev
       s.on ∧ carries p s.dev = true ∧ rd (rPort p 0x80) d ≠ 0) := by
  decide +kernel

/-- States and operands that meet the premises of clauses of PauseCompletes, part 1. -/
theorem test_meets_PauseCompletes_1 :
      (let p : Nat := 0
       let q : Nat := 65535
       let quanta : PauseQuanta := (List.range 8).map (fun i => if i == fieldOf (rd (rPort 0 0x78) (net up)) 14 12 then some 65535 else none)
       let s : State := st (net up)
       let d := s.dev
       let tag := rd (rPort p 0x78) d
       let data := fieldOf tag 14 12
       let control := fieldOf tag 18 16
       s.on ∧ p < 48 ∧ carries p d = true ∧ rd (rPort p 0x80) d ≠ 0 ∧ quantaOf quanta data = some q ∧ control ≠ data ∧ (∀ i
           < 8, i ≠ data → quantaOf quanta i = none))
    ∧ (let p : Nat := 0
       let q : Nat := 0
       let quanta : PauseQuanta := (List.range 8).map (fun i => if i == fieldOf (rd (rPort 0 0x78) (net up)) 18 16 then some 0 else none)
       let s : State := st (net up)
       let d := s.dev
       let tag := rd (rPort p 0x78) d
       let data := fieldOf tag 14 12
       let control := fieldOf tag 18 16
       s.on ∧ p < 48 ∧ carries p d = true ∧ rd (rPort p 0x80) d ≠ 0 ∧ quantaOf quanta control = some q ∧ control ≠ data ∧ (∀
           i < 8, i ≠ control → quantaOf quanta i = none))
    ∧ (let p : Nat := 0
       let q : Nat := 1
       let quanta : PauseQuanta := (List.range 8).map (fun i => if i == 3 then some 1 else none)
       let s : State := st (rg [(rPort 0 0x78, 0x33000)] (net up))
       let d := s.dev
       let tag := rd (rPort p 0x78) d
       let data := fieldOf tag 14 12
       let control := fieldOf tag 18 16
       s.on ∧ p < 48 ∧ carries p d = true ∧ rd (rPort p 0x80) d ≠ 0 ∧ quantaOf quanta data = some q ∧ control = data)
    ∧ (let p : Nat := 0
       let s : State := st (net up)
       let d := s.dev
       s.on ∧ p < 48 ∧ carries p d = true)
    ∧ (let p : Nat := 0
       let s : State := st (modPort 0 (fun x => { x with pausedCtrl := some (3, 7) }) (net up))
       let d := s.dev
       let port := portOf p d
       let t := (3, 7)
       s.on ∧ p < 48 ∧ port.pausedCtrl = some t ∧ t.2 ≤ d.now) := by
  decide +kernel

/-- States and operands that meet the premises of clauses of PauseCompletes, part 2. -/
theorem test_meets_PauseCompletes_2 :
      (let p : Nat := 0
       let s : State := st (modPort 0 (fun x => { x with pausedData := some (3, 7) }) (net up))
       let d := s.dev
       let port := portOf p d
       let t := (3, 7)
       s.on ∧ p < 48 ∧ port.pausedData = some t ∧ t.2 ≤ d.now)
    ∧ (let p : Nat := 0
       let ctrl : Bool := false
       let s : State := st (modPort 0 (fun x => { x with bufData := List.replicate 50 { plainFrame 0 sk 1 (net up) with length := 8000 } }) (net up))
       let d := s.dev
       let size := if ctrl then 65536 else 524288
       s.on ∧ p < 48 ∧ xoffOf p ctrl d = none ∧ 3 * size < 4 * levelOf p ctrl d)
    ∧ (let p : Nat := 0
       let ctrl : Bool := false
       let s : State := st (modPort 0 (fun x => { x with xoffData := some 4980000, bufData := List.replicate 50 { plainFrame 0 sk 1 (net up) with length := 8000 } }) (net up))
       let d := s.dev
       let size := if ctrl then 65536 else 524288
       let t := 4980000
       s.on ∧ p < 48 ∧ xoffOf p ctrl d = some t ∧ t + 20000 ≤ d.now ∧ size < 2 * levelOf p ctrl d)
    ∧ (let p : Nat := 0
       let ctrl : Bool := false
       let s : State := st (modPort 0 (fun x => { x with xoffData := some 4980000 }) (net up))
       let d := s.dev
       let size := if ctrl then 65536 else 524288
       let t := 4980000
       s.on ∧ p < 48 ∧ xoffOf p ctrl d = some t ∧ t + 20000 ≤ d.now ∧ 2 * levelOf p ctrl d < size)
    ∧ (let p : Nat := 0
       let s : State := st (net up)
       let d := s.dev
       s.on ∧ p < 48 ∧ carries p d = true ∧ rd (rPort p 0x80) d ≠ 0)
    ∧ (let p : Nat := 0
       let ctrl : Bool := false
       let s : State := st { modPort 0 (fun x => { x with pausedData := some (0, 9000000) }) (net up) with now := 200000000 }
       let d := s.dev
       let port := portOf p d
       let t := (0, 9000000)
       s.on ∧ p < 48 ∧ (if ctrl then port.pausedCtrl else port.pausedData) = some t ∧ t.1 + 1000000 * clampReg 1 10000 (rd
           (rPort p 0x94) d) < d.now) := by
  decide +kernel

/-- States and operands that meet the premises of each clause of FramesReachTheirHalf. -/
theorem test_meets_FramesReachTheirHalf :
      (let p : Nat := 0
       let bytes : List Byte := (frb 5 (fun f => f)).dropLast ++ [0x55]
       let r : RegId := rPort 0 0xC0
       let i : Instr := .abortPacket p bytes
       let s : State := st (net up)
       let d := s.dev
       let f := readFrame bytes
       let d1 := add64 (rPort p 0xB0) 1 d
       s.on ∧ carries p s.dev = true ∧ i ∈ [.data p bytes, .credit p bytes, .abortPacket p bytes, .ack p bytes, .nack p
           bytes] ∧ frameFails p f d1 = some r)
    ∧ (let p : Nat := 0
       let bytes : List Byte := frb 1 (fun f => { f with payload := dw [1], remoteAddr := 0x8000000000000000 })
       let i : Instr := .data p bytes
       let s : State := st (net up)
       let d := s.dev
       let f := readFrame bytes
       let d1 := add64 (rPort p 0xB0) 1 d
       s.on ∧ carries p s.dev = true ∧ i ∈ [.data p bytes, .credit p bytes, .abortPacket p bytes, .ack p bytes, .nack p
           bytes] ∧ frameFails p f d1 = none)
    ∧ (let p : Nat := 0
       let bytes : List Byte := frb 1 (fun f => { f with payload := dw [1], remoteAddr := 0x8000000000000000 })
       let i : Instr := .data p bytes
       let s : State := st (modPort 0 (fun x => { x with bufData := List.replicate 66 { plainFrame 0 sk 1 (net up) with length := 8000 } }) (net up))
       let d := s.dev
       let f := readFrame bytes
       let d1 := add64 (rPort p 0xB0) 1 d
       let ctrl := !isData f.type
       s.on ∧ carries p s.dev = true ∧ i ∈ [.data p bytes, .credit p bytes, .abortPacket p bytes, .ack p bytes, .nack p
           bytes] ∧ bufferSize ctrl < levelOf p ctrl d1 + f.length)
    ∧ (let p : Nat := 0
       let bytes : List Byte := frb 1 (fun f => { f with payload := dw [1], remoteAddr := 0x8000000000000000 })
       let i : Instr := .data p bytes
       let s : State := st (net up)
       let d := s.dev
       let f := readFrame bytes
       let d1 := add64 (rPort p 0xB0) 1 d
       let ctrl := !isData f.type
       let b := putBuffer p ctrl [f] d1
       s.on ∧ carries p s.dev = true ∧ i ∈ [.data p bytes, .credit p bytes, .abortPacket p bytes, .ack p bytes, .nack p
           bytes] ∧ bufferOf p ctrl d1 = [] ∧ 4 * f.length ≤ 3 * bufferSize ctrl ∧ rxWaits p f b = false)
    ∧ (let p : Nat := 0
       let bytes : List Byte := frb 4 (fun f => f)
       let i : Instr := .credit p bytes
       let s : State := st (net up)
       let f := readFrame bytes
       s.on ∧ carries p s.dev = true ∧ i ∈ [.data p bytes, .credit p bytes, .abortPacket p bytes, .ack p bytes, .nack p
           bytes] ∧ f.type ≠ 2 ∧ f.type ≠ 3 ∧ f.ce = false)
    ∧ (let p : Nat := 0
       let bytes : List Byte := frb 2 (fun f => f)
       let i : Instr := .ack p bytes
       let s : State := st (net up)
       let f := readFrame bytes
       s.on ∧ carries p s.dev = true ∧ i ∈ [.data p bytes, .credit p bytes, .abortPacket p bytes, .ack p bytes, .nack p
           bytes] ∧ (f.type = 2 ∨ f.type = 3) ∧ f.ce = false) := by
  decide +kernel

/-- States and operands that meet the premises of each clause of ReceiveQueuesAreServed. -/
theorem test_meets_ReceiveQueuesAreServed :
      (let w_q := rxQueue 0 false
       let side : Nat := 0
       let q : Nat := w_q
       let r : PktRec := headerRecord 2 (fr 2 (fun f => { f with chunkOffset := 2 })) none
       let rest : List PktRec := []
       let d : Dev := putRecords 0 q [r] (tx (fun t => { t with used := true, next := 1, cum := 0xFFFFFFFF, unacked := [⟨0, 1, 0, false, 0, 0, 0, 0, false, none⟩] }) (sends [{ sn with sent := 1 }] (net up)))
       packetRecords side q d = r :: rest ∧ r.cells.any badCell = false ∧ r.frame.type = 2)
    ∧ (let w_q := rxQueue 0 false
       let side : Nat := 0
       let q : Nat := w_q
       let r : PktRec := headerRecord 2 (fr 3 (fun f => { f with remoteAddr := 5 })) none
       let rest : List PktRec := []
       let d : Dev := putRecords 0 q [r] (tx (fun t => { t with used := true, next := 1, cum := 0xFFFFFFFF, unacked := [⟨0, 1, 0, false, 0, 0, 0, 0, false, none⟩] }) (sends [{ sn with sent := 1 }] (net up)))
       packetRecords side q d = r :: rest ∧ r.cells.any badCell = false ∧ r.frame.type = 3)
    ∧ (let w_q := rxQueue 0 false
       let side : Nat := 0
       let q : Nat := w_q
       let r : PktRec := headerRecord 2 (fr 4 (fun f => f)) none
       let rest : List PktRec := []
       let d : Dev := putRecords 0 q [r] (net up)
       packetRecords side q d = r :: rest ∧ r.cells.any badCell = false ∧ r.frame.type ≠ 2 ∧ r.frame.type ≠ 3)
    ∧ (let w_q := rxQueue 0 false
       let w_r := headerRecord 2 (fr 4 (fun f => f)) none
       let side : Nat := 0
       let q : Nat := w_q
       let r : PktRec := { w_r with cells := flipParity 3 w_r.cells }
       let rest : List PktRec := []
       let d : Dev := putRecords 0 q [r] (net up)
       packetRecords side q d = r :: rest ∧ r.cells.any badCell = true)
    ∧ (let w_q := rxQueue 0 false
       let side : Nat := 0
       let q : Nat := w_q
       let r : PktRec := headerRecord 2 (fr 2 (fun f => { f with chunkOffset := 2 })) none
       let rest : List PktRec := []
       let d : Dev := putRecords 0 q [r] (tx (fun t => { t with used := true, next := 1, cum := 0xFFFFFFFF, unacked := [⟨0, 1, 0, false, 0, 0, 0, 0, false, none⟩] }) (sends [{ sn with sent := 1 }] (net up)))
       packetRecords side q d = r :: rest)
    ∧ (let side : Nat := 0
       let q : Nat := txQueue 0 true
       let r : PktRec := headerRecord 1 (fr 1 (fun f => f)) (some 1)
       let rest : List PktRec := []
       let d : Dev := putRecords 0 q [r] (net up)
       let a := 0
       let data := true
       packetRecords side q d = r :: rest ∧ mayTransmit a data d = true ∧ side = a / 24 ∧ q = txQueue a data ∧ r.cells.any
           badCell = false) := by
  decide +kernel

/-- States and operands that meet the premises of clauses of SequencedPacketsAreJudged, part 1. -/
theorem test_meets_SequencedPacketsAreJudged_1 :
      (let p : Nat := 0
       let f : Frame := fr 1 (fun f => { f with payload := dw [1], remoteAddr := 0x8000000000000000, endOfMessage := true, payloadLength := 64 })
       let k : StreamId := sk
       let d : Dev := net (modNet (fun n => { n with windows := [(3, ⟨0, 2 ^ 63, 4096⟩)] }) up)
       let r := rxOf k d
       let next := (r.cum + 1) % 2 ^ 32
       f.seq.toNat = next ∧ r.pkts = [] ∧ queuedSeq k next d = false ∧ (stateOf (pPort p) d = .ready ∨ stateOf (pPort p) d =
           .active) ∧ rejectReason p f d = none)
    ∧ (let f : Frame := fr 1 (fun f => { f with payload := dw [1], remoteAddr := 0x8000000000000000, endOfMessage := true, payloadLength := 64 })
       let k : StreamId := sk
       let d : Dev := net (modNet (fun n => { n with windows := [(3, ⟨0, 2 ^ 63, 4096⟩)] }) up)
       let r := rxOf k d
       let next := (r.cum + 1) % 2 ^ 32
       f.seq.toNat = next ∧ f.type = 1 ∧ f.chunk = false ∧ f.notify = false ∧ f.endOfMessage = true ∧ r.pkts = [] ∧
           r.rejecting = false ∧ r.landing = [] ∧ noPlans d = true)
    ∧ (let f : Frame := fr 1 (fun f => { f with payload := dw [1], remoteAddr := 0x8000000000000000, endOfMessage := true, payloadLength := 64 })
       let k : StreamId := sk
       let d : Dev := net (modNet (fun n => { n with windows := [(3, ⟨0, 2 ^ 63, 4096⟩)] }) up)
       let r := rxOf k d
       let next := (r.cum + 1) % 2 ^ 32
       f.seq.toNat = next ∧ f.type = 1 ∧ f.chunk = false ∧ f.notify = false ∧ f.endOfMessage = true ∧ r.pkts = [] ∧
           r.rejecting = false ∧ r.landing = [] ∧ noPlans d = true ∧ f.poison = false)
    ∧ (let d : Dev := net (modNet (fun n => { n with windows := [(3, ⟨0, 2 ^ 63, 4096⟩)] }) up)
       let a := 0x8000000000000010
       let bs := dw [1, 2]
       2 ^ 63 ≤ a ∧ netPoisoned a bs.length d = [])
    ∧ (let f : Frame := fr 1 (fun f => { f with seq := 0xFFFFFFFF })
       let k : StreamId := sk
       let d : Dev := rx (fun x => { x with pkts := [keptPacket 0 0 (fr 1 (fun f => { f with seq := 5 })) false] }) (net up)
       let r := rxOf k d
       let next := (r.cum + 1) % 2 ^ 32
       seqLe next f.seq.toNat = false)
    ∧ (let f : Frame := fr 1 (fun f => { f with seq := 1025 })
       let k : StreamId := sk
       let d : Dev := net (modNet (fun n => { n with windows := [(3, ⟨0, 2 ^ 63, 4096⟩)] }) up)
       let r := rxOf k d
       let next := (r.cum + 1) % 2 ^ 32
       seqLe next f.seq.toNat = true ∧ 1024 < (f.seq.toNat + 2 ^ 32 - next) % 2 ^ 32 ∧ f.ce = false) := by
  decide +kernel

/-- States and operands that meet the premises of clauses of SequencedPacketsAreJudged, part 2. -/
theorem test_meets_SequencedPacketsAreJudged_2 :
      (let p : Nat := 0
       let f : Frame := fr 1 (fun f => { f with payload := dw [1], remoteAddr := 0x1000, endOfMessage := true, payloadLength := 64 })
       let k : StreamId := sk
       let d : Dev := net up
       let r := rxOf k d
       let next := (r.cum + 1) % 2 ^ 32
       let reason := 2
       f.seq.toNat = next ∧ r.pkts = [] ∧ queuedSeq k next d = false ∧ stateOf (pPort p) d ≠ .quiesced ∧ rejectReason p f d
           = some reason) := by
  decide +kernel

/-- States and operands that meet the premises of each clause of AcknowledgementsAreTaken. -/
theorem test_meets_AcknowledgementsAreTaken :
      (let f : Frame := fr 2 (fun f => { f with seq := 0, chunkOffset := 2, remoteAddr := 1 })
       let k : StreamId := sk
       let d : Dev := tx (fun t => { t with used := true, next := 3, cum := 0xFFFFFFFF, unacked := [⟨0, 1, 0, false, 0, 0, 0, 0, false, none⟩, ⟨1, 1, 1, false, 0, 0, 0, 0, false, none⟩, ⟨2, 1, 2, false, 0, 0, 0, 0, false, none⟩] }) (sends [{ sn with sent := 2, type := 4 }] (net up))
       let t := txOf k d
       t.broken = false ∧ seqLe f.seq.toNat ((t.next + 2 ^ 32 - 1) % 2 ^ 32) = true)
    ∧ (let p : Nat := 0
       let f : Frame := fr 2 (fun f => { f with seq := 0, chunkOffset := 2, remoteAddr := 1 })
       let k : StreamId := sk
       let d : Dev := tx (fun t => { t with used := true, next := 3, cum := 0xFFFFFFFF, unacked := [⟨0, 1, 0, false, 0, 0, 0, 0, false, none⟩, ⟨1, 1, 1, false, 0, 0, 0, 0, false, none⟩, ⟨2, 1, 2, false, 0, 0, 0, 0, false, none⟩] }) (sends [{ sn with sent := 2, type := 4 }] (net up))
       let t := txOf k d
       let a := txOf k (receiveAck k p f d)
       let o := ⟨2, 1, 2, true, 0, 0, 0, 0, false, none⟩
       t.broken = false ∧ seqLe f.seq.toNat ((t.next + 2 ^ 32 - 1) % 2 ^ 32) = true ∧ o ∈ a.unacked ∧ sacked f o.seq = true)
    ∧ (let f : Frame := fr 3 (fun f => { f with seq := 1, remoteAddr := 5 })
       let k : StreamId := sk
       let s : Send := { sn with sent := 2, type := 4 }
       let d : Dev := tx (fun t => { t with used := true, next := 3, cum := 0xFFFFFFFF, unacked := [⟨0, 1, 0, false, 0, 0, 0, 0, false, none⟩, ⟨1, 1, 1, false, 0, 0, 0, 0, false, none⟩, ⟨2, 1, 2, false, 0, 0, 0, 0, false, none⟩] }) (sends [{ sn with sent := 2, type := 4 }] (net up))
       f.ece = false ∧ f.remoteAddr = 5 ∧ sendOfSeq k f.seq.toNat d = some s) := by
  decide +kernel

/-- States and operands that meet the premises of each clause of SendsComplete. -/
theorem test_meets_SendsComplete :
      (let p : Nat := 0
       let s : State := st (rg [(rNi 0 0x54, 0x80000000), (rNi 0 0x5C, 0x80000000), (rNi 0 0x60, 32), (rNi 0 0x64, 1), (rNi 0 0x68, 1)] (net up))
       let d := s.dev
       let h := hostSendOf p d
       s.on ∧ (∀ y ∈ s.dev.net.sends, y.ended = none) ∧ mayCommand (pNi p) d = true ∧ stateOf (pNi p) d = .active ∧
           judgeSend h d = .done ∧ h.chunk = false ∧ h.length ≠ 0)
    ∧ (let s : State := st (sends [sn] (net up))
       s.on ∧ (∀ y ∈ s.dev.net.sends, y.ended = none))
    ∧ (let p : Nat := 0
       let k : StreamId := sk
       let x : Send := sn
       let s : State := st (tx (fun t => { t with used := true }) (sends [sn] (net up)))
       let d := s.dev
       let t := txOf k d
       s.on ∧ (∀ y ∈ s.dev.net.sends, y.ended = none) ∧ oldestSend k d = some x ∧ t.held = false ∧ t.broken = false ∧
           t.unacked.length < 1024 ∧ t.paceAt ≤ d.now ∧ x.chunk = false ∧ x.type = 1 ∧ sourceHeld x x.sent d = false ∧
           nextPlane t.lastPlane true (eligible k.side x.planes true d) d = some p ∧ packetCells ≤ creditOf k.side (txQueue
           p true) d ∧ (txOf k (startRate k d)).rate ≠ some 0)
    ∧ (let k : StreamId := sk
       let s : State := st (net up)
       let d := s.dev
       s.on ∧ (∀ y ∈ s.dev.net.sends, y.ended = none) ∧ oldestSend k d = none) := by
  decide +kernel

/-- States and operands that meet the premises of clauses of TransportTimersComplete, part 1. -/
theorem test_meets_TransportTimersComplete_1 :
      (let k : StreamId := sk
       let x : Send := { sn with sent := 1 }
       let s : State := st (rx (fun x => { x with sinceAck := 1, cum := 7, firstAt := some 3 }) (net up))
       let d := s.dev
       let rx := rxOf k d
       let limit := fun off lo hi => 1000 * clampReg lo hi (rd (rNi 0 off) d)
       let t0 := 3
       s.on ∧ rx.firstAt = some t0 ∧ t0 + limit 0x98 1 1000 ≤ d.now)
    ∧ (let k : StreamId := sk
       let x : Send := { sn with sent := 1 }
       let s : State := st (rx (fun x => { x with sinceAck := 1, cum := 7, firstAt := some 3, ce := true }) (net up))
       let d := s.dev
       let rx := rxOf k d
       let q := txQueue rx.plane false
       s.on ∧ inState (pPort rx.plane) [.off, .retired] d = false ∧ (poolOf (rx.plane / 24) d).waiting = [] ∧ packetCells ≤
           creditOf (rx.plane / 24) q d)
    ∧ (let k : StreamId := sk
       let x : Send := { sn with sent := 1 }
       let s : State := st (rx (fun x => { x with pkts := [keptPacket 0 0 (fr 1 (fun f => { f with seq := 3 })) false] }) (net up))
       let d := s.dev
       let rx := rxOf k d
       let limit := fun off lo hi => 1000 * clampReg lo hi (rd (rNi 0 off) d)
       s.on ∧ rx.pkts.any (fun y => decide (y.at_ + limit 0x90 1 1000 ≤ d.now)) = true ∧ rx.lastNack = none)
    ∧ (let k : StreamId := sk
       let o : OutPkt := ⟨0, 1, 0, false, 0, 0, 0, 100000000, false, none⟩
       let x : Send := { sn with sent := 1 }
       let p : Nat := 0
       let s : State := st (tx (fun t => { t with used := true, next := 1, cum := 0xFFFFFFFF, unacked := [o] }) (sends [{ sn with sent := 1 }] (net up)))
       let d := s.dev
       let t := txOf k d
       let rx := rxOf k d
       s.on ∧ rx.lastNack = none ∧ timedOut k d = [o] ∧ t.unacked.find? (fun y => y.seq == o.seq) = some o ∧ findSend o.send
           d = some x ∧ sourceHeld x o.index d = false ∧ nextPlane t.lastPlane (isData x.type) (eligible k.side x.planes
           (isData x.type) d) d = some p ∧ packetCells ≤ creditOf k.side (txQueue p (isData x.type)) d)
    ∧ (let k : StreamId := sk
       let o : OutPkt := ⟨0, 1, 0, false, 0, 0, 0, 0, false, none⟩
       let s : State := st (tx (fun t => { t with used := true, next := 1, held := true, cum := 0xFFFFFFFF, unacked := [⟨0, 1, 0, false, 0, 0, 0, 0, false, none⟩] }) (sends [{ sn with sent := 1 }] (net up)))
       let d := s.dev
       let t := txOf k d
       let limit := fun off lo hi => 1000 * clampReg lo hi (rd (rNi 0 off) d)
       s.on ∧ t.held = true ∧ t.probeAt + limit 0xA4 10 100000 ≤ d.now ∧ t.unacked = o :: t.unacked.tail)
    ∧ (let k : StreamId := sk
       let o : OutPkt := ⟨0, 1, 0, false, 0, 0, 0, 0, false, none⟩
       let s : State := st { tx (fun t => { t with used := true, next := 1, cum := 0xFFFFFFFF, unacked := [⟨0, 1, 0, false, 0, 0, 0, 0, false, none⟩] }) (sends [{ sn with sent := 1 }] (net up)) with now := 100000000000 }
       let d := s.dev
       let t := txOf k d
       s.on ∧ t.broken = false ∧ (lowestUnreported k d).or t.unacked.head? = some o ∧ o.firstAt + 1000000 * clampReg 1 60000
           (rd (rNi 0 0x8C) d) ≤ d.now)
    ∧ (let k : StreamId := sk
       let r : Nat := 65536000
       let s : State := st (tx (fun t => { t with rate := some 65536000, cap := 65536000 }) (net up))
       let d := s.dev
       let t := txOf k d
       s.on ∧ t.rate = some r ∧ t.riseAt + 1000 * fieldOf (rd (rNi 0 0x9C) d) 23 16 ≤ d.now ∧ oldestSend k d = none) := by
  decide +kernel

/-- States and operands that meet the premises of clauses of TransportTimersComplete, part 2. -/
theorem test_meets_TransportTimersComplete_2 :
      (let k : StreamId := sk
       let x : Send := sn
       let r : Nat := 65536000
       let s : State := st (tx (fun t => { t with rate := some 65536000, eceSeen := true }) (sends [sn] (net up)))
       let d := s.dev
       let t := txOf k d
       s.on ∧ t.rate = some r ∧ t.riseAt + 1000 * fieldOf (rd (rNi 0 0x9C) d) 23 16 ≤ d.now ∧ oldestSend k d = some x) := by
  decide +kernel

/-- States and operands that meet the premises of each clause of StreamsBreakAndResend. -/
theorem test_meets_StreamsBreakAndResend :
      (let k : StreamId := sk
       let d : Dev := tx (fun t => { t with used := true, next := 1, cum := 0xFFFFFFFF, unacked := [⟨0, 1, 0, false, 0, 0, 0, 0, false, none⟩] }) (sends [{ sn with sent := 1, type := 4 }] (net up))
       let y := ((breakStream sk d).net.sends).headD sn
       y ∈ (breakStream k d).net.sends ∧ y.stream = k)
    ∧ (let k : StreamId := sk
       let o : OutPkt := ⟨0, 1, 0, false, 0, 0, 0, 0, false, none⟩
       let x : Send := { sn with sent := 1, type := 4 }
       let p : Nat := 0
       let d : Dev := tx (fun t => { t with used := true, next := 1, cum := 0xFFFFFFFF, unacked := [⟨0, 1, 0, false, 0, 0, 0, 0, false, none⟩] }) (sends [{ sn with sent := 1, type := 4 }] (net up))
       let t := txOf k d
       let q := txQueue p (isData x.type)
       t.unacked.find? (fun y => y.seq == o.seq) = some o ∧ findSend o.send d = some x ∧ sourceHeld x o.index d = false ∧
           nextPlane t.lastPlane (isData x.type) (eligible k.side x.planes (isData x.type) d) d = some p ∧ packetCells ≤
           creditOf k.side q d)
    ∧ (let p : Nat := 0
       let f : Frame := fr 1 (fun f => { f with retransmission := true })
       f.retransmission = true ∧ p < 48) := by
  decide +kernel

/-- States and operands that meet the premises of each clause of WindowsAndQueriesComplete. -/
theorem test_meets_WindowsAndQueriesComplete :
      (let p : Nat := 0
       let arg : Nat := 255
       let s : State := st (rg [(rNi 0 0xB4, 0x80000000), (rNi 0 0xB8, 64)] (net up))
       let d := s.dev
       let g := pageOf (pNi p) d
       let base := rd64 (rNi p 0xB0) d
       let n := rd64 (rNi p 0xB8) d
       s.on ∧ mayCommand (pNi p) d = true ∧ g.state = .active ∧ windowOpen (arg % 256) d = false ∧ ctxOpen (rd (rNi p 0xC0)
           d) d = true ∧ n ≠ 0 ∧ windowFits base n d = true ∧ d.net.windows.any (fun e => overlaps base n e.2.base
           e.2.length) = false)
    ∧ (let p : Nat := 0
       let arg : Nat := 255
       let s : State := st (rg [(rNi 0 0xB4, 0x80000000), (rNi 0 0xB8, 64)] (modNet (fun n => { n with windows := [(3, ⟨0, 2 ^ 63 + 63, 1⟩)] }) (net up)))
       let d := s.dev
       let g := pageOf (pNi p) d
       let base := rd64 (rNi p 0xB0) d
       let n := rd64 (rNi p 0xB8) d
       s.on ∧ mayCommand (pNi p) d = true ∧ g.state = .active ∧ windowOpen (arg % 256) d = false ∧ ctxOpen (rd (rNi p 0xC0)
           d) d = true ∧ n ≠ 0 ∧ d.net.windows.any (fun e => overlaps base n e.2.base e.2.length) = true)
    ∧ (let p : Nat := 0
       let arg : Nat := 255
       let s : State := st (modNet (fun n => { n with windows := [(255, ⟨0, 2 ^ 63, 64⟩)] }) (net up))
       let d := s.dev
       let g := pageOf (pNi p) d
       s.on ∧ mayCommand (pNi p) d = true ∧ g.state = .active ∧ windowOpen (arg % 256) d = true)
    ∧ (let p : Nat := 0
       let s : State := st (modNet (fun n => { n with windows := [(255, ⟨0, 2 ^ 63, 64⟩)] }) (net up))
       let d := s.dev
       let g := pageOf (pNi p) d
       s.on ∧ pageSilent (pNi p) d = false ∧ g.negotiated = true) := by
  decide +kernel

/-- States and operands that meet the premises of clauses of QueuePoolsComplete, part 1. -/
theorem test_meets_QueuePoolsComplete_1 :
      (let w_r := headerRecord 1 (fr 1 (fun f => f)) (some 1)
       let side : Nat := 0
       let arg : Nat := 95
       let s : State := st (putRecords 0 95 [w_r] (pg (pPool 0) .ready up))
       let d := s.dev
       s.on ∧ mayCommand (pPool side) d = true ∧ inState (pPool side) [.ready, .active] d = true ∧ arg % 128 ≤ 119)
    ∧ (let w_r := headerRecord 1 (fr 1 (fun f => f)) (some 1)
       let side : Nat := 0
       let arg : Nat := 95
       let s : State := st (putRecords 0 95 [w_r] (pg (pPool 0) .ready up))
       let d := s.dev
       s.on ∧ mayCommand (pPool side) d = true ∧ inState (pPool side) [.ready, .active] d = true ∧ arg % 128 ≤ 119 ∧ arg %
           128 < 96 ∧ (poolOf side d).waiting = [])
    ∧ (let side : Nat := 0
       let q : Nat := 95
       let s : State := st (rg ((List.range 120).map (fun q => (rQueueBlock 0 q 4, 2))) (pg (pPool 0) .ready up))
       let d := s.dev
       let g := pageOf (pPool side) d
       s.on ∧ mayCommand (pPool side) d = true ∧ g.state = .ready ∧ (reserveRegs side d).foldl (· + ·) 0 ≤ 262144 ∧ (∀ n ∈
           reserveRegs side d, n ≠ 0))
    ∧ (let side : Nat := 0
       let s : State := st (rg [(rQueueBlock 0 0 4, 0)] (pg (pPool 0) .ready up))
       let d := s.dev
       let g := pageOf (pPool side) d
       s.on ∧ mayCommand (pPool side) d = true ∧ g.state = .ready ∧ 0 ∈ reserveRegs side d)
    ∧ (let w_r := headerRecord 1 (fr 1 (fun f => f)) (some 1)
       let side : Nat := 0
       let s : State := st (putRecords 0 95 [w_r] (pg (pPool 0) .ready up))
       let d := s.dev
       let g := pageOf (pPool side) d
       s.on ∧ pageSilent (pPool side) d = false ∧ g.negotiated = true)
    ∧ (let w_r := headerRecord 1 (fr 1 (fun f => f)) (some 1)
       let side : Nat := 0
       let q : Nat := 95
       let s : State := st (putRecords 0 95 [w_r] (pg (pPool 0) .ready up))
       let d := s.dev
       let error := 3
       s.on ∧ pageSilent (pPool side) d = false ∧ q < 96 ∧ judgeWord false error = .uncorrectable)
    ∧ (let w_r := headerRecord 1 (fr 1 (fun f => f)) (some 1)
       let s : State := st (putRecords 0 95 [w_r] (pg (pPool 0) .ready up))
       let b := 143
       s.on ∧ b < 144) := by
  decide +kernel

/-- States and operands that meet the premises of clauses of QueuePoolsComplete, part 2. -/
theorem test_meets_QueuePoolsComplete_2 :
      (let w_r := headerRecord 1 (fr 1 (fun f => f)) (some 1)
       let side : Nat := 0
       let q : Nat := 95
       let s : State := st (modPool 0 (fun x => { x with lostCells := [(95, 2)] }) (putRecords 0 95 [w_r] (pg (pPool 0) .ready up)))
       let d := s.dev
       s.on ∧ side < 2 ∧ q < 96 ∧ (poolOf side d).waiting = []) := by
  decide +kernel

/-- States and operands that meet the premises of each clause of InjectionsAreSpent. -/
theorem test_meets_InjectionsAreSpent :
      (let side : Nat := 1
       let q : Nat := 119
       let d : Dev := rg [(rPool 1 0 0x50, 0x80770001)] up
       q < 120 ∧ fieldOf (rd (rPool side 0 0x50) d) 22 16 = q)
    ∧ (let w_r := headerRecord 1 (fr 1 (fun f => f)) (some 1)
       let side : Nat := 1
       let q : Nat := 119
       let d : Dev := rg [(rPool 1 0 0x50, 0x80770001)] up
       let c : PoolCell := w_r.cells.headD ⟨[], []⟩
       let w := 7
       q < 120 ∧ fieldOf (rd (rPool side 0 0x50) d) 22 16 = q ∧ w < 8 ∧ c.words.length = 8 ∧ c.parity.length = 8 ∧ badCell c
           = false)
    ∧ (let w_r := headerRecord 1 (fr 1 (fun f => f)) (some 1)
       let w_b := { w_r with cells := flipParity 3 w_r.cells }
       let side : Nat := 1
       let q : Nat := 95
       let d : Dev := putRecords 1 95 [w_b, w_r] (rg [(rPool 1 0 0x50, 0x805F0001)] up)
       let r : PktRec := w_b
       let rest : List PktRec := [w_r]
       q < 120 ∧ fieldOf (rd (rPool side 0 0x50) d) 22 16 = q ∧ packetRecords side q d = r :: rest ∧ r.cells.any badCell =
           true) := by
  decide +kernel

/-- States and operands that meet the premises of each clause of HalvesComplete. -/
theorem test_meets_HalvesComplete :
      (let r : Nat := 47
       let arg : Nat := 3
       let s : State := st (rg [(rChk 47 0x40, 47 * 2 ^ 26 + 3), (rRing 47 0x44, 16)] (pg (pChk 47) .active up))
       let d := s.dev
       s.on ∧ mayCommand (pChk r) s.dev = true ∧ stateOf (pChk r) s.dev = .active ∧ halfOpen r arg d = false ∧ halfInRange r
           arg d = true ∧ bitOf arg 2 = false)
    ∧ (let r : Nat := 23
       let arg : Nat := 7
       let s : State := st (mm (rg [(rChk 23 0x40, 23 * 2 ^ 26 + 3), (rRing 23 0x44, 16)] (pg (pChk 23) .active up)))
       let d := s.dev
       s.on ∧ mayCommand (pChk r) s.dev = true ∧ stateOf (pChk r) s.dev = .active ∧ halfOpen r arg d = false ∧ halfInRange r
           arg d = true ∧ bitOf arg 2 = true)
    ∧ (let r : Nat := 47
       let arg : Nat := 3
       let s : State := st (putCheckTx 191 ⟨true, 0, 0, 0, none⟩ (pg (pChk 47) .active up))
       let d := s.dev
       s.on ∧ mayCommand (pChk r) s.dev = true ∧ stateOf (pChk r) s.dev = .active ∧ halfOpen r arg d = true)
    ∧ (let r : Nat := 47
       let arg : Nat := 7
       let s : State := st (putCheckRx 191 { freshCheckRx with open_ := true } (pg (pChk 47) .active up))
       s.on ∧ mayCommand (pChk r) s.dev = true ∧ stateOf (pChk r) s.dev = .active ∧ bitOf arg 2 = true)
    ∧ (let r : Nat := 47
       let arg : Nat := 3
       let s : State := st (putCheckTx 191 ⟨true, 0, 0, 0, none⟩ (pg (pChk 47) .active up))
       s.on ∧ mayCommand (pChk r) s.dev = true ∧ stateOf (pChk r) s.dev = .active ∧ bitOf arg 2 = false) := by
  decide +kernel

/-- States and operands that meet the premises of each clause of BelayCompletes. -/
theorem test_meets_BelayCompletes :
      (let side : Nat := 1
       let c : Nat := 511
       let s : State := st (pg (pCounters 1) .active up)
       let d := s.dev
       s.on ∧ c < 512 ∧ pageSilent (pCounters side) d = false ∧ (pageOf (pCounters side) d).negotiated = true ∧ d.net.belay
           = [] ∧ d.net.rings = [])
    ∧ (let side : Nat := 1
       let arg : Nat := 1023
       let s : State := st (rg [(rBelay 1 1023 0, 0xFC00000), (rBelay 1 1023 0x0C, 5), (rBelay 1 1023 0x14, 1)] { pg (pBelay 1) .active up with job := { up.job with open_ := [0] } })
       let d := s.dev
       let e := arg % 1024
       let g := pageOf (pBelay side) d
       let b := belayOf side e d
       s.on ∧ mayCommand (pBelay side) d = true ∧ g.state = .active ∧ b.state ≠ .armed ∧ entryRing (rd (rBelay side e 0) d)
           = 0x3F ∧ entryOp (rd (rBelay side e 0) d) = 0 ∧ ctxOpen (fieldOf (rd (rBelay side e 0) d) 21 19) d = true ∧
           reached (counterOf side (rd (rBelay side e 8) d) d) (BitVec.ofNat 32 (rd (rBelay side e 0x0C) d)) = false)
    ∧ (let side : Nat := 1
       let arg : Nat := 1023
       let s : State := st (putBelay 1 1023 { freshBelay with state := .armed } (pg (pBelay 1) .ready up))
       let d := s.dev
       let e := arg % 1024
       s.on ∧ mayCommand (pBelay side) d = true ∧ inState (pBelay side) [.ready, .active] d = true ∧ inRunningPass side e d
           = false)
    ∧ (let side : Nat := 1
       let arg : Nat := 1023
       let s : State := st (putBelay 1 1023 { freshBelay with state := .armed, ctrl := 0xFC00000, repeat_ := 1, done := 0x80000005 } up)
       let d := s.dev
       let e := arg % 1024
       let b := belayOf side e d
       s.on ∧ b.state = .armed ∧ reached (counterOf side b.trigger d) b.work = true ∧ entryOp b.ctrl = 0 ∧ 48 ≤ entryRing
           b.ctrl ∧ b.fired + 1 = b.repeat_)
    ∧ (let side : Nat := 1
       let arg : Nat := 1023
       let s : State := st (putBelay 1 1023 { freshBelay with state := .armed, work := 1 } up)
       let d := s.dev
       let e := arg % 1024
       let b := belayOf side e d
       s.on ∧ b.state = .armed ∧ reached (counterOf side b.trigger d) b.work = false) := by
  decide +kernel

/-- States and operands that meet the premises of clauses of RingOpsComplete, part 1. -/
theorem test_meets_RingOpsComplete_1 :
      (let r : Nat := 0
       let p : Pass := ps
       let o : RingOp := { rop 1 with transfer := some 0 }
       let t : Nat := 0
       let s : State := st (ring (fun x => { x with ops := [{ rop 1 with transfer := some 0 }] }) up)
       let d := s.dev
       let st := ringSt r d
       let loc := chunkAddr p o.piece o.chunk
       s.on ∧ st.pass = some p ∧ isRunning r d = true ∧ d.net.sends = [] ∧ memClean d ∧ d.memPoison = [] ∧ noPlans d = true
           ∧ d.net.stagePoison = [] ∧ st.work = [] ∧ st.ops = [o] ∧ o.op = 1 ∧ o.moved = false ∧ hasPack o = false ∧
           o.transfer = some t ∧ o.arrival = none ∧ o.sendNum = none ∧ stateOf (pNi r) d ≠ .quiesced ∧ t < rd (rRing r 0xD4)
           d + p.inFlight ∧ judgeSend (opSend r p o t loc) d = .done ∧ (checkTx (slotOf (chunkIdOf r p t)) d).open_ = false) := by
  decide +kernel

/-- States and operands that meet the premises of clauses of RingOpsComplete, part 2. -/
theorem test_meets_RingOpsComplete_2 :
      (let r : Nat := 0
       let p : Pass := ps
       let o : RingOp := rop 2
       let a : ChunkArrival := ⟨0, 0, 0⟩
       let s : State := st (memWrite 0 (dw [0x3F800000]) [] (ring (fun x => { x with ops := [rop 2], arrivals := [⟨0, 0, 0⟩] }) up))
       let d := s.dev
       let st := ringSt r d
       let loc := chunkAddr p o.piece o.chunk
       let buf := bufferAddr p a.transfer
       let len := chunkLength p o.chunk
       s.on ∧ st.pass = some p ∧ isRunning r d = true ∧ d.net.sends = [] ∧ memClean d ∧ d.memPoison = [] ∧ noPlans d = true
           ∧ d.net.stagePoison = [] ∧ st.work = [] ∧ st.ops = [o] ∧ o.op = 2 ∧ o.moved = false ∧ o.transfer = none ∧
           hasStore o = true ∧ hasSignal o = false ∧ st.arrivals = [a] ∧ a.result = 0 ∧ unitsUsable (sideOf r) d ≠ [] ∧ 2 ^
           63 ≤ buf ∧ loc < 2 ^ 63 ∧ netHeld loc len false d = false ∧ netHeld loc len true d = false ∧ (linesIn loc
           len).any (fun l => lineLost l d) = false) := by
  decide +kernel

/-- States and operands that meet the premises of clauses of RingOpsComplete, part 3. -/
theorem test_meets_RingOpsComplete_3 :
      (let r : Nat := 0
       let p : Pass := ps
       let o : RingOp := rop 3
       let a : ChunkArrival := ⟨0, 0, 0⟩
       let s : State := st (memWrite 0 (dw [0x3F800000]) [] (ring (fun x => { x with ops := [rop 3], arrivals := [⟨0, 0, 0⟩] }) up))
       let d := s.dev
       let st := ringSt r d
       let loc := chunkAddr p o.piece o.chunk
       let buf := bufferAddr p a.transfer
       let len := chunkLength p o.chunk
       s.on ∧ st.pass = some p ∧ isRunning r d = true ∧ d.net.sends = [] ∧ memClean d ∧ d.memPoison = [] ∧ noPlans d = true
           ∧ d.net.stagePoison = [] ∧ st.work = [] ∧ st.ops = [o] ∧ o.op = 3 ∧ o.moved = false ∧ o.transfer = none ∧
           hasStore o = true ∧ hasSignal o = false ∧ st.arrivals = [a] ∧ a.result = 0 ∧ 2 ^ 63 ≤ buf ∧ netHeld loc len true
           d = false ∧ (linesIn loc len).any (fun l => lineLost l d) = false) := by
  decide +kernel

/-- States and operands that meet the premises of clauses of RingOpsComplete, part 4. -/
theorem test_meets_RingOpsComplete_4 :
      (let r : Nat := 0
       let p : Pass := ps
       let w : Work := workRecord 0 0
       let s : State := st (putBelay 0 0 { freshBelay with ctrl := 4 } (ring (fun x => { x with work := [workRecord 0 0] }) up))
       let d := s.dev
       let st := ringSt r d
       s.on ∧ st.pass = some p ∧ isRunning r d = true ∧ d.net.sends = [] ∧ memClean d ∧ d.memPoison = [] ∧ noPlans d = true
           ∧ d.net.stagePoison = [] ∧ st.work = [w] ∧ st.ops = [] ∧ st.waiting = [] ∧ w.cells.any badCell = false ∧ st.gated
           = false ∧ 0 < p.inFlight ∧ stateOf (pRing r) d = .active ∧ entryOp (belayOf (sideOf r) w.entry d).ctrl = 4 ∧
           bitOf (belayOf (sideOf r) w.entry d).done 31 = false ∧ bitOf p.signalCore 31 = false ∧ bitOf p.signalUpdate 31 =
           false) := by
  decide +kernel

/-- States and operands that meet the premises of clauses of RingOpsComplete, part 5. -/
theorem test_meets_RingOpsComplete_5 :
      (let r : Nat := 0
       let p : Pass := ps
       let o : RingOp := { rop 3 with moved := true, arrival := some ⟨0, 0, 0⟩ }
       let a : ChunkArrival := ⟨0, 0, 0⟩
       let s : State := st (ring (fun x => { x with ops := [{ rop 3 with moved := true, arrival := some ⟨0, 0, 0⟩ }] }) up)
       let d := s.dev
       let st := ringSt r d
       s.on ∧ st.pass = some p ∧ isRunning r d = true ∧ d.net.sends = [] ∧ memClean d ∧ d.memPoison = [] ∧ noPlans d = true
           ∧ d.net.stagePoison = [] ∧ st.ops = [o] ∧ o.moved = true ∧ o.transfer = none ∧ o.arrival = some a ∧ bitOf
           (belayOf (sideOf r) o.entry d).done 31 = false) := by
  decide +kernel

/-- States and operands that meet the premises of clauses of PassesComplete, part 1. -/
theorem test_meets_PassesComplete_1 :
      (let r : Nat := 0
       let s : State := st (load 0 up)
       let d := s.dev
       let n := readPass r d
       s.on ∧ mayCommand (pRing r) d = true ∧ launchLegal r n d = true ∧ launchInRange r n d = true ∧ (n.pieceSize = 0 ∨
           n.count = 0))
    ∧ (let r : Nat := 0
       let s : State := st (rg [(rBelay 0 0 0, 4), (rBelay 0 0 0x0C, 5), (rBelay 0 0 0x14, 1)] (load 1 up))
       let d := s.dev
       let n := readPass r d
       s.on ∧ mayCommand (pRing r) d = true ∧ launchLegal r n d = true ∧ launchInRange r n d = true ∧ n.pieceSize ≠ 0 ∧
           n.count = 1 ∧ rd (rBelay (sideOf r) n.first 0x14) d ≠ 0 ∧ reached (counterOf (sideOf r) (rd (rBelay (sideOf r)
           n.first 8) d) d) (BitVec.ofNat 32 (rd (rBelay (sideOf r) n.first 0x0C) d)) = false)
    ∧ (let r : Nat := 0
       let s : State := st (rg [(rRing 0 0x48, 3)] (load 0 up))
       let d := s.dev
       let n := readPass r d
       s.on ∧ mayCommand (pRing r) d = true ∧ launchLegal r n d = true ∧ launchInRange r n d = false)
    ∧ (let r : Nat := 0
       let p : Pass := ps
       let s : State := st (ring (fun x => { x with begun := true }) up)
       let d := s.dev
       let g := pageOf (pRing r) d
       let st := ringSt r d
       s.on ∧ mayCommand (pRing r) d = true ∧ g.state = .active ∧ st.pass = some p ∧ isRunning r d = true ∧ st.ops = [] ∧
           d.net.sends = [])
    ∧ (let r : Nat := 0
       let s : State := st (ring (fun x => { x with result := 2, arrivals := [⟨0, 0, 0⟩] }) up)
       let d := s.dev
       let g := pageOf (pRing r) d
       let st := ringSt r d
       s.on ∧ mayCommand (pRing r) d = true ∧ g.state = .active ∧ st.result ≠ 1) := by
  decide +kernel

/-- States and operands that meet the premises of clauses of PassesComplete, part 2. -/
theorem test_meets_PassesComplete_2 :
      (let r : Nat := 0
       let p : Pass := ps
       let s : State := st (putBelay 0 0 { freshBelay with state := .done } (ring (fun x => x) up))
       let d := s.dev
       let st := ringSt r d
       s.on ∧ st.pass = some p ∧ passOver r p d = true)
    ∧ (let r : Nat := 0
       let p : Pass := ps
       let s : State := st (ring (fun x => { x with begun := true, timer := 1000000000000 }) up)
       let d := s.dev
       let g := pageOf (pRing r) d
       let st := ringSt r d
       s.on ∧ st.pass = some p ∧ isRunning r d = true ∧ st.begun = true ∧ g.state = .active ∧ g.cmd = none ∧ st.ops = [] ∧
           d.net.sends = [] ∧ 1000000 * clampReg 1 60000 (rd (rRing r 0x7C) d) < st.timer) := by
  decide +kernel

/-- States and operands that meet the premises of each clause of InputPowerCompletes. -/
theorem test_meets_InputPowerCompletes :
      (let s : State := st { up with boot := { up.boot with phase := .unpowered } }
       s.dev.boot.phase = .unpowered)
    ∧ (let s : State := st (kern 0 0 (net up))
       s.on) := by
  decide +kernel

/-- States and operands that meet the premises of each clause of RomStartCompletes. -/
theorem test_meets_RomStartCompletes :
      (let r : RomResults := ⟨true, true, true, false, true, [], true, true, 5⟩
       let lead : Nat := 0
       let s : State := State.reset
       let d := s.dev
       s.on ∧ romReady d = true ∧ romWaits d = false ∧ d.reset.level = some 2 ∧ s.fuses.variant = 0 ∧ s.fuses.manufacture =
           [] ∧ r.variantFuseOk = true ∧ r.failedFuseUnits = [] ∧ r.cairnOk = true ∧ r.trimOk = true ∧ r.activeVerifies =
           true ∧ (latestCommit d.flash).state ≠ 1 ∧ d.flash.cairn = [] ∧ d.flash.formats = [] ∧ d.coolant.ok = true ∧
           (atPowerOn d = true → d.pins.bivouacN = true) ∧ chooseLead r (romPrepare r s.fuses d) = some lead)
    ∧ (let r : RomResults := ⟨false, true, false, false, true, [], true, true, 5⟩
       let lead : Nat := 1
       let s : State := State.reset
       let d := s.dev
       s.on ∧ romReady d = true ∧ romWaits d = false ∧ r.activeVerifies = false ∧ r.stagingVerifies = false ∧ chooseLead r
           (romPrepare r s.fuses d) = some lead)
    ∧ (let s : State := st { State.reset.dev with reset := { State.reset.dev.reset with pinHigh := false } }
       let d := s.dev
       s.on ∧ romReady d = true ∧ romWaits d = true) := by
  decide +kernel

/-- States and operands that meet the premises of clauses of BringUpCompletes, part 1. -/
theorem test_meets_BringUpCompletes_1 :
      (let i : Nat := 9
       let s : State := st up
       let d := s.dev
       s.on ∧ s.dev.unrun = [] ∧ i < 10 ∧ bringsUp d = true ∧ d.always.hardTrip = false ∧ awaits (uDie i) d = true)
    ∧ (let u : Nat := uCore 2559
       let s : State := st (pg (pCore 2559) .testing up)
       let d := s.dev
       s.on ∧ s.dev.unrun = [] ∧ hasRun u = true ∧ runMayEnd u d = true ∧ starting u .testing d = true ∧ d.boot.retesting =
           [])
    ∧ (let i : Nat := 9
       let s : State := st ((List.range 8).foldl (fun d i => pg ⟨.dieController, i⟩ .ready (ust (uDie i) .ready d)) (ust (uRouter 2559) .testing { up with boot := { up.boot with meshTested := false, complete := false } }))
       let d := s.dev
       s.on ∧ s.dev.unrun = [] ∧ meshTestRuns d = true)
    ∧ (let i : Nat := 7
       let w : Nat := 4
       let s : State := st (pg ⟨.dieController, 7⟩ .ready { up with boot := { up.boot with complete := false, waves := [(7, 4)] } })
       let d := s.dev
       s.on ∧ s.dev.unrun = [] ∧ bringsUp d = true ∧ d.reset.phase = .starting ∧ d.boot.meshTested = true ∧ d.boot.complete
           = false ∧ i < 8 ∧ w < 5 ∧ d.boot.waves.get 0 i = w ∧ inState ⟨.dieController, i⟩ [.off, .retired] d = false) := by
  decide +kernel

/-- States and operands that meet the premises of clauses of BringUpCompletes, part 2. -/
theorem test_meets_BringUpCompletes_2 :
      (let u : Nat := uRouter 3
       let s : State := st (ust (uRouter 3) .ready up)
       let d := s.dev
       s.on ∧ s.dev.unrun = [] ∧ firmwareRuns d = true ∧ d.lead.safe = false ∧ unitExists u = true ∧ usable u d = true ∧
           d.always.leadSelect.map uComplex ≠ some u) := by
  decide +kernel

/-- States and operands that meet the premises of each clause of RunsLeaveTheirMark. -/
theorem test_meets_RunsLeaveTheirMark :
      (let d : Dev := mp (pUpd 23) (fun g => { g with cmd := some ⟨3, 0⟩ }) (pg (pUpd 23) .testing up)
       d.flash.cairn.length < 16384)
    ∧ (let c : Nat := 23
       let d : Dev := mp (pUpd 23) (fun g => { g with cmd := some ⟨3, 0⟩ }) (pg (pUpd 23) .testing up)
       (engOf c d).plans = [] ∧ (pageOf (pUpd c) d).holds = [] ∧ inProgress (pUpd c) 3 d = true) := by
  decide +kernel

/-- States and operands that meet the premises of each clause of PowerLoopCompletes. -/
theorem test_meets_PowerLoopCompletes :
      (let s : State := st (rg [(rPower 0x48, 600)] (ust (uSupervisor 159) .ready up))
       s.on ∧ firmwareRuns s.dev = true)
    ∧ (let s : State := st { pw (fun p => { p with inBarrier := true, floor := 3, barrierAt := 0 }) up with now := 200000000000 }
       let d := s.dev
       s.on ∧ firmwareRuns s.dev = true ∧ holdPassed d = true)
    ∧ (let s : State := st (ust (uSupervisor 159) .ready up)
       let d := s.dev
       s.on ∧ firmwareRuns s.dev = true ∧ holdPassed d = false)
    ∧ (let i : Nat := 159
       let s : State := st { rg [(rPower 0x48, 100)] (pw (fun p => { p with belowSince := [(159, 3)] }) (ust (uSupervisor 159) .ready up)) with now := 50000000 }
       let d := s.dev
       let p := d.power
       let t := 3
       s.on ∧ firmwareRuns s.dev = true ∧ p.belowSince = [(i, t)] ∧ supervisorUsable i d = true ∧ jobPace d ≠ 0 ∧ 10000000 ≤
           d.now - t) := by
  decide +kernel

/-- States and operands that meet the premises of each clause of TargetsComplete. -/
theorem test_meets_TargetsComplete :
      (let s : State := st (rg [(rPower 0x40, 4000), (rPower 0x44, 4800)] (pg pPower .active up))
       let d := s.dev
       let g := pageOf pPower d
       let j := rd (rPower 0x40) d
       let h := rd (rPower 0x44) d
       s.on ∧ mayCommand pPower d = true ∧ g.state = .active ∧ (j = 0 ∨ (100 ≤ j ∧ j ≤ 4000)) ∧ (h = 0 ∨ (1000 ≤ h ∧ h ≤
           designPower (variantOf d))))
    ∧ (let s : State := st (rg [(rPower 0x40, 4001), (rPower 0x44, 0)] (pg pPower .active up))
       let d := s.dev
       let g := pageOf pPower d
       let j := rd (rPower 0x40) d
       s.on ∧ mayCommand pPower d = true ∧ g.state = .active ∧ ((0 < j ∧ j < 100) ∨ 4000 < j))
    ∧ (let o : Nat := 2
       let s : State := st (pw (fun p => { p with opChange := some 2 }) up)
       let d := s.dev
       s.on ∧ d.power.opChange = some o)
    ∧ (let s : State := st up
       let d := s.dev
       s.on ∧ d.power.opChange = none) := by
  decide +kernel

/-- States and operands that meet the premises of clauses of SensorsComplete, part 1. -/
theorem test_meets_SensorsComplete_1 :
      (let n : Nat := 0
       let reading : Int := 950
       let s : State := st (hot ⟨some 300, false, none, 4999000⟩ ⟨some 1050, false, none, 4999000⟩ up)
       let d := s.dev
       let fresh := fun k => decide (d.now - max (sensorOf k d).convertedAt d.reset.releasedAt < 1000000)
       s.on ∧ n < 88 ∧ fresh n = true ∧ (sensorOf n d).faulted = false ∧ -200 ≤ reading ∧ reading ≤ 950)
    ∧ (let n : Nat := 0
       let reading : Int := 1401
       let b : Int := 1050
       let s : State := st (hot ⟨some 300, false, none, 4999000⟩ ⟨some 1050, false, none, 4999000⟩ up)
       let d := s.dev
       let fresh := fun k => decide (d.now - max (sensorOf k d).convertedAt d.reset.releasedAt < 1000000)
       let other := if n % 2 = 0 then n + 1 else n - 1
       s.on ∧ n < 88 ∧ (reading < -200 ∨ 1400 < reading) ∧ fresh other = true ∧ validReading other d = some b ∧ b ≤ 1050)
    ∧ (let n : Nat := 0
       let reading : Int := 1051
       let s : State := st (hot ⟨some 300, false, none, 4999000⟩ ⟨none, true, none, 4999000⟩ up)
       let d := s.dev
       let fresh := fun k => decide (d.now - max (sensorOf k d).convertedAt d.reset.releasedAt < 1000000)
       let other := if n % 2 = 0 then n + 1 else n - 1
       s.on ∧ n < 88 ∧ fresh n = true ∧ (sensorOf n d).faulted = false ∧ (sensorOf other d).faulted = true ∧ 1050 < reading
           ∧ reading ≤ 1400 ∧ d.always.hardTrip = false)
    ∧ (let n : Nat := 0
       let reading : Int := 950
       let s : State := st (hot ⟨some 300, true, some 4000000, 4999000⟩ ⟨none, true, none, 4999000⟩ up)
       let d := s.dev
       let fresh := fun k => decide (d.now - max (sensorOf k d).convertedAt d.reset.releasedAt < 1000000)
       s.on ∧ n < 88 ∧ (sensorOf n d).faulted = true ∧ (sensorOf n d).plausibleSince.any (fun t => decide (d.now - t <
           100000000)) = true ∧ fresh n = true ∧ -200 ≤ reading ∧ reading ≤ 1400)
    ∧ (let n : Nat := 0
       let s : State := st (hot ⟨some 300, false, none, 0⟩ ⟨none, true, none, 4999000⟩ up)
       let d := s.dev
       let fresh := fun k => decide (d.now - max (sensorOf k d).convertedAt d.reset.releasedAt < 1000000)
       s.on ∧ n < 88 ∧ fresh n = false) := by
  decide +kernel

/-- States and operands that meet the premises of clauses of SensorsComplete, part 2. -/
theorem test_meets_SensorsComplete_2 :
      (let n : Nat := 0
       let s : State := st (hot ⟨some 300, false, none, 4999000⟩ ⟨some 1050, false, none, 4999000⟩ up)
       let d := s.dev
       let fresh := fun k => decide (d.now - max (sensorOf k d).convertedAt d.reset.releasedAt < 1000000)
       s.on ∧ n < 88 ∧ fresh n = true ∧ spotTrips (n / 2) d = false)
    ∧ (let h : Nat := 0
       let a : Int := 300
       let b : Int := 1050
       let s : State := st { putSpot 0 ⟨none, false, none, some 3, 0⟩ (hot ⟨some 300, false, none, 4999000⟩ ⟨some 1050, false, none, 4999000⟩ up) with now := 60000000 }
       let d := s.dev
       s.on ∧ h < 44 ∧ validReading (2 * h) d = some a ∧ validReading (2 * h + 1) d = some b ∧ 60 < (a - b).natAbs ∧
           (hotSpot h d).split = false ∧ leadWatches d = true ∧ (hotSpot h d).apartSince.any (fun t => decide (50000000 <
           d.now - t)) = true)
    ∧ (let i : Nat := 159
       let s : State := st (pw (fun p => { p with shadow := [(159, [5, 4, 3, 2])] }) (ust (uSupervisor 159) .ready { up with flash := { up.flash with trims := [(478, 31)] } }))
       let d := s.dev
       let o := opPoint d
       s.on ∧ i < 160 ∧ supervisorUsable i d = true ∧ trimDue i d = true ∧ trimOf i o d < 32)
    ∧ (let i : Nat := 159
       let s : State := st (pw (fun p => { p with shadow := [(159, [5, 4, 3, 2])] }) (ust (uSupervisor 159) .ready { up with flash := { up.flash with trims := [(478, 32)] } }))
       let d := s.dev
       let o := opPoint d
       s.on ∧ i < 160 ∧ supervisorUsable i d = true ∧ trimDue i d = true ∧ 32 ≤ trimOf i o d)
    ∧ (let i : Nat := 159
       let s : State := st up
       let d := s.dev
       s.on ∧ trimDue i d = false)
    ∧ (let i : Nat := 159
       let s : State := st (hot ⟨some 300, false, none, 4999000⟩ ⟨some 1050, false, none, 4999000⟩ up)
       s.on ∧ i < 160) := by
  decide +kernel

/-- States and operands that meet the premises of each clause of CoolantCompletes. -/
theorem test_meets_CoolantCompletes :
      (let s : State := st up
       s.on)
    ∧ (let s : State := st { up with coolant := ⟨false, some 7, none, none, false⟩ }
       let d := s.dev
       let c := d.coolant
       s.on ∧ c.ok = false)
    ∧ (let s : State := st { up with coolant := ⟨false, some 7, none, none, false⟩ }
       let d := s.dev
       let c := d.coolant
       let t := 7
       s.on ∧ c.falling = some t ∧ 20000 ≤ d.now - t ∧ c.dropAt = none)
    ∧ (let s : State := st { up with coolant := ⟨false, some 7, none, some 5, false⟩ }
       let d := s.dev
       let c := d.coolant
       let t := 7
       s.on ∧ c.falling = some t ∧ 20000 ≤ d.now - t ∧ c.dropAt.isSome = true)
    ∧ (let s : State := st { up with coolant := ⟨false, some 4990000, none, none, false⟩ }
       let d := s.dev
       let c := d.coolant
       let t := 4990000
       s.on ∧ c.falling = some t ∧ d.now - t < 20000)
    ∧ (let s : State := st { up with coolant := ⟨true, none, some 7, some 5, false⟩ }
       let d := s.dev
       let c := d.coolant
       let t := 7
       s.on ∧ c.rising = some t ∧ c.tripped = false ∧ c.dropAt.isSome = true ∧ 1000000 ≤ d.now - t)
    ∧ (let s : State := st { up with coolant := ⟨true, none, some 7, some 5, true⟩ }
       let d := s.dev
       let c := d.coolant
       s.on ∧ c.tripped = true)
    ∧ (let s : State := st { up with coolant := ⟨false, none, none, some 7, false⟩, now := 100000000000 }
       let d := s.dev
       let c := d.coolant
       let t := 7
       s.on ∧ c.dropAt = some t ∧ c.tripped = false ∧ 1000000 * d.power.ceilings.grace ≤ d.now - t)
    ∧ (let s : State := st { up with coolant := ⟨false, none, none, some 7, false⟩ }
       let d := s.dev
       let c := d.coolant
       let t := 7
       s.on ∧ c.dropAt = some t ∧ c.tripped = false ∧ d.now - t < 1000000 * d.power.ceilings.grace) := by
  decide +kernel

/-- States and operands that meet the premises of each clause of HoldsStack. -/
theorem test_meets_HoldsStack :
      (let p : PageId := pCore 0
       let d : Dev := pg (pCore 0) .active up
       let g := pageOf p d
       (g.state = .ready ∨ g.state = .active))
    ∧ (let p : PageId := pCore 0
       let d : Dev := mp (pCore 0) (fun g => { g with holds := [.host] }) (pg (pCore 0) .quiesced up)
       let g := pageOf p d
       g.state = .quiesced)
    ∧ (let p : PageId := pCore 0
       let h : Hold := .coolant
       let d : Dev := mp (pCore 0) (fun g => { g with holds := [.coolant], before := .active }) (pg (pCore 0) .quiesced up)
       let g := pageOf p d
       p.ty ≠ .memoryController ∧ g.state = .quiesced ∧ g.holds = [h] ∧ (g.before = .ready ∨ g.before = .active))
    ∧ (let p : PageId := pCore 0
       let h : Hold := .coolant
       let k : Hold := .host
       let d : Dev := mp (pCore 0) (fun g => { g with holds := [.host, .coolant], before := .active }) (pg (pCore 0) .quiesced up)
       let g := pageOf p d
       k ≠ h ∧ g.state = .quiesced ∧ g.holds = [k, h]) := by
  decide +kernel

/-- States and operands that meet the premises of each clause of ResetsAreAccepted. -/
theorem test_meets_ResetsAreAccepted :
      (let arg : Nat := 1
       let s : State := st (pg pReset .ready (kern 3 4 up))
       let d := s.dev
       let source := 3 + arg % 4
       let l := mappedLevel source d
       s.on ∧ mayCommand pReset d = true ∧ stateOf pReset d = .ready ∧ arg % 4 ≤ 1 ∧ l < 3 ∧ d.reset.level = none)
    ∧ (let s : State := st (rst (fun r => { r with pinHigh := false, fellAt := some 1 }) up)
       let d := s.dev
       s.on ∧ d.reset.fellAt.any (fun t => decide (10000 ≤ d.now - t)) = true ∧ d.reset.pinHigh = false ∧ d.reset.pinTaken =
           false ∧ pinIgnored d = false ∧ mappedLevel 1 d < 3 ∧ d.reset.level = none)
    ∧ (let s : State := st (rst (fun r => { r with pinHigh := false, fellAt := some 4995000 }) up)
       let d := s.dev
       let t := 4995000
       s.on ∧ d.reset.fellAt = some t ∧ d.now - t < 10000)
    ∧ (let s : State := st (rst (fun r => { r with pinHigh := false, fellAt := some 1, level := some 2 }) up)
       let d := s.dev
       let lv := 2
       s.on ∧ d.reset.fellAt.any (fun t => decide (10000 ≤ d.now - t)) = true ∧ d.reset.pinHigh = false ∧ d.reset.pinTaken =
           false ∧ pinIgnored d = false ∧ mappedLevel 1 d < 3 ∧ d.reset.level = some lv ∧ mappedLevel 1 d ≤ lv) := by
  decide +kernel

/-- States and operands that meet the premises of clauses of ResetPinCompletes, part 1. -/
theorem test_meets_ResetPinCompletes_1 :
      (let s : State := st up
       s.on)
    ∧ (let s : State := st (rst (fun r => { r with level := some 0, phase := .draining }) { up with packets := [pk, { pk with dx := 0x40 }] })
       let d := s.dev
       let r := d.reset
       s.on ∧ r.level = some 0 ∧ r.phase = .draining)
    ∧ (let s : State := st (rst (fun r => { r with level := some 1, phase := .asserted, driving := true, pinHigh := false }) { up with always := { up.always with cause := 2 ^ 24 } })
       let d := s.dev
       let r := d.reset
       s.on ∧ heldInReset d = true ∧ r.driving = true ∧ atPowerOn d = false ∧ r.pinHigh = false ∧ 2000000 ≤ d.now -
           r.accepted)
    ∧ (let s : State := st (rst (fun r => { r with level := some 0, phase := .asserted, driving := true, pinHigh := true }) (ust (uRouter 7) .ready { up with always := { up.always with cause := 2 ^ 24 } }))
       let d := s.dev
       let r := d.reset
       s.on ∧ heldInReset d = true ∧ r.driving = true ∧ atPowerOn d = false ∧ r.pinHigh = true ∧ 2000000 ≤ d.now -
           r.accepted ∧ r.level = some 0)
    ∧ (let s : State := st (rst (fun r => { r with accepted := 4999000 }) up)
       let d := s.dev
       let r := d.reset
       s.on ∧ d.now - r.accepted < 2000000)
    ∧ (let s : State := st (rst (fun r => { r with level := some 1, phase := .pinHeld, driving := false, pinHigh := false }) up)
       let d := s.dev
       let r := d.reset
       s.on ∧ heldInReset d = true ∧ pinIgnored d = false ∧ r.pinHigh = false)
    ∧ (let s : State := st (rst (fun r => { r with level := some 1, phase := .pinHeld, driving := false, pinHigh := false }) up)
       let d := s.dev
       let r := d.reset
       s.on ∧ heldInReset d = true ∧ r.driving = false ∧ r.pinHigh = false ∧ r.level ≠ some 0)
    ∧ (let s : State := st up
       let d := s.dev
       s.on ∧ heldInReset d = false) := by
  decide +kernel

/-- States and operands that meet the premises of clauses of ResetPinCompletes, part 2. -/
theorem test_meets_ResetPinCompletes_2 :
      (let s : State := st (rst (fun r => { r with level := some 0, phase := .starting }) { pg pReset .ready up with startCause := .testFailed })
       let d := s.dev
       s.on ∧ recovered d = true) := by
  decide +kernel

/-- States and operands that meet the premises of clauses of BeaconsComplete, part 1. -/
theorem test_meets_BeaconsComplete_1 :
      (let i : Nat := 9
       let s : State := st (ust (uSupervisor 9) .ready (pg ⟨.dieController, 9⟩ .ready up))
       let d := s.dev
       s.on ∧ (leadRuns s.dev).isSome = true ∧ i < 160 ∧ unitState (uSupervisor i) d = .ready ∧ d.reset.phase = .starting)
    ∧ (let i : Nat := 9
       let s : State := st (ust (uSupervisor 9) .ready (ld (fun l => { l with missed := [(9, 3)], heard := [(9, 4500000)] }) up))
       let d := s.dev
       let missed := fun (k : Nat) (e : Dev) => e.lead.missed.get 0 k
       let due := fun k => 1000000 ≤ d.now - d.lead.heard.get d.lead.watchFrom k
       s.on ∧ (leadRuns s.dev).isSome = true ∧ i < 160 ∧ unitState (uSupervisor i) d = .ready ∧ d.reset.phase = .starting ∧
           ¬due i ∧ missed i d < 4)
    ∧ (let i : Nat := 9
       let s : State := st (ust (uSupervisor 9) .ready (pg ⟨.dieController, 9⟩ .ready up))
       let d := s.dev
       let missed := fun (k : Nat) (e : Dev) => e.lead.missed.get 0 k
       let due := fun k => 1000000 ≤ d.now - d.lead.heard.get d.lead.watchFrom k
       s.on ∧ (leadRuns s.dev).isSome = true ∧ i < 160 ∧ unitState (uSupervisor i) d = .ready ∧ d.reset.phase = .starting ∧
           due i ∧ missed i d < 3)
    ∧ (let i : Nat := 9
       let s : State := st (ust (uSupervisor 9) .ready (ld (fun l => { l with missed := [(9, 3)] }) up))
       let d := s.dev
       let missed := fun (k : Nat) (e : Dev) => e.lead.missed.get 0 k
       let due := fun k => 1000000 ≤ d.now - d.lead.heard.get d.lead.watchFrom k
       s.on ∧ (leadRuns s.dev).isSome = true ∧ i < 160 ∧ unitState (uSupervisor i) d = .ready ∧ d.reset.phase = .starting ∧
           due i ∧ 3 ≤ missed i d)
    ∧ (let i : Nat := 9
       let s : State := st (ust (uSupervisor 9) .ready (pg ⟨.dieController, 9⟩ .ready up))
       let d := s.dev
       s.on ∧ (leadRuns s.dev).isSome = true ∧ i < 10 ∧ usable (uDie i) d = true) := by
  decide +kernel

/-- States and operands that meet the premises of clauses of BeaconsComplete, part 2. -/
theorem test_meets_BeaconsComplete_2 :
      (let i : Nat := 9
       let s : State := st (pg ⟨.dieController, 9⟩ .ready (ld (fun l => { l with missed := [(169, 3)], heard := [(169, 4500000)] }) up))
       let d := s.dev
       let missed := fun (k : Nat) (e : Dev) => e.lead.missed.get 0 k
       let due := fun k => 1000000 ≤ d.now - d.lead.heard.get d.lead.watchFrom k
       s.on ∧ (leadRuns s.dev).isSome = true ∧ i < 10 ∧ usable (uDie i) d = true ∧ ¬due (160 + i) ∧ missed (160 + i) d < 4)
    ∧ (let i : Nat := 9
       let s : State := st (ust (uSupervisor 9) .ready (pg ⟨.dieController, 9⟩ .ready up))
       let d := s.dev
       let missed := fun (k : Nat) (e : Dev) => e.lead.missed.get 0 k
       let due := fun k => 1000000 ≤ d.now - d.lead.heard.get d.lead.watchFrom k
       s.on ∧ (leadRuns s.dev).isSome = true ∧ i < 10 ∧ usable (uDie i) d = true ∧ due (160 + i) ∧ missed (160 + i) d < 3)
    ∧ (let i : Nat := 9
       let s : State := st (pg ⟨.dieController, 9⟩ .ready (ld (fun l => { l with missed := [(169, 3)] }) up))
       let d := s.dev
       let missed := fun (k : Nat) (e : Dev) => e.lead.missed.get 0 k
       let due := fun k => 1000000 ≤ d.now - d.lead.heard.get d.lead.watchFrom k
       s.on ∧ (leadRuns s.dev).isSome = true ∧ i < 10 ∧ usable (uDie i) d = true ∧ due (160 + i) ∧ 3 ≤ missed (160 + i) d)
    ∧ (let s : State := st (ust (uSupervisor 9) .ready (pg ⟨.dieController, 9⟩ .ready up))
       let d := s.dev
       let due := fun k => 1000000 ≤ d.now - d.lead.heard.get d.lead.watchFrom k
       let k := 3
       s.on ∧ (leadRuns s.dev).isSome = true ∧ due k)
    ∧ (let s : State := st { up with now := 10000000 }
       let d := s.dev
       s.on ∧ (leadRuns s.dev).isSome = true ∧ 10000000 ≤ d.now - d.lead.beaconAt)
    ∧ (let s : State := st (ust (uSupervisor 9) .ready (pg ⟨.dieController, 9⟩ .ready up))
       let d := s.dev
       s.on ∧ (leadRuns s.dev).isSome = true ∧ d.now - d.lead.beaconAt < 10000000) := by
  decide +kernel

/-- States and operands that meet the premises of clauses of ControlCyclesComplete, part 1. -/
theorem test_meets_ControlCyclesComplete_1 :
      (let m : CycleInputs := cycle0
       let i : Nat := 0
       let s : State := st (duo .fenced up)
       let d := s.dev
       s.on ∧ leadRuns s.dev = some i ∧ s.dev.lead.takeover = none ∧ inRole .second d = none ∧ d.lead.cycle = none ∧
           d.lead.latches = [] ∧ m.failedCheck = none)
    ∧ (let m : CycleInputs := cycle0
       let i : Nat := 0
       let j : Nat := 1
       let s : State := st (duo .second up)
       let d := s.dev
       s.on ∧ leadRuns s.dev = some i ∧ s.dev.lead.takeover = none ∧ inRole .second d = some j ∧ d.lead.cycle = none ∧
           m.failedCheck = none)
    ∧ (let m : CycleInputs := { cycle0 with overrun := true, failedCheck := some 9 }
       let i : Nat := 0
       let code : Nat := 9
       let s : State := st (duo .second up)
       let d := s.dev
       s.on ∧ leadRuns s.dev = some i ∧ s.dev.lead.takeover = none ∧ d.lead.cycle = none ∧ m.failedCheck = some code)
    ∧ (let c : OpenCycle := ⟨cycle0, [], false, 7⟩
       let i : Nat := 0
       let j : Nat := 1
       let s : State := st (ld (fun l => { l with cycle := some c }) (duo .second up))
       let d := s.dev
       s.on ∧ leadRuns s.dev = some i ∧ s.dev.lead.takeover = none ∧ inRole .second d = some j ∧ d.lead.cycle = some c ∧
           c.judged = []) := by
  decide +kernel

/-- States and operands that meet the premises of clauses of ControlCyclesComplete, part 2. -/
theorem test_meets_ControlCyclesComplete_2 :
      (let c : OpenCycle := ⟨cycle0, [], false, 7⟩
       let i : Nat := 0
       let j : Nat := 1
       let s : State := st (ld (fun l => { l with cycle := some c }) (duo .second up))
       let d := s.dev
       s.on ∧ leadRuns s.dev = some i ∧ s.dev.lead.takeover = none ∧ inRole .second d = some j ∧ d.lead.cycle = some c ∧
           c.resent = false ∧ 10000 ≤ d.now - c.sentAt)
    ∧ (let c : OpenCycle := ⟨cycle0, [], false, 4999999⟩
       let i : Nat := 0
       let s : State := st (ld (fun l => { l with cycle := some c }) (duo .second up))
       let d := s.dev
       s.on ∧ leadRuns s.dev = some i ∧ s.dev.lead.takeover = none ∧ d.lead.cycle = some c ∧ d.now - c.sentAt < 10000) := by
  decide +kernel

/-- States and operands that meet the premises of clauses of TakeoversComplete, part 1. -/
theorem test_meets_TakeoversComplete_1 :
      (let i : Nat := 0
       let j : Nat := 1
       let s : State := st (duo .second up)
       let d := s.dev
       s.on ∧ leadRuns d = some i ∧ inRole .second d = some j ∧ d.lead.takeover = none ∧ 300000 ≤ d.now - d.lead.cycleEnd)
    ∧ (let i : Nat := 0
       let j : Nat := 1
       let s : State := st (ld (fun l => { l with cycleEnd := 4999999 }) (duo .second up))
       let d := s.dev
       s.on ∧ leadRuns d = some i ∧ inRole .second d = some j ∧ d.lead.takeover = none ∧ d.now - d.lead.cycleEnd < 300000)
    ∧ (let i : Nat := 0
       let j : Nat := 1
       let s : State := st (duo .second up)
       let d := s.dev
       s.on ∧ leadRuns d = some i ∧ inRole .second d = some j ∧ d.lead.takeover = none ∧ 300000 ≤ d.now - d.lead.recordAt)
    ∧ (let i : Nat := 0
       let j : Nat := 1
       let s : State := st (ld (fun l => { l with recordAt := 4999999 }) (duo .second up))
       let d := s.dev
       s.on ∧ leadRuns d = some i ∧ inRole .second d = some j ∧ d.lead.takeover = none ∧ d.now - d.lead.recordAt < 300000)
    ∧ (let i : Nat := 0
       let s : State := st (duo .fenced up)
       let d := s.dev
       s.on ∧ leadRuns d = some i ∧ inRole .second d = none ∧ 300000 ≤ d.now - d.lead.cycleEnd)
    ∧ (let i : Nat := 0
       let s : State := st (duo .fenced up)
       let d := s.dev
       s.on ∧ leadRuns d = some i ∧ inRole .second d = none) := by
  decide +kernel

/-- States and operands that meet the premises of clauses of TakeoversComplete, part 2. -/
theorem test_meets_TakeoversComplete_2 :
      (let t : TakeoverSt := ⟨0, 4, 100, false, false⟩
       let s : State := st (ld (fun l => { l with takeover := some t }) { duo .second up with always := { up.always with leadSelect := none } })
       let d := s.dev
       s.on ∧ d.lead.takeover = some t ∧ d.lead.handover = false ∧ t.claimed = false)
    ∧ (let t : TakeoverSt := ⟨0, 4, 100, true, false⟩
       let s : State := st (ld (fun l => { l with takeover := some t }) { duo .second up with always := { up.always with leadSelect := some 1 } })
       let d := s.dev
       s.on ∧ leadWatches d = true ∧ d.lead.takeover = some t ∧ d.lead.handover = false ∧ t.claimed = true ∧ t.passed =
           false)
    ∧ (let i : Nat := 0
       let j : Nat := 1
       let s : State := st (putComplex 1 ⟨.rejoining, 5, 2⟩ (duo .rejoining up))
       let d := s.dev
       s.on ∧ leadRuns d = some i ∧ inRole .rejoining d = some j ∧ readsFormat (complexOf j d) (complexOf i d) = true)
    ∧ (let i : Nat := 0
       let j : Nat := 1
       let s : State := st (putComplex 1 ⟨.rejoining, 5, 3⟩ (duo .rejoining up))
       let d := s.dev
       s.on ∧ leadRuns d = some i ∧ inRole .rejoining d = some j ∧ readsFormat (complexOf j d) (complexOf i d) = false) := by
  decide +kernel

/-- States and operands that meet the premises of each clause of SafeStateStands. -/
theorem test_meets_SafeStateStands :
      (let d : Dev := { duo .second up with fused := { shippedFuses with resetMap := 0xFFFF } }
       mappedLevel 2 d = 3 ∧ d.boot.phase = .running) := by
  decide +kernel

/-- States and operands that meet the premises of each clause of CommonCommandCodesComplete. -/
theorem test_meets_CommonCommandCodesComplete :
      (let s : State := st up
       s.on ∧ frontEnd s.dev = true)
    ∧ (let s : State := st up
       let d := s.dev
       let m := d.mgmt
       s.on ∧ frontEnd s.dev = true ∧ m.address = none)
    ∧ (let s : State := st (mg (fun m => { m with address := some 9 }) up)
       let d := s.dev
       let m := d.mgmt
       s.on ∧ frontEnd s.dev = true ∧ m.address.isSome = true) := by
  decide +kernel

/-- States and operands that meet the premises of each clause of MctpControlCompletes. -/
theorem test_meets_MctpControlCompletes :
      (let eid : Nat := 254
       let s : State := st (duo .second up)
       s.on ∧ mgmtAnswers s.dev = true ∧ 8 ≤ eid ∧ eid < 255)
    ∧ (let eid : Nat := 255
       let s : State := st (duo .second up)
       s.on ∧ mgmtAnswers s.dev = true ∧ (eid < 8 ∨ 255 ≤ eid))
    ∧ (let s : State := st (duo .second up)
       s.on ∧ mgmtAnswers s.dev = true)
    ∧ (let mtype : Nat := 5
       let s : State := st (duo .second up)
       s.on ∧ mgmtAnswers s.dev = true ∧ mtype ≠ 0 ∧ mtype ≠ 1 ∧ mtype ≠ 0x7F)
    ∧ (let s : State := st { mg (fun m => { m with incoming := some 7 }) (duo .second up) with now := 100000007 }
       let d := s.dev
       let t := 7
       s.on ∧ mgmtAnswers s.dev = true ∧ d.mgmt.incoming = some t ∧ 100000000 ≤ d.now - t)
    ∧ (let s : State := st (mg (fun m => { m with incoming := some 7 }) (duo .second up))
       let d := s.dev
       let t := 7
       s.on ∧ mgmtAnswers s.dev = true ∧ d.mgmt.incoming = some t ∧ d.now - t < 100000000) := by
  decide +kernel

/-- States and operands that meet the premises of each clause of PldmCompletes. -/
theorem test_meets_PldmCompletes :
      (let s : State := st (duo .second up)
       s.on ∧ mgmtAnswers s.dev = true ∧ s.dev.boot.phase = .running)
    ∧ (let n : Nat := 254
       let s : State := st (duo .second up)
       s.on ∧ mgmtAnswers s.dev = true ∧ s.dev.boot.phase = .running ∧ n ≠ 0 ∧ n < 255)
    ∧ (let b : Nat := 13
       let s : State := st (mg (fun m => { m with events := 0x2000 }) (duo .second up))
       let d := s.dev
       s.on ∧ mgmtAnswers s.dev = true ∧ s.dev.boot.phase = .running ∧ b < 14 ∧ bitOf d.mgmt.events b = true ∧ (∀ k < b,
           bitOf d.mgmt.events k = false))
    ∧ (let s : State := st (mg (fun m => { m with events := 0 }) (duo .second up))
       let d := s.dev
       s.on ∧ mgmtAnswers s.dev = true ∧ s.dev.boot.phase = .running ∧ d.mgmt.events = 0)
    ∧ (let ptype : Nat := 2
       let cmd : Nat := 0x77
       let s : State := st (duo .second up)
       s.on ∧ mgmtAnswers s.dev = true ∧ s.dev.boot.phase = .running ∧ (pldmCommands ptype).contains cmd = false) := by
  decide +kernel

/-- States and operands that meet the premises of clauses of VendorReadsComplete, part 1. -/
theorem test_meets_VendorReadsComplete_1 :
      (let s : State := st (mg (fun m => { m with events := 5, silenced := true }) (duo .second up))
       s.on ∧ mgmtAnswers s.dev = true ∧ s.dev.boot.phase = .running)
    ∧ (let b : List Byte := [1]
       let s : State := st (mg (fun m => { m with events := 5, silenced := true }) (duo .second up))
       s.on ∧ mgmtAnswers s.dev = true ∧ s.dev.boot.phase = .running ∧ b ≠ [])
    ∧ (let b : List Byte := [13, 64, 0, 0]
       let s : State := st (mg (fun m => { m with events := 5, silenced := true }) (duo .second up))
       let c := leAt b 0 1
       s.on ∧ mgmtAnswers s.dev = true ∧ s.dev.boot.phase = .running ∧ b.length = 4 ∧ 1 ≤ c ∧ c ≤ 13 ∧ leAt b 1 1 ≤ 64 ∧
           leAt b 2 2 ≤ lastIndex c)
    ∧ (let b : List Byte := [14, 0, 0, 0]
       let s : State := st (mg (fun m => { m with events := 5, silenced := true }) (duo .second up))
       let c := leAt b 0 1
       s.on ∧ mgmtAnswers s.dev = true ∧ s.dev.boot.phase = .running ∧ b.length = 4 ∧ (c = 0 ∨ 13 < c))
    ∧ (let b : List Byte := [0, 0, 64, 0]
       let s : State := st (mg (fun m => { m with events := 5, silenced := true }) (duo .second up))
       s.on ∧ mgmtAnswers s.dev = true ∧ s.dev.boot.phase = .running ∧ b.length = 4 ∧ leAt b 3 1 = 0 ∧ leAt b 2 1 ≤ 64) := by
  decide +kernel

/-- States and operands that meet the premises of clauses of VendorReadsComplete, part 2. -/
theorem test_meets_VendorReadsComplete_2 :
      (let b : List Byte := [0, 0]
       let s : State := st { duo .second up with flash := { up.flash with staged := some ⟨zeros 8 ++ List.replicate 64 1, []⟩ } }
       let d := s.dev
       s.on ∧ mgmtAnswers s.dev = true ∧ s.dev.boot.phase = .running ∧ b.length = 2 ∧ leAt b 0 2 < stagedPieces d)
    ∧ (let b : List Byte := [3, 0]
       let s : State := st (mg (fun m => { m with events := 5, silenced := true }) (duo .second up))
       let key := leAt b 0 2
       s.on ∧ mgmtAnswers s.dev = true ∧ s.dev.boot.phase = .running ∧ b.length = 2 ∧ keyKnown key = true)
    ∧ (let b : List Byte := [0, 0, 0, 0, 0, 4]
       let s : State := st (mg (fun m => { m with events := 5, silenced := true }) (duo .second up))
       s.on ∧ mgmtAnswers s.dev = true ∧ s.dev.boot.phase = .running ∧ b.length = 6 ∧ leAt b 4 2 ≤ 1024 ∧ leAt b 0 4 ≤
           Config.certificateChain.length)
    ∧ (let cmd : Nat := 0x77
       let s : State := st (mg (fun m => { m with events := 5, silenced := true }) (duo .second up))
       s.on ∧ mgmtAnswers s.dev = true ∧ s.dev.boot.phase = .running ∧ vendorCommands.contains cmd = false) := by
  decide +kernel

/-- States and operands that meet the premises of clauses of VendorSettingsComplete, part 1. -/
theorem test_meets_VendorSettingsComplete_1 :
      (let b : List Byte := [0x01, 0x80] ++ leBytes 2 1000 ++ zeros 12
       let s : State := st (duo .second up)
       let d := s.dev
       let valid := leAt b 0 2
       let design := designPower (variantOf d)
       s.on ∧ mgmtAnswers s.dev = true ∧ s.dev.boot.phase = .running ∧ b.length = 16 ∧ ceilingsEncoded b = true ∧
           ceilingsInRange valid design (ceilingsOf b) = true ∧ bitOf valid 6 = false)
    ∧ (let b : List Byte := [0x40, 0x00] ++ zeros 10 ++ [2, 0, 0, 0]
       let s : State := st (duo .second up)
       let d := s.dev
       let valid := leAt b 0 2
       let design := designPower (variantOf d)
       s.on ∧ mgmtAnswers s.dev = true ∧ s.dev.boot.phase = .running ∧ b.length = 16 ∧ ceilingsEncoded b = true ∧
           ceilingsInRange valid design (ceilingsOf b) = true ∧ bitOf valid 6 = true ∧ coreActive d = false ∧ leAt b 12 1 ≠
           d.power.ceilings.opPoint)
    ∧ (let b : List Byte := [0x01, 0x00] ++ leBytes 2 4801 ++ zeros 12
       let s : State := st (duo .second up)
       let d := s.dev
       let valid := leAt b 0 2
       let design := designPower (variantOf d)
       s.on ∧ mgmtAnswers s.dev = true ∧ s.dev.boot.phase = .running ∧ b.length = 16 ∧ ceilingsEncoded b = true ∧
           ceilingsInRange valid design (ceilingsOf b) = false)
    ∧ (let b : List Byte := leBytes 2 3600 ++ leBytes 2 1000 ++ [1, 0, 0, 0]
       let s : State := st (duo .second up)
       let d := s.dev
       let valid := leAt b 0 2
       let design := designPower (variantOf d)
       s.on ∧ mgmtAnswers s.dev = true ∧ s.dev.boot.phase = .running ∧ b.length = 8 ∧ leAt b 4 1 ≤ 1 ∧ leAt b 5 3 = 0 ∧
           valid ≤ 3600 ∧ (valid = 0 ∨ within 1000 design (leAt b 2 2) = true)) := by
  decide +kernel

/-- States and operands that meet the premises of clauses of VendorSettingsComplete, part 2. -/
theorem test_meets_VendorSettingsComplete_2 :
      (let s : State := st { pw (fun p => { p with silenceTime := 5, silenceCeiling := 1000 }) (duo .second up) with now := 5000000000 }
       let d := s.dev
       s.on ∧ mgmtAnswers s.dev = true ∧ s.dev.boot.phase = .running ∧ (leadRuns d).isSome = true ∧ d.power.silenceTime ≠ 0
           ∧ d.mgmt.silenced = false ∧ 1000000000 * d.power.silenceTime ≤ d.now - d.mgmt.heard)
    ∧ (let b : List Byte := [3, 0, 4, 0, 1, 0, 0, 0]
       let s : State := st (duo .second up)
       let valid := leAt b 0 2
       s.on ∧ mgmtAnswers s.dev = true ∧ s.dev.boot.phase = .running ∧ b.length = 8 ∧ valid = 3 ∧ leAt b 2 2 = 4)
    ∧ (let b : List Byte := leBytes 4 (uCore 5)
       let s : State := st { duo .second up with flash := { up.flash with cairn := [⟨uCore 5, 1, 1⟩, ⟨uCore 6, 1, 1⟩] } }
       let d := s.dev
       let w := leAt b 0 4
       s.on ∧ mgmtAnswers s.dev = true ∧ s.dev.boot.phase = .running ∧ b.length = 4 ∧ fieldOf w 30 24 = 0 ∧ bitOf w 31 =
           false ∧ isFused (w % 2 ^ 24) d = false) := by
  decide +kernel

/-- States and operands that meet the premises of clauses of OrdersComplete, part 1. -/
theorem test_meets_OrdersComplete_1 :
      (let b : List Byte := [2]
       let s : State := st (duo .second up)
       let d := s.dev
       let level := leAt b 0 1
       s.on ∧ mgmtAnswers s.dev = true ∧ s.dev.boot.phase = .running ∧ s.dev.unrun = [] ∧ b.length = 1 ∧ level ≤ 2 ∧
           mappedLevel (5 + level) d < 3 ∧ d.reset.level = none)
    ∧ (let s : State := st (duo .second up)
       let d := s.dev
       s.on ∧ mgmtAnswers s.dev = true ∧ s.dev.boot.phase = .running ∧ s.dev.unrun = [] ∧ d.mgmt.orderState ≠ 1)
    ∧ (let s : State := st (mg (fun m => { m with orderState := 1 }) (duo .second up))
       let d := s.dev
       s.on ∧ mgmtAnswers s.dev = true ∧ s.dev.boot.phase = .running ∧ s.dev.unrun = [] ∧ d.mgmt.orderState = 1)
    ∧ (let i : Nat := 0
       let s : State := st (duo .second (pg pModule .ready up))
       let d := s.dev
       s.on ∧ mgmtAnswers s.dev = true ∧ s.dev.boot.phase = .running ∧ s.dev.unrun = [] ∧ handoverChecks d = [(false, 6),
           (false, 8)] ∧ d.always.leadSelect = some i)
    ∧ (let j : Nat := 1
       let s : State := st (duo .second (pg pModule .ready up))
       let d := s.dev
       s.on ∧ mgmtAnswers s.dev = true ∧ s.dev.boot.phase = .running ∧ s.dev.unrun = [] ∧ restartChecks d = [(false, 6),
           (false, 8)] ∧ restartTarget d = some j) := by
  decide +kernel

/-- States and operands that meet the premises of clauses of OrdersComplete, part 2. -/
theorem test_meets_OrdersComplete_2 :
      (let s : State := st (duo .second up)
       s.on ∧ mgmtAnswers s.dev = true ∧ s.dev.boot.phase = .running ∧ s.dev.unrun = []) := by
  decide +kernel

/-- States and operands that meet the premises of clauses of StagingCompletes, part 1. -/
theorem test_meets_StagingCompletes_1 :
      (let b : List Byte := zeros 8336
       let s : State := st (duo .second up)
       let d := s.dev
       s.on ∧ mgmtAnswers s.dev = true ∧ s.dev.boot.phase = .running ∧ b.length = 8336 ∧ d.mgmt.activation = none ∧
           d.flash.staged = none)
    ∧ (let b : List Byte := [0, 0, 0, 0, 2, 0, 7, 8]
       let set : FwSet := ⟨zeros 8 ++ List.replicate 64 1, []⟩
       let s : State := st { duo .second up with flash := { up.flash with staged := some set } }
       let d := s.dev
       let i := leAt b 0 2
       s.on ∧ mgmtAnswers s.dev = true ∧ s.dev.boot.phase = .running ∧ b.length = 6 + leAt b 4 2 ∧ leAt b 4 2 ≤ 4096 ∧ i <
           stagedPieces d ∧ leAt b 2 2 + leAt b 4 2 ≤ pieceLength i d ∧ writes b d = true ∧ ((assemblyOf i d).isSome = true
           ∨ d.mgmt.assemblies.length < 4))
    ∧ (let b : List Byte := [0, 0] ++ zeros 32
       let set : FwSet := ⟨zeros 8 ++ List.replicate 64 1, []⟩
       let s : State := st { duo .second up with flash := { up.flash with staged := some set } }
       let d := s.dev
       let i := leAt b 0 2
       s.on ∧ mgmtAnswers s.dev = true ∧ s.dev.boot.phase = .running ∧ b.length = 34 ∧ i < stagedPieces d ∧ d.flash.staged =
           some set ∧ d.flash.pieces.contains i = false)
    ∧ (let s : State := st (duo .second up)
       let d := s.dev
       s.on ∧ mgmtAnswers s.dev = true ∧ s.dev.boot.phase = .running ∧ d.mgmt.activation = none) := by
  decide +kernel

/-- States and operands that meet the premises of clauses of StagingCompletes, part 2. -/
theorem test_meets_StagingCompletes_2 :
      (let b : List Byte := [1]
       let s : State := st { duo .second up with flash := { up.flash with staged := some ⟨zeros 100, []⟩ } }
       let d := s.dev
       s.on ∧ mgmtAnswers s.dev = true ∧ s.dev.boot.phase = .running ∧ b.length = 1 ∧ leAt b 0 1 ≤ 1 ∧ d.mgmt.orderState ≠ 1
           ∧ stagingState d = 2 ∧ d.reset.level = none ∧ coolantStopped d = false ∧ d.always.hardTrip = false)
    ∧ (let tries : Nat := 2
       let adv : Bool := true
       let set : FwSet := ⟨zeros 8 ++ List.replicate 64 1, []⟩
       let s : State := st (mg (fun m => { m with activation := some (true, 2) }) { duo .second up with flash := { up.flash with staged := some set } })
       let d := s.dev
       s.on ∧ mgmtAnswers s.dev = true ∧ s.dev.boot.phase = .running ∧ d.mgmt.activation = some (adv, tries) ∧
           d.flash.staged = some set)
    ∧ (let tries : Nat := 2
       let adv : Bool := true
       let set : FwSet := ⟨zeros 8 ++ List.replicate 64 1, []⟩
       let s : State := st (mg (fun m => { m with activation := some (true, 2) }) { duo .second up with flash := { up.flash with staged := some set } })
       let d := s.dev
       s.on ∧ mgmtAnswers s.dev = true ∧ s.dev.boot.phase = .running ∧ d.mgmt.activation = some (adv, tries) ∧
           d.flash.staged = some set ∧ tries < 3) := by
  decide +kernel

/-- States and operands that meet the premises of each clause of AttestationAndDebugComplete. -/
theorem test_meets_AttestationAndDebugComplete :
      (let b : List Byte := zeros 34 ++ [64, 0]
       let s : State := st (duo .second up)
       let d := s.dev
       s.on ∧ mgmtAnswers s.dev = true ∧ s.dev.boot.phase = .running ∧ b.length = 36 ∧ leAt b 35 1 = 0 ∧ leAt b 34 1 ≤ 64 ∧
           leAt b 32 2 ≤ s.mlog.length ∧ d.mgmt.attest = none)
    ∧ (let bytes : List Byte := [1]
       let s : State := st (mg (fun m => { m with attest := some [1] }) (duo .second up))
       let d := s.dev
       s.on ∧ mgmtAnswers s.dev = true ∧ s.dev.boot.phase = .running ∧ d.mgmt.attest = some bytes)
    ∧ (let s : State := st (duo .second up)
       s.on ∧ mgmtAnswers s.dev = true ∧ s.dev.boot.phase = .running)
    ∧ (let b : List Byte := zeros 34 ++ [64, 0]
       let s : State := st (duo .second up)
       s.on ∧ mgmtAnswers s.dev = true ∧ s.dev.boot.phase = .running ∧ b.length ≠ 7908) := by
  decide +kernel

/-- States and operands that meet the premises of each clause of JtagCompletes. -/
theorem test_meets_JtagCompletes :
      (let s : State := st { up with jtag := { up.jtag with held := false, instr := .bypass, bit := true } }
       let d := s.dev
       let j := d.jtag
       s.on ∧ j.held = false)
    ∧ (let s : State := st up
       let d := s.dev
       let j := d.jtag
       s.on ∧ j.held = true)
    ∧ (let s : State := st { up with jtag := { up.jtag with held := false, instr := .bypass, bit := true } }
       s.on) := by
  decide +kernel


/-! ### Ill-formed commands: one for each check of WellFormed, which refuses it -/

def noNoise : FlitNoise := ⟨0, 0⟩
def flitOf256 : List Byte := zeros 256
def romSlot (n : Nat) : RomResults := ⟨true, true, true, false, true, [], true, true, n⟩
def romOk : RomResults := romSlot 0
def quietPeriod : Activity := ⟨List.replicate 160 ⟨0, 0, 0, 0, 0, 0, 0, 0, 0, 0⟩, List.replicate 10 0, List.replicate 160 0⟩

theorem test_wellFormed_refuses_0 : List.all
  [.quiesce .module 1, .quiescedAtSafePoint .module 1, .resume .module 1, .retest .module 1, .retire .module 1 0,
   .retire .core 0 16777216, .load .module 1 0, .load .core 0 16777216, .retrain .module 1 0, .retrain .core 0 16777216,
   .selfFault 16777216, .ownerRetest 16777216, .pageNegotiate .module 1 0, .pageError .module 1 0,
   .pageEvents .module 1 0 0, .pageEventMask .module 1 0, .registerWrite 67108864 0, .loRead 67108864, .hiWrite 67108864 0,
   .rcRead 67108864 true, .dataFlit (zeros 255) [], .dataFlit flitOf256 [⟨256, 1⟩], .replayRequest ⟨(zeros 255), []⟩,
   .replayRequest ⟨flitOf256, [⟨256, 1⟩]⟩, .regRead32 4096 0, .regRead64 4096 0, .regWrite32 4096 0 0, .regWrite64 4096 0 0,
   .dmaReadData 4096 0 true [], .unusedOpcode ⟨256, 0⟩]
    (fun i => !wellFormed i) = true := by decide +kernel

theorem test_wellFormed_refuses_1 : List.all
  [.unusedOpcode ⟨0, 65536⟩, .cohSnoopInv ⟨4096, 0⟩, .cohSnoopShare ⟨4096, 0⟩, .cohGrant ⟨4096, 0⟩ true (zeros 64),
   .cohGrant ⟨0, 0⟩ true (zeros 63), .cohWbAck ⟨4096, 0⟩, .queueEnable 16777216, .queueDisable 16777216, .ringEnable 16777216,
   .ringDisable 16777216, .doorbell 16 0, .nop 16, .hostToModule 16, .moduleToHost 16, .slotFill 16, .attach 16777216,
   .descriptorComplete 16, .eConsumer 8 0, .intHoldoff 8, .openContext 16777216, .closeContext 16777216, .contextDrained 8,
   .scalarInstruction 2560, .ecall 2560, .fenceI 2560, .mret 2560, .vxbeacon 2560, .vxseed 2560 0, .mxIssue 2560 0 0,
   .mxIssue 0 32 0, .mxIssue 0 0 32]
    (fun i => !wellFormed i) = true := by decide +kernel

theorem test_wellFormed_refuses_2 : List.all
  [.vxIssue 2560 0 0, .vxIssue 0 32 0, .vxIssue 0 0 32, .msgSend 2560 0 0, .msgSend 0 32 0, .msgSend 0 0 32,
   .engWait 2560 0 0 0, .engWait 0 32 0 0, .engWait 0 0 32 0, .engWait 0 0 0 32, .engPoll 2560 0 0, .engPoll 0 32 0,
   .engPoll 0 0 32, .flagRead 2560 0 0, .flagRead 0 32 0, .flagRead 0 0 4096, .flagAdd 2560 0 0 0, .flagAdd 0 32 0 0,
   .flagAdd 0 0 32 0, .flagAdd 0 0 0 4096, .flagSet 2560 0 0 0, .flagSet 0 32 0 0, .flagSet 0 0 32 0, .flagSet 0 0 0 4096,
   .flagWait 2560 0 0 0, .flagWait 0 32 0 0, .flagWait 0 0 32 0, .flagWait 0 0 0 4096, .flagTest 2560 0 0 0,
   .flagTest 0 32 0 0]
    (fun i => !wellFormed i) = true := by decide +kernel

theorem test_wellFormed_refuses_3 : List.all
  [.flagTest 0 0 32 0, .flagTest 0 0 0 4096, .waitSatisfied 2560, .waitTimeout 2560, .beaconReq 2560, .matmul 2560,
   .add 2560, .sub 2560, .mul 2560, .fma 2560, .max 2560, .min 2560, .copy 2560, .transpose 2560, .exp2 2560, .log2 2560,
   .recip 2560, .rsqrt 2560, .tanh 2560, .sigmoid 2560, .erf 2560, .rsum 2560, .rmax 2560, .rmin 2560, .rsumsq 2560,
   .ramax 2560, .messagePut 2560, .messageGet 2560, .rowMulticast 2560, .columnMulticast 2560]
    (fun i => !wellFormed i) = true := by decide +kernel

theorem test_wellFormed_refuses_4 : List.all
  [.counterMessage 2560, .updateQueueMessage 2560, .engineCommandComplete 2560 0 0, .engineCommandComplete 0 3 0,
   .engineCommandComplete 0 0 4294967296, .msgStall 2560 0, .msgStall 0 4294967296, .sramScrub 2560 0 0,
   .sramScrub 0 2097152 0, .start 2560 0, .start 0 16777216, .stop 2560, .kernelEnd 2560,
   .routerFlit 2560 .north 0 noNoise noNoise, .targetEntryTimeout 2560, .sourceMessageTimeout 2560, .scrubStep 24 [],
   .scrubStep 0 [.marks 384 0 0 1], .scrubStep 0 [.marks 0 0 3 1], .scrubStep 0 [.burst 384 0], .scrubNow 24,
   .wck2dqRead 24 [], .mr4Read 24 0 true, .channelRetrainStart 24 0, .channelRetrainStart 0 16, .channelRetrainEnd 24 [],
   .injectCtrl 24 0, .selfRefreshEntry 24, .enablePlan 24 0, .enablePlan 0 16777216]
    (fun i => !wellFormed i) = true := by decide +kernel

theorem test_wellFormed_refuses_5 : List.all
  [.disablePlan 24 0, .disablePlan 0 16777216, .arm 24 0, .arm 0 16777216, .disarm 24 0, .disarm 0 16777216, .fire 24 0,
   .fire 0 16777216, .stateQuery 24 0, .chunkRun 24, .chunkEnd 24, .portTrainingDone 48 true, .linkDown ⟨48, 0, 0⟩,
   .linkDown ⟨0, 0, 16⟩, .linkUp 48, .fecInterval ⟨48, 0⟩ 0 0, .fecInterval ⟨0, 16⟩ 0 0, .laserSwitched 6, .laserSelect 48 0,
   .laserSelect 0 16777216, .neighborSolicitation 48 ⟨true, 0, 0⟩, .neighborSolicitation 0 ⟨true, ((2 ^ 128)), 0⟩,
   .neighborSolicitation 0 ⟨true, 0, ((2 ^ 128))⟩, .unsupportedFrame 48 ⟨true, .nonIpv6⟩, .data 48 [], .pfcFrame 48 true [],
   .pfcFrame 0 true [none, none, none, none, none, none, none, none, none], .pfcFrame 0 true [some 65536],
   .pfcRepeat 2 0 true, .pfcRepeat 0 24 true, .pfcStorm 48 true]
    (fun i => !wellFormed i) = true := by decide +kernel

theorem test_wellFormed_refuses_6 : List.all
  [.ack 48 [], .nack 48 [], .credit 48 [], .abortPacket 48 [], .send 48, .packetSend ⟨⟨2, 0, 0⟩, []⟩,
   .packetSend ⟨⟨0, 4, 0⟩, []⟩, .packetSend ⟨⟨0, 0, 4096⟩, []⟩, .packetSend ⟨⟨0, 0, 0⟩, [.marks 384 0 0 1]⟩,
   .packetSend ⟨⟨0, 0, 0⟩, [.marks 0 0 3 1]⟩, .packetSend ⟨⟨0, 0, 0⟩, [.burst 384 0]⟩, .ackDelay ⟨2, 0, 0⟩, .ackDelay ⟨0, 4, 0⟩,
   .ackDelay ⟨0, 0, 4096⟩, .nackDelay ⟨2, 0, 0⟩, .nackDelay ⟨0, 4, 0⟩, .nackDelay ⟨0, 0, 4096⟩, .retxTimeout ⟨2, 0, 0⟩,
   .retxTimeout ⟨0, 4, 0⟩, .retxTimeout ⟨0, 0, 4096⟩, .holdProbe ⟨2, 0, 0⟩, .holdProbe ⟨0, 4, 0⟩, .holdProbe ⟨0, 0, 4096⟩,
   .streamGiveup ⟨2, 0, 0⟩, .streamGiveup ⟨0, 4, 0⟩, .streamGiveup ⟨0, 0, 4096⟩, .rateRise ⟨2, 0, 0⟩, .rateRise ⟨0, 4, 0⟩,
   .rateRise ⟨0, 0, 4096⟩, .openWindow 48 0]
    (fun i => !wellFormed i) = true := by decide +kernel

theorem test_wellFormed_refuses_7 : List.all
  [.openWindow 0 16777216, .closeWindow 48 0, .closeWindow 0 16777216, .winQuery 48 0, .streamQuery 48 0, .flush 2 0,
   .flush 0 16777216, .applyReserves 2, .poolInject 2 0, .queueLinkLost 2 ⟨0, 0⟩, .queueLinkLost 0 ⟨120, 0⟩, .cellReclaim 2 0,
   .cellReclaim 0 120, .setHalf 48 0, .setHalf 0 16777216, .clearHalf 48 0, .clearHalf 0 16777216, .counterWrite 2 0 0,
   .counterWrite 0 512 0, .armEntry 2 0, .armEntry 0 16777216, .disarmEntry 2 0, .disarmEntry 0 16777216, .sendOp 48,
   .reduceSend ⟨48, []⟩, .reduceSend ⟨0, [.marks 384 0 0 1]⟩, .reduceSend ⟨0, [.marks 0 0 3 1]⟩, .reduceSend ⟨0, [.burst 384 0]⟩,
   .copyOp ⟨48, []⟩, .copyOp ⟨0, [.marks 384 0 0 1]⟩]
    (fun i => !wellFormed i) = true := by decide +kernel

theorem test_wellFormed_refuses_8 : List.all
  [.copyOp ⟨0, [.marks 0 0 3 1]⟩, .copyOp ⟨0, [.burst 384 0]⟩, .signalOp 48, .opEnd 48 0, .launch 48, .abort 48, .acknowledge 48,
   .passEnd 48, .stepTimeout 48, .powerOn ⟨16, true, true⟩, .romStart (romSlot 16), .dieControllerRelease 10 true,
   .knownAnswerRunEnd 16777216 ⟨true, 0⟩, .meshTestEnd ⟨[16777216], []⟩ [] [], .meshTestEnd ⟨[], [16777216]⟩ [] [],
   .meshTestEnd ⟨[], []⟩ [⟨2560, 0, 0, 0, 0, 0, 0⟩] [], .meshTestEnd ⟨[], []⟩ [⟨0, 128, 0, 0, 0, 0, 0⟩] [],
   .meshTestEnd ⟨[], []⟩ [⟨0, 0, 64, 0, 0, 0, 0⟩] [], .meshTestEnd ⟨[], []⟩ [⟨0, 0, 0, 128, 0, 0, 0⟩] [],
   .meshTestEnd ⟨[], []⟩ [⟨0, 0, 0, 0, 64, 0, 0⟩] [], .meshTestEnd ⟨[], []⟩ [⟨0, 0, 0, 0, 0, 64, 0⟩] [],
   .meshTestEnd ⟨[], []⟩ [⟨0, 0, 0, 0, 0, 0, 40⟩] [], .meshTestEnd ⟨[], []⟩ [] [2560], .coreWave 8 0, .coreWave 0 5,
   .inSessionRetirement 16777216 .work [] [], .inSessionRetirement 0 .work [⟨2560, 0, 0, 0, 0, 0, 0⟩] [],
   .inSessionRetirement 0 .work [⟨0, 128, 0, 0, 0, 0, 0⟩] [], .inSessionRetirement 0 .work [⟨0, 0, 64, 0, 0, 0, 0⟩] [],
   .inSessionRetirement 0 .work [⟨0, 0, 0, 128, 0, 0, 0⟩] []]
    (fun i => !wellFormed i) = true := by decide +kernel

theorem test_wellFormed_refuses_9 : List.all
  [.inSessionRetirement 0 .work [⟨0, 0, 0, 0, 64, 0, 0⟩] [], .inSessionRetirement 0 .work [⟨0, 0, 0, 0, 0, 64, 0⟩] [],
   .inSessionRetirement 0 .work [⟨0, 0, 0, 0, 0, 0, 40⟩] [], .inSessionRetirement 0 .work [] [2560],
   .powerPeriod ({ quietPeriod with clusters := [] }), .powerPeriod ({ quietPeriod with dies := [] }),
   .powerPeriod ({ quietPeriod with stepRates := [] }), .paceBelowJob 160, .sensorConversion 88 0, .sensorFault 88,
   .sensorSplit 44, .trimChanged 160, .supervisorBeacon 160 true, .dieControllerBeacon 10 true, .requestReset 16777216,
   .enec 256, .disec 256, .entdaa 128, .setdasa 128 0, .setdasa 0 128, .setnewda 128, .setmrl 65536, .setmwl 65536,
   .setEndpointId 32 0 0, .setEndpointId 0 4 0, .setEndpointId 0 0 256, .getEndpointId 32, .getEndpointUuid 32,
   .getMctpVersionSupport 32 0, .getMctpVersionSupport 0 256]
    (fun i => !wellFormed i) = true := by decide +kernel

theorem test_wellFormed_refuses_10 : List.all
  [.getMessageTypeSupport 32, .getVendorDefinedMessageSupport 32 0, .getVendorDefinedMessageSupport 0 256,
   .unsupportedMessageType 256, .getTid 32, .setTid 32 0, .setTid 0 256, .getPldmVersion 32 0, .getPldmVersion 0 64,
   .getPldmTypes 32, .getPldmCommands 32 0, .getPldmCommands 0 64, .setEventReceiver 32 0 0, .setEventReceiver 0 256 0,
   .setEventReceiver 0 0 256, .getPdrRepositoryInfo 32, .getPdr 32 0, .getPdr 0 4294967296, .getSensorReading 32 0,
   .getSensorReading 0 65536, .getStateSensorReadings 32 0, .getStateSensorReadings 0 65536,
   .pollForPlatformEventMessage 32, .getState 256 [], .getCeilings 256 [], .setCeilings 256 [], .setSilence 256 [],
   .orderReset 256 [], .orderPowerOff 256 [], .handover 256 []]
    (fun i => !wellFormed i) = true := by decide +kernel

theorem test_wellFormed_refuses_11 : List.all
  [.restartSecond 256 [], .getFloorPlan 256 [], .getCairn 256 [], .clearCairn 256 [], .stageBegin 256 [],
   .stageData 256 [], .stagePieceDone 256 [], .stageStatus 256 [], .stageAbandon 256 [], .activate 256 [],
   .getSetting 256 [], .setSetting 256 [], .getMeasurements 256 [], .getCertificate 256 [], .attest 256 [],
   .debugChallenge 256 [], .debugUnlock 256 [], .loadComplete .module 1 true, .idleFlit ⟨(zeros 255), []⟩,
   .idleFlit ⟨flitOf256, [⟨256, 1⟩]⟩, .pauseQuantaExpired 48 true, .errorUnsupportedPldmCmd 32 0 0,
   .errorUnsupportedPldmCmd 0 64 0, .errorUnsupportedPldmCmd 0 0 256, .undefinedVendorCommand 256 0,
   .undefinedVendorCommand 0 256, .shadowFailure 160, .w1cWrite 67108864 0]
    (fun i => !wellFormed i) = true := by decide +kernel

theorem test_wellFormed_refuses_long_0 : List.all
  [.dmaReadData 0 0 true (zeros 4097), .getState 0 (zeros 32769), .getCeilings 0 (zeros 32769),
   .setCeilings 0 (zeros 32769), .setSilence 0 (zeros 32769), .orderReset 0 (zeros 32769), .orderPowerOff 0 (zeros 32769),
   .handover 0 (zeros 32769), .restartSecond 0 (zeros 32769), .getFloorPlan 0 (zeros 32769), .getCairn 0 (zeros 32769),
   .clearCairn 0 (zeros 32769), .stageBegin 0 (zeros 32769), .stageData 0 (zeros 32769), .stagePieceDone 0 (zeros 32769),
   .stageStatus 0 (zeros 32769), .stageAbandon 0 (zeros 32769), .activate 0 (zeros 32769), .getSetting 0 (zeros 32769),
   .setSetting 0 (zeros 32769), .getMeasurements 0 (zeros 32769), .getCertificate 0 (zeros 32769), .attest 0 (zeros 32769),
   .debugChallenge 0 (zeros 32769), .debugUnlock 0 (zeros 32769)]
    (fun i => !wellFormed i) = true := by decide +kernel

theorem test_wellFormed_accepts_0 : List.all
  [.quiesce .core 0, .quiescedAtSafePoint .core 0, .resume .core 0, .retest .core 0, .retire .core 0 0, .load .core 0 0,
   .retrain .core 0 0, .selfFault 0, .ownerRetest 0, .pageNegotiate .core 0 0, .pageError .core 0 0,
   .pageEvents .core 0 0 0, .pageEventMask .core 0 0, .registerWrite 0 0, .loRead 0, .hiWrite 0 0, .rcRead 0 true,
   .dataFlit flitOf256 [], .replayRequest ⟨flitOf256, []⟩, .regRead32 0 0, .regRead64 0 0, .regWrite32 0 0 0,
   .regWrite64 0 0 0, .dmaReadData 0 0 true [], .unusedOpcode ⟨0, 0⟩, .cohSnoopInv ⟨0, 0⟩, .cohSnoopShare ⟨0, 0⟩,
   .cohGrant ⟨0, 0⟩ true (zeros 64), .cohWbAck ⟨0, 0⟩, .queueEnable 0, .queueDisable 0, .ringEnable 0, .ringDisable 0,
   .doorbell 0 0, .nop 0, .hostToModule 0, .moduleToHost 0, .slotFill 0, .descriptorComplete 0, .eConsumer 0 0]
    wellFormed = true := by decide +kernel

theorem test_wellFormed_accepts_1 : List.all
  [.intHoldoff 0, .attach 0, .openContext 0, .closeContext 0, .contextDrained 0, .scalarInstruction 0, .ecall 0, .fenceI 0, .mret 0,
   .vxbeacon 0, .vxseed 0 0, .mxIssue 0 0 0, .vxIssue 0 0 0, .msgSend 0 0 0, .engWait 0 0 0 0, .engPoll 0 0 0,
   .flagRead 0 0 0, .flagAdd 0 0 0 0, .flagSet 0 0 0 0, .flagWait 0 0 0 0, .flagTest 0 0 0 0, .waitSatisfied 0,
   .waitTimeout 0, .beaconReq 0, .matmul 0, .add 0, .sub 0, .mul 0, .fma 0, .max 0, .min 0, .copy 0, .transpose 0, .exp2 0,
   .log2 0, .recip 0, .rsqrt 0, .tanh 0, .sigmoid 0, .erf 0, .rsum 0]
    wellFormed = true := by decide +kernel

theorem test_wellFormed_accepts_2 : List.all
  [.rmax 0, .rmin 0, .rsumsq 0, .ramax 0, .messagePut 0, .messageGet 0, .rowMulticast 0, .columnMulticast 0,
   .counterMessage 0, .updateQueueMessage 0, .engineCommandComplete 0 0 0, .msgStall 0 0, .sramScrub 0 0 0, .start 0 0,
   .stop 0, .kernelEnd 0, .routerFlit 0 .north 0 noNoise noNoise, .targetEntryTimeout 0, .sourceMessageTimeout 0,
   .scrubStep 0 [], .scrubNow 0, .wck2dqRead 0 [], .mr4Read 0 0 true, .channelRetrainStart 0 0, .channelRetrainEnd 0 [],
   .injectCtrl 0 0, .selfRefreshEntry 0, .enablePlan 0 0, .disablePlan 0 0, .arm 0 0, .disarm 0 0, .fire 0 0,
   .stateQuery 0 0, .chunkRun 0, .chunkEnd 0, .portTrainingDone 0 true, .linkDown ⟨0, 0, 0⟩, .linkUp 0, .fecInterval ⟨0, 0⟩ 0 0,
   .laserSwitched 0]
    wellFormed = true := by decide +kernel

theorem test_wellFormed_accepts_3 : List.all
  [.laserSelect 0 0, .neighborSolicitation 0 ⟨true, 0, 0⟩, .unsupportedFrame 0 ⟨true, .nonIpv6⟩, .data 0 [], .pfcFrame 0 true [],
   .pfcRepeat 0 0 true, .pfcStorm 0 true, .ack 0 [], .nack 0 [], .credit 0 [], .abortPacket 0 [], .send 0,
   .packetSend ⟨⟨0, 0, 0⟩, []⟩, .ackDelay ⟨0, 0, 0⟩, .nackDelay ⟨0, 0, 0⟩, .retxTimeout ⟨0, 0, 0⟩, .holdProbe ⟨0, 0, 0⟩,
   .streamGiveup ⟨0, 0, 0⟩, .rateRise ⟨0, 0, 0⟩, .openWindow 0 0, .closeWindow 0 0, .winQuery 0 0, .streamQuery 0 0,
   .flush 0 0, .applyReserves 0, .poolInject 0 0, .queueLinkLost 0 ⟨0, 0⟩, .cellReclaim 0 0, .setHalf 0 0, .clearHalf 0 0,
   .counterWrite 0 0 0, .armEntry 0 0, .disarmEntry 0 0, .sendOp 0, .reduceSend ⟨0, []⟩, .copyOp ⟨0, []⟩, .signalOp 0,
   .opEnd 0 0, .launch 0, .abort 0]
    wellFormed = true := by decide +kernel

theorem test_wellFormed_accepts_4 : List.all
  [.acknowledge 0, .passEnd 0, .stepTimeout 0, .powerOn ⟨0, true, true⟩, .romStart romOk, .dieControllerRelease 0 true,
   .knownAnswerRunEnd 0 ⟨true, 0⟩, .meshTestEnd ⟨[], []⟩ [] [], .coreWave 0 0, .inSessionRetirement 0 .work [] [],
   .powerPeriod quietPeriod, .paceBelowJob 0, .sensorConversion 0 0, .sensorFault 0, .sensorSplit 0, .trimChanged 0,
   .supervisorBeacon 0 true, .dieControllerBeacon 0 true, .requestReset 0, .enec 0, .disec 0, .entdaa 0, .setdasa 0 0,
   .setnewda 0, .setmrl 0, .setmwl 0, .setEndpointId 0 0 0, .getEndpointId 0, .getEndpointUuid 0,
   .getMctpVersionSupport 0 0, .getMessageTypeSupport 0, .getVendorDefinedMessageSupport 0 0, .unsupportedMessageType 0,
   .getTid 0, .setTid 0 0, .getPldmVersion 0 0, .getPldmTypes 0, .getPldmCommands 0 0, .setEventReceiver 0 0 0,
   .getPdrRepositoryInfo 0]
    wellFormed = true := by decide +kernel

theorem test_wellFormed_accepts_5 : List.all
  [.getPdr 0 0, .getSensorReading 0 0, .getStateSensorReadings 0 0, .pollForPlatformEventMessage 0, .getState 0 [],
   .getCeilings 0 [], .setCeilings 0 [], .setSilence 0 [], .orderReset 0 [], .orderPowerOff 0 [], .handover 0 [],
   .restartSecond 0 [], .getFloorPlan 0 [], .getCairn 0 [], .clearCairn 0 [], .stageBegin 0 [], .stageData 0 [],
   .stagePieceDone 0 [], .stageStatus 0 [], .stageAbandon 0 [], .activate 0 [], .getSetting 0 [], .setSetting 0 [],
   .getMeasurements 0 [], .getCertificate 0 [], .attest 0 [], .debugChallenge 0 [], .debugUnlock 0 [],
   .loadComplete .core 0 true, .idleFlit ⟨flitOf256, []⟩, .pauseQuantaExpired 0 true, .errorUnsupportedPldmCmd 0 0 0,
   .undefinedVendorCommand 0 0, .shadowFailure 0, .w1cWrite 0 0]
    wellFormed = true := by decide +kernel


/-! ### The network after a reset -/

/-- The network of the module after a power-on has nothing to do: the premises of the third clause of EmptyQueueTicks. -/
theorem test_reset_net_idles : State.reset.pending = [] ∧ idleNet State.reset.dev :=
  ⟨rfl, rfl, rfl, fun _ _ => rfl, fun _ => rfl, fun _ c => by cases c <;> rfl, fun _ => rfl, fun _ => rfl⟩

/-! ### Values that the manual's own examples and tables give -/

/-- The device after a step from a state with one command waiting. -/
def after (i : Instr) (s : State) : Dev :=
  match step { s with pending := [i] } with
  | .next t => t.dev
  | _ => s.dev

/-- What a 32-bit read of the register window gives. -/
def reads (off : Nat) (d : Dev) : Nat := (readWindow State.reset.fuses 0 4 off d).2

/-- Memory controller 7 of the example in 02_register_pages.md: ACTIVE, SEQ 0x0041, the error and events clear. -/
def mem7 : Dev := mp (pMem 7) (fun g => { g with seq := 0x41, mask := 0x15, events := 0 }) (pg (pMem 7) .active (ust (uChannel 117) .ready up))

/-- Step 1 of the example of 02_register_pages.md, and the page's PAGE_ID there. -/
theorem test_page_example_status : reads 0x10E010 mem7 = 0x00410000 ∧ reads 0x10E000 mem7 = 0x00300007 := by decide +kernel

/-- Steps 2 and 3: RETRAIN of channel 5 starts, and a RESUME behind it is dropped (R41). -/
theorem test_page_example_retrain :
    (let d := after (.registerWrite 0x10E00C 0x00000506) (st mem7)
     let e := after (.registerWrite 0x10E00C 0x00000002) (st d)
     reads 0x10E010 d = 0x00420106 ∧ (unitRec (uChannel 117) d).state = .training
       ∧ reads 0x10E010 e = 0x00420106 ∧ reads 0x10E014 e = 0x00014502) := by decide +kernel

/-- Steps 6 and 7: RETRAIN of channel 16 is out of range, RESUME of an ACTIVE page is in the wrong state. -/
theorem test_page_example_rejects :
    (let x := mp (pMem 7) (fun g => { g with seq := 0x42 }) mem7
     let d := after (.registerWrite 0x10E00C 0x00001006) (st x)
     let e := after (.registerWrite 0x10E00C 0x00000002) (st d)
     reads 0x10E010 d = 0x00430306 ∧ reads 0x10E014 d = 0x00012506
       ∧ reads 0x10E010 e = 0x00440202 ∧ reads 0x10E014 e = 0x00022506) := by decide +kernel

/-- The bytes of a block's conversion at 1, as the example of 05_arithmetic.md tabulates them. -/
def mxBytes (ceil : Bool) (l : List Nat) : List Nat :=
  match fmtOf 6 with
  | some f => let b := trackBlock f ceil (fun _ => .nearest) (l.map val32); b.scale :: b.elems.map (·.bits)
  | none => []

/-- The MXFP8 block of 05_arithmetic.md: −3.7, 0.5, 0.01 and 0.0001 under both scale rules. -/
theorem test_mxfp8_block :
    mxBytes false [0xC06CCCCD, 0x3F000000, 0x3C23D70A, 0x38D1B717] = [0x78, 0xFE, 0x68, 0x3A, 0x07]
      ∧ mxBytes true [0xC06CCCCD, 0x3F000000, 0x3C23D70A, 0x38D1B717] = [0x79, 0xF7, 0x60, 0x32, 0x03] := by decide +kernel

/-- The map of the example of 07_memory.md: all 384 channels, MAP_LOCAL 726. -/
def talusMap : MemMap := ⟨726, List.range 384⟩

/-- Its address 279,760,076,800: channel 174, list position 346, group 1,626,209, line 1; and USABLE_SIZE. -/
theorem test_memory_address :
    (spotOf talusMap 279760076800).map (fun x => (x.channel, x.place, x.group, x.line)) = some (174, 346, 1626209, 1)
      ∧ mapSize talusMap = 2688000000000 := by decide +kernel

/-- The check value of R300 over the ASCII digits 1 to 9. -/
theorem test_crc64 :
    crcReg crcInit [0x31, 0x32, 0x33, 0x34, 0x35, 0x36, 0x37, 0x38, 0x39] ^^^ crcInit = 0x995DC9BBDF1939FA := by decide +kernel

/-- 13_pace_power_thermal.md: a cluster of 1,830 M steps/s under a target of 1,760 takes s_pace 10. -/
theorem test_pace_level : paceLevel 1760 1830 = 10 := by decide

/-- Core 0 with one instruction word at its pc, fetched by a user-mode kernel with x5 = `a`, x6 = `b`. -/
def words (w : Nat) (a b : DWord) : Dev := sr 0x1000 (leBytes 4 w) (kern a b up)

/-- The word of FLAG.WAIT x5, x6, 12 that 04_core.md gives: the flag has reached x6, and x5 takes its value. -/
theorem test_flag_wait_word :
    (let d := after (.scalarInstruction 0) (st (cr (fun c => { c with flags := [(12, 9)] }) (words 0x00C332AB 0 7)))
     (coreOf 0 d).xs.get 0 5 = 9) := by decide +kernel

/-- The word of MSG.SEND x10, x11 in the example of 04_core.md returns ticket 1 in x10. -/
theorem test_msg_send_word :
    (let d := after (.scalarInstruction 0) (st (modCore 0 (fun c => { c with xs := [(11, 0x2000)], engines := [] })
       (sr 0x2000 (dw [0x00030301, 1, 0x11, 0, 0x40000, 0x8000, 0x23000000, 0x41]) (words 0x0005A50B 0 0))))
     (coreOf 0 d).xs.get 0 10 = 1 ∧ (engineOf (coreOf 0 d) 2).cmds.length = 1) := by decide +kernel

/-- ADDI x6, x6, 5 wraps nothing at 64 bits, and SUB x5, x5, x6 does. -/
theorem test_scalar_words :
    (coreOf 0 (after (.scalarInstruction 0) (st (words 0x00530313 0 0xFFFFFFFF)))).xs.get 0 6 = 0x100000004
      ∧ (coreOf 0 (after (.scalarInstruction 0) (st (words 0x406282B3 2 3)))).xs.get 0 5 = 0xFFFFFFFFFFFFFFFF := by decide +kernel

/-- FLAG.ADD counts modulo 2^32 and gives the old value (R122). -/
theorem test_flag_wraps :
    (let d := after (.flagAdd 0 7 5 63) (st (modCore 0 (fun c => { c with flags := [(63, 0xFFFFFFFF)] }) (kern 2 0 up)))
     flagOf (coreOf 0 d) 63 = 1 ∧ (coreOf 0 d).xs.get 0 7 = 0xFFFFFFFF) := by decide +kernel

/-- The poisoned GET of the example of 04_core.md: its status word, FAULT_INFO and FAULT_ADDR. -/
theorem test_poisoned_get :
    (let c := { ec (dw [0x00030301, 1, 0x11, 0, 0x40000, 0x8000, 0x23000000, 0x41]) with addr := 0x2000 }
     let d := finishCmd 0 2 c .failed 1 (eng 2 c up)
     leNat (sramRead 0 0x203C 4 d) = 0x80000015 ∧ rd (rCore 0 0x80) d = 0x8B000105 ∧ rd (rCore 0 0x88) d = 0x2000
       ∧ flagOf (coreOf 0 d) 3 = 1) := by decide +kernel

/-- Vector ADD of 1.0 and −2.0 in FP32 writes −1.0 (R157). -/
theorem test_vector_add :
    (let d := after (.add 0) (st (sr 0x1000 (leBytes 4 0x3F800000) (sr 0x1100 (leBytes 4 0xC0000000) (eng 1 (ec (vd 1)) up))))
     leNat (sramRead 0 0x1300 4 d) = 0xBF800000) := by decide +kernel

/-- SLOT_STRIDE of the example of 03_luawick_host_link.md: 2,048 tokens of 4 bytes and the header. -/
theorem test_slot_stride : strideOf (rg [(rJob 0x5C, 2), (rJob 0x60, 2048)] up) = 8256 := by decide +kernel

/-- Lengths of the DATA frame of the example of 09_optical_ports.md, and of its last packet. -/
theorem test_frame_lengths :
    (let f := fr 1 (fun f => { f with payload := zeros 4096 })
     let g := fr 1 (fun f => { f with payload := zeros 4096, lastOfChunk := true })
     f.udpLength = 4144 ∧ f.length = 4206 ∧ g.udpLength = 4152 ∧ g.length = 4214) := by decide +kernel

/-- The low 28 bits of IDCODE (R500); the stepping stands above them. -/
theorem test_idcode : idcodeWord.setWidth 28 = 0x5804C6F#28 := by
  unfold idcodeWord
  rw [BitVec.setWidth_append]
  simp

/-- SHA-256 of "abc", as FIPS 180-4 gives it. -/
theorem test_sha256 :
    leNat (sha256 [0x61, 0x62, 0x63]).reverse = 0xBA7816BF8F01CFEA414140DE5DAE2223B00361A396177A9CB410FF61F20015AD := by decide +kernel

/-- Two messages in flight leave what both write undefined (R179): 32 bytes of core 1 here. -/
theorem test_messages_overlap :
    (let x := { ec (md 0 64 0x100 1) with started := true, msgId := 9 }
     let y := { ec (md 0 64 0x120 1) with ticket := 2 }
     let d := after (.messagePut 0) (st (pg (pCore 1) .active (modCore 0 (fun c => { c with engines := [(2, ⟨2, 0, [x, y]⟩)] })
       (kern 0 0 up))))
     (engineOf (coreOf 0 d) 2).cmds.map (·.raced) = [[(0x120, 32)], [(0x120, 32)]]) := by decide +kernel

/-- A scalar store into the source of a PUT that runs leaves that word undefined at the target (R180). -/
theorem test_store_into_put_source :
    (let x := { ec (md 0 64 0x100 1) with started := true, reads := [(0x2000, 64)] }
     (engineOf (coreOf 0 (agentWrote 0 none [(0x2018, 4)] (eng 2 x up))) 2).cmds.map (·.raced) = [[(0x110, 16)]]) := by decide +kernel

/-- The header that 09_optical_ports.md gives for packet 0x2A35, byte by byte (R258). -/
theorem test_transport_header :
    transportHeader { plainFrame 0 sk 1 up with
      srcRank := 1029, dstRank := 1030, chunk := true, seq := 0x2A35, remoteAddr := 0x8000000002285000, chunkId := 0x44000002,
      chunkOffset := 0x5000, payload := zeros 4096 }
      = [0x11, 0x00, 0x04, 0x05, 0x04, 0x06, 0x04, 0x00, 0x00, 0x00, 0x2A, 0x35, 0x80, 0x00, 0x00, 0x00, 0x02, 0x28, 0x50, 0x00,
         0x10, 0x00, 0x00, 0x00, 0x44, 0x00, 0x00, 0x02, 0x00, 0x00, 0x50, 0x00] ++ zeros 8 := by decide +kernel

/-- The UDP checksum of no bytes but a pseudo header of zeros with length 0 and next header 17. -/
theorem test_udp_checksum : udpChecksum 0 0 [] = 0xFFEE := by decide +kernel

end Sys2Proof.Tests
end

section
/-!
SUPPORT. Proofs of the statements about register pages (02_register_pages.md): what events keep, the judgement of page
commands, retirement and faults, header registers, and the register window.
-/

namespace Sys2Proof.Machine

/-! ### Tables and pages -/

@[simp] theorem tbl_set_set {κ α : Type} [DecidableEq κ] (t : Tbl κ α) (k : κ) (v w : α) :
    (t.set k v).set k w = t.set k w := by
  induction t with
  | nil => simp [Tbl.set]
  | cons e r ih =>
    obtain ⟨k', v'⟩ := e
    by_cases h : k' = k <;> simp [Tbl.set, h, ih]

@[simp] theorem putPage_putPage (p : PageId) (g k : Page) (d : Dev) : putPage p k (putPage p g d) = putPage p k d := by
  simp [putPage]

/-- Reports that leave the table of pages leave every page header. -/
theorem Reported.pageOf_eq {d e : Dev} (h : Reported d e) (hp : e.pages = d.pages) (q : PageId) :
    pageOf q e = pageOf q d := by
  have hc : e.quiet.startCause = d.quiet.startCause := congrArg Dev.startCause h.1
  have hc : e.startCause = d.startCause := hc
  simp [pageOf, hp, hc]

/-! ### Event bits (R48) -/

/-- Every event bit of a page that stands in the first device stands in the second. -/
def EventsStay (p : PageId) (d e : Dev) : Prop :=
  ∀ i, (pageOf p d).events.getLsbD i = true → (pageOf p e).events.getLsbD i = true

theorem EventsStay.trans {p : PageId} {a b c : Dev} (h : EventsStay p a b) (k : EventsStay p b c) : EventsStay p a c :=
  fun i hi => k i (h i hi)

theorem EventsStay.of_eq {p : PageId} {d e : Dev} (h : pageOf p e = pageOf p d) : EventsStay p d e := by
  intro i hi
  rwa [h]

/-- Setting further event bits of one page leaves the bits that stand, on every page. -/
theorem eventsStay_putPage_or (p q : PageId) (w : Word) (d : Dev) :
    EventsStay p d (putPage q { pageOf q d with events := (pageOf q d).events ||| w } d) := by
  intro i hi
  by_cases hq : p = q
  · subst hq
    simp [hi]
  · rwa [pageOf_putPage_other _ _ hq]

theorem eventsStay_tryDeliver (p : PageId) (n : Nat) (e : Entry) (d : Dev) : EventsStay p d (tryDeliver n e d).1 :=
  .of_eq ((reported_tryDeliver n e d).pageOf_eq (tryDeliver_pages n e d) p)

theorem eventsStay_setOverflow (p : PageId) (d : Dev) : EventsStay p d (setOverflow d) := by
  have h := eventsStay_putPage_or p pLua (1 <<< 19 : Word) d
  unfold setOverflow
  simp only
  split
  · exact h.trans (eventsStay_tryDeliver _ _ _ _)
  · exact h

theorem eventsStay_deliver (p : PageId) (g : Nat) (e : Entry) (d : Dev) : EventsStay p d (deliver g e d) := by
  have h := eventsStay_tryDeliver p (routeOf g d) e d
  unfold deliver
  simp only
  split
  · exact .of_eq rfl
  · split
    · exact h.trans (eventsStay_setOverflow _ _)
    · exact h

/-- Whatever `raise` delivers leaves the bits that stand once the event's own bit is set. -/
theorem eventsStay_raise_put (p q : PageId) (b : Nat) (d : Dev) :
    EventsStay q (putPage p { pageOf p d with events := (pageOf p d).events ||| BitVec.ofNat 32 (2 ^ b) } d)
      (raise p b d) := by
  unfold raise
  simp only
  split
  · exact eventsStay_deliver _ _ _ _
  · exact .of_eq rfl

theorem eventsStay_raise (p q : PageId) (b : Nat) (d : Dev) : EventsStay q d (raise p b d) :=
  (eventsStay_putPage_or q p _ d).trans (eventsStay_raise_put p q b d)

theorem getLsbD_ofNat_two_pow {b : Nat} (hb : b < 32) : (BitVec.ofNat 32 (2 ^ b)).getLsbD b = true := by
  rw [BitVec.getLsbD_ofNat]
  simp [hb]

/-- An event sets its bit, whatever the mask (R48). -/
theorem events_raise {b : Nat} (hb : b < 32) (p : PageId) (d : Dev) :
    (pageOf p (raise p b d)).events.getLsbD b = true :=
  eventsStay_raise_put p p b d b (by
    rw [pageOf_putPage_same, BitVec.getLsbD_or, getLsbD_ofNat_two_pow hb, Bool.or_true])

/-- The entry of a page that was just written. -/
theorem pageEntry_putPage (p : PageId) (g : Page) (d : Dev) :
    pageEntry p (putPage p g d) = ⟨0, typeCode p.ty, p.inst, g.events.toNat, stateWord g, errorWord g⟩ := by
  simp [pageEntry]

/-- An unmasked bit that rises delivers the entry of the page (R48). -/
theorem raise_delivers {p : PageId} {b : Nat} {d : Dev} (hm : (pageOf p d).mask.getLsbD b = true)
    (he : (pageOf p d).events.getLsbD b = false) :
    raise p b d =
      deliver (routeGroup p.ty)
        ⟨0, typeCode p.ty, p.inst, ((pageOf p d).events ||| BitVec.ofNat 32 (2 ^ b)).toNat, stateWord (pageOf p d),
          errorWord (pageOf p d)⟩
        (putPage p { pageOf p d with events := (pageOf p d).events ||| BitVec.ofNat 32 (2 ^ b) } d) := by
  simp only [raise, hm, he, Bool.not_false, Bool.and_self, if_true, pageEntry_putPage]
  rfl

/-- A masked bit, or one that stands already, delivers nothing (R48). -/
theorem raise_silent {p : PageId} {b : Nat} {d : Dev}
    (h : (pageOf p d).mask.getLsbD b = false ∨ (pageOf p d).events.getLsbD b = true) :
    raise p b d = putPage p { pageOf p d with events := (pageOf p d).events ||| BitVec.ofNat 32 (2 ^ b) } d := by
  rcases h with h | h <;> simp [raise, h]

/-- Events raised one after the other: the bits that stood before and those of the events stand. -/
theorem events_foldl_raise (p : PageId) (c : Word) {b : Nat} (hb : b < 32) (l : List Nat) (d : Dev)
    (h : (pageOf p d).events.getLsbD b = true ∨ (b ∈ l ∧ c.getLsbD b = true)) :
    (pageOf p (l.foldl (fun x k => if c.getLsbD k then raise p k x else x) d)).events.getLsbD b = true := by
  induction l generalizing d with
  | nil => simpa using h
  | cons k l ih =>
    rw [List.foldl_cons]
    refine ih _ ?_
    rcases h with h | ⟨hm, hc⟩
    · left
      split
      · exact eventsStay_raise p p k d b h
      · exact h
    · rcases List.mem_cons.1 hm with rfl | hm
      · left
        rw [if_pos hc]
        exact events_raise hb p d
      · exact .inr ⟨hm, hc⟩

/-! ### Writes of the mask -/

/-- A mask bit set over an event that stands delivers the entry of the page (R48). -/
theorem writeMask_delivers {p : PageId} {v : Word} {d : Dev} (h : pageSilent p d = false)
    (hm : v &&& eventBits &&& ~~~(pageOf p d).mask &&& (pageOf p d).events ≠ 0) :
    writeMask p v d =
      deliver (routeGroup p.ty)
        ⟨0, typeCode p.ty, p.inst, (pageOf p d).events.toNat, stateWord (pageOf p d), errorWord (pageOf p d)⟩
        (putPage p { pageOf p d with mask := v &&& eventBits } d) := by
  simp only [writeMask, h, Bool.false_eq_true, if_false, if_neg hm, pageEntry_putPage]
  rfl

/-- Any other write of the mask stores it and delivers nothing (R48). -/
theorem writeMask_silent {p : PageId} {v : Word} {d : Dev} (h : pageSilent p d = false)
    (hm : v &&& eventBits &&& ~~~(pageOf p d).mask &&& (pageOf p d).events = 0) :
    writeMask p v d = putPage p { pageOf p d with mask := v &&& eventBits } d := by
  simp only [writeMask, h, Bool.false_eq_true, if_false, if_pos hm]

theorem reported_writeMask {p : PageId} {d : Dev} (v : Word) (h : pageSilent p d = false) :
    Reported (putPage p { pageOf p d with mask := v &&& eventBits } d) (writeMask p v d) := by
  by_cases hm : v &&& eventBits &&& ~~~(pageOf p d).mask &&& (pageOf p d).events = 0
  · rw [writeMask_silent h hm]
    exact .refl _
  · rw [writeMask_delivers h hm]
    exact reported_deliver _ _ _

/-- Settles O9: the bit that `raise` sets stands whatever is delivered after it, and the two places that deliver, the rise of
an unmasked bit and the write of the mask, put the page's entry into the ring of its group. -/
theorem eventsSetTheirBit : Obligations.EventsSetTheirBit := by
  intro p b v s hb hon hs d g e d1 d2
  refine ⟨⟨events_raise hb p d, reported_raise p b d, eventsStay_raise p p b d⟩, fun hm he => ?_, raise_silent,
    fun h => gives_of_eq hon (writeMask_delivers hs h), fun h => gives_of_eq hon (writeMask_silent hs h)⟩
  have hd1 : pageOf p d1 = { g with events := g.events ||| BitVec.ofNat 32 (2 ^ b) } := pageOf_putPage_same _ _ _
  rw [hd1]
  exact raise_delivers hm he

/-! ### The judgement of page commands (R39 to R43) -/

/-- A command was rejected with no effect on the block: SEQ, LAST_CMD, RESULT and the error of the class, the state and the
command, with CMD_REJECTED set (R40, R46). -/
def Rejects (p : PageId) (code cls : Nat) (r : Result) (d e : Dev) : Prop :=
  Reported (putPage p ({ pageOf p d with seq := ((pageOf p d).seq + 1) % 65536, lastCmd := code, result := r }.erred
      (2 ^ 12 * cls + 2 ^ 8 * stateCode (pageOf p d).state + code)) d) e
    ∧ (pageOf p e).events.getLsbD 2 = true

/-- A command was dropped behind one in progress: its error alone, with CMD_REJECTED set (R41, R46). -/
def Drops (p : PageId) (code : Nat) (d e : Dev) : Prop :=
  Reported (putPage p ((pageOf p d).erred (2 ^ 12 * 4 + 2 ^ 8 * stateCode (pageOf p d).state + code)) d) e
    ∧ (pageOf p e).events.getLsbD 2 = true

theorem rejects_reject (p : PageId) (code : Nat) (r : Result) (d : Dev) :
    Rejects p code (rejectClass r) r d (reject p code r d) :=
  ⟨reported_reject p code r d, events_raise (by decide) p _⟩

theorem drops_dropCmd (p : PageId) (code : Nat) (d : Dev) : Drops p code d (dropCmd p code d) :=
  ⟨reported_dropCmd p code d, events_raise (by decide) p _⟩

section Judgement

variable {p : PageId} {d : Dev} (hs : pageSilent p d = false) (hsafe : d.lead.safe = false)
include hs hsafe

/-- Checks 3 to 5 of R39, with nothing in progress or for a RETIRE, which ends what is in progress first (R43). -/
theorem pageCommand_checked {code : Nat} (arg : Nat) (defined legal inRange : Bool) (start : Dev → Dev)
    (hn : (pageOf p d).negotiated = true) (hc : (pageOf p d).cmd = none ∨ code = 4) :
    pageCommand p code arg defined legal inRange start d =
      if !defined then reject p code .rejectedVersion d
      else if !legal then reject p code .rejectedState d
      else if !inRange then reject p code .rejectedRange d
      else start (accept p code arg (endCmd p false d)) := by
  rcases hc with hc | hc <;> simp [pageCommand, hs, hsafe, hn, hc]

theorem rejects_unnegotiated (code arg : Nat) (defined legal inRange : Bool) (start : Dev → Dev)
    (hn : (pageOf p d).negotiated = false) :
    Rejects p code 3 .rejectedVersion d (pageCommand p code arg defined legal inRange start d) := by
  rw [pageCommand_unnegotiated _ _ _ _ _ _ hs hsafe hn]
  exact rejects_reject p code .rejectedVersion d

theorem drops_behind {code : Nat} (arg : Nat) (defined legal inRange : Bool) (start : Dev → Dev)
    (hn : (pageOf p d).negotiated = true) (hc : (pageOf p d).cmd.isSome = true) (h4 : code ≠ 4) :
    Drops p code d (pageCommand p code arg defined legal inRange start d) := by
  rw [pageCommand_dropped _ _ _ _ _ hs hsafe hn hc h4]
  exact drops_dropCmd p code d

variable {code : Nat} (arg : Nat) {defined legal inRange : Bool} (start : Dev → Dev)
  (hn : (pageOf p d).negotiated = true) (hc : (pageOf p d).cmd = none ∨ code = 4)
include hn hc

theorem rejects_undefined (h3 : defined = false) :
    Rejects p code 3 .rejectedVersion d (pageCommand p code arg defined legal inRange start d) := by
  rw [pageCommand_checked hs hsafe _ _ _ _ _ hn hc]
  subst h3
  exact rejects_reject p code .rejectedVersion d

theorem rejects_illegal (h3 : defined = true) (h4 : legal = false) :
    Rejects p code 1 .rejectedState d (pageCommand p code arg defined legal inRange start d) := by
  rw [pageCommand_checked hs hsafe _ _ _ _ _ hn hc]
  subst h3 h4
  exact rejects_reject p code .rejectedState d

theorem rejects_outOfRange (h3 : defined = true) (h4 : legal = true) (h5 : inRange = false) :
    Rejects p code 2 .rejectedRange d (pageCommand p code arg defined legal inRange start d) := by
  rw [pageCommand_checked hs hsafe _ _ _ _ _ hn hc]
  subst h3 h4 h5
  exact rejects_reject p code .rejectedRange d

theorem pageCommand_starts (h3 : defined = true) (h4 : legal = true) (h5 : inRange = true) :
    pageCommand p code arg defined legal inRange start d = start (accept p code arg (endCmd p false d)) := by
  rw [pageCommand_checked hs hsafe _ _ _ _ _ hn hc]
  subst h3 h4 h5
  rfl

end Judgement

/-- Settles O5: each check of R39 in turn, from the equation of `pageCommand` for it and what a rejection or a drop writes;
QUIESCE, RESUME and LOAD are cases of it. -/
theorem judgedCommandsAreRejected : Obligations.JudgedCommandsAreRejected := by
  intro ty inst arg s hon hs hsafe p d g told dropped
  refine ⟨fun code defined legal inRange start => ⟨?_, ?_, ?_, ?_, ?_, ?_, ?_⟩, ?_, ?_, ?_, ?_, ?_, ?_, ?_⟩
  · exact rejects_unnegotiated hs hsafe code arg defined legal inRange start
  · exact drops_behind hs hsafe arg defined legal inRange start
  · exact rejects_undefined hs hsafe arg start
  · exact rejects_illegal hs hsafe arg start
  · exact rejects_outOfRange hs hsafe arg start
  · exact pageCommand_starts hs hsafe arg start
  · intro hc
    rw [endCmd_idle false hc]
    rfl
  · exact fun hn => does_of hon (f := cmdQuiesce p 0) (rejects_unnegotiated hs hsafe 1 0 _ _ _ _ hn)
  · exact fun hn => does_of hon (f := cmdLoad p arg) (rejects_unnegotiated hs hsafe 5 arg _ _ _ _ hn)
  · exact fun hn hc hd => does_of hon (f := cmdQuiesce p 0) (rejects_undefined hs hsafe 0 _ hn (.inl hc) hd)
  · intro hn hc hd hr ha
    have hl : inState p [.ready, .active] d = false := by simpa [inState, stateOf] using ⟨hr, ha⟩
    exact does_of hon (f := cmdQuiesce p 0) (rejects_illegal hs hsafe 0 _ hn (.inl hc) hd hl)
  · intro hn hc hd hq
    have hl : (inState p [.quiesced] d && !d.mgmt.powerOff) = false := by
      have : inState p [.quiesced] d = false := by simpa [inState, stateOf] using hq
      simp [this]
    exact does_of hon (f := cmdResume p 0) (rejects_illegal hs hsafe 0 _ hn (.inl hc) hd hl)
  · intro hn hc hd hst ha
    have hl : inState p [.ready, .quiesced] d = true := by simpa [inState, stateOf] using hst
    have hr : (arg % 2 ^ 24 == 0) = false := by simpa using ha
    exact does_of hon (f := cmdLoad p arg) (rejects_outOfRange hs hsafe arg _ hn (.inl hc) hd hl hr)
  · exact fun hn hc => does_of hon (f := cmdQuiesce p 0) (drops_behind hs hsafe 0 _ _ _ _ hn hc (by decide))

/-! ### Transitions and ends of commands -/

/-- What a transition leaves in its page: STATE, CAUSE and GEN as written, and every other field but event bits (R30). -/
theorem pageOf_setState (p : PageId) (st : PState) (c : Cause) (d : Dev) :
    ∃ w, pageOf p (setState p st c d) = { (pageOf p d).moved st c d with events := w } := by
  obtain ⟨w, hw⟩ := (reported_setState p st c d).pageFields p
  rw [pageOf_putPage_same] at hw
  exact ⟨w, hw⟩

/-- Only a port has a link to take down as it moves (R249). -/
theorem moveTo_of_not_port {p : PageId} (h : p.ty ≠ .port) (st : PState) (c : Cause) (d : Dev) :
    moveTo p st c d = setState p st c d := by
  simp [moveTo, h]

/-- The end of a command raises CMD_DONE (R42). -/
theorem events_endCmd_failed {p : PageId} {d : Dev} {c : PageCmd} (h : (pageOf p d).cmd = some c) :
    (pageOf p (endCmd p false d)).events.getLsbD 1 = true := by
  simp only [endCmd, h]
  exact events_raise (by decide) p _

theorem cmd_endCmd_failed (p : PageId) (d : Dev) : (pageOf p (endCmd p false d)).cmd = none := by
  cases h : (pageOf p d).cmd with
  | none => rw [endCmd_idle false h, h]
  | some c =>
    obtain ⟨w, hw⟩ := (reported_endCmd_failed h).pageFields p
    rw [hw, pageOf_putPage_same]
    rfl

/-! ### RETIRE (R37, R43, R372) -/

section Retire

variable {p : PageId} {d : Dev} (arg : Nat) (hs : pageSilent p d = false) (hsafe : d.lead.safe = false)
  (hn : (pageOf p d).negotiated = true)
include hs hsafe hn

/-- A RETIRE that passes its checks on the page of a unit: it ends what is in progress, is accepted, retires the unit and
ends. -/
theorem cmdRetire_unit {u : Nat} (ht : p.ty ≠ .dieController) (hd : definesCommon p.ty 4 = true)
    (h1 : stateOf p d ≠ .off) (h2 : stateOf p d ≠ .retired) (hu : unitOfPage p = some u) :
    cmdRetire p arg d = endCmd p true (retireUnit u .hostCommand (accept p 4 arg (endCmd p false d))) := by
  have hl : (!inState p [.off, .retired] d) = true := by simp [inState, h1, h2]
  simp only [cmdRetire, if_neg ht, hu]
  exact pageCommand_starts hs hsafe arg _ hn (.inr rfl) hd hl rfl

/-- The same on the page of a die controller, for the unit that ARG names (R372). -/
theorem cmdRetire_die (ht : p.ty = .dieController) (hst : stateOf p d = .ready ∨ stateOf p d = .active)
    (ha : dieAccepts p.inst (arg % 2 ^ 24) = true) (hu : usable (arg % 2 ^ 24) d = true) :
    cmdRetire p arg d = endCmd p true (retireUnit (arg % 2 ^ 24) .hostCommand (accept p 4 arg (endCmd p false d))) := by
  have hp : inState p [.testing, .training, .loading, .ready, .active, .quiesced, .fault] d = true := by
    rcases hst with h | h <;> simp [inState, h]
  simp only [cmdRetire, if_pos ht]
  exact pageCommand_starts hs hsafe arg _ hn (.inr rfl) rfl (by rw [hp, hu]; simp) ha

end Retire

theorem retireCompletes : Claims.RetireCompletes := by
  intro ty inst arg u s hon hs hsafe p d g hn
  refine ⟨fun ht hd h1 h2 hu => ?_, fun ht hst ha hu => ?_, fun c hc => ?_, rfl⟩
  · exact gives_of_eq hon (cmdRetire_unit arg hs hsafe hn ht hd h1 h2 hu)
  · exact gives_of_eq hon (cmdRetire_die arg hs hsafe hn ht hst ha hu)
  · exact ⟨reported_endCmd_failed hc, events_endCmd_failed hc⟩

/-! ### Faults (R16, R131, R213) -/

theorem unitClass_uController {i : Nat} (h : i < 24) : unitClass (uController i) = 0x5 := by
  simp only [unitClass, uController]; omega

theorem unitIndex_uController {i : Nat} (h : i < 24) : unitIndex (uController i) = i := by
  simp only [unitIndex, uController]; omega

theorem unitClass_uCore {i : Nat} (h : i < 2560) : unitClass (uCore i) = 0x1 := by
  simp only [unitClass, uCore]; omega

theorem unitIndex_uCore {i : Nat} (h : i < 2560) : unitIndex (uCore i) = i := by
  simp only [unitIndex, uCore]; omega

theorem reportFault_controller {i : Nat} (h : i < 24) (d : Dev) :
    reportFault (uController i) d = pageFault (pMem i) .selfFault d := by
  simp [reportFault, unitExists, unitClass_uController h, unitIndex_uController h, h]

theorem reportFault_core {i : Nat} (h : i < 2560) (d : Dev) :
    reportFault (uCore i) d = if coreTakes i d then coreFault i .selfFault (failCheck i d) else d := by
  simp [reportFault, unitExists, unitClass_uCore h, unitIndex_uCore h, h]

/-- A page other than a port's that is in use goes to FAULT, its command ended (R16). -/
theorem pageOf_pageFault {p : PageId} {c : Cause} {d : Dev} (ht : p.ty ≠ .port)
    (h : inState p [.ready, .active, .quiesced] d = true) :
    (pageOf p (pageFault p c d)).state = .fault ∧ (pageOf p (pageFault p c d)).cause = c
      ∧ (pageOf p (pageFault p c d)).cmd = none := by
  obtain ⟨w, hw⟩ := pageOf_setState p .fault c (endCmd p false d)
  rw [pageFault, if_pos h, moveTo_of_not_port ht, hw]
  exact ⟨rfl, rfl, cmd_endCmd_failed p d⟩

/-! What a core's engines write leaves page headers: a completion touches flags, SRAM, the latch and the core alone. -/

theorem pageOf_addFlag (q : PageId) (k f : Nat) (n : Word) (d : Dev) : pageOf q (addFlag k f n d) = pageOf q d := rfl

theorem pageOf_sramStore (q : PageId) (k a : Nat) (bs : List Byte) (d : Dev) :
    pageOf q (sramStore k a bs d) = pageOf q d := rfl

theorem pageOf_putEngine (q : PageId) (k e : Nat) (g : Engine) (d : Dev) : pageOf q (putEngine k e g d) = pageOf q d := rfl

theorem pageOf_setPending (q : PageId) (k bit : Nat) (on : Bool) (d : Dev) :
    pageOf q (setPending k bit on d) = pageOf q d := rfl

theorem pageOf_beginEnd (q : PageId) (k cause : Nat) (v : Word) (d : Dev) :
    pageOf q (beginEnd k cause v d) = pageOf q d := rfl

theorem pageOf_breakReservation (q : PageId) (k a n : Nat) (d : Dev) :
    pageOf q (breakReservation k a n d) = pageOf q d := by
  unfold breakReservation
  split
  · split <;> rfl
  · rfl

theorem pageOf_latchFault (q : PageId) (k src cause detail ctx : Nat) (user : Bool) (pc addr : Nat) (d : Dev) :
    pageOf q (latchFault k src cause detail ctx user pc addr d) = pageOf q d := by
  simp only [latchFault, apply_ite (pageOf q)]
  exact ite_self _

theorem pageOf_finishCmd (q : PageId) (k e : Nat) (c : EngCmd) (r : Result) (detail : Nat) (d : Dev) :
    pageOf q (finishCmd k e c r detail d) = pageOf q d := by
  simp only [finishCmd, apply_ite (pageOf q), pageOf_addFlag, pageOf_sramStore, pageOf_putEngine, pageOf_setPending,
    pageOf_beginEnd, pageOf_breakReservation, pageOf_latchFault, ite_self]

theorem pageOf_completeCmd (q : PageId) (k e : Nat) (t : Word) (d : Dev) :
    pageOf q (completeCmd k e t d) = pageOf q d := by
  unfold completeCmd
  split
  · split
    · split
      · rfl
      · exact pageOf_finishCmd _ _ _ _ _ _ _
    · rfl
  · rfl

theorem pageOf_failCheck (q : PageId) (k : Nat) (d : Dev) : pageOf q (failCheck k d) = pageOf q d := by
  unfold failCheck
  simp only
  split
  · exact pageOf_completeCmd _ _ _ _ _
  · rfl

/-- A core that takes flags and data goes to FAULT (R131). -/
theorem pageOf_coreFault {k : Nat} {c : Cause} {d : Dev} (h : inState (pCore k) [.ready, .active, .quiesced] d = true) :
    (pageOf (pCore k) (coreFault k c d)).state = .fault ∧ (pageOf (pCore k) (coreFault k c d)).cause = c := by
  obtain ⟨w, hw⟩ := pageOf_setState (pCore k) .fault c (endCmd (pCore k) false (abandonKernel k d))
  rw [coreFault, if_pos h, hw]
  exact ⟨rfl, rfl⟩

theorem inState_failCheck (p : PageId) (l : List PState) (k : Nat) (d : Dev) :
    inState p l (failCheck k d) = inState p l d := by
  simp [inState, stateOf, pageOf_failCheck]

/-- A controller in FAULT by its own fault is tested again by its owner (R213). -/
theorem ownRetest_controller {i : Nat} {d : Dev} (h : i < 24) (hst : (pageOf (pMem i) d).state = .fault)
    (hc : (pageOf (pMem i) d).cause = .selfFault) :
    ownRetest (uController i) d = setState (pMem i) .testing .selfFault d := by
  have hp : unitPage (uController i) = some (pMem i) := by
    simp [unitPage, unitClass_uController h, unitIndex_uController h]
  simp only [ownRetest, hp]
  rw [if_pos ⟨hst, .inl hc, .inl trivial⟩]
  simp only [startRetest, beforeRun, Bool.false_eq_true, if_false, hc]
  exact moveTo_of_not_port (by simp) _ _ _

theorem faultReportsComplete : Claims.FaultReportsComplete := by
  intro i s hon d
  refine ⟨fun hi h => ?_, fun hi h => ?_, fun hi hst hc => ?_⟩
  · refine does_of hon (f := reportFault (uController i)) ?_
    rw [reportFault_controller hi]
    exact pageOf_pageFault (by simp) h
  · refine does_of hon (f := reportFault (uCore i)) ?_
    rw [reportFault_core hi, if_pos (show coreTakes i d = true from h)]
    exact pageOf_coreFault (by rwa [inState_failCheck])
  · refine does_of hon (f := ownRetest (uController i)) ?_
    obtain ⟨w, hw⟩ := pageOf_setState (pMem i) .testing .selfFault d
    rw [ownRetest_controller hi hst hc, hw]
    exact ⟨rfl, rfl, rfl⟩

/-- Settles O8: RETIRE by the judgement of page commands, the reports of faults by what a transition leaves in its page. -/
theorem retireAndFaultCommandsComplete : Obligations.RetireAndFaultCommandsComplete :=
  ⟨retireCompletes, faultReportsComplete⟩

/-! ### Negotiation (R51, R52) -/

section Negotiation

variable {p : PageId} {value : Nat} {d : Dev} (hs : pageSilent p d = false) (hc : (pageOf p d).cmd = none)
  (hl : d.lead.latches = [])
include hs hc hl

/-- A value of 0 withdraws the negotiation (R51). -/
theorem negotiate_withdraws (hz : fieldOf value 31 16 = 0) :
    negotiate p value d = (putPage p { pageOf p d with negotiated := false, major := 0, minor := 0 } d, true) := by
  simp [negotiate, hs, hc, hl, hz]

theorem negotiate_accepts (hlo : (versionOf p.ty d).oldest ≤ fieldOf value 31 24)
    (hhi : fieldOf value 31 24 ≤ (versionOf p.ty d).major) (hz : fieldOf value 31 16 ≠ 0) :
    negotiate p value d = (putPage p { pageOf p d with
      negotiated := true, major := fieldOf value 31 24,
      minor := min (fieldOf value 23 16) (minorOf (versionOf p.ty d) (fieldOf value 31 24)) } d, true) := by
  simp [negotiate, hs, hc, hl, hz, hlo, hhi]

theorem negotiate_refuses
    (hm : fieldOf value 31 24 < (versionOf p.ty d).oldest ∨ (versionOf p.ty d).major < fieldOf value 31 24)
    (hz : fieldOf value 31 16 ≠ 0) :
    negotiate p value d = (putPage p ({ pageOf p d with negotiated := false, major := 0, minor := 0 }.erred
      (2 ^ 12 * 3 + 2 ^ 8 * stateCode (pageOf p d).state)) d, false) := by
  have hv : ¬ ((versionOf p.ty d).oldest ≤ fieldOf value 31 24 ∧ fieldOf value 31 24 ≤ (versionOf p.ty d).major) := by
    omega
  simp [negotiate, hs, hc, hl, hz, hv, classError, recordError, stateOf, Page.erred]

end Negotiation

/-! ### Header registers (R31, R48, R49) -/

theorem writeError_nonzero {p : PageId} {v : Word} {d : Dev} (hs : pageSilent p d = false) (hv : v ≠ 0) :
    writeError p v d = putPage p { pageOf p d with errCount := 0, errFirst := 0 } d := by
  have hv : (v == 0) = false := by simpa using hv
  simp only [writeError, hs, hv, Bool.or_self, Bool.false_eq_true, if_false]

theorem writeError_zero (p : PageId) (d : Dev) : writeError p 0 d = d := by simp [writeError]

/-- An error recorded while COUNT is 0 sets FIRST (R31). -/
theorem recordError_first {d : Dev} (p : PageId) (code : Nat) (h : (pageOf p d).errCount = 0) :
    recordError p code d = putPage p { pageOf p d with errCount := 1, errFirst := code } d := by
  simp only [recordError, h, if_true]
  rfl

/-- A later error only counts (R31). -/
theorem recordError_later {d : Dev} (p : PageId) (code : Nat) (h : (pageOf p d).errCount ≠ 0) :
    recordError p code d = putPage p { pageOf p d with errCount := min 0xFFFF ((pageOf p d).errCount + 1) } d := by
  simp only [recordError, if_neg h]

/-- An event of the same instant prevails over the write that clears its bit (R49). -/
theorem events_writeEvents {p : PageId} {d : Dev} {b : Nat} (v c : Word) (hs : pageSilent p d = false) (hb : b < 32)
    (he : (c &&& eventBits).getLsbD b = true) : (pageOf p (writeEvents p v c d)).events.getLsbD b = true := by
  simp only [writeEvents, hs, Bool.false_eq_true, if_false]
  exact events_foldl_raise p (c &&& eventBits) hb _ _ (.inr ⟨List.mem_range.2 hb, he⟩)

theorem writeEvents_alone {p : PageId} {d : Dev} (v : Word) (hs : pageSilent p d = false) :
    writeEvents p v 0 d = putPage p { pageOf p d with events := (pageOf p d).events &&& ~~~(v &&& eventBits) } d := by
  simp only [writeEvents, hs, BitVec.ofNat_eq_ofNat, BitVec.zero_and, BitVec.getLsbD_zero, Bool.false_eq_true, if_false]
  rfl

theorem headerWritesComplete : Claims.HeaderWritesComplete := by
  intro ty inst v s hon hs p d g major
  refine ⟨fun hv => ?_, ?_, ?_, fun b hb he => ?_, ?_, fun hc hl hlo hhi hz => ?_, fun hc hl hm hz => ?_,
    fun hc hl hz => ?_, fun code h => ?_, fun code h => ?_⟩
  · exact gives_of_eq hon (writeError_nonzero hs hv)
  · exact gives_of_eq hon (writeError_zero p d)
  · exact gives_of_eq hon (writeEvents_alone v hs)
  · refine does_of hon (f := writeEvents p v (BitVec.ofNat 32 (2 ^ b))) (events_writeEvents v _ hs hb ?_)
    rw [BitVec.getLsbD_and, getLsbD_ofNat_two_pow hb, he, Bool.and_self]
  · exact reaches_of_reported hon (reported_writeMask v hs)
  · exact gives_of_eq hon (congrArg Prod.fst (negotiate_accepts hs hc hl hlo hhi hz))
  · exact gives_of_eq hon (congrArg Prod.fst (negotiate_refuses hs hc hl hm hz))
  · exact gives_of_eq hon (congrArg Prod.fst (negotiate_withdraws hs hc hl hz))
  · exact recordError_first p code h
  · exact recordError_later p code h

/-- NEGOTIATE_ALL of a type with one page, which accepts: it counts one acceptance (R52, R370). -/
theorem negotiateEvery_single {t : BlockType} {value v : Nat} {d e : Dev} (ht : typeOfCode (value % 2 ^ 16) = some t)
    (hm : t ≠ .module) (hi : instances t = 1) (hv : value / 2 ^ 16 % 2 ^ 16 * 2 ^ 16 = v)
    (h : negotiate ⟨t, 0⟩ v d = (e, true)) :
    negotiateEvery value d = raise pModule 19 (wr (rModule 0x84) 1 e) := by
  simp only [negotiateEvery, ht, if_neg hm, hi, hv, List.range_one, List.foldl_cons, List.foldl_nil, h, if_true,
    Nat.mul_zero, Nat.zero_add]

theorem negotiateAllCounts : Claims.NegotiateAllCounts := by
  intro s hon hs hn hr hc hl hv
  have hmajor : fieldOf 0x01FF0000 31 24 = 1 := by decide
  have hneg : negotiate pReset 0x01FF0000 s.dev =
      (putPage pReset { pageOf pReset s.dev with negotiated := true, major := 1, minor := 0 } s.dev, true) := by
    rw [negotiate_accepts hr hc hl (by simp only [hv, hmajor, Nat.le_refl])
      (by simp only [hv, hmajor, Nat.le_refl]) (by decide), hv, hmajor]
    simp [minorOf]
  refine reaches_of_reported hon (f := whenNegotiated pModule (negotiateEvery (0x01FF0004 : Word).toNat)) ?_
  have he := negotiateEvery_single (t := .reset) (value := (0x01FF0004 : Word).toNat) (by decide) (by decide) rfl
    (by decide) hneg
  rw [whenNegotiated, hs, if_neg Bool.false_ne_true, if_pos hn, he]
  exact reported_raise _ _ _

/-- Settles O10: the header registers by one equation for each kind of write, NEGOTIATE_ALL by the negotiation that it
makes of the one RESET page. -/
theorem headerRegistersComplete : Obligations.HeaderRegistersComplete := ⟨headerWritesComplete, negotiateAllCounts⟩

/-! ### The register window: a read of STEPS draws a free value (R135, R408) -/

/-- The effect of the read itself draws no free value. -/
theorem wordReadEffect_fresh (fz : Fuses) (logs : Nat) (r : RegId) (d : Dev) :
    (wordReadEffect fz logs r d).fresh = d.fresh := by
  simp only [wordReadEffect]
  split
  · rfl
  · split
    · simp only [apply_ite Dev.fresh, putPage_fresh, wr64, wr_fresh, ite_self]
    · rfl

/-- A read of a usable core's STEPS finds the steps since its latest instruction: their number is a free value. -/
theorem beforeRead_steps_fresh {o k : Nat} {d : Dev} (hl : locate o = some (rCore k 0xD0)) (hu : usable (uCore k) d = true)
    (hr : resetActs .core d = false) : (beforeRead o d).fresh = d.fresh + 1 := by
  simp only [beforeRead, hl]
  rw [if_pos ⟨trivial, .inl trivial, hu, hr⟩]
  rfl

/-- LO_READ of a usable core's STEPS advances the count of free values. -/
theorem loRead_steps_fresh {o k : Nat} {s : State} {d : Dev} (hon : s.on) (hl : locate o = some (rCore k 0xD0))
    (ho : o % 4 = 0) (hu : usable (uCore k) s.dev = true) (hr : resetActs .core s.dev = false)
    (h : Gives s (exec (.loRead o) s) d) : d.fresh = s.dev.fresh + 1 := by
  have hd : (readWindow s.fuses s.mlog.length 4 o s.dev).1 = d := by
    have := (onDev_on hon (fun d => (readWindow s.fuses s.mlog.length 4 o d).1)).symm.trans h
    injection this with this
    exact congrArg State.dev this
  rw [← hd, ← beforeRead_steps_fresh hl hu hr]
  simp [readWindow, readRegs, hl, ho, readWord, wordReadEffect_fresh]

/-- The module out of reset, with core 0 READY. -/
def coreZeroReady : State :=
  { State.reset with dev := { State.reset.dev with
      reset := { State.reset.dev.reset with level := none }
      pages := [(pCore 0, { freshPage .powerOn 0 with state := .ready })] } }

/-- Refutes O11: WindowAccessesComplete says that LO_READ of a read-only pair changes the page's latch alone, but STEPS of a
usable core (offset 0x10000D0 for core 0) is such a pair, and its read first lets the core make the steps that have passed,
a free value that it draws. -/
theorem not_registerWindowCompletes : ¬ Obligations.RegisterWindowCompletes := by
  intro h
  have hon : coreZeroReady.on := by decide
  have hl : locate 0x10000D0 = some (rCore 0 0xD0) := by decide
  obtain ⟨-, -, -, -, -, hlo, -⟩ :=
    h.1 0x10000D0 0 (rCore 0 0xD0) ⟨.ro, 0, m64, true⟩ coreZeroReady hon hl rfl rfl (by decide) (by decide)
  have hf := loRead_steps_fresh hon hl rfl (by decide) (by decide) (hlo rfl rfl)
  exact absurd hf (by decide)

end Sys2Proof.Machine
end

section
/-!
SUPPORT. Proofs of the statements about cores (04_core.md): what the passing of time leaves of a core, what an instruction that
retires and a trap write, and the custom instructions and waits.
-/

namespace Sys2Proof.Machine

/-! ### Cores after an update -/

@[simp] theorem coreOf_modCore_same (k : Nat) (f : Core → Core) (d : Dev) : coreOf k (modCore k f d) = f (coreOf k d) := by
  simp [coreOf]

theorem coreOf_modCore_other {j k : Nat} (f : Core → Core) (d : Dev) (h : j ≠ k) :
    coreOf j (modCore k f d) = coreOf j d := by
  simp [coreOf, tbl_get_set_other _ _ _ h]

@[simp] theorem coreOf_wr (k : Nat) (r : RegId) (n : Nat) (d : Dev) : coreOf k (wr r n d) = coreOf k d := rfl

/-- A write of x0 is without effect: it reads 0 (R94). -/
theorem xreg_setX (r q : Nat) (v : DWord) (c : Core) :
    xreg (setX r v c) q = if q % 32 = r % 32 ∧ q % 32 ≠ 0 then v else xreg c q := by
  by_cases hr : r % 32 = 0
  · have : ¬ (q % 32 = r % 32 ∧ q % 32 ≠ 0) := by omega
    simp [setX, hr]
  · by_cases hq : q % 32 = 0
    · simp [xreg, hq]
    · simp [setX, xreg, hr, hq, tbl_get_set]

@[simp] theorem setX_pc (r : Nat) (v : DWord) (c : Core) : (setX r v c).pc = c.pc := by
  simp only [setX, apply_ite Core.pc, ite_self]

@[simp] theorem setX_machine (r : Nat) (v : DWord) (c : Core) : (setX r v c).machine = c.machine := by
  simp only [setX, apply_ite Core.machine, ite_self]

@[simp] theorem setX_flags (r : Nat) (v : DWord) (c : Core) : (setX r v c).flags = c.flags := by
  simp only [setX, apply_ite Core.flags, ite_self]

@[simp] theorem setX_waiting (r : Nat) (v : DWord) (c : Core) : (setX r v c).waiting = c.waiting := by
  simp only [setX, apply_ite Core.waiting, ite_self]

theorem flagOf_of_set {c e : Core} {f : Nat} {v : Word} (h : e.flags = c.flags.set f v) (g : Nat) :
    flagOf e g = if g = f then v else flagOf c g := by
  unfold flagOf
  rw [h]
  exact tbl_get_set c.flags 0 v g f

/-! ### Time at a core (R19, R95, R373) -/

/-- Only time passes at core `k`: its cycle count, its issue slot and registers of the window may change. -/
def TimePasses (k : Nat) (d e : Dev) : Prop :=
  (∃ t s l, coreOf k e = { coreOf k d with mcycle := t, slot := s, windowShade := l })
    ∧ (∀ j, j ≠ k → coreOf j e = coreOf j d)
    ∧ e.pages = d.pages ∧ e.sram = d.sram ∧ e.mem = d.mem ∧ e.packets = d.packets

theorem TimePasses.trans {k : Nat} {a b c : Dev} (h : TimePasses k a b) (h' : TimePasses k b c) : TimePasses k a c := by
  obtain ⟨⟨_, _, _, hc⟩, ho, hp, hs, hm, hk⟩ := h
  obtain ⟨⟨t, s, l, hc'⟩, ho', hp', hs', hm', hk'⟩ := h'
  exact ⟨⟨t, s, l, by rw [hc', hc]⟩, fun j hj => (ho' j hj).trans (ho j hj), hp'.trans hp, hs'.trans hs, hm'.trans hm,
    hk'.trans hk⟩

theorem timePasses_tickFree (k : Nat) (d : Dev) : TimePasses k d (tickFree d) :=
  ⟨⟨_, _, _, rfl⟩, fun _ _ => rfl, rfl, rfl, rfl, rfl⟩

theorem timePasses_add64 (k : Nat) (r : RegId) (n : Nat) (d : Dev) : TimePasses k d (add64 r n d) :=
  ⟨⟨_, _, _, rfl⟩, fun _ _ => rfl, rfl, rfl, rfl, rfl⟩

theorem timePasses_modCore (k s l : Nat) (m : Core → DWord) (d : Dev) :
    TimePasses k d (modCore k (fun c => { c with mcycle := m c, slot := s, windowShade := l }) d) :=
  ⟨⟨_, _, _, coreOf_modCore_same k _ d⟩, fun _ hj => coreOf_modCore_other _ d hj, rfl, rfl, rfl, rfl⟩

theorem timePasses_countSteps (k n filled slot level : Nat) (d : Dev) :
    TimePasses k d (countSteps k n filled slot level d) :=
  ((timePasses_modCore k _ _ _ d).trans (timePasses_add64 k _ _ _)).trans (timePasses_add64 k _ _ _)

theorem timePasses_makeSteps (k n : Nat) (d : Dev) : TimePasses k d (makeSteps k n d) := timePasses_countSteps k n _ _ _ d

theorem timePasses_passSteps (k : Nat) (d : Dev) : TimePasses k d (passSteps k d) :=
  ((timePasses_tickFree k d).trans (timePasses_makeSteps k _ _)).trans (timePasses_makeSteps k _ _)

/-! ### An instruction retires (R95) -/

/-- Time that passes after an instruction retired leaves it retired. -/
theorem Retires.timePasses {k r : Nat} {v : DWord} {a b c : Dev} (h : Retires k r v a b) (t : TimePasses k b c) :
    Retires k r v a c := by
  obtain ⟨hpc, hw, hx, hm, ho, hp, hs, hmem, hk⟩ := h
  obtain ⟨⟨_, _, _, hc⟩, ho', hp', hs', hmem', hk'⟩ := t
  refine ⟨?_, ?_, ?_, ?_, fun j hj => (ho' j hj).trans (ho j hj), hp'.trans hp, hs'.trans hs, hmem'.trans hmem, hk'.trans hk⟩
  all_goals rw [hc]
  · exact hpc
  · exact hw
  · exact hx
  · exact hm

theorem retires_retireInstr (k r : Nat) (v : DWord) (d : Dev) : Retires k r v d (retireInstr k r v 4 d) := by
  refine Retires.timePasses ?_ (timePasses_passSteps k _)
  refine ⟨?_, ?_, fun q => ?_, ?_, fun j hj => coreOf_modCore_other _ d hj, rfl, rfl, rfl, rfl⟩
  all_goals rw [coreOf_modCore_same]
  · rw [setX_pc]
  · rw [setX_waiting]
  · exact xreg_setX r q v _
  · rw [setX_machine]

theorem flags_retireInstr (k r : Nat) (v : DWord) (len : Nat) (d : Dev) :
    (coreOf k (retireInstr k r v len d)).flags = (coreOf k d).flags := by
  obtain ⟨⟨_, _, _, hc⟩, -⟩ := timePasses_passSteps k _
  rw [retireInstr, hc, coreOf_modCore_same, setX_flags]

/-- A step that only retires an instruction keeps the flags. -/
theorem retires_of_eq {k r : Nat} {v : DWord} {d e : Dev} (h : e = retireInstr k r v 4 d) :
    Retires k r v d e ∧ (coreOf k e).flags = (coreOf k d).flags := by
  rw [h]
  exact ⟨retires_retireInstr k r v d, flags_retireInstr k r v 4 d⟩

/-- An instruction that retires after a write of flags retires from the state before it. -/
theorem Retires.of_flags {k r : Nat} {v : DWord} {t : Tbl Nat Word} {d e : Dev}
    (h : Retires k r v (modCore k (fun x => { x with flags := t }) d) e) : Retires k r v d e := by
  obtain ⟨hpc, hw, hx, hm, ho, hrest⟩ := h
  rw [coreOf_modCore_same] at hpc hx hm
  exact ⟨hpc, hw, hx, hm, fun j hj => (ho j hj).trans (coreOf_modCore_other _ d hj), hrest⟩

/-! ### Fields of a number -/

/-- From its lowest bit up, a written field stands below what stood above it. -/
theorem putField_div_low (w hi lo v : Nat) :
    putField w hi lo v / 2 ^ lo =
      2 ^ (hi + 1 - lo) * (w / 2 ^ lo / 2 ^ (hi + 1 - lo)) + v % 2 ^ (hi + 1 - lo) := by
  have hw := Nat.div_add_mod' w (2 ^ lo)
  have hq := Nat.div_add_mod' (w / 2 ^ lo) (2 ^ (hi + 1 - lo))
  have hl := Nat.mod_lt w (Nat.two_pow_pos lo)
  rw [Nat.div_eq_iff (Nat.two_pow_pos lo), putField, fieldOf, Nat.shiftRight_eq_div_pow,
    Nat.mul_comm (2 ^ (hi + 1 - lo))]
  generalize 2 ^ lo = L at *
  generalize 2 ^ (hi + 1 - lo) = W at *
  rw [← hq, Nat.add_mul] at hw
  rw [Nat.add_mul]
  omega

theorem fieldOf_putField_same (w hi lo v : Nat) : fieldOf (putField w hi lo v) hi lo = v % 2 ^ (hi + 1 - lo) := by
  rw [fieldOf, Nat.shiftRight_eq_div_pow, putField_div_low, Nat.mul_add_mod, Nat.mod_mod]

/-- A write of a field leaves every bit above it. -/
theorem putField_div (w v : Nat) {hi lo m : Nat} (h : lo ≤ hi) (hm : hi < m) : putField w hi lo v / 2 ^ m = w / 2 ^ m := by
  obtain ⟨n, rfl⟩ : ∃ n, m = lo + (hi + 1 - lo) + n := ⟨m - (hi + 1), by omega⟩
  rw [Nat.pow_add, Nat.pow_add, ← Nat.div_div_eq_div_mul, ← Nat.div_div_eq_div_mul, putField_div_low,
    Nat.mul_add_div (Nat.two_pow_pos _), Nat.div_eq_of_lt (Nat.mod_lt _ (Nat.two_pow_pos _)), Nat.add_zero,
    Nat.div_div_eq_div_mul, Nat.div_div_eq_div_mul, Nat.mul_assoc]

theorem fieldOf_putField_above (w v : Nat) {hi lo hi' lo' : Nat} (h : lo ≤ hi) (hm : hi < lo') :
    fieldOf (putField w hi lo v) hi' lo' = fieldOf w hi' lo' := by
  simp only [fieldOf, Nat.shiftRight_eq_div_pow, putField_div w v h hm]

/-- A write of a field that lies within a word stays within it. -/
theorem putField_lt {w hi lo n : Nat} (v : Nat) (h : lo ≤ hi) (hn : hi < n) (hw : w < 2 ^ n) :
    putField w hi lo v < 2 ^ n := by
  rw [← Nat.div_eq_zero_iff_lt (Nat.two_pow_pos n), putField_div w v h hn, Nat.div_eq_of_lt hw]

/-- Trap entry stacks the mode and the enable and clears the enable (R104). -/
theorem trapStatus_fields (m : DWord) (mode enable : Nat) :
    let status := BitVec.ofNat 64 (putField (putField (putField m.toNat 12 11 mode) 7 7 enable) 3 3 0)
    fieldOf status.toNat 12 11 = mode % 4 ∧ fieldOf status.toNat 3 3 = 0 := by
  have hmode := putField_lt (hi := 12) (lo := 11) mode (by omega) (by omega) m.isLt
  have henable := putField_lt (hi := 7) (lo := 7) enable (by omega) (by omega) hmode
  have hlt := putField_lt (hi := 3) (lo := 3) 0 (by omega) (by omega) henable
  intro status
  rw [BitVec.toNat_ofNat, Nat.mod_eq_of_lt hlt]
  constructor
  · rw [fieldOf_putField_above _ _ (by omega) (by omega), fieldOf_putField_above _ _ (by omega) (by omega)]
    exact fieldOf_putField_same m.toNat 12 11 mode
  · rw [fieldOf_putField_same, Nat.zero_mod]

/-! ### Traps (R104, R107, R128) -/

/-- The latch writes two CSRs of the core (R128). -/
theorem coreOf_latchFault (k src cause detail ctx : Nat) (user : Bool) (pc addr : Nat) (d : Dev) :
    ∃ i a, coreOf k (latchFault k src cause detail ctx user pc addr d) = { coreOf k d with vxfinfo := i, vxfaddr := a } := by
  simp only [latchFault]
  split <;> simp only [bump, addSat, wr64, coreOf_wr, coreOf_modCore_same] <;> exact ⟨_, _, rfl⟩

theorem latchFault_frame (k src cause detail ctx : Nat) (user : Bool) (pc addr : Nat) (d : Dev) :
    let e := latchFault k src cause detail ctx user pc addr d
    e.pages = d.pages ∧ e.sram = d.sram ∧ e.mem = d.mem := by
  simp only [latchFault]
  split <;> exact ⟨rfl, rfl, rfl⟩

theorem exception_user {k : Nat} {d : Dev} (code tval : Nat) (hm : (coreOf k d).machine = false) :
    exception k code tval d = beginEnd k 2 0 (enterTrap k false code tval
      (latchFault k 0 code 0 (coreOf k d).vxctx true (coreOf k d).pc tval d)) := by
  simp only [exception, hm, Bool.false_eq_true, if_false]

/-- An exception in user mode is a trap of the kernel. -/
theorem traps_exception {k : Nat} {d : Dev} (code tval : Nat) (hm : (coreOf k d).machine = false) :
    Traps k code tval d (exception k code tval d) := by
  obtain ⟨i, a, hl⟩ := coreOf_latchFault k 0 code 0 (coreOf k d).vxctx true (coreOf k d).pc tval d
  obtain ⟨hmode, henable⟩ := trapStatus_fields (coreOf k d).mstatus 0 (b2n ((coreOf k d).mstatus.getLsbD 3))
  rw [exception_user code tval hm]
  refine ⟨?_, ?_, ?_, ?_, ?_, ?_, ?_, ?_, ?_, latchFault_frame ..⟩
  all_goals simp only [beginEnd, enterTrap, coreOf_modCore_same, hl, hm]
  · simp
  · simp
  · simpa using hmode
  · simpa using henable
  · intro hk he
    simp [hk, he]

/-! ### What executes next (R104, R122) -/

theorem stepCore_runs {k : Nat} {d : Dev} (h : runs k d) (f : Dev → Dev) : stepCore k f d = f d := by
  obtain ⟨hi, hr, hw⟩ := h
  simp [stepCore, hi, hr, hw]

theorem does_runs {k : Nat} {s : State} (hon : s.on) (h : runs k s.dev) {f : Dev → Dev} {P : Dev → Prop}
    (e : P (f s.dev)) : Does s (onDev (stepCore k f) s) P := does_of hon (by rwa [stepCore_runs h])

theorem stepWait_waits {k : Nat} {d : Dev} (hi : interrupted k d = false) (hr : mayRun k d = true)
    (hw : (coreOf k d).waiting.isSome = true) (f : Dev → Dev) : stepWait k f d = f d := by
  simp [stepWait, hi, hr, hw]

theorem does_waits {k : Nat} {s : State} (hon : s.on) (hi : interrupted k s.dev = false) (hr : mayRun k s.dev = true)
    (hw : (coreOf k s.dev).waiting.isSome = true) {f : Dev → Dev} {P : Dev → Prop} (e : P (f s.dev)) :
    Does s (onDev (stepWait k f) s) P :=
  does_of hon (by rwa [stepWait_waits hi hr hw])

/-! ### Custom instructions (R108, R109, R121, R122) -/

theorem reached_iff (x y : Word) : reached x y = true ↔ 0 ≤ (x - y).toInt := by
  simp [reached, BitVec.msb_eq_toInt]

section Custom

variable {k r a f : Nat} {d : Dev}

theorem doFlagRead_eq (hf : f ≤ 63) : doFlagRead k r f d = retireInstr k r ((flagOf (coreOf k d) f).setWidth 64) 4 d :=
  if_neg (by omega)

/-- FLAG.ADD and FLAG.SET give the old value and write the flag alone. -/
theorem doFlagWrite_writes (add : Bool) (hf : f ≤ 63) :
    let c := coreOf k d
    let v := low32 (xreg c a)
    let e := doFlagWrite k r a f add d
    Retires k r ((flagOf c f).setWidth 64) d e
      ∧ ∀ g, flagOf (coreOf k e) g = if g = f then (if add then flagOf c f + v else v) else flagOf c g := by
  intro c v e
  have he : e = retireInstr k r ((flagOf c f).setWidth 64) 4
      (modCore k (fun x => { x with flags := c.flags.set f (if add then flagOf c f + v else v) }) d) := if_neg (by omega)
  rw [he]
  refine ⟨Retires.of_flags (retires_retireInstr k r _ _), flagOf_of_set ?_⟩
  rw [flags_retireInstr, coreOf_modCore_same]

theorem doFlagTest_eq (hf : f ≤ 63) :
    doFlagTest k r a f d =
      retireInstr k r (if reached (flagOf (coreOf k d) f) (low32 (xreg (coreOf k d) a)) then 1 else 0) 4 d :=
  if_neg (by omega)

theorem doEngPoll_eq (he : (xreg (coreOf k d) a).toNat % 4 ≠ 3) :
    doEngPoll k r a d =
      retireInstr k r ((engineOf (coreOf k d) ((xreg (coreOf k d) a).toNat % 4)).completed.setWidth 64) 4 d :=
  if_neg he

end Custom

/-! ### Waits (R122, R123) -/

/-- The core waits for `w` where it stands. -/
def Waits (k : Nat) (w : Wait) (d e : Dev) : Prop :=
  (coreOf k e).waiting = some w ∧ (coreOf k e).pc = (coreOf k d).pc ∧ (coreOf k e).xs = (coreOf k d).xs

theorem waits_modCore (k : Nat) (w : Wait) (since : Core → Option Nat) (d : Dev) :
    Waits k w d (modCore k (fun x => { x with waiting := some w, waitSince := since x }) d) := by
  simp [Waits]

section Wait

variable {k r a b f : Nat} {d : Dev}

theorem doFlagWait_reached (hf : f ≤ 63) (h : reached (flagOf (coreOf k d) f) (low32 (xreg (coreOf k d) a)) = true) :
    doFlagWait k r a f d = retireInstr k r ((flagOf (coreOf k d) f).setWidth 64) 4 d :=
  (if_neg (by omega)).trans (if_pos h)

theorem doFlagWait_waits (hf : f ≤ 63) (h : reached (flagOf (coreOf k d) f) (low32 (xreg (coreOf k d) a)) = false) :
    Waits k (.flag r f (low32 (xreg (coreOf k d) a))) d (doFlagWait k r a f d) := by
  rw [doFlagWait, if_neg (by omega), h, if_neg Bool.false_ne_true]
  exact waits_modCore k _ _ d

theorem doEngWait_reached (he : (xreg (coreOf k d) a).toNat % 4 ≠ 3)
    (h : reached (engineOf (coreOf k d) ((xreg (coreOf k d) a).toNat % 4)).completed (low32 (xreg (coreOf k d) b)) = true) :
    doEngWait k r a b d =
      retireInstr k r ((engineOf (coreOf k d) ((xreg (coreOf k d) a).toNat % 4)).completed.setWidth 64) 4 d :=
  (if_neg he).trans (if_pos h)

theorem doEngWait_waits (he : (xreg (coreOf k d) a).toNat % 4 ≠ 3)
    (h : reached (engineOf (coreOf k d) ((xreg (coreOf k d) a).toNat % 4)).completed (low32 (xreg (coreOf k d) b)) = false) :
    Waits k (.engine r ((xreg (coreOf k d) a).toNat % 4) (low32 (xreg (coreOf k d) b))) d (doEngWait k r a b d) := by
  rw [doEngWait, if_neg he, h, if_neg Bool.false_ne_true]
  exact waits_modCore k _ _ d

theorem endWait_flag {v : Word} (hw : (coreOf k d).waiting = some (.flag r f v))
    (h : reached (flagOf (coreOf k d) f) v = true) :
    endWait k d = retireInstr k r ((flagOf (coreOf k d) f).setWidth 64) 4 d := by
  simp only [endWait, hw, h, if_true]

theorem endWait_engine {e : Nat} {v : Word} (hw : (coreOf k d).waiting = some (.engine r e v))
    (h : reached (engineOf (coreOf k d) e).completed v = true) :
    endWait k d = retireInstr k r ((engineOf (coreOf k d) e).completed.setWidth 64) 4 d := by
  simp only [endWait, hw, h, if_true]

/-- A user-mode wait past WAIT_LIMIT raises WAIT_TIMEOUT (R123). -/
theorem timeoutWait_past {t : Nat} (hu : (coreOf k d).machine = false) (ho : waitOver (coreOf k d) = false)
    (hs : (coreOf k d).waitSince = some t) (hl : rd (rCore k 0x7C) d ≠ 0)
    (ht : 1000 * rd (rCore k 0x7C) d < d.now - t) : timeoutWait k d = exception k 28 0 d := by
  simp [timeoutWait, hs, hu, ho, hl, ht]

end Wait

theorem customInstructionsComplete : Claims.CustomInstructionsComplete := by
  intro k r a b f s hon hr hf d c old v e t
  refine ⟨?_, ?_, ?_, ?_, fun he => ?_, fun he h => ?_, fun h => ?_, fun h => ?_, fun he h => ?_, reached_iff⟩
  · exact does_runs hon hr (f := doFlagRead k r f) (retires_of_eq (doFlagRead_eq hf))
  · exact does_runs hon hr (f := doFlagWrite k r a f true) (doFlagWrite_writes true hf)
  · exact does_runs hon hr (f := doFlagWrite k r a f false) (doFlagWrite_writes false hf)
  · exact does_runs hon hr (f := doFlagTest k r a f) (retires_of_eq (doFlagTest_eq hf))
  · exact does_runs hon hr (f := doEngPoll k r a) (retires_of_eq (doEngPoll_eq he)).1
  · exact does_runs hon hr (f := doEngWait k r a b) (retires_of_eq (doEngWait_reached he h)).1
  · exact does_runs hon hr (f := doFlagWait k r a f) (retires_of_eq (doFlagWait_reached hf h)).1
  · exact does_runs hon hr (f := doFlagWait k r a f) (doFlagWait_waits hf h)
  · exact does_runs hon hr (f := doEngWait k r a b) (doEngWait_waits he h)

theorem waitsEnd : Claims.WaitsEnd := by
  intro k r f v s hon hi hr d c
  refine ⟨fun hw h => ?_, fun e hw h => ?_, fun t hw ho hu hs hl ht => ?_⟩
  · exact does_waits hon hi hr (Option.isSome_of_eq_some hw) (f := endWait k) (retires_of_eq (endWait_flag hw h)).1
  · exact does_waits hon hi hr (Option.isSome_of_eq_some hw) (f := endWait k) (retires_of_eq (endWait_engine hw h)).1
  · refine does_waits hon hi hr hw (f := timeoutWait k) ?_
    rw [timeoutWait_past hu ho hs hl ht]
    exact traps_exception 28 0 hu

/-- Settles O19: each instruction and each end of a wait by its one equation, from what an instruction that retires, a wait
and a trap of the kernel leave in the core. -/
theorem customAndWaitInstructionsComplete : Obligations.CustomAndWaitInstructionsComplete :=
  ⟨customInstructionsComplete, waitsEnd⟩

end Sys2Proof.Machine
end

section
/-!
SUPPORT. Proofs of the statements about every command: a command ends in a next state, keeps the queue, keeps the fuse array but
for security versions that rise, and adds to the measurement log no further than its 256 entries.
-/

namespace Sys2Proof.Machine

/-! ### What every command leaves of the queue, the fuses and the log -/

theorem svnAtLeast_refl (a : List Nat) : svnAtLeast a a := ⟨rfl, fun _ => Nat.le_refl _⟩

/-- An advance burns no fuse down (R477). -/
theorem svnAtLeast_burned (svn : List Nat) (m : List Byte) : svnAtLeast (burned svn m) svn := by
  refine ⟨by simp [burned], fun i => ?_⟩
  by_cases h : i < svn.length
  · simp [burned, List.getD_eq_getElem?_getD, h, Nat.le_max_left]
  · simp [List.getD_eq_getElem?_getD, h]

theorem logEntry_bounded (e : LogEntry) {l : List LogEntry} (h : l.length ≤ 256) : (logEntry e l).length ≤ 256 := by
  unfold logEntry
  split
  · rw [List.length_append, List.length_singleton]; omega
  · exact h

theorem logEntries_bounded {α : Type} (f : α → LogEntry) (xs : List α) {l : List LogEntry} (h : l.length ≤ 256) :
    (xs.foldl (fun l x => logEntry (f x) l) l).length ≤ 256 := by
  induction xs generalizing l with
  | nil => exact h
  | cons x xs ih => exact ih (logEntry_bounded (f x) h)

/-- The outcome is a next state that keeps the queue, the fuse array but for security versions that rise, and the bound of the
measurement log. -/
def Keeps (s : State) (o : Host.Outcome State Fault Refusal) : Prop :=
  ∃ t, o = .next t ∧ t.pending = s.pending
    ∧ (svnAtLeast t.fuses.svn s.fuses.svn ∧ t.fuses = { s.fuses with svn := t.fuses.svn })
    ∧ (s.logBounded → t.logBounded)

/-- A command that changes the log and the device alone. -/
theorem keeps_next (s : State) (l : List LogEntry) (d : Dev) (h : s.mlog.length ≤ 256 → l.length ≤ 256) :
    Keeps s (.next { s with mlog := l, dev := d }) := ⟨_, rfl, rfl, ⟨svnAtLeast_refl _, rfl⟩, h⟩

theorem keeps_self (s : State) : Keeps s (.next s) := keeps_next s s.mlog s.dev id

theorem keeps_onDev (f : Dev → Dev) (s : State) : Keeps s (onDev f s) := keeps_next s s.mlog _ id

theorem keeps_onDevPart (part : Nat) (starts : Dev → Bool) (f : Dev → Dev) (s : State) :
    Keeps s (onDevPart part starts f s) := by
  unfold onDevPart
  simp only
  split
  · exact keeps_next s _ _ (logEntry_bounded _)
  · exact keeps_onDev f s

theorem keeps_afterWrite (n o v : Nat) (f : Dev → Dev) (s : State) : Keeps s (afterWrite n o v f s) := by
  unfold afterWrite
  split
  · split
    · exact keeps_onDevPart ..
    · split
      · exact keeps_onDevPart ..
      · exact keeps_onDev f s
  · exact keeps_onDev f s

theorem keeps_romStart (r : RomResults) (s : State) : Keeps s (execRomStart r s) := by
  unfold execRomStart
  simp only
  split
  · exact keeps_self s
  · split
    · exact keeps_next s s.mlog _ id
    · refine keeps_next s _ _ fun _ => ?_
      split <;> simp [bootLog]

theorem keeps_powerOn (pins : PinLevels) (s : State) : Keeps s (execPowerOn pins s) := by
  unfold execPowerOn
  split
  · exact keeps_next s [] _ fun _ => Nat.zero_le _
  · exact keeps_self s

theorem keeps_loseInput (s : State) : Keeps s (.next (loseInput s)) := keeps_next s [] _ fun _ => Nat.zero_le _

theorem keeps_takeoverCheckEnd (passed : Bool) (s : State) : Keeps s (execTakeoverCheckEnd passed s) := by
  unfold execTakeoverCheckEnd
  simp only
  split
  · exact keeps_next s _ _ (logEntries_bounded id _)
  · exact keeps_onDev _ s

theorem keeps_finishCopy (verified : Bool) (s : State) : Keeps s (.next (finishCopy verified s)) := by
  unfold finishCopy
  split
  · split
    · exact keeps_next s s.mlog _ id
    · split
      · exact ⟨_, rfl, rfl, ⟨svnAtLeast_burned _ _, rfl⟩, logEntries_bounded _ _⟩
      · exact keeps_next s s.mlog _ id
  · exact keeps_self s

theorem keeps_activationCopyDone (verified : Bool) (s : State) : Keeps s (execActivationCopyDone verified s) := by
  unfold execActivationCopyDone
  split
  · exact keeps_self s
  · exact keeps_finishCopy verified s

theorem keeps_debugUnlock (inst : Nat) (body : List Byte) (s : State) : Keeps s (execDebugUnlock inst body s) := by
  unfold execDebugUnlock
  simp only
  split
  · exact keeps_next s _ _ (logEntry_bounded _)
  · exact keeps_onDev _ s

/-- Every command acts on the device alone, but for the rows that start a part of firmware, load it, program fuses, open debug or
take the input power. -/
theorem keeps_exec (c : Instr) (s : State) : Keeps s (exec c s) := by
  cases c with
  | retest ty inst => exact (keeps_onDevPart _ _ _ s : Keeps s (execRetest ty inst s))
  | retrain ty inst arg => exact (keeps_onDevPart _ _ _ s : Keeps s (execRetrain ty inst arg s))
  | knownAnswerRunEnd u o => exact (keeps_onDevPart _ _ _ s : Keeps s (execKnownAnswerRunEnd u o s))
  | loadComplete ty inst ok => exact (keeps_onDevPart _ _ _ s : Keeps s (execLoadComplete ty inst ok s))
  | channelRetrainStart | restartSecond => exact keeps_onDevPart ..
  | registerWrite | regWrite32 | regWrite64 => exact keeps_afterWrite ..
  | romStart r => exact keeps_romStart r s
  | powerOn pins => exact keeps_powerOn pins s
  | inputDip => exact keeps_self s
  | powerLoss | overvoltage => exact keeps_loseInput s
  | takeoverCheckEnd passed => exact keeps_takeoverCheckEnd passed s
  | activationCopyDone verified => exact keeps_activationCopyDone verified s
  | debugUnlock inst body => exact keeps_debugUnlock inst body s
  | _ => exact keeps_onDev _ s

/-- What a step leaves of the fuses and of the log's bound: as a command does, or as a tick. -/
theorem step_keeps {s t : State} (h : step s = .next t) :
    (svnAtLeast t.fuses.svn s.fuses.svn ∧ t.fuses = { s.fuses with svn := t.fuses.svn })
      ∧ (s.logBounded → t.logBounded) := by
  obtain ⟨pending, fuses, mlog, dev⟩ := s
  cases pending with
  | nil =>
    obtain rfl : (⟨[], fuses, mlog, tick dev⟩ : State) = t := by simpa [step] using h
    exact ⟨⟨svnAtLeast_refl _, rfl⟩, id⟩
  | cons c r =>
    obtain ⟨u, hu, -, hf, hl⟩ := keeps_exec c ⟨r, fuses, mlog, dev⟩
    obtain rfl : t = u := by simpa [step, hu] using h.symm
    exact ⟨hf, hl⟩

/-- Settles O58: every command keeps the bound, and so does a tick. -/
theorem logStaysBounded : Obligations.LogStaysBounded := fun _ _ hb h => (step_keeps h).2 hb

/-- Settles O59: only an advance touches the fuses, and it burns none down. -/
theorem fusesNeverFall : Obligations.FusesNeverFall := fun _ _ h => (step_keeps h).1

/-- Settles O3: the same case analysis over the commands. -/
theorem everyCommandAnswers : Obligations.EveryCommandAnswers := by
  intro c s
  obtain ⟨t, ht, hp, -, -⟩ := keeps_exec c s
  exact ⟨t, ht, hp⟩

/-! ### Without the 48 V input (R493) -/

section Unpowered

variable {s : State} (h : s.dev.boot.phase = .unpowered)
include h

theorem onDev_unpowered (f : Dev → Dev) : onDev f s = .next s := by simp [onDev, powered, h]

theorem onDevPart_unpowered (part : Nat) (starts : Dev → Bool) (f : Dev → Dev) : onDevPart part starts f s = .next s := by
  simp [onDevPart, h, onDev_unpowered]

theorem afterWrite_unpowered (n o v : Nat) (f : Dev → Dev) : afterWrite n o v f s = .next s := by
  unfold afterWrite
  split
  · split
    · exact onDevPart_unpowered h ..
    · split
      · exact onDevPart_unpowered h ..
      · exact onDev_unpowered h f
  · exact onDev_unpowered h f

theorem romStart_unpowered (r : RomResults) : execRomStart r s = .next s := by simp [execRomStart, h]

theorem takeoverCheckEnd_unpowered (passed : Bool) : execTakeoverCheckEnd passed s = .next s := by
  simp [execTakeoverCheckEnd, h, onDev_unpowered]

theorem activationCopyDone_unpowered (verified : Bool) : execActivationCopyDone verified s = .next s := by
  simp [execActivationCopyDone, h]

theorem debugUnlock_unpowered (inst : Nat) (body : List Byte) : execDebugUnlock inst body s = .next s := by
  simp [execDebugUnlock, h, onDev_unpowered]

end Unpowered

/-- Settles O60: what acts on the device acts only while the 48 V input is there. -/
theorem unpoweredModuleRests : Obligations.UnpoweredModuleRests := by
  intro c s h hon hloss hover
  cases c with
  | retest ty inst => exact (onDevPart_unpowered h .. : execRetest ty inst s = _)
  | retrain ty inst arg => exact (onDevPart_unpowered h .. : execRetrain ty inst arg s = _)
  | knownAnswerRunEnd u o => exact (onDevPart_unpowered h .. : execKnownAnswerRunEnd u o s = _)
  | loadComplete ty inst ok => exact (onDevPart_unpowered h .. : execLoadComplete ty inst ok s = _)
  | channelRetrainStart | restartSecond => exact onDevPart_unpowered h ..
  | registerWrite | regWrite32 | regWrite64 => exact afterWrite_unpowered h ..
  | romStart r => exact romStart_unpowered h r
  | powerOn pins => exact absurd rfl (hon pins)
  | inputDip => rfl
  | powerLoss => exact absurd rfl hloss
  | overvoltage => exact absurd rfl hover
  | takeoverCheckEnd passed => exact takeoverCheckEnd_unpowered h passed
  | activationCopyDone verified => exact activationCopyDone_unpowered h verified
  | debugUnlock inst body => exact debugUnlock_unpowered h inst body
  | _ => exact onDev_unpowered h _

/-- Settles O1: by the definition of a step. -/
theorem stepRunsFrontCommand : Obligations.StepRunsFrontCommand := fun _ _ => rfl

end Sys2Proof.Machine
end

section
/-!
SUPPORT. Proofs of the statements about pages (02_register_pages.md, 12_bring_up_and_floor_plan.md): QUIESCE and RESUME.
-/

namespace Sys2Proof.Machine

/-! ### RESUME of a memory controller (R214, R508) -/

/-- A clause that says the next device up to reports says every field that no report changes. -/
theorem Reaches.quiet_eq {s : State} {f : Dev → Dev} {d : Dev} (hon : s.on) (h : Reaches s (onDev f s) d) :
    (f s.dev).quiet = d.quiet := by
  obtain ⟨t, ht, -, -, -, hr, -⟩ := h
  obtain rfl : { s with dev := f s.dev } = t := by simpa [onDev_on hon] using ht
  exact hr

/-- The module out of reset, with memory controller 0 READY under the host hold alone and nothing held. -/
def controllerZeroHeld : State :=
  { State.reset with dev := { State.reset.dev with
      reset := { State.reset.dev.reset with level := none }
      pages := [(pMem 0, { freshPage .powerOn 0 with state := .quiesced, holds := [.host], negotiated := true })] } }

/-- Refutes O4: the clause on RESUME with one hold gives the next device of every block, and leaves the table of memory
controllers as it was, but the RESUME of a controller that holds no access still releases what it holds, which lists the
controller in that table where no entry stood. -/
theorem not_quiesceAndResumeComplete : ¬ Obligations.QuiesceAndResumeComplete := by
  intro h
  have hon : controllerZeroHeld.on := by decide
  obtain ⟨-, -, hresume, -⟩ := h .memoryController 0 controllerZeroHeld hon
  have hq := (hresume (by decide) rfl rfl rfl rfl (.inl rfl) rfl).quiet_eq (f := cmdResume (pMem 0) 0) hon
  have hc : (cmdResume (pMem 0) 0 controllerZeroHeld.dev).memCtls = [] := congrArg Dev.memCtls hq
  exact absurd hc (by decide)

/-! ### RETRAIN of the Luawick link (R63, R87) -/

/-- A clause that says what the next device holds says it of the device that the command leaves. -/
theorem Does.holds {s : State} {f : Dev → Dev} {P : Dev → Prop} (hon : s.on) (h : Does s (onDev f s) P) : P (f s.dev) := by
  obtain ⟨t, ht, -, -, -, hp⟩ := h
  obtain rfl : { s with dev := f s.dev } = t := by simpa [onDev_on hon] using ht
  exact hp

theorem Gives.dev_eq {s : State} {f : Dev → Dev} {d : Dev} (hon : s.on) (h : Gives s (onDev f s) d) : f s.dev = d := by
  have h := (onDev_on hon f).symm.trans h
  simpa using h

/-- The module with its Luawick link ACTIVE, the LUAWICK page READY and the ring of its events enabled. -/
def linkedWithRing : State :=
  { State.reset with dev := { State.reset.dev with
      reset := { State.reset.dev.reset with level := none }
      link := { freshLink with phase := .active }
      rings := [(0, { noRing with enabled := true })]
      pages := [(pLua, { freshPage .powerOn 0 with state := .ready, negotiated := true })] } }

/-- Refutes O6: the clause on RETRAIN of the LUAWICK page keeps the replay buffer as it was, but the page goes to TRAINING with
STATE_CHANGED while the link is still ACTIVE, and the entry of that event asks the companion for its line of the ring at once: the
flit of that request is in the replay buffer as the link leaves ACTIVE. -/
theorem not_testLoadTrainComplete : ¬ Obligations.TestLoadTrainComplete := by
  intro h
  have hon : linkedWithRing.on := by decide
  obtain ⟨-, -, -, -, -, hluawick, -⟩ := h .luawick 0 0 linkedWithRing hon rfl
  obtain ⟨-, -, hreplay, -⟩ :=
    Does.holds (f := cmdRetrain pLua 0) hon (hluawick (by decide) rfl (.inl rfl) rfl)
  exact absurd hreplay (by decide +kernel)

end Sys2Proof.Machine
end

section
/-!
SUPPORT. Proof of the statement about the decision that retires units (R34, R367): what each part of it leaves of the floor plan.
-/

namespace Sys2Proof.Machine

/-! ### What leaves the floor plan as it is -/

/-- States, causes and flags of units and pages, the floor-plan generation and FLOOR_PLAN_SEQ are as they were. -/
structure SamePlan (d e : Dev) : Prop where
  units : e.units = d.units
  flags : e.flags = d.flags
  startCause : e.startCause = d.startCause
  pages : ∀ p, (pageOf p e).state = (pageOf p d).state ∧ (pageOf p e).cause = (pageOf p d).cause
  generation : rd (rModule 0x54) e = rd (rModule 0x54) d
  seq : rd (rModule 0x58) e = rd (rModule 0x58) d

theorem SamePlan.refl (d : Dev) : SamePlan d d := ⟨rfl, rfl, rfl, fun _ => ⟨rfl, rfl⟩, rfl, rfl⟩

theorem SamePlan.trans {a b c : Dev} (h : SamePlan a b) (k : SamePlan b c) : SamePlan a c :=
  ⟨k.units.trans h.units, k.flags.trans h.flags, k.startCause.trans h.startCause,
    fun p => ⟨(k.pages p).1.trans (h.pages p).1, (k.pages p).2.trans (h.pages p).2⟩,
    k.generation.trans h.generation, k.seq.trans h.seq⟩

theorem SamePlan.foldl {α : Type} {f : Dev → α → Dev} (h : ∀ d x, SamePlan d (f d x)) (l : List α) (d : Dev) :
    SamePlan d (l.foldl f d) := by
  induction l generalizing d with
  | nil => exact .refl d
  | cons x l ih => exact (h d x).trans (ih _)

theorem Reported.samePlan {d e : Dev} (h : Reported d e) : SamePlan d e := by
  have hu : e.quiet.units = d.quiet.units := congrArg Dev.units h.1
  have hf : e.quiet.flags = d.quiet.flags := congrArg Dev.flags h.1
  have hc : e.quiet.startCause = d.quiet.startCause := congrArg Dev.startCause h.1
  refine ⟨hu, hf, hc, fun p => ?_, h.rd rfl rfl, h.rd rfl rfl⟩
  obtain ⟨w, hw⟩ := h.pageFields p
  rw [hw]
  exact ⟨rfl, rfl⟩

/-- A page written with the same state and cause. -/
theorem samePlan_putPage (p : PageId) (g : Page) (d : Dev) (hs : g.state = (pageOf p d).state)
    (hc : g.cause = (pageOf p d).cause) : SamePlan d (putPage p g d) := by
  refine ⟨rfl, rfl, rfl, fun q => ?_, rfl, rfl⟩
  by_cases hq : q = p
  · subst hq
    rw [pageOf_putPage_same]
    exact ⟨hs, hc⟩
  · rw [pageOf_putPage_other _ _ hq]
    exact ⟨rfl, rfl⟩

theorem samePlan_endCmd (p : PageId) (d : Dev) : SamePlan d (endCmd p false d) := by
  cases h : (pageOf p d).cmd with
  | none => rw [endCmd_idle false h]; exact .refl d
  | some c => exact .trans (samePlan_putPage p _ d (by rfl) (by rfl)) (reported_endCmd_failed h).samePlan

theorem samePlan_wr {r : RegId} (n : Nat) (d : Dev) (h : homeOf (rModule 0x54) ≠ homeOf r)
    (h' : homeOf (rModule 0x58) ≠ homeOf r) : SamePlan d (wr r n d) :=
  ⟨rfl, rfl, rfl, fun _ => ⟨rfl, rfl⟩, rd_wr_other n d h, rd_wr_other n d h'⟩

/-- A die controller's count of losses is no register of the floor plan. -/
theorem samePlan_dieCount (i n : Nat) (d : Dev) : SamePlan d (addWrap (rDie i 0 0x50) n d) :=
  samePlan_wr _ d (by simp [homeOf]) (by simp [homeOf])

theorem samePlan_mgmtEvent (b : Nat) (d : Dev) : SamePlan d (mgmtEvent b d) :=
  ⟨rfl, rfl, rfl, fun _ => ⟨rfl, rfl⟩, rfl, rfl⟩

theorem samePlan_addCairn (u : Nat) (c : Cause) (d : Dev) : SamePlan d (addCairn u c d) := by
  unfold addCairn
  split
  · exact .refl d
  · exact ⟨rfl, rfl, rfl, fun _ => ⟨rfl, rfl⟩, rfl, rfl⟩

theorem samePlan_announce (l : Loss) (d : Dev) : SamePlan d (announce l d) := by
  unfold announce
  split
  · exact (reported_raise _ _ _).samePlan
  · exact .refl d

/-! ### A unit that a decision retires -/

/-- The unit of a loss stands RETIRED with the cause of the loss and the in-session flag. -/
def StandsRetired (l : Loss) (d : Dev) : Prop :=
  unitState l.unit d = .retired ∧ unitCause l.unit d = l.cause ∧ (unitFlags l.unit d).retiredInSession = true

theorem unitState_of_page {u : Nat} {p : PageId} (h : unitPage u = some p) (d : Dev) : unitState u d = (pageOf p d).state := by
  simp [unitState, h, stateOf]

theorem unitCause_of_page {u : Nat} {p : PageId} (h : unitPage u = some p) (d : Dev) : unitCause u d = (pageOf p d).cause := by
  simp [unitCause, h]

theorem unitState_of_entry {u : Nat} (h : unitPage u = none) (d : Dev) : unitState u d = (unitRec u d).state := by
  simp [unitState, h]

theorem unitCause_of_entry {u : Nat} (h : unitPage u = none) (d : Dev) : unitCause u d = (unitRec u d).cause := by
  simp [unitCause, h]

theorem SamePlan.unitState {d e : Dev} (h : SamePlan d e) (u : Nat) : unitState u e = unitState u d := by
  cases hp : unitPage u with
  | none => rw [unitState_of_entry hp, unitState_of_entry hp, unitRec, unitRec, h.units, h.startCause]
  | some p => rw [unitState_of_page hp, unitState_of_page hp, (h.pages p).1]

theorem SamePlan.unitCause {d e : Dev} (h : SamePlan d e) (u : Nat) : unitCause u e = unitCause u d := by
  cases hp : unitPage u with
  | none => rw [unitCause_of_entry hp, unitCause_of_entry hp, unitRec, unitRec, h.units, h.startCause]
  | some p => rw [unitCause_of_page hp, unitCause_of_page hp, (h.pages p).2]

theorem SamePlan.standsRetired {l : Loss} {d e : Dev} (h : SamePlan d e) (hl : StandsRetired l d) : StandsRetired l e := by
  obtain ⟨hs, hc, hf⟩ := hl
  refine ⟨(h.unitState _).trans hs, (h.unitCause _).trans hc, ?_⟩
  rw [unitFlags, h.flags]
  exact hf

/-- Units with pages have pages of their own. -/
theorem unitPage_injective {u v : Nat} {p : PageId} (hu : unitPage u = some p) (hv : unitPage v = some p) : u = v := by
  have key : ∀ w, unitPage w = some p → unitIndex w = p.inst ∧ unitClass w = match p.ty with
      | .core => 0x1 | .memoryController => 0x5 | .updateEngine => 0x7 | .port => 0x8 | .networkInterface => 0x9
      | .dieController => 0xC | .controlComplex => 0xD | _ => 0 := by
    intro w hw
    unfold unitPage at hw
    split at hw <;> simp only [Option.some.injEq, reduceCtorEq] at hw <;> subst hw <;> exact ⟨rfl, by assumption⟩
  obtain ⟨hi, hc⟩ := key u hu
  obtain ⟨hi', hc'⟩ := key v hv
  simp only [unitIndex, unitClass] at hi hc hi' hc'
  omega

/-- What `writeLoss` writes into the unit's page or entry. -/
def retireEntry (l : Loss) (d : Dev) : Dev :=
  match unitPage l.unit with
  | some p => setStateQuiet p .retired l.cause (match (pageOf p d).cmd with | some ⟨4, _⟩ => d | _ => endCmd p false d)
  | none => setUnit l.unit .retired l.cause d

theorem writeLoss_eq (l : Loss) (d : Dev) :
    writeLoss l d = markRetired l.unit (if dieOfUnit l.unit < 10 then addWrap (rDie (dieOfUnit l.unit) 0 0x50) 1 (retireEntry l d)
      else retireEntry l d) := rfl

theorem samePlan_count (l : Loss) (d : Dev) :
    SamePlan d (if dieOfUnit l.unit < 10 then addWrap (rDie (dieOfUnit l.unit) 0 0x50) 1 d else d) := by
  split
  · exact samePlan_dieCount _ _ _
  · exact .refl d

/-- The command in progress on a page that is retired, RETIRE apart, ends. -/
theorem samePlan_endOther (p : PageId) (d : Dev) :
    SamePlan d (match (pageOf p d).cmd with | some ⟨4, _⟩ => d | _ => endCmd p false d) := by
  split
  · exact .refl d
  · exact samePlan_endCmd p d

theorem retireEntry_own (l : Loss) (d : Dev) :
    unitState l.unit (retireEntry l d) = .retired ∧ unitCause l.unit (retireEntry l d) = l.cause := by
  unfold retireEntry
  split
  · next p hp =>
    rw [unitState_of_page hp, unitCause_of_page hp, setStateQuiet, pageOf_putPage_same]
    exact ⟨rfl, rfl⟩
  · next hp =>
    simp [unitState_of_entry hp, unitCause_of_entry hp, setUnit, hp, unitRec]

theorem retireEntry_other {l : Loss} {u : Nat} (h : u ≠ l.unit) (d : Dev) :
    unitState u (retireEntry l d) = unitState u d ∧ unitCause u (retireEntry l d) = unitCause u d := by
  unfold retireEntry
  split
  · next p hp =>
    have hs := samePlan_endOther p d
    have hset : ∀ x : Dev, unitState u (setStateQuiet p .retired l.cause x) = unitState u x
        ∧ unitCause u (setStateQuiet p .retired l.cause x) = unitCause u x := by
      intro x
      cases hu : unitPage u with
      | none => simp [unitState_of_entry hu, unitCause_of_entry hu, setStateQuiet, unitRec]
      | some q =>
        have hq : q ≠ p := fun e => h (unitPage_injective hu (e ▸ hp))
        rw [unitState_of_page hu, unitState_of_page hu, unitCause_of_page hu, unitCause_of_page hu, setStateQuiet,
          pageOf_putPage_other _ _ hq]
        exact ⟨rfl, rfl⟩
    exact ⟨(hset _).1.trans (hs.unitState u), (hset _).2.trans (hs.unitCause u)⟩
  · next hp =>
    simp only [setUnit, hp]
    cases hu : unitPage u with
    | none => simp [unitState_of_entry hu, unitCause_of_entry hu, unitRec, tbl_get_set_other _ _ _ h]
    | some q =>
      rw [unitState_of_page hu, unitState_of_page hu, unitCause_of_page hu, unitCause_of_page hu]
      exact ⟨rfl, rfl⟩

theorem retireEntry_flags (l : Loss) (d : Dev) : (retireEntry l d).flags = d.flags := by
  unfold retireEntry
  split
  · exact (samePlan_endOther _ d).flags
  · next hp => simp only [setUnit, hp]

theorem retireEntry_rd (l : Loss) (d : Dev) :
    rd (rModule 0x54) (retireEntry l d) = rd (rModule 0x54) d ∧ rd (rModule 0x58) (retireEntry l d) = rd (rModule 0x58) d := by
  unfold retireEntry
  split
  · exact ⟨(samePlan_endOther _ d).generation, (samePlan_endOther _ d).seq⟩
  · next hp =>
    simp only [setUnit, hp]
    exact ⟨rfl, rfl⟩

/-- The unit of a loss stands retired once its entry is written. -/
theorem writeLoss_own (l : Loss) (d : Dev) : StandsRetired l (writeLoss l d) := by
  have hs := samePlan_count l (retireEntry l d)
  obtain ⟨hst, hc⟩ := retireEntry_own l d
  rw [writeLoss_eq]
  exact ⟨(hs.unitState _).trans hst, (hs.unitCause _).trans hc, by simp [markRetired, unitFlags]⟩

/-- Another unit that stands retired still does. -/
theorem writeLoss_other {l m : Loss} (h : m.unit ≠ l.unit) {d : Dev} (hm : StandsRetired m d) :
    StandsRetired m (writeLoss l d) := by
  have hs := samePlan_count l (retireEntry l d)
  obtain ⟨hst, hc⟩ := retireEntry_other h d
  obtain ⟨hst', hc', hf⟩ := hm
  rw [writeLoss_eq]
  refine ⟨(hs.unitState _).trans (hst.trans hst'), (hs.unitCause _).trans (hc.trans hc'), ?_⟩
  simpa [markRetired, unitFlags, tbl_get_set_other _ _ _ h, hs.flags, retireEntry_flags] using hf

theorem writeLoss_rd (l : Loss) (d : Dev) :
    rd (rModule 0x54) (writeLoss l d) = rd (rModule 0x54) d ∧ rd (rModule 0x58) (writeLoss l d) = rd (rModule 0x58) d := by
  have hs := samePlan_count l (retireEntry l d)
  obtain ⟨h, h'⟩ := retireEntry_rd l d
  rw [writeLoss_eq]
  exact ⟨hs.generation.trans h, hs.seq.trans h'⟩

/-! ### The decision -/

theorem writeLosses_rd (ls : List Loss) (d : Dev) :
    rd (rModule 0x54) (ls.foldl (fun x l => writeLoss l x) d) = rd (rModule 0x54) d
      ∧ rd (rModule 0x58) (ls.foldl (fun x l => writeLoss l x) d) = rd (rModule 0x58) d := by
  induction ls generalizing d with
  | nil => exact ⟨rfl, rfl⟩
  | cons l ls ih => exact ⟨(ih _).1.trans (writeLoss_rd l d).1, (ih _).2.trans (writeLoss_rd l d).2⟩

theorem writeLosses_keep {m : Loss} {ls : List Loss} (h : m.unit ∉ ls.map (·.unit)) {d : Dev} (hm : StandsRetired m d) :
    StandsRetired m (ls.foldl (fun x l => writeLoss l x) d) := by
  induction ls generalizing d with
  | nil => exact hm
  | cons l ls ih =>
    simp only [List.map_cons, List.mem_cons, not_or] at h
    exact ih h.2 (writeLoss_other h.1 hm)

theorem writeLosses_retire {ls : List Loss} (hn : (ls.map (·.unit)).Nodup) (d : Dev) {m : Loss} (hm : m ∈ ls) :
    StandsRetired m (ls.foldl (fun x l => writeLoss l x) d) := by
  induction ls generalizing d with
  | nil => cases hm
  | cons l ls ih =>
    rw [List.map_cons, List.nodup_cons] at hn
    rcases List.mem_cons.1 hm with rfl | hm
    · exact writeLosses_keep hn.1 (writeLoss_own m d)
    · exact ih hn.2 _ hm

/-- Steps 1 to 3 of R367: the generation, FLOOR_PLAN_SEQ at both ends of the writes, and the writes. -/
def writePlan (ls : List Loss) (d : Dev) : Dev :=
  addWrap (rModule 0x58) 1 (ls.foldl (fun x l => writeLoss l x) (addWrap (rModule 0x54) 1 (addWrap (rModule 0x58) 1 d)))

/-- What follows the writes of a decision leaves the floor plan. -/
theorem samePlan_applyLosses {ls : List Loss} (h : ls ≠ []) (d : Dev) : SamePlan (writePlan ls d) (applyLosses ls [] d) := by
  have he : ls.isEmpty = false := by simpa using h
  simp only [applyLosses, he, Bool.false_eq_true, if_false, List.foldl_nil]
  exact (((SamePlan.foldl (fun x l => samePlan_announce l x) ls _).trans (reported_raise _ _ _).samePlan).trans
    (samePlan_mgmtEvent 0 _)).trans (SamePlan.foldl (fun x (l : Loss) => samePlan_addCairn l.unit l.cause x) _ _)

theorem rd_addWrap_same (r : RegId) (n : Nat) (d : Dev) : rd r (addWrap r n d) = (rd r d + n) % 2 ^ 32 := rd_wr_same r _ d

theorem rd_addWrap_other {q r : RegId} (n : Nat) (d : Dev) (h : homeOf q ≠ homeOf r) : rd q (addWrap r n d) = rd q d :=
  rd_wr_other _ d h

theorem writePlan_generation (ls : List Loss) (d : Dev) :
    rd (rModule 0x54) (writePlan ls d) = (rd (rModule 0x54) d + 1) % 2 ^ 32 := by
  have h : homeOf (rModule 0x54) ≠ homeOf (rModule 0x58) := by decide
  rw [writePlan, rd_addWrap_other _ _ h, (writeLosses_rd ls _).1, rd_addWrap_same, rd_addWrap_other _ _ h]

theorem writePlan_seq (ls : List Loss) (d : Dev) :
    rd (rModule 0x58) (writePlan ls d) = (rd (rModule 0x58) d + 2) % 2 ^ 32 := by
  have h : homeOf (rModule 0x58) ≠ homeOf (rModule 0x54) := by decide
  rw [writePlan, rd_addWrap_same, (writeLosses_rd ls _).2, rd_addWrap_other _ _ h, rd_addWrap_same]
  omega

theorem standsRetired_addWrap {l : Loss} {r : RegId} {n : Nat} {d : Dev} (h : StandsRetired l d) :
    StandsRetired l (addWrap r n d) := h

/-- Settles O7: the writes of a decision retire each unit, and what the decision does after them leaves the floor plan. -/
theorem retirementIsOneDecision : Obligations.RetirementIsOneDecision := by
  intro ls d hne _ hn
  have hs := samePlan_applyLosses hne d
  refine ⟨hs.generation.trans (writePlan_generation ls d), hs.seq.trans (writePlan_seq ls d), fun l hl => ?_⟩
  exact hs.standsRetired (standsRetired_addWrap (writeLosses_retire hn _ hl))

end Sys2Proof.Machine
end

section
/-!
SUPPORT. Proofs of the statements about the host link (03_luawick_host_link.md).
-/

namespace Sys2Proof.Machine

/-! ### Register messages (R66, R135) -/

/-- A message of the host acts while the link is ACTIVE, and its payload slots are to be returned (R61). -/
theorem hostMessage_active {d : Dev} (cls slots : Nat) (f : Dev → Dev) (h : d.link.phase = .active) :
    hostMessage cls slots f d = f (cameIn cls slots d) := by
  simp only [hostMessage, h, if_true]
  rfl

theorem Sent.fresh {d e : Dev} (h : Sent d e) : e.fresh = d.fresh := by
  have : e.quiet.fresh = d.quiet.fresh := congrArg Dev.fresh h.quiet
  exact this

/-- REG_READ64 of a usable core's STEPS advances the count of free values. -/
theorem readMessage_steps_fresh {fz : Fuses} {logs tag a k : Nat} {d : Dev} (ha : a < 2 ^ 26)
    (hl : locate a = some (rCore k 0xD0)) (h8 : a % 8 = 0) (hu : usable (uCore k) d = true)
    (hr : resetActs .core d = false) (hs : pageSilent (pCore k) (beforeRead a d) = false) :
    (readMessage fz logs 8 tag a d).fresh = d.fresh + 1 := by
  have hlo : isLo (rCore k 0xD0) = true := rfl
  have hrow : (rowAt (rCore k 0xD0)).any (fun row => row.acc == .rc) = false := rfl
  rw [readMessage, if_neg (Nat.not_le.2 ha), (sent_hostSend _ _).fresh, ← beforeRead_steps_fresh hl hu hr]
  simp [readWindow, readRegs, hl, h8, hlo, hs, hrow, pageOfReg]

/-- The module out of reset, its link ACTIVE and core 0 READY. -/
def linkedCoreZero : State :=
  { coreZeroReady with dev := { coreZeroReady.dev with link := { freshLink with phase := .active } } }

/-- Refutes O12: RegisterMessagesComplete says that REG_READ64 of a read-only pair leaves the device but for its completion, but
STEPS of a usable core (offset 0x10000D0 for core 0) is such a pair, and its read first lets the core make the steps that have
passed, a free value that it draws. -/
theorem not_hostMessagesComplete : ¬ Obligations.HostMessagesComplete := by
  intro h
  have hon : linkedCoreZero.on := by decide
  have hl : locate (0x10000D0 : DWord).toNat = some (rCore 0 0xD0) := by decide
  obtain ⟨-, hread, -⟩ := h.1 0 0x10000D0 (rCore 0 0xD0) ⟨.ro, 0, m64, true⟩ linkedCoreZero hon rfl (by decide)
  have hd := (hread hl rfl rfl (by decide) rfl rfl).dev_eq hon
    (f := hostMessage 0 1 (readMessage linkedCoreZero.fuses linkedCoreZero.mlog.length 8 0 (0x10000D0 : DWord).toNat))
  have hf := congrArg Dev.fresh hd
  rw [(sent_hostSend _ _).fresh, hostMessage_active _ _ _ rfl,
    readMessage_steps_fresh (k := 0) (by decide) hl (by decide) (by decide) (by decide) (by decide)] at hf
  exact absurd hf (by decide)

/-! ### What page headers, registers and reports leave -/

/-- The devices differ in page headers, registers and reports alone. -/
structure SameQuiet (d e : Dev) : Prop where
  quiet : e.quiet = d.quiet
  rings : ∀ n, (ringOf n e).quiet = (ringOf n d).quiet

theorem SameQuiet.refl (d : Dev) : SameQuiet d d := ⟨rfl, fun _ => rfl⟩

theorem SameQuiet.trans {a b c : Dev} (h : SameQuiet a b) (k : SameQuiet b c) : SameQuiet a c :=
  ⟨k.quiet.trans h.quiet, fun n => (k.rings n).trans (h.rings n)⟩

theorem Reported.sameQuiet {d e : Dev} (h : Reported d e) : SameQuiet d e := ⟨h.1, h.2.2.1⟩

theorem sameQuiet_putPage (p : PageId) (g : Page) (d : Dev) : SameQuiet d (putPage p g d) := ⟨rfl, fun _ => rfl⟩

theorem sameQuiet_wr (r : RegId) (n : Nat) (d : Dev) : SameQuiet d (wr r n d) := ⟨rfl, fun _ => rfl⟩

theorem sameQuiet_setState (p : PageId) (st : PState) (c : Cause) (d : Dev) : SameQuiet d (setState p st c d) :=
  (sameQuiet_putPage p _ d).trans (reported_setState p st c d).sameQuiet

theorem sameQuiet_endCmd (p : PageId) (ok : Bool) (d : Dev) : SameQuiet d (endCmd p ok d) := by
  cases h : (pageOf p d).cmd with
  | none => rw [endCmd_idle ok h]; exact .refl d
  | some c =>
    cases ok with
    | false => exact (sameQuiet_putPage p _ d).trans (reported_endCmd_failed h).sameQuiet
    | true => exact (sameQuiet_putPage p _ d).trans (reported_endCmd_done (by rw [h]; rfl)).sameQuiet

theorem sameQuiet_endCmdIf (p : PageId) (code : Nat) (ok : Bool) (d : Dev) : SameQuiet d (endCmdIf p code ok d) := by
  unfold endCmdIf
  split
  · split
    · exact sameQuiet_endCmd p ok d
    · exact .refl d
  · exact .refl d

theorem SameQuiet.foldl {α : Type} {f : Dev → α → Dev} (h : ∀ d x, SameQuiet d (f d x)) (l : List α) (d : Dev) :
    SameQuiet d (l.foldl f d) := by
  induction l generalizing d with
  | nil => exact .refl d
  | cons x l ih => exact (h d x).trans (ih _)

section Fields

variable {d e : Dev} (h : SameQuiet d e)
include h

/-- A field that the quiet device keeps is the same. -/
theorem SameQuiet.field {α : Type} (f : Dev → α) (hf : ∀ x : Dev, f x.quiet = f x) : f e = f d := by
  rw [← hf e, ← hf d, h.quiet]

theorem SameQuiet.linkQuiet : e.link.quiet = d.link.quiet := by
  have : e.quiet.link = d.quiet.link := congrArg Dev.link h.quiet
  exact this

theorem SameQuiet.linkPhase : e.link.phase = d.link.phase := by
  have : e.link.quiet.phase = d.link.quiet.phase := congrArg Link.phase h.linkQuiet
  exact this

theorem SameQuiet.linkLanes : e.link.lanes = d.link.lanes := by
  have : e.link.quiet.lanes = d.link.quiet.lanes := congrArg Link.lanes h.linkQuiet
  exact this

theorem SameQuiet.linkRate : e.link.rate = d.link.rate := by
  have : e.link.quiet.rate = d.link.quiet.rate := congrArg Link.rate h.linkQuiet
  exact this

theorem SameQuiet.linkLost : e.link.lost = d.link.lost := by
  have : e.link.quiet.lost = d.link.quiet.lost := congrArg Link.lost h.linkQuiet
  exact this

theorem SameQuiet.windowEnabled : e.window.enabled = d.window.enabled := by
  have : e.quiet.window.enabled = d.quiet.window.enabled := congrArg (fun x => x.window.enabled) h.quiet
  exact this

theorem SameQuiet.writebacks : e.window.writebacks = d.window.writebacks := by
  have : e.quiet.window.writebacks = d.quiet.window.writebacks := congrArg (fun x => x.window.writebacks) h.quiet
  exact this

theorem SameQuiet.ringEnabled (n : Nat) : (ringOf n e).enabled = (ringOf n d).enabled := by
  have : (ringOf n e).quiet.enabled = (ringOf n d).quiet.enabled := congrArg EventRing.enabled (h.rings n)
  exact this

end Fields

/-! ### The link (R57, R58, R63, R87) -/

/-- A page that a transition of another page leaves keeps its state. -/
theorem stateOf_setState_other {p q : PageId} (st : PState) (c : Cause) (d : Dev) (h : q ≠ p) :
    stateOf q (setState p st c d) = stateOf q d := by
  rw [(reported_setState p st c d).stateOf q, stateOf, pageOf_putPage_other _ _ h]
  rfl

theorem stateOf_firstUp (d : Dev) : stateOf pLua (firstUp d) = .ready := by
  have key : ∀ (l : List PageId) (x : Dev), pLua ∉ l →
      stateOf pLua (l.foldl (fun x p => if stateOf p x = .off then setState p .ready .testPassed x else x) x) = stateOf pLua x := by
    intro l
    induction l with
    | nil => intro x _; rfl
    | cons p l ih =>
      intro x hm
      rw [List.mem_cons, not_or] at hm
      rw [List.foldl_cons, ih _ hm.2]
      split
      · exact stateOf_setState_other _ _ _ hm.1
      · rfl
  exact (key pagesWithLink _ (by decide)).trans (stateOf_setState _ _ _ _)

theorem sameQuiet_firstUp (d : Dev) : SameQuiet d (firstUp d) := by
  refine (sameQuiet_setState _ _ _ _).trans (.foldl (fun x p => ?_) pagesWithLink _)
  split
  · exact sameQuiet_setState _ _ _ _
  · exact .refl x

/-- The link has been brought up with its width and rate. -/
def UpWith (lanes rate : Nat) (e : Dev) : Prop :=
  e.link.phase = .active ∧ e.link.lanes = lanes ∧ e.link.rate = rate ∧ stateOf pLua e = .ready

theorem Reported.upWith {lanes rate : Nat} {d e : Dev} (h : Reported d e) (hd : UpWith lanes rate d) : UpWith lanes rate e := by
  obtain ⟨hp, hl, hr, hs⟩ := hd
  have hq := h.sameQuiet
  exact ⟨hq.linkPhase.trans hp, hq.linkLanes.trans hl, hq.linkRate.trans hr, (h.stateOf _).trans hs⟩

theorem upWith_firstUp (lanes rate : Nat) (d : Dev) :
    UpWith lanes rate (firstUp { d with link := (trainingPhases ++ [LinkPhase.active]).foldl (enterPhase lanes rate) d.link }) := by
  have hq := sameQuiet_firstUp { d with link := (trainingPhases ++ [LinkPhase.active]).foldl (enterPhase lanes rate) d.link }
  exact ⟨hq.linkPhase, hq.linkLanes, hq.linkRate, stateOf_firstUp _⟩

/-- The first training that succeeds brings the link up (R57, R58). -/
theorem linkUp_first {lanes rate : Nat} {d : Dev} (hp : d.link.phase ≠ .active) (hs : stateOf pLua d = .training)
    (ho : linkOk lanes rate = true) (hl : d.link.leftAt = none) : UpWith lanes rate (linkUp lanes rate d) := by
  have hdue : lossDue d = false := by simp [lossDue, hl]
  have hc : ¬ (d.link.phase = .active ∨ stateOf pLua d ≠ .training ∨ (!linkOk lanes rate) = true) := by simp [hp, hs, ho]
  simp only [linkUp, if_neg hc, hdue, Bool.false_eq_true, if_false, hl]
  refine (reported_pump _ _).upWith ?_
  split
  · exact (reported_raise _ _ _).upWith (upWith_firstUp lanes rate d)
  · exact upWith_firstUp lanes rate d

/-- A link that fails leaves ACTIVE, and its page trains (R63, R87). -/
theorem linkDrop_active {d : Dev} (h : d.link.phase = .active) :
    stateOf pLua (linkDrop d) = .training ∧ (linkDrop d).link.phase = .detect ∧ (linkDrop d).link.leftAt = some d.now
      ∧ (linkDrop d).link.oldLanes = d.link.lanes := by
  have hm := sameQuiet_setState pLua .training (pageOf pLua d).cause
    (putPage pLua { pageOf pLua d with back := (pageOf pLua d).state, backCause := (pageOf pLua d).cause } d)
  have ha := hm.linkPhase.trans h
  have hn := hm.field Dev.now fun _ => rfl
  have hl := hm.linkLanes
  have he : linkDrop d = dropLink (setState pLua .training (pageOf pLua d).cause
      (putPage pLua { pageOf pLua d with back := (pageOf pLua d).state, backCause := (pageOf pLua d).cause } d)) := by
    rw [linkDrop, if_pos h]
    rfl
  rw [he]
  refine ⟨stateOf_setState _ _ _ _, rfl, ?_, ?_⟩
  · simp only [dropLink, ha, if_true, hn]
    rfl
  · simp only [dropLink, ha, if_true, hl]
    rfl

/-- A property of the default and of every entry holds of what a table holds. -/
theorem tbl_get_of_forall {κ α : Type} [DecidableEq κ] {P : α → Prop} {t : Tbl κ α} {a : α} (ha : P a) (h : ∀ e ∈ t, P e.2)
    (k : κ) : P (t.get a k) := by
  induction t with
  | nil => exact ha
  | cons e r ih =>
    unfold Tbl.get
    split
    · exact h e (by simp)
    · exact ih fun x hx => h x (by simp [hx])

/-- What is gone once the loss of the link is declared (R63). -/
def LinkGone (e : Dev) : Prop :=
  e.link.lost = true ∧ e.dma = [] ∧ e.window.enabled = false ∧ e.window.writebacks = []
    ∧ (∀ n, (ringOf n e).enabled = false) ∧ ∀ q, (queueOf q e).enabled = false

theorem SameQuiet.linkGone {d e : Dev} (h : SameQuiet d e) (hd : LinkGone d) : LinkGone e := by
  obtain ⟨hl, hm, hw, hb, hr, hq⟩ := hd
  refine ⟨h.linkLost.trans hl, (h.field Dev.dma fun _ => rfl).trans hm, h.windowEnabled.trans hw, h.writebacks.trans hb,
    fun n => (h.ringEnabled n).trans (hr n), fun q => ?_⟩
  rw [queueOf, h.field Dev.queues fun _ => rfl]
  exact hq q

/-- The commands in progress end after the loss. -/
theorem linkGone_end {d : Dev} (c : Bool) (h : LinkGone d) :
    LinkGone (raise pLua 18 (endCmd pLua false (if c then endCmdIf pJob 0x40 false d else d))) := by
  have hc : SameQuiet d (if c then endCmdIf pJob 0x40 false d else d) := by
    split
    · exact sameQuiet_endCmdIf _ _ _ _
    · exact .refl _
  exact ((hc.trans (sameQuiet_endCmd _ _ _)).trans (reported_raise _ _ _).sameQuiet).linkGone h

theorem linkGone_declareLost (d : Dev) : LinkGone (declareLost d) := by
  refine linkGone_end _ ⟨rfl, rfl, rfl, rfl, fun n => ?_, fun q => ?_⟩
  · refine tbl_get_of_forall (P := fun r : EventRing => r.enabled = false) rfl (fun e he => ?_) n
    obtain ⟨r, -, rfl⟩ := List.mem_map.1 he
    rfl
  · refine tbl_get_of_forall (P := fun r : DmaQueue => r.enabled = false) rfl (fun e he => ?_) q
    obtain ⟨r, -, rfl⟩ := List.mem_map.1 he
    rfl

theorem loseLink_due {d : Dev} {t : Nat} (hp : d.link.phase ≠ .active) (hl : d.link.leftAt = some t) (hn : d.link.lost = false)
    (ht : t + 1000000 * clampReg 1 10000 (rd (rLua 0 0x60) d) ≤ d.now) : loseLink d = declareLost d := by
  have ht : t + lossLimit d ≤ d.now := ht
  have : lossDue d = true := by simp [lossDue, hl, hp, hn, ht]
  rw [loseLink, if_pos this]

/-- Settles O13: training by the fields that reports keep, the loss of the link by what `declareLost` leaves. -/
theorem linkCommandsComplete : Obligations.LinkCommandsComplete := by
  intro lanes rate s hon d
  refine ⟨fun hp hs ho hl => does_of hon (f := linkUp lanes rate) (linkUp_first hp hs ho hl), fun hp => ?_,
    fun hp => does_of hon (f := linkDrop) (linkDrop_active hp), fun t hp hl hn ht => ?_⟩
  · exact gives_of_eq hon (if_neg hp)
  · refine does_of hon (f := loseLink) ?_
    rw [loseLink_due hp hl hn ht]
    exact linkGone_declareLost d

/-! ### Little-endian numbers -/

@[simp] theorem leBytes_length (n v : Nat) : (leBytes n v).length = n := by
  induction n generalizing v with
  | zero => rfl
  | succ n ih => simp [leBytes, ih]

theorem leNat_leBytes (n v : Nat) : leNat (leBytes n v) = v % 256 ^ n := by
  induction n generalizing v with
  | zero => simp [leBytes, leNat, Nat.mod_one]
  | succ n ih =>
    rw [leBytes, leNat, ih, Nat.pow_succ', Nat.mod_mul]
    simp

/-- A number read where it stands in bytes. -/
theorem leAt_leBytes {bs front back : List Byte} {off n v : Nat} (h : bs = front ++ (leBytes n v ++ back))
    (ho : front.length = off) (hv : v < 256 ^ n) : leAt bs off n = v := by
  subst h ho
  rw [leAt, List.drop_left, List.take_left' (leBytes_length n v), leNat_leBytes, Nat.mod_eq_of_lt hv]

/-! ### The bytes of a flit (R59 to R61) -/

theorem flitKindOf_flitKindCode (k : FlitKind) : flitKindOf (flitKindCode k) = k := by cases k <;> rfl

theorem flitKindCode_lt (k : FlitKind) : flitKindCode k < 4 := by cases k <;> decide

theorem flitHeader_lt (f : LinkFlit) : flitHeader f < 256 ^ 6 := by
  have hk := flitKindCode_lt f.kind
  have hb : b2n f.ackValid < 2 := by cases f.ackValid <;> decide
  simp only [flitHeader]
  omega

/-- The fields of a flit's header (R61). -/
theorem flitHeader_fields {f : LinkFlit} (hs : f.seq < 4096) (ha : f.ack < 4096) (hc : f.creditClass < 4)
    (hn : f.creditCount < 256) :
    fieldOf (flitHeader f) 47 46 = flitKindCode f.kind ∧ fieldOf (flitHeader f) 45 34 = f.seq
      ∧ fieldOf (flitHeader f) 33 22 = f.ack ∧ bitOf (flitHeader f) 21 = f.ackValid
      ∧ fieldOf (flitHeader f) 20 19 = f.creditClass ∧ fieldOf (flitHeader f) 18 11 = f.creditCount := by
  have hk := flitKindCode_lt f.kind
  have hb : b2n f.ackValid < 2 := by cases f.ackValid <;> decide
  simp only [fieldOf, bitOf, Nat.shiftRight_eq_div_pow, flitHeader]
  refine ⟨by omega, by omega, by omega, ?_, by omega, by omega⟩
  cases hv : f.ackValid <;> simp only [b2n, Bool.false_eq_true, if_false, if_true, beq_iff_eq, beq_eq_false_iff_ne] <;>
    omega

theorem flitBody_length {f : LinkFlit} (h : f.payload.length = 240) : (flitBody f).length = 246 := by
  simp [flitBody, h]

theorem flitBody_payload {f : LinkFlit} (h : f.payload.length = 240) :
    flitBody f = leBytes 6 (flitHeader f) ++ f.payload := by
  rw [flitBody, List.take_left' h]

theorem flitBytes_length {f : LinkFlit} (h : f.payload.length = 240) : (flitBytes f).length = 256 := by
  simp [flitBytes, flitChecked, flitBody_length h]

/-- What is read of a flit's bytes is the flit: its CRC holds, and its header and payload stand where they were put. -/
theorem parseFlit_flitBytes {f : LinkFlit} (hs : f.seq < 4096) (ha : f.ack < 4096) (hc : f.creditClass < 4)
    (hn : f.creditCount < 256) (hp : f.payload.length = 240) : parseFlit (flitBytes f) = some f := by
  obtain ⟨fec, hfec⟩ : ∃ fec, flitBytes f = flitBody f ++ (leBytes 4 (crc32c (flitBody f)).toNat ++ fec) :=
    ⟨_, List.append_assoc ..⟩
  obtain ⟨rest, hrest⟩ : ∃ rest, flitBytes f = leBytes 6 (flitHeader f) ++ (f.payload ++ rest) := by
    refine ⟨leBytes 4 (crc32c (flitBody f)).toNat ++ fec, hfec.trans ?_⟩
    exact (congrArg (· ++ (leBytes 4 (crc32c (flitBody f)).toNat ++ fec)) (flitBody_payload hp)).trans (List.append_assoc ..)
  have hlen := flitBody_length hp
  have hcrc : leAt (flitBytes f) 246 4 = (crc32c (flitBody f)).toNat :=
    leAt_leBytes hfec hlen (crc32c (flitBody f)).isLt
  have htake : (flitBytes f).take 246 = flitBody f := by rw [hfec, List.take_left' hlen]
  have hhead : leAt (flitBytes f) 0 6 = flitHeader f :=
    leAt_leBytes (front := []) hrest rfl (flitHeader_lt f)
  have hpay : ((flitBytes f).drop 6).take 240 = f.payload := by
    rw [hrest, List.drop_left' (leBytes_length 6 _), List.take_left' hp]
  obtain ⟨hkind, hseq, hack, hvalid, hclass, hcount⟩ := flitHeader_fields hs ha hc hn
  rw [parseFlit, hcrc, htake, if_pos rfl]
  simp only [hhead, hkind, hseq, hack, hvalid, hclass, hcount, hpay, flitKindOf_flitKindCode]

/-! ### Flits that arrive (R60 to R62) -/

theorem whenFlit_good {bs : List Byte} {e : FlitErrors} {f : LinkFlit} {d : Dev} (good : LinkFlit → Dev → Dev)
    (bad : Dev → Dev) (hp : d.link.phase = .active) (hf : readFlit bs e = some f) :
    whenFlit bs e good bad d = good f (if corrected e then bump (rLua 0 0x48) d else d) := by
  simp [whenFlit, hp, hf]

theorem whenFlit_bad {bs : List Byte} {e : FlitErrors} {d : Dev} (good : LinkFlit → Dev → Dev) (bad : Dev → Dev)
    (hp : d.link.phase = .active) (hf : readFlit bs e = none) : whenFlit bs e good bad d = bad d := by
  simp [whenFlit, hp, hf]

/-- What sending changes of the link: flits that left are added to those sent, and no field of receipt changes. -/
structure LinkSends (a b : Link) : Prop where
  rxSeq : b.rxSeq = a.rxSeq
  heard : b.heard = a.heard
  awaiting : b.awaiting = a.awaiting
  sent : a.sent.length ≤ b.sent.length

theorem LinkSends.refl (l : Link) : LinkSends l l := ⟨rfl, rfl, rfl, Nat.le_refl _⟩

theorem LinkSends.trans {a b c : Link} (h : LinkSends a b) (k : LinkSends b c) : LinkSends a c :=
  ⟨k.rxSeq.trans h.rxSeq, k.heard.trans h.heard, k.awaiting.trans h.awaiting, Nat.le_trans h.sent k.sent⟩

theorem linkSends_sendFlit (k : FlitKind) (seq : Nat) (bs : List Byte) (l : Link) : LinkSends l (sendFlit k seq bs l) :=
  ⟨rfl, rfl, rfl, by simp [sendFlit]⟩

theorem linkSends_sendData (l : Link) (bs : List Byte) : LinkSends l (sendData l bs) :=
  ⟨rfl, rfl, rfl, (linkSends_sendFlit .data l.txSeq bs l).sent⟩

theorem linkSends_linkSend (m : HostMsg) (l : Link) : LinkSends l (linkSend m l) := by
  have key : ∀ (ps : List (List Byte)) (x : Link), LinkSends x (ps.foldl sendData x) := by
    intro ps
    induction ps with
    | nil => exact LinkSends.refl
    | cons p ps ih => exact fun x => (linkSends_sendData x p).trans (ih _)
  obtain ⟨hr, hh, ha, hs⟩ := key (messagePayloads m) l
  exact ⟨hr, hh, ha, hs⟩

theorem linkSends_pump (k : Nat) (d : Dev) : LinkSends d.link (pump k d).link := by
  induction k generalizing d with
  | zero => exact .refl _
  | succ k ih =>
    unfold pump
    split
    · next k' m r hk hm =>
      obtain rfl : k = k' := by omega
      split
      · refine LinkSends.trans ?_ (ih _)
        exact linkSends_linkSend m d.link
      · exact .refl _
    · exact .refl _

theorem linkSends_takeHeader (f : LinkFlit) (d : Dev) : LinkSends d.link (takeHeader f d).link := by
  refine LinkSends.trans ?_ (linkSends_pump _ _)
  exact ⟨rfl, rfl, rfl, Nat.le_refl _⟩

/-- A data flit in order is taken and acknowledged: something leaves that carries the acknowledgement (R61). -/
theorem takeInOrder_link (f : LinkFlit) (d : Dev) :
    (takeInOrder f d).link.rxSeq = (d.link.rxSeq + 1) % 4096 ∧ (takeInOrder f d).link.awaiting = false
      ∧ (takeInOrder f d).link.heard = true ∧ d.link.sent.length < (takeInOrder f d).link.sent.length := by
  obtain ⟨hr, hh, ha, hs⟩ := linkSends_takeHeader f { d with
    link := { d.link with rxSeq := (d.link.rxSeq + 1) % 4096, heard := true, awaiting := false, askTries := 0 } }
  unfold takeInOrder
  simp only
  split
  · next he =>
    obtain ⟨hr', hh', ha', -⟩ := linkSends_sendFlit .idle 0 [] (takeHeader f { d with
      link := { d.link with rxSeq := (d.link.rxSeq + 1) % 4096, heard := true, awaiting := false, askTries := 0 } }).link
    refine ⟨hr'.trans hr, ha'.trans ha, hh'.trans hh, ?_⟩
    simp [sendFlit, he]
  · next he => exact ⟨hr, ha, hh, Nat.lt_of_le_of_ne hs (Ne.symm he)⟩

theorem askReplay_first {d : Dev} (h : d.link.askTries = 0) :
    askReplay d = { d with link := { sendFlit .replayRequest 0 [] d.link with
      awaiting := true, askedAt := d.link.rxSeq, askTries := 1 } } := by
  simp [askReplay, h]

theorem rd_takeHeader (f : LinkFlit) (r : RegId) (d : Dev) : rd r (takeHeader f d) = rd r d := by
  simp only [rd, takeHeader, (sent_pump _ _).regs]

/-- A replay request sends what waits again, and keeps where the replay began (R62). -/
theorem replayAll_link (d : Dev) :
    (replayAll d).link.replayAt = d.link.replayAt ∧ (replayAll d).link.replayTries = d.link.replayTries := by
  have key : ∀ (l : List LinkFlit) (x : Link),
      (l.foldl (fun l f => sendFlit .data f.seq f.payload l) x).replayAt = x.replayAt
        ∧ (l.foldl (fun l f => sendFlit .data f.seq f.payload l) x).replayTries = x.replayTries := by
    intro l
    induction l with
    | nil => exact fun _ => ⟨rfl, rfl⟩
    | cons f l ih => exact fun x => ih _
  exact key _ _

theorem takeReplayRequest_first {f : LinkFlit} {d : Dev} (h : d.link.replayTries = 0) :
    rd (rLua 0 0x44) (takeReplayRequest f d) = min m32 (rd (rLua 0 0x44) d + 1)
      ∧ (takeReplayRequest f d).link.replayAt = f.ack ∧ (takeReplayRequest f d).link.replayTries = 1 := by
  have ht : (if d.link.replayAt = f.ack ∧ d.link.replayTries ≠ 0 then d.link.replayTries + 1 else 1) = 1 := by simp [h]
  simp only [takeReplayRequest, ht]
  refine ⟨?_, (replayAll_link _).1, (replayAll_link _).2⟩
  have hb : rd (rLua 0 0x44) (takeHeader f { d with link := { d.link with replay := ackReplay f.ack d.link.replay } })
      = rd (rLua 0 0x44) d := rd_takeHeader f _ _
  calc _ = rd (rLua 0 0x44) (bump (rLua 0 0x44)
            (takeHeader f { d with link := { d.link with replay := ackReplay f.ack d.link.replay } })) := rfl
    _ = min m32 (rd (rLua 0 0x44) d + 1) % 2 ^ 32 := by rw [bump, addSat, rd_wr_same, hb]
    _ = min m32 (rd (rLua 0 0x44) d + 1) := Nat.mod_eq_of_lt (by simp only [m32]; omega)

/-- Settles O14: the bytes of a flit by where each part stands in them, its receipt by the one equation of each row. -/
theorem flitsComplete : Obligations.FlitsComplete := by
  intro f bs e s hon hp d
  refine ⟨fun hs ha hc hn hl he => ⟨flitBytes_length hl, ?_⟩, fun hf hc hk hs => ?_, takeInOrder_link f d, fun hf h => ?_,
    fun hf hc hk => ?_, fun hf hc hk => ?_, fun hf hc hk h => ?_, fun op n ho => ?_⟩
  · rw [readFlit, if_pos he, parseFlit_flitBytes hs ha hc hn hl]
  · refine gives_of_eq hon ((whenFlit_good _ _ hp hf).trans ?_)
    rw [hc, if_neg Bool.false_ne_true]
    simp only [hk, takeData]
    exact if_pos hs
  · exact gives_of_eq hon ((whenFlit_bad _ _ hp hf).trans (askReplay_first h))
  · refine gives_of_eq hon ((whenFlit_good _ _ hp hf).trans ?_)
    rw [hc, if_neg Bool.false_ne_true, if_pos hk]
  · refine gives_of_eq hon ((whenFlit_good _ _ hp hf).trans ?_)
    rw [hc, if_pos rfl, if_pos hk]
    rfl
  · refine does_of hon (f := whenFlit bs e
      (fun f d => if f.kind = .replayRequest then takeReplayRequest f d else d) (fun d => d)) ?_
    rw [whenFlit_good _ _ hp hf, hc, if_neg Bool.false_ne_true, if_pos hk]
    exact takeReplayRequest_first h
  · refine gives_of_eq hon ((hostMessage_active _ _ _ hp).trans ?_)
    simp only [ho, Bool.false_eq_true, if_false]
    rfl

/-! ### The shared window (R66, R69, R70) -/

section Snoop

variable {tag a : Nat} {d : Dev} {l : Line}

theorem snoop_writingBack (inv : Bool) (h : writingBack (lineOf a) d.window = true) :
    snoop tag a inv d = snoopReply tag (lineOf a) 3 [] d := by
  simp only [snoop, h, if_true]

theorem snoop_absent (inv : Bool) (h : writingBack (lineOf a) d.window = false) (hf : findLine (lineOf a) d.window = none) :
    snoop tag a inv d = snoopReply tag (lineOf a) 0 [] d := by
  simp only [snoop, h, hf, Bool.false_eq_true, if_false]

/-- The window after a snoop of a line that it holds. -/
def snooped (a : Nat) (l : Line) (inv : Bool) (d : Dev) : Dev :=
  { d with window := if inv then dropLine a d.window else putLine { l with state := .shared } d.window }

theorem snoop_clean (inv : Bool) (h : writingBack (lineOf a) d.window = false) (hf : findLine (lineOf a) d.window = some l)
    (hl : l.state ≠ .modified) : snoop tag a inv d = snoopReply tag (lineOf a) 1 [] (snooped (lineOf a) l inv d) := by
  simp only [snoop, h, hf, hl, Bool.false_eq_true, if_false]
  rfl

theorem snoop_modified (inv : Bool) (h : writingBack (lineOf a) d.window = false) (hf : findLine (lineOf a) d.window = some l)
    (hl : l.state = .modified) :
    snoop tag a inv d = snoopReply tag (lineOf a) (freeReply (snooped (lineOf a) l inv d)) l.data
      (tickFree (snooped (lineOf a) l inv d)) := by
  simp only [snoop, h, hf, hl, Bool.false_eq_true, if_false, if_true]
  rfl

end Snoop

theorem freeReply_codes (d : Dev) : freeReply d = 0 ∨ freeReply d = 1 ∨ freeReply d = 3 := by
  unfold freeReply
  split
  · exact .inl rfl
  · exact .inr (.inl rfl)
  · exact .inr (.inr rfl)

theorem settleStop_idle {d : Dev} (h : inProgress pLua 0x41 d = false) : settleStop d = d := by
  unfold settleStop
  split
  · next hc => simp [inProgress, hc] at h
  · rfl

/-- Where nothing waits for the window and no SHARED_DISABLE stands, a grant or an acknowledgement changes nothing more. -/
theorem windowGoesOn_idle {d : Dev} (hw : d.window.waiting = []) (h : inProgress pLua 0x41 d = false) : windowGoesOn d = d := by
  rw [windowGoesOn, hw]
  exact settleStop_idle h

theorem install_room {l : Line} {d : Dev} (h : d.window.lines.length < 32768) :
    install l d = { d with window := putLine l d.window } := by
  unfold install
  split
  · rw [if_neg (Nat.not_le.2 h)]
  · rfl

section Evict

variable {a : Nat} {d : Dev} {l : Line} (hf : findLine (lineOf a) d.window = some l)
include hf

theorem evict_modified {t : Nat} (hl : l.state = .modified) (ht : freeCohTag (dropLine l.addr d.window) = some t) :
    evict a d = hostSend { msg 0x22 l.addr l.data with tag := t } { d with
      window := { dropLine l.addr d.window with
        writebacks := (dropLine l.addr d.window).writebacks ++ [(l.addr, t)] } } := by
  simp only [evict, hf, hl, if_true, ht]

theorem evict_clean (hl : l.state ≠ .modified) :
    evict a d = hostSend (msg 0x23 l.addr []) { d with window := dropLine l.addr d.window } := by
  simp only [evict, hf, hl, if_false]

end Evict

section Grant

variable {tag a : Nat} {d : Dev}

/-- A grant of nothing outstanding is counted (R65). -/
theorem grant_unrequested (exclusive : Bool) (data : List Byte)
    (h : d.window.requests.any (fun r => r.addr == lineOf a && r.tag == tag) = false) :
    grant tag a exclusive data d = wr (rLua 0 0x4C) (min m32 (rd (rLua 0 0x4C) d + 1)) d := by
  simp only [grant, h, Bool.not_false, if_true]
  rfl

theorem grant_requested (data : List Byte)
    (h : d.window.requests.any (fun r => r.addr == lineOf a && r.tag == tag) = true)
    (hn : d.window.lines.length < 32768) (hw : d.window.waiting = []) (hi : inProgress pLua 0x41 d = false) :
    grant tag a true data d = { d with
      window := putLine ⟨lineOf a, .exclusive, (data ++ zeros 64).take 64⟩
        { d.window with requests := d.window.requests.filter (fun r => r.tag != tag) } } := by
  simp only [grant, h, Bool.not_true, Bool.false_eq_true, if_false, if_true]
  rw [install_room (by exact hn)]
  exact windowGoesOn_idle hw hi

theorem writebackDone_known (h : d.window.writebacks.contains (lineOf a, tag) = true) (hw : d.window.waiting = [])
    (hi : inProgress pLua 0x41 d = false) :
    writebackDone tag a d = { d with
      window := { d.window with writebacks := d.window.writebacks.filter (· != (lineOf a, tag)) } } := by
  rw [writebackDone, if_pos h]
  exact windowGoesOn_idle hw hi

/-- An acknowledgement of nothing outstanding is counted (R65). -/
theorem writebackDone_unknown (h : d.window.writebacks.contains (lineOf a, tag) = false) :
    writebackDone tag a d = wr (rLua 0 0x4C) (min m32 (rd (rLua 0 0x4C) d + 1)) d := by
  rw [writebackDone, h, if_neg Bool.false_ne_true]
  rfl

end Grant

/-- Settles O15: each message by the equation of its case, over the device in which its slots are owed. -/
theorem coherenceComplete : Obligations.CoherenceComplete := by
  intro tag a l data s hon hp d c w x answer
  have came : ∀ {slots : Nat} {f : Dev → Dev} {e : Dev}, f (cameIn 2 slots d) = e →
      Gives s (onDev (hostMessage 2 slots f) s) e :=
    fun h => gives_of_eq hon ((hostMessage_active _ _ _ hp).trans h)
  exact ⟨fun hf hb => came (snoop_absent true hb hf), fun hf hb hl => came (snoop_clean true hb hf hl),
    fun hf hb hl => came (snoop_clean false hb hf hl),
    fun hf hb hl => ⟨_, freeReply_codes _, came (snoop_modified true hb hf hl)⟩,
    fun hr hn hw hi => came (grant_requested data hr hn hw hi), fun hw hb hi => came (writebackDone_known hb hw hi),
    fun t hf hl ht => gives_of_eq hon (evict_modified hf hl ht), fun hf hl => gives_of_eq hon (evict_clean hf hl),
    fun hb => came (snoop_writingBack true hb), fun hr => came (grant_unrequested true data hr),
    fun hb => came (writebackDone_unknown hb)⟩

end Sys2Proof.Machine
end

section
/-!
SUPPORT. Proofs of the statements about DMA descriptors (R73 to R77) and the job (R88, R89).
-/

namespace Sys2Proof.Machine

/-! ### Runs of one queue -/

theorem modRun_single {y : DmaRun} {d : Dev} (f : DmaRun → DmaRun) (h : d.dma = [y]) :
    modRun y.queue y.index f d = { d with dma := [f y] } := by
  simp [modRun, h]

theorem runAt_single {y : DmaRun} {d : Dev} (h : d.dma = [y]) : runAt y.queue y.index d = some y := by
  simp [runAt, h]

/-- One turn of a run: it asks for more, waits, or enters its next stage. -/
theorem runOn_succ {q i k : Nat} {r : DmaRun} {d : Dev} (h : runAt q i d = some r) :
    runOn (k + 1) q i d =
      if r.tag.isSome then d
      else if r.stage = .data ∧ r.result = .done ∧ r.moved < bytesOf r d.job then
        if r.op ≠ 2 then askCompanion r d else if r.awaited = 0 then askMemory r d else d
      else if r.awaited ≠ 0 ∨ r.stage = .ended ∨ r.stage = .record ∨ r.stage = .status then d
      else runOn k q i (enterStage r (stageAfter r) d) := by
  rw [runOn.eq_def, h]

section RunOn

variable {y : DmaRun} {d : Dev} {k : Nat} (hd : d.dma = [y])
include hd

/-- A run that has data to ask the companion for asks. -/
theorem runOn_asks (ht : y.tag = none) (hs : y.stage = .data) (hr : y.result = .done) (hm : y.moved < bytesOf y d.job)
    (ho : y.op ≠ 2) : runOn (k + 1) y.queue y.index d = askCompanion y d := by
  simp [runOn_succ (runAt_single hd), ht, hs, hr, hm, ho]

theorem runOn_reads (ht : y.tag = none) (hs : y.stage = .data) (hr : y.result = .done) (hm : y.moved < bytesOf y d.job)
    (ho : y.op = 2) (ha : y.awaited = 0) : runOn (k + 1) y.queue y.index d = askMemory y d := by
  simp [runOn_succ (runAt_single hd), ht, hs, hr, hm, ho, ha]

/-- A run whose data has all moved waits for its answers. -/
theorem runOn_waits (ht : y.tag = none) (hm : y.moved = bytesOf y d.job) (ha : y.awaited ≠ 0) :
    runOn (k + 1) y.queue y.index d = d := by
  simp [runOn_succ (runAt_single hd), ht, hm, ha]

theorem runOn_ended (ht : y.tag = none) (hs : y.stage = .ended) : runOn (k + 1) y.queue y.index d = d := by
  simp [runOn_succ (runAt_single hd), ht, hs]

/-- A write of module memory whose last answer has come ends. -/
theorem runOn_ends (ht : y.tag = none) (hs : y.stage = .data) (hm : y.moved = bytesOf y d.job) (ha : y.awaited = 0)
    (ho : y.op = 1) : runOn (k + 2) y.queue y.index d = { d with dma := [{ y with stage := .ended }] } := by
  have hafter : stageAfter y = .ended := by simp [stageAfter, ho]
  have henter : enterStage y .ended d = { d with dma := [{ y with stage := .ended }] } := modRun_single _ hd
  have hstep : runOn (k + 2) y.queue y.index d = runOn (k + 1) y.queue y.index (enterStage y .ended d) := by
    simp [runOn_succ (runAt_single hd), ht, hs, hm, ha, hafter]
  rw [hstep, henter]
  exact runOn_ended (y := { y with stage := .ended }) rfl ht rfl

end RunOn

/-! ### A descriptor starts (R73, R75) -/

section Start

variable {q op : Nat} {b : List Byte} {d : Dev}

/-- The device once a run of the queue's next descriptor is taken up, with nothing else running. -/
def takenUp (q : Nat) (y : DmaRun) (d : Dev) : Dev :=
  putQueue q { queueOf q d with next := ((queueOf q d).next + 1) % 2 ^ 16 } { d with dma := [y], dmaTurn := q }

theorem startRun_begins (he : (queueOf q d).enabled = true) (hx : (queueOf q d).disabling = false)
    (hn : (queueOf q d).next ≠ producerOf q d) (ht : queueTurn d = some q)
    (hw : windowRead ((queueOf q d).base + 64 * ((queueOf q d).next % 2 ^ (queueOf q d).sizeLog2)) 64 d = some b)
    (ho : (runOf q (queueOf q d).next b d).op = op) :
    startRun q op d = beginRun q (runOf q (queueOf q d).next b d) d := by
  have hp : hasPosted q d = true := by simp [hasPosted, he, hn]
  simp [startRun, hp, hx, nextDescriptor, hw, ho, ht]

variable {r : DmaRun} (hd : d.dma = []) (hc : d.job.closing.contains r.context = false)
include hd hc

/-- A descriptor that fails its judgement ends with that result (R75). -/
theorem beginRun_judged (hj : judgeRun r d ≠ .done) :
    beginRun q r d = takenUp q { r with result := judgeRun r d, detail := 0, stage := .ended } d := by
  simp only [beginRun, hc, Bool.false_eq_true, if_false, ne_eq, hj, not_false_eq_true, if_true, hd, List.nil_append]
  rfl

theorem beginRun_empty (hj : judgeRun r d = .done) (h0 : r.op = 0) :
    beginRun q r d = takenUp q { r with result := .done, detail := 0, stage := .ended } d := by
  simp only [beginRun, hc, Bool.false_eq_true, if_false, ne_eq, hj, not_true, h0, true_or, if_true, hd, List.nil_append]
  rfl

theorem beginRun_moves (hj : judgeRun r d = .done) (h0 : r.op ≠ 0) (hl : r.length ≠ 0) :
    beginRun q r d = runOn 4 q r.index (takenUp q r d) := by
  simp only [beginRun, hc, Bool.false_eq_true, if_false, ne_eq, hj, not_true, h0, hl, or_self, hd, List.nil_append]
  rfl

end Start

theorem unitBytes_pos (u : Nat) : 0 < unitBytes u := by
  unfold unitBytes
  split <;> omega

theorem bytesOf_pos {r : DmaRun} {j : Job} (hl : r.length ≠ 0) (hc : r.op = 3 → j.slotCapacity ≠ 0) : 0 < bytesOf r j := by
  unfold bytesOf
  split
  · next h => exact Nat.lt_min.2 ⟨by omega, Nat.mul_pos (Nat.pos_of_ne_zero (hc h)) (unitBytes_pos _)⟩
  · omega

/-! ### Data from the companion, and answers over the mesh (R77) -/

/-- The last piece of data leaves for module memory, and its answers are awaited. -/
theorem takeForRun_last {y : DmaRun} {data : List Byte} {d : Dev} (hd : d.dma = [y]) (hl : data.length = y.asked)
    (hm : y.moved + data.length = bytesOf y d.job) (hp : dmaPuts y.msgId y.context (y.moduleAddr + y.moved) data false d ≠ []) :
    takeForRun y 0 false data d =
      sendRun y.queue y.index (dmaPuts y.msgId y.context (y.moduleAddr + y.moved) data false d).length
        (dmaPuts y.msgId y.context (y.moduleAddr + y.moved) data false d)
        (modRun y.queue y.index (fun z => { z with moved := z.moved + data.length, tag := none }) d) := by
  obtain ⟨ps, hps⟩ : ∃ ps, dmaPuts y.msgId y.context (y.moduleAddr + y.moved) data false d = ps := ⟨_, rfl⟩
  rw [hps] at hp
  have hmod : modRun y.queue y.index (fun x => { x with
        moved := x.moved + data.length, tag := none, poisonAddr := x.poisonAddr.or none }) d
      = modRun y.queue y.index (fun z => { z with moved := z.moved + data.length, tag := none }) d := by
    simp only [Option.or_none]
  have hsend : sendRun y.queue y.index ps.length ps
      (modRun y.queue y.index (fun z => { z with moved := z.moved + data.length, tag := none }) d)
      = sendPackets ps { d with dma := [{ y with
          moved := y.moved + data.length, tag := none, awaited := y.awaited + ps.length }] } := by
    rw [modRun_single _ hd]
    exact congrArg (sendPackets ps) (modRun_single (y := { y with moved := y.moved + data.length, tag := none }) _ rfl)
  have hz : ps.length ≠ 0 := fun h => hp (List.length_eq_zero_iff.1 h)
  have hgood : (false || (0 : Nat) == 2) = false := rfl
  simp only [takeForRun, hgood, hps, hmod, hsend, Nat.zero_ne_one, Bool.false_eq_true, if_false]
  rw [if_neg (by simp [hl])]
  exact runOn_waits (y := { y with moved := y.moved + data.length, tag := none, awaited := y.awaited + ps.length })
    rfl rfl hm (by simp only; omega)

theorem companionData_run {y : DmaRun} {tag : Nat} (data : List Byte) {d : Dev} (hd : d.dma = [y]) (ht : y.tag = some tag) :
    companionData tag 0 false data d = takeForRun y 0 false data d := by
  simp [companionData, hd, ht]

/-- The last answer of a HOST_TO_MODULE ends its work. -/
theorem dmaAnswer_last {y : DmaRun} {p : Packet} {d : Dev} (hd : d.dma = [y]) (ho : y.op = 1) (ht : y.tag = none)
    (hs : y.stage = .data) (hm : y.moved = bytesOf y d.job) (ha : y.awaited = 1) (hi : p.msgId = y.msgId)
    (hr : p.result = .done) : dmaAnswer p d = { d with dma := [{ y with awaited := 0, stage := .ended }] } := by
  have hw : runWith p.msgId d = some y := by simp [runWith, hd, hi, ha]
  have hmod : modRun y.queue y.index (fun x => { x with
      awaited := x.awaited - 1, poisonAddr := x.poisonAddr.or none, result := x.result, detail := x.detail }) d
      = { d with dma := [{ y with awaited := 0 }] } := by
    rw [modRun_single _ hd]
    simp [ha]
  simp only [dmaAnswer, hw, runAnswered, hr, if_true, Option.isSome_none, Bool.false_eq_true, if_false, hmod]
  exact runOn_ends (y := { y with awaited := 0 }) (d := { d with dma := [{ y with awaited := 0 }] }) rfl ht hs hm rfl ho

/-! ### The window does not look at runs -/

/-- The device with other runs. -/
def withRuns (x : List DmaRun) (d : Dev) : Dev := { d with dma := x }

theorem withRuns_withRuns (x y : List DmaRun) (d : Dev) : withRuns x (withRuns y d) = withRuns x d := rfl

theorem windowTook_withRuns (x : List DmaRun) (a n : Nat) (d : Dev) : windowTook a n (withRuns x d) = windowTook a n d := rfl

theorem queueOf_withRuns (x : List DmaRun) (q : Nat) (d : Dev) : queueOf q (withRuns x d) = queueOf q d := rfl

section WithRuns

variable (x : List DmaRun)

theorem pump_withRuns (k : Nat) (d : Dev) : pump k (withRuns x d) = withRuns x (pump k d) := by
  induction k generalizing d with
  | zero => rfl
  | succ k ih =>
    rw [pump.eq_def, pump.eq_def (k + 1) d]
    have hw : (withRuns x d).hostWait = d.hostWait := rfl
    have hl : (withRuns x d).link = d.link := rfl
    rw [hw, hl]
    cases d.hostWait with
    | nil => rfl
    | cons m r =>
      simp only
      split
      · exact ih { d with link := linkSend m d.link, hostTx := d.hostTx ++ [m], hostWait := r }
      · rfl

theorem hostSend_withRuns (m : HostMsg) (d : Dev) : hostSend m (withRuns x d) = withRuns x (hostSend m d) :=
  pump_withRuns x _ { d with hostWait := d.hostWait ++ [m] }

theorem requestLine_withRuns (a : Nat) (own : Bool) (d : Dev) :
    requestLine a own (withRuns x d) = withRuns x (requestLine a own d) := by
  have hw : (withRuns x d).window = d.window := rfl
  simp only [requestLine, hw]
  split
  · rfl
  · split
    · rfl
    · next t _ =>
      exact hostSend_withRuns x _
        { d with window := { d.window with requests := d.window.requests ++ [⟨a, own, t⟩] } }

theorem signalRing_withRuns (n : Nat) (d : Dev) : signalRing n (withRuns x d) = withRuns x (signalRing n d) := by
  have hr : (withRuns x d).rings = d.rings := rfl
  have hn : (withRuns x d).now = d.now := rfl
  have hg : rd (rLua 0 0x64) (withRuns x d) = rd (rLua 0 0x64) d := rfl
  simp only [signalRing, hr, hn, hg]
  have hs : ∀ e : Dev, hostSend (msg 0x18 n []) (withRuns x e) = withRuns x (hostSend (msg 0x18 n []) e) :=
    hostSend_withRuns x _
  split
  · split
    · rfl
    · exact hs { d with rings := d.rings.set n { d.rings.get ⟨false, 0, 0, false, none, false, 0⟩ n with
        lastSignal := some d.now, held := false } }
  · exact hs { d with rings := d.rings.set n { d.rings.get ⟨false, 0, 0, false, none, false, 0⟩ n with
      lastSignal := some d.now, held := false } }

theorem drainWindow_withRuns (k : Nat) (d : Dev) : drainWindow k (withRuns x d) = withRuns x (drainWindow k d) := by
  induction k generalizing d with
  | zero => rfl
  | succ k ih =>
    rw [drainWindow.eq_def, drainWindow.eq_def (k + 1) d]
    have hw : (withRuns x d).window = d.window := rfl
    rw [hw]
    cases d.window.waiting with
    | nil => rfl
    | cons w r =>
      cases w with
      | write a bs =>
        simp only
        split
        · next l _ =>
          split
          · exact requestLine_withRuns x _ _ _
          · exact ih { d with window := { putLine { l with state := .modified, data := overlay l.data (a % 64) bs }
              d.window with waiting := r } }
        · exact requestLine_withRuns x _ _ _
      | signal n =>
        exact (congrArg _ (signalRing_withRuns x n { d with window := { d.window with waiting := r } })).trans (ih _)

theorem windowWrite_withRuns (a : Nat) (bs : List Byte) (d : Dev) :
    windowWrite a bs (withRuns x d) = withRuns x (windowWrite a bs d) :=
  drainWindow_withRuns x _ { d with window := { d.window with waiting := d.window.waiting ++ [.write a bs] } }

theorem windowPut_withRuns (a : Nat) (bs : List Byte) (d : Dev) :
    windowPut a bs (withRuns x d) = withRuns x (windowPut a bs d) := by
  have key : ∀ (l : List (Nat × Nat)) (d : Dev),
      l.foldl (fun x c => windowWrite c.1 ((bs.drop (c.1 - a)).take c.2) x) (withRuns x d)
        = withRuns x (l.foldl (fun x c => windowWrite c.1 ((bs.drop (c.1 - a)).take c.2) x) d) := by
    intro l
    induction l with
    | nil => exact fun _ => rfl
    | cons c l ih =>
      intro d
      rw [List.foldl_cons, List.foldl_cons, ← ih, windowWrite_withRuns]
  exact key _ _

end WithRuns

theorem reported_windowPut (a : Nat) (bs : List Byte) (d : Dev) : Reported d (windowPut a bs d) := by
  have key : ∀ (l : List (Nat × Nat)) (d : Dev),
      Reported d (l.foldl (fun x c => windowWrite c.1 ((bs.drop (c.1 - a)).take c.2) x) d) := by
    intro l
    induction l with
    | nil => exact fun d => .refl d
    | cons c l ih => exact fun d => (sent_windowWrite _ _ d).reported.trans (ih _)
  exact key _ _

/-! ### A descriptor completes (R76) -/

section Complete

variable {y : DmaRun} {rest : List DmaRun} {d : Dev}

theorem runAt_head (h : d.dma = y :: rest) : runAt y.queue y.index d = some y := by
  simp [runAt, h]

/-- No other run has the same queue and index. -/
theorem others_differ (ho : rest.any (fun z => z.queue == y.queue && z.index == y.index) = false) {z : DmaRun} (hz : z ∈ rest) :
    ¬ (z.queue = y.queue ∧ z.index = y.index) := by
  rw [List.any_eq_false] at ho
  simpa using ho z hz

theorem modRun_head (f : DmaRun → DmaRun) (h : d.dma = y :: rest)
    (ho : rest.any (fun z => z.queue == y.queue && z.index == y.index) = false) :
    modRun y.queue y.index f d = withRuns (f y :: rest) d := by
  have hr : rest.map (fun r => if r.queue = y.queue ∧ r.index = y.index then f r else r) = rest :=
    (List.map_congr_left (g := id) fun z hz => if_neg (others_differ ho hz)).trans (List.map_id rest)
  simp [modRun, h, hr, withRuns]

theorem finishRunDma_ended {q i k : Nat} (h : runAt q i d = some y) (hs : y.stage = .ended) :
    finishRunDma (k + 1) q i d = finishRunDma k q i (writeRecord y d) := by
  rw [finishRunDma.eq_def, h]
  simp only [hs]

theorem finishRunDma_record {q i k : Nat} (h : runAt q i d = some y) (hs : y.stage = .record)
    (hw : windowTook (d.job.slotRecord + 32 * y.slot) 32 d = true) :
    finishRunDma (k + 1) q i d = finishRunDma k q i (writeStatus y d) := by
  rw [finishRunDma.eq_def, h]
  simp only [hs, hw, if_true]

theorem finishRunDma_status {q i k : Nat} (h : runAt q i d = some y) (hs : y.stage = .status)
    (hw : windowTook (descriptorAddr y d + 0x28) 20 d = true) : finishRunDma (k + 1) q i d = retireRun y d := by
  rw [finishRunDma.eq_def, h]
  simp only [hs, hw, if_true]

/-- The device after the status of a run without flag, poison or detail is written (R76). -/
def statusWritten (y : DmaRun) (d : Dev) : Dev :=
  windowPut (descriptorAddr y d + 0x28)
    (leBytes 8 y.moved ++ leBytes 8 (y.poisonAddr.getD 0) ++ leBytes 4 (2 ^ 31 + resultCode .done)) d

section Ended

variable (hd : d.dma = y :: rest) (ho : rest.any (fun z => z.queue == y.queue && z.index == y.index) = false)
include hd ho

/-- The record of a NOP writes nothing. -/
theorem writeRecord_nop (h0 : y.op = 0) : writeRecord y d = withRuns ({ y with stage := .record } :: rest) d := by
  have hf : filled y = false := by simp [filled, h0]
  have hs : spoilSlot y d = d := by simp [spoilSlot, h0]
  simp only [writeRecord, hf, hs, Bool.false_and, Bool.false_eq_true, if_false]
  exact modRun_head _ hd ho

omit hd ho in
theorem statusWritten_withRuns (x : List DmaRun) : statusWritten y (withRuns x d) = withRuns x (statusWritten y d) :=
  windowPut_withRuns _ _ _ _

omit hd ho in
theorem writeStatus_eq (hf : y.signalFlag = false) (hr : y.result = .done) (ht : y.detail = 0) :
    writeStatus y d = modRun y.queue y.index (fun x => { x with stage := .status }) (statusWritten y d) := by
  rw [writeStatus, hf, hr, ht, Nat.mul_zero, Nat.add_zero, Bool.false_and, Bool.false_and, Bool.false_and,
    if_neg Bool.false_ne_true]
  rfl

theorem writeStatus_silent (hf : y.signalFlag = false) (hr : y.result = .done) (ht : y.detail = 0) :
    writeStatus y d = withRuns ({ y with stage := .status } :: rest) (statusWritten y d) := by
  have hput : statusWritten y d = withRuns (y :: rest) (statusWritten y d) := by
    rw [← statusWritten_withRuns, ← hd]
    rfl
  rw [writeStatus_eq (y := y) (d := d) hf hr ht, hput]
  exact modRun_head (y := y) (rest := rest) _ rfl ho

/-- A run without an event leaves its queue (R76). -/
theorem retireRun_silent (he : y.event = false) (hx : (queueOf y.queue d).disabling = false) :
    retireRun y d = wr (rQueue y.queue 0x14) ((y.index + 1) % 2 ^ 16) (withRuns rest d) := by
  have hfilter : d.dma.filter (fun z => !(z.queue == y.queue && z.index == y.index)) = rest := by
    rw [hd, List.filter_cons_of_neg (by simp)]
    exact List.filter_eq_self.2 fun z hz => by
      rw [Bool.not_eq_true', ← Bool.not_eq_true, Bool.and_eq_true, beq_iff_eq, beq_iff_eq]
      exact others_differ ho hz
  have hq : (queueOf y.queue (wr (rQueue y.queue 0x14) ((y.index + 1) % 2 ^ 16) (withRuns rest d))).disabling = false := hx
  have hs : settleQueue y.queue (wr (rQueue y.queue 0x14) ((y.index + 1) % 2 ^ 16) (withRuns rest d))
      = wr (rQueue y.queue 0x14) ((y.index + 1) % 2 ^ 16) (withRuns rest d) := by
    rw [settleQueue, hq]
    exact if_neg (by simp)
  rw [retireRun, hfilter, he]
  exact hs

/-- A NOP that has ended leaves the queue once the window has taken its status. -/
theorem completeNext_nop (hs : y.stage = .ended) (ha : y.awaited = 0) (h0 : y.op = 0) (hr : y.result = .done)
    (ht : y.detail = 0) (he : y.event = false) (hf : y.signalFlag = false) (hx : (queueOf y.queue d).disabling = false)
    (hw : windowTook (d.job.slotRecord + 32 * y.slot) 32 d = true)
    (hw' : windowTook (descriptorAddr y d + 0x28) 20 (statusWritten y d) = true) :
    completeNext y.queue d = wr (rQueue y.queue 0x14) ((y.index + 1) % 2 ^ 16) (withRuns rest (statusWritten y d)) := by
  have hstale : runStale y d = false := by simp [runStale, ha]
  have hfind : d.dma.find? (fun r => r.queue == y.queue) = some y := by simp [hd]
  have hq : queueOf y.queue (statusWritten y d) = queueOf y.queue d :=
    (reported_windowPut _ _ d).sameQuiet.field (queueOf y.queue) fun _ => rfl
  have h1 : finishRunDma 3 y.queue y.index d = finishRunDma 2 y.queue y.index
      (withRuns ({ y with stage := .record } :: rest) d) := by
    rw [finishRunDma_ended (runAt_head hd) hs, ← writeRecord_nop hd ho h0]
  have h2 : finishRunDma 2 y.queue y.index (withRuns ({ y with stage := .record } :: rest) d)
      = finishRunDma 1 y.queue y.index (withRuns ({ y with stage := .status } :: rest) (statusWritten y d)) := by
    have hst := writeStatus_silent (y := { y with stage := .record }) (rest := rest)
      (d := withRuns ({ y with stage := .record } :: rest) d) rfl ho hf hr ht
    have hsw : statusWritten { y with stage := .record } (withRuns ({ y with stage := .record } :: rest) d)
        = withRuns ({ y with stage := .record } :: rest) (statusWritten y d) := windowPut_withRuns _ _ _ _
    rw [finishRunDma_record (y := { y with stage := .record }) (runAt_head rfl) rfl (by rw [windowTook_withRuns]; exact hw),
      hst, hsw, withRuns_withRuns]
  have h3 : finishRunDma 1 y.queue y.index (withRuns ({ y with stage := .status } :: rest) (statusWritten y d))
      = wr (rQueue y.queue 0x14) ((y.index + 1) % 2 ^ 16) (withRuns rest (statusWritten y d)) := by
    have hda : descriptorAddr { y with stage := .status }
        (withRuns ({ y with stage := .status } :: rest) (statusWritten y d)) = descriptorAddr y d := by
      rw [descriptorAddr, descriptorAddr, queueOf_withRuns, hq]
    have hret := retireRun_silent (y := { y with stage := .status }) (rest := rest)
      (d := withRuns ({ y with stage := .status } :: rest) (statusWritten y d)) rfl ho he
      (by rw [queueOf_withRuns, hq, hx])
    rw [withRuns_withRuns] at hret
    rw [finishRunDma_status (y := { y with stage := .status }) (runAt_head rfl) rfl
      (by rw [hda, windowTook_withRuns, hw'])]
    exact hret
  simp only [completeNext, hfind, hstale, Bool.false_eq_true, if_false]
  rw [h1, h2, h3]

end Ended

end Complete

/-- Settles O17: each step of a descriptor by the equation of its row for one run. -/
theorem descriptorsComplete : Obligations.DescriptorsComplete := by
  intro q b s hon d x r taken
  refine ⟨fun he hx hn hd ht hw hj hc => ⟨fun h0 => ?_, fun h1 hl => ?_, fun h2 hl => ?_, fun h3 hl hcap => ?_⟩,
    fun he hx hn hd ht hw hj h1 hc => ?_, fun y tag data hp hd ht hl hs hr hm => fun hps => ?_,
    fun y p hd ho ht hs hm ha hi hr => dmaAnswer_last hd ho ht hs hm ha hi hr,
    fun y rest hd hq hs ha h0 hr ht he hf hx ho hw hw' => ?_⟩
  · refine gives_of_eq hon ((startRun_begins he hx hn ht hw h0).trans ?_)
    exact beginRun_empty hd hc hj h0
  · have h0 : r.op ≠ 0 := by omega
    refine gives_of_eq hon ((startRun_begins he hx hn ht hw h1).trans ((beginRun_moves hd hc hj h0 hl).trans ?_))
    exact runOn_asks (y := r) rfl rfl rfl rfl (bytesOf_pos hl (by omega)) (by omega)
  · have h0 : r.op ≠ 0 := by omega
    refine gives_of_eq hon ((startRun_begins he hx hn ht hw h2).trans ((beginRun_moves hd hc hj h0 hl).trans ?_))
    exact runOn_reads (y := r) rfl rfl rfl rfl (bytesOf_pos hl (by omega)) h2 rfl
  · have h0 : r.op ≠ 0 := by omega
    refine gives_of_eq hon ((startRun_begins he hx hn ht hw h3).trans ((beginRun_moves hd hc hj h0 hl).trans ?_))
    exact runOn_asks (y := r) rfl rfl rfl rfl (bytesOf_pos hl (fun _ => hcap)) (by omega)
  · exact gives_of_eq hon ((startRun_begins he hx hn ht hw h1).trans (beginRun_judged hd hc hj))
  · refine gives_of_eq hon ((hostMessage_active _ _ _ hp).trans ((companionData_run (d := cameIn 1 (slotsFor data.length) d) data hd ht).trans ?_))
    exact takeForRun_last (d := cameIn 1 (slotsFor data.length) d) hd hl hm hps
  · subst hq
    refine does_of hon (f := completeNext y.queue) ?_
    rw [completeNext_nop hd ho hs ha h0 hr ht he hf hx hw hw']
    refine ⟨?_, rfl⟩
    rw [consumerOf, rd_wr_same]
    omega

end Sys2Proof.Machine
end


section
/-!
SUPPORT. The JOB page (R88, R89): what ATTACH, DETACH and the ends of contexts leave of the job and of the header.
-/

namespace Sys2Proof.Machine

/-! ### Steps that change one header -/

/-- No header but that of `q` changed, and nothing beside headers but reports. -/
structure OnPage (q : PageId) (d e : Dev) : Prop extends SameQuiet d e where
  others : ∀ p, p ≠ q → (pageOf p e).quiet = (pageOf p d).quiet

theorem OnPage.refl (q : PageId) (d : Dev) : OnPage q d d := ⟨.refl d, fun _ _ => rfl⟩

theorem OnPage.trans {q : PageId} {a b c : Dev} (h : OnPage q a b) (k : OnPage q b c) : OnPage q a c :=
  ⟨h.toSameQuiet.trans k.toSameQuiet, fun p hp => (k.others p hp).trans (h.others p hp)⟩

theorem Reported.onPage {d e : Dev} (h : Reported d e) (q : PageId) : OnPage q d e := ⟨h.sameQuiet, fun p _ => h.2.1 p⟩

theorem onPage_putPage (q : PageId) (g : Page) (d : Dev) : OnPage q d (putPage q g d) :=
  ⟨sameQuiet_putPage q g d, fun p hp => by rw [pageOf_putPage_other g d hp]⟩

theorem onPage_setState (q : PageId) (st : PState) (c : Cause) (d : Dev) : OnPage q d (setState q st c d) :=
  (onPage_putPage q _ d).trans ((reported_setState q st c d).onPage q)

theorem onPage_settlePage (q : PageId) (st : PState) (c : Cause) (d : Dev) : OnPage q d (settlePage q st c d) := by
  unfold settlePage
  simp only
  split
  · exact onPage_putPage q _ d
  · split
    · exact onPage_putPage q _ d
    · split
      · exact onPage_setState q st c d
      · exact .refl q d

theorem onPage_endCmd (q : PageId) (ok : Bool) (d : Dev) : OnPage q d (endCmd q ok d) := by
  cases h : (pageOf q d).cmd with
  | none => rw [endCmd_idle ok h]; exact .refl q d
  | some c =>
    cases ok with
    | true => exact (onPage_putPage q _ d).trans ((reported_endCmd_done (by simp [h])).onPage q)
    | false => exact (onPage_putPage q _ d).trans ((reported_endCmd_failed h).onPage q)

theorem onPage_endCmdIf (q : PageId) (code : Nat) (ok : Bool) (d : Dev) : OnPage q d (endCmdIf q code ok d) := by
  unfold endCmdIf
  split
  · split
    · exact onPage_endCmd q ok d
    · exact .refl q d
  · exact .refl q d

/-- A row of steps on other pages keeps a header. -/
theorem pageQuiet_foldl {α : Type} {f : Dev → α → Dev} {q : α → PageId} {p : PageId} (h : ∀ d x, OnPage (q x) d (f d x))
    (l : List α) (hl : ∀ x ∈ l, q x ≠ p) (d : Dev) : (pageOf p (l.foldl f d)).quiet = (pageOf p d).quiet := by
  induction l generalizing d with
  | nil => rfl
  | cons x l ih =>
    rw [List.foldl_cons, ih (fun y hy => hl y (List.mem_cons_of_mem x hy))]
    exact (h d x).others p (hl x List.mem_cons_self).symm

theorem sameQuiet_settleAll (l : List PageId) (st : PState) (c : Cause) (d : Dev) :
    SameQuiet d (l.foldl (fun x p => settlePage p st c x) d) :=
  .foldl (fun x p => (onPage_settlePage p st c x).toSameQuiet) l d

/-! ### ATTACH -/

/-- What ATTACH takes from the network and from its registers at once (R263, R309, R315, R321). -/
def networkCleared (d : Dev) : Dev :=
  regsReset (fun r => (r.ty == .counters && decide (0x100 ≤ r.off))
    || (r.ty == .ring && decide (0xC0 ≤ r.off) && decide (r.off ≤ 0xF4))) (modNet (fun n => { n with
      tx := [], rx := [], sends := [], checkTx := [], checkRx := [], rings := [],
      ports := n.ports.map (fun e => (e.1, { e.2 with bufData := [], bufCtrl := [] })),
      pools := n.pools.map (fun e => (e.1, { e.2 with records := [], waiting := [] })),
      belay := n.belay.map (fun e => (e.1, { e.2 with state := EntryState.idle })) }) d)

def sendsEnded (d : Dev) : Dev := (List.range 48).foldl (fun x p => endCmdIf (pNi p) 0x40 false x) d

def ringsSettled (d : Dev) : Dev := (List.range 48).foldl (fun x r => settlePage (pRing r) .ready .work x) d

theorem freshStreams_eq (d : Dev) :
    freshStreams d = settleReduction 1 (settleReduction 0 (ringsSettled (networkCleared (sendsEnded d)))) := rfl

/-- The job and the JOB page but for its event bits stay. -/
structure KeepsJob (d e : Dev) : Prop where
  job : e.job = d.job
  page : (pageOf pJob e).quiet = (pageOf pJob d).quiet

theorem KeepsJob.trans {a b c : Dev} (h : KeepsJob a b) (k : KeepsJob b c) : KeepsJob a c :=
  ⟨k.job.trans h.job, k.page.trans h.page⟩

theorem keepsJob_sendsEnded (d : Dev) : KeepsJob d (sendsEnded d) where
  job := (SameQuiet.foldl (fun x p => sameQuiet_endCmdIf _ _ _ x) _ d).field Dev.job fun _ => rfl
  page := pageQuiet_foldl (fun x p => onPage_endCmdIf (pNi p) 0x40 false x) _ (fun _ _ => by simp [pNi, pJob]) d

theorem keepsJob_ringsSettled (d : Dev) : KeepsJob d (ringsSettled d) where
  job := (SameQuiet.foldl (fun x p => (onPage_settlePage _ _ _ x).toSameQuiet) _ d).field Dev.job fun _ => rfl
  page := pageQuiet_foldl (fun x p => onPage_settlePage (pRing p) .ready .work x) _ (fun _ _ => by simp [pRing, pJob]) d

theorem OnPage.keepsJob {q : PageId} {d e : Dev} (h : OnPage q d e) (hq : pJob ≠ q) : KeepsJob d e :=
  ⟨h.toSameQuiet.field Dev.job fun _ => rfl, h.others pJob hq⟩

theorem keepsJob_settleReduction (i : Nat) (d : Dev) : KeepsJob d (settleReduction i d) :=
  (onPage_settlePage (pRed i) _ _ d).keepsJob (by simp [pRed, pJob])

theorem keepsJob_networkCleared (d : Dev) : KeepsJob d (networkCleared d) := ⟨rfl, rfl⟩

/-- The network forgets the job before, and the JOB page stays as it stands. -/
theorem keepsJob_freshStreams (d : Dev) : KeepsJob d (freshStreams d) := by
  rw [freshStreams_eq]
  exact (keepsJob_sendsEnded d).trans ((keepsJob_networkCleared _).trans ((keepsJob_ringsSettled _).trans
    ((keepsJob_settleReduction 0 _).trans (keepsJob_settleReduction 1 _))))

theorem settlePage_ready {p : PageId} {d : Dev} (c : Cause) (h : stateOf p d = .ready) :
    settlePage p .active c d = setState p .active c d := by
  have h : (pageOf p d).state = .ready := h
  simp [settlePage, h]

theorem jobPages_other : ∀ p ∈ jobPages, p ≠ pJob := by
  intro p hp h
  subst h
  simp only [jobPages, List.mem_flatMap, List.mem_filter, List.mem_map] at hp
  obtain ⟨t, ⟨-, ht⟩, i, -, hi⟩ := hp
  have : t = .job := congrArg PageId.ty hi
  subst this
  exact absurd ht (by decide)

theorem Page.state_of_quiet {g k : Page} (h : g.quiet = k.quiet) : g.state = k.state := by
  have : g.quiet.state = k.quiet.state := congrArg Page.state h
  exact this

theorem Page.cmd_of_quiet {g k : Page} (h : g.quiet = k.quiet) : g.cmd = k.cmd := by
  have : g.quiet.cmd = k.quiet.cmd := congrArg Page.cmd h
  exact this

/-- The JOB page goes to ACTIVE, and other pages after it. -/
theorem settleAll_job {d : Dev} {l : List PageId} (c : Cause) (hl : ∀ p ∈ l, p ≠ pJob) (h : stateOf pJob d = .ready) :
    let e := (pJob :: l).foldl (fun x p => settlePage p .active c x) d
    e.job = d.job ∧ (pageOf pJob e).state = .active ∧ (pageOf pJob e).cmd = (pageOf pJob d).cmd := by
  intro e
  have hq : (pageOf pJob e).quiet = (pageOf pJob (setState pJob .active c d)).quiet := by
    rw [← settlePage_ready c h]
    exact pageQuiet_foldl (q := id) (fun x p => onPage_settlePage p .active c x) l hl _
  obtain ⟨w, hw⟩ := pageOf_setState pJob .active c d
  refine ⟨(sameQuiet_settleAll (pJob :: l) .active c d).field Dev.job fun _ => rfl, ?_, ?_⟩
  · rw [Page.state_of_quiet hq, hw]
    rfl
  · rw [Page.cmd_of_quiet hq, hw]
    rfl

/-- The job as ATTACH ends. -/
def attachedJob (l : RankLoad) (j : Job) : Job :=
  { j with attached := true, load := none,
           rankTable := (List.range j.rankCount).map (fun i => BitVec.ofNat 64 (leAt l.table (8 * i) 8)) }

theorem attachJob_eq (l : RankLoad) (d : Dev) : attachJob l d = (pJob :: jobPages).foldl (fun x p => settlePage p .active .work x)
    (wr (rJob 0x78) (64 + roundUp (d.job.slotCapacity * unitBytes d.job.slotUnit) 64)
      (freshStreams { d with job := attachedJob l d.job })) := rfl

/-- The JOB page goes to ACTIVE as the job is attached; its command stays. -/
theorem attachJob_keeps {d : Dev} (l : RankLoad) (h : stateOf pJob d = .ready) :
    (attachJob l d).job = attachedJob l d.job ∧ (pageOf pJob (attachJob l d)).state = .active
      ∧ (pageOf pJob (attachJob l d)).cmd = (pageOf pJob d).cmd := by
  have hk := keepsJob_freshStreams { d with job := attachedJob l d.job }
  rw [attachJob_eq]
  generalize freshStreams { d with job := attachedJob l d.job } = x at hk
  have hs : stateOf pJob (wr (rJob 0x78) (64 + roundUp (d.job.slotCapacity * unitBytes d.job.slotUnit) 64) x) = .ready :=
    (Page.state_of_quiet hk.page).trans h
  obtain ⟨hj, hst, hc⟩ := settleAll_job .work jobPages_other hs
  exact ⟨hj.trans hk.job, hst, hc.trans (Page.cmd_of_quiet hk.page)⟩

theorem endCmd_done_parts {p : PageId} {d : Dev} (h : (pageOf p d).cmd.isSome = true) :
    (pageOf p (endCmd p true d)).state = (pageOf p d).state ∧ (pageOf p (endCmd p true d)).result = .done
      ∧ (pageOf p (endCmd p true d)).cmd = none := by
  obtain ⟨w, hw⟩ := (reported_endCmd_done h).pageFields p
  rw [hw]
  simp

theorem endAttach_done {d : Dev} {l : RankLoad} (hc : inProgress pJob 0x40 d = true) (hs : stateOf pJob d = .ready) :
    (endAttach l true d).job = attachedJob l d.job ∧ (pageOf pJob (endAttach l true d)).state = .active
      ∧ (pageOf pJob (endAttach l true d)).result = .done ∧ (pageOf pJob (endAttach l true d)).cmd = none := by
  have ha : attaching d = true := hc
  obtain ⟨hj, hst, hcmd⟩ := attachJob_keeps l hs
  have hsome : (pageOf pJob (attachJob l d)).cmd.isSome = true := by
    rw [hcmd]
    unfold inProgress at hc
    split at hc
    · next h => rw [h]; rfl
    · exact absurd hc (by simp)
  have he : endAttach l true d = endCmd pJob true (attachJob l d) := by simp [endAttach, ha]
  obtain ⟨h1, h2, h3⟩ := endCmd_done_parts hsome
  rw [he]
  exact ⟨((onPage_endCmd pJob true _).toSameQuiet.field Dev.job fun _ => rfl).trans hj, h1.trans hst, h2, h3⟩

theorem dmaAnswer_attach {d : Dev} {l : RankLoad} {p : Packet} (hd : d.dma = []) (hl : d.job.load = some l)
    (hi : l.msgId = p.msgId) (ha : l.awaited = 1) : dmaAnswer p d = endAttach l true d := by
  simp [dmaAnswer, runWith, hd, hl, hi, ha]

theorem beginAttach_eq {d : Dev} (h : 1 ≤ rd (rJob 0x4C) d) : ∃ m l,
    beginAttach d = hostSend m { d with job := { newJob d with load := some l } } := by
  have hn : ¬ 8 * (newJob d).rankCount - 0 = 0 := by
    have : (newJob d).rankCount = rd (rJob 0x4C) d := rfl
    omega
  simp only [beginAttach, loadMore, List.length_nil, Bool.false_eq_true, if_false, if_neg hn]
  exact ⟨_, _, rfl⟩

theorem pageOf_accept (p : PageId) (code arg : Nat) (d : Dev) : pageOf p (accept p code arg d) = (pageOf p d).started code arg :=
  pageOf_putPage_same ..

theorem inState_of {p : PageId} {d : Dev} {st : PState} {l : List PState} (h : (pageOf p d).state = st)
    (hm : l.contains st = true) : inState p l d = true := by
  rw [inState, stateOf, h, hm]

theorem cmdAttach_starts {arg : Nat} {d : Dev} (hm : mayCommand pJob d = true) (hs : (pageOf pJob d).state = .ready)
    (hr : attachInRange d = true) :
    { (cmdAttach arg d).job with load := none } = newJob d ∧ answers pJob 0x40 .busy d (cmdAttach arg d) := by
  have h1 : 1 ≤ rd (rJob 0x4C) (accept pJob 0x40 arg d) := by
    simp only [attachInRange, Bool.and_eq_true, decide_eq_true_eq] at hr
    exact hr.1.1.1.1.1.1.1.1
  obtain ⟨m, l, he⟩ := beginAttach_eq h1
  have hc : cmdAttach arg d = beginAttach (accept pJob 0x40 arg d) :=
    pageCommand_accepted _ _ _ hm rfl (inState_of hs rfl) hr
  rw [hc, he]
  have hsent := sent_hostSend m { accept pJob 0x40 arg d with job := { newJob (accept pJob 0x40 arg d) with load := some l } }
  generalize hostSend m _ = y at hsent
  have hj : y.job = { newJob (accept pJob 0x40 arg d) with load := some l } := hsent.reported.sameQuiet.field Dev.job fun _ => rfl
  have hp : pageOf pJob y = (pageOf pJob d).started 0x40 arg :=
    (hsent.reported.pageOf_eq hsent.pages pJob).trans (pageOf_accept pJob 0x40 arg d)
  refine ⟨?_, ?_⟩
  · rw [hj]
    rfl
  · rw [answers, hp]
    exact ⟨rfl, rfl, rfl⟩

theorem companionData_table {d : Dev} {l : RankLoad} {tag : Nat} {data : List Byte} (hd : d.dma = [])
    (hl : d.job.load = some l) (ht : l.tag = some tag) (hp : l.poisoned = false) (ha : data.length = l.asked)
    (hw : l.table.length + data.length = 8 * d.job.rankCount) :
    companionData tag 0 false data d = zeroHeaders { l with table := l.table ++ data, tag := none } d := by
  have hleft : 8 * d.job.rankCount - (l.table ++ data).length = 0 := by rw [List.length_append]; omega
  have hpois : ({ l with table := l.table ++ data, tag := none, poisoned := false } : RankLoad)
      = { l with table := l.table ++ data, tag := none } := by rw [← hp]
  have hmore : loadMore { l with table := l.table ++ data, tag := none, poisoned := false } d
      = zeroHeaders { l with table := l.table ++ data, tag := none, poisoned := false } d := by
    simp only [loadMore, hleft, Bool.false_eq_true, if_false, if_true]
  rw [← hpois, ← hmore]
  simp [companionData, hd, hl, ht, loadData, ha]

/-! ### The other commands -/

theorem detachJob_job (d : Dev) : (detachJob d).job = { d.job with attached := false } := by
  unfold detachJob
  generalize pJob :: jobPages = l
  exact (sameQuiet_settleAll l .ready .work (wr (rPower 0x48) 0 { d with job := { d.job with attached := false } })).field Dev.job fun _ => rfl

theorem detach_job {arg : Nat} {d : Dev} (hm : mayCommand pJob d = true) (hs : (pageOf pJob d).state = .active)
    (ho : d.job.open_ = []) : (cmdDetach arg d).job = { d.job with attached := false } := by
  have hc : cmdDetach arg d = endCmd pJob true (detachJob (accept pJob 0x41 arg d)) :=
    pageCommand_accepted _ _ _ hm rfl (by rw [inState_of hs rfl, ho]; rfl) rfl
  rw [hc, (onPage_endCmd pJob true _).toSameQuiet.field Dev.job fun _ => rfl, detachJob_job]
  rfl

theorem reported_doneAtOnce {p : PageId} {d e : Dev} {code arg : Nat} (he : pageOf p e = (pageOf p d).started code arg) :
    Reported (putPage p ((pageOf p d).ended code .done) e) (endCmd p true e) := by
  have h := reported_endCmd_done (p := p) (d := e) (by rw [he]; rfl)
  rw [he] at h
  exact h

theorem drainContext_ends {d : Dev} {arg c : Nat} (hc : (pageOf pJob d).cmd = some ⟨0x43, c⟩)
    (hx : d.job.closing.contains arg = true) (hb : contextBusy arg d = false) :
    drainContext arg d = endCmd pJob true { d with job := { d.job with closing := d.job.closing.filter (· != arg) } } := by
  have hc' : (pageOf pJob { d with job := { d.job with closing := d.job.closing.filter (· != arg) } }).cmd = some ⟨0x43, c⟩ := hc
  simp only [drainContext, hx, hb, Bool.not_false, Bool.and_self, if_true, endCmdIf, hc']

/-- Settles O18: each command through its acceptance, and each end through what it leaves of the job and of the JOB page. -/
theorem jobCommandsComplete : Obligations.JobCommandsComplete := by
  intro arg s hon d g
  refine ⟨fun hm hs hr => does_of hon (f := cmdAttach arg) (cmdAttach_starts hm hs hr),
    fun l tag data hp hd hl ht hpois ha hw => ?_, fun l p hd hl hi ha hc hs => ?_,
    fun hm hs ho => does_of hon (f := cmdDetach 0) (detach_job hm hs ho), fun hm hs ha hx => ?_,
    fun hm hs ha hx hu => ?_, fun c hc hx hb => ?_⟩
  · refine gives_of_eq hon ((hostMessage_active _ _ _ hp).trans ?_)
    exact companionData_table (d := cameIn 1 (slotsFor data.length) d) hd hl ht hpois ha hw
  · rw [show dmaAnswer p d = endAttach l true d from dmaAnswer_attach hd hl hi ha]
    exact endAttach_done hc hs
  · refine reaches_of_reported hon (f := cmdOpenContext arg) ?_
    have harg : arg % 2 ^ 24 = arg := Nat.mod_eq_of_lt (by omega)
    have he : cmdOpenContext arg d = endCmd pJob true { accept pJob 0x42 arg d with
        job := { d.job with open_ := d.job.open_ ++ [arg] } } := by
      simp only [cmdOpenContext, harg]
      exact pageCommand_accepted _ _ _ hm rfl (by rw [inState_of hs rfl, hx]; simp) (by simpa using ha)
    rw [show cmdOpenContext arg s.dev = _ from he]
    have hr := reported_doneAtOnce (p := pJob) (d := d) (e := { accept pJob 0x42 arg d with
        job := { d.job with open_ := d.job.open_ ++ [arg] } }) (pageOf_accept pJob 0x42 arg d)
    exact (reported_putPage_twice pJob _ _ { d with job := { d.job with open_ := d.job.open_ ++ [arg] } }).trans hr
  · refine gives_of_eq hon (f := cmdCloseContext arg) ?_
    have harg : arg % 2 ^ 24 = arg := Nat.mod_eq_of_lt (by omega)
    simp only [cmdCloseContext, harg]
    exact pageCommand_accepted _ _ _ hm rfl (by rw [inState_of hs rfl, hx, hu]; simp) (by simpa using ha)
  · refine reaches_of_reported hon (f := drainContext arg) ?_
    rw [show drainContext arg s.dev = _ from drainContext_ends hc hx hb]
    exact reported_endCmd_done (p := pJob)
      (d := { d with job := { d.job with closing := d.job.closing.filter (· != arg) } }) (by
        have : (pageOf pJob d).cmd.isSome = true := by rw [show (pageOf pJob d).cmd = _ from hc]; rfl
        exact this)

end Sys2Proof.Machine
end


section
/-!
SUPPORT. Scalar instructions and issues (R94 to R110): what a retiring instruction leaves of its core, fetch, ECALL, MRET, the
module CSRs, and the copy of a descriptor.
-/

namespace Sys2Proof.Machine

/-! ### A retiring instruction -/

@[simp] theorem setX_mstatus (r : Nat) (v : DWord) (c : Core) : (setX r v c).mstatus = c.mstatus := by
  simp only [setX, apply_ite Core.mstatus, ite_self]

@[simp] theorem setX_mepc (r : Nat) (v : DWord) (c : Core) : (setX r v c).mepc = c.mepc := by
  simp only [setX, apply_ite Core.mepc, ite_self]

@[simp] theorem setX_engines (r : Nat) (v : DWord) (c : Core) : (setX r v c).engines = c.engines := by
  simp only [setX, apply_ite Core.engines, ite_self]

@[simp] theorem setX_beaconPending (r : Nat) (v : DWord) (c : Core) : (setX r v c).beaconPending = c.beaconPending := by
  simp only [setX, apply_ite Core.beaconPending, ite_self]

@[simp] theorem setX_loaded (r : Nat) (v : DWord) (c : Core) : (setX r v c).loaded = c.loaded := by
  simp only [setX, apply_ite Core.loaded, ite_self]

/-- The core after an instruction: the result, the pc, and the counters of time. -/
theorem coreOf_retireInstr (k r : Nat) (v : DWord) (len : Nat) (d : Dev) :
    ∃ m w t s l, coreOf k (retireInstr k r v len d) = { setX r v { coreOf k d with
      pc := ((coreOf k d).pc + len) % 2 ^ 64, minstret := m, waiting := none, waitSince := w } with
        mcycle := t, slot := s, windowShade := l } := by
  obtain ⟨⟨t, s, l, hc⟩, -⟩ := timePasses_passSteps k (modCore k (fun c => setX r v { c with
    pc := (c.pc + len) % 2 ^ 64
    minstret := if c.mcountinhibit.getLsbD 2 then c.minstret else c.minstret + 1
    waiting := none
    waitSince := if c.machine then c.waitSince else none }) d)
  refine ⟨if (coreOf k d).mcountinhibit.getLsbD 2 then (coreOf k d).minstret else (coreOf k d).minstret + 1,
    if (coreOf k d).machine then (coreOf k d).waitSince else none, t, s, l, ?_⟩
  rw [retireInstr, hc, coreOf_modCore_same]

theorem rd_countSteps {k n filled slot level : Nat} {d : Dev} {r : RegId}
    (h : ∀ off ∈ [0xD0, 0xD4, 0xD8, 0xDC], homeOf r ≠ rCore k off) : rd r (countSteps k n filled slot level d) = rd r d := by
  simp only [countSteps, add64, wr64]
  rw [rd_wr_other _ _ (h 0xDC (by simp)), rd_wr_other _ _ (h 0xD8 (by simp)), rd_wr_other _ _ (h 0xD4 (by simp)),
    rd_wr_other _ _ (h 0xD0 (by simp))]
  rfl

/-- Time at a core changes its counters of steps alone. -/
theorem rd_passSteps {k : Nat} {d : Dev} {r : RegId} (h : ∀ off ∈ [0xD0, 0xD4, 0xD8, 0xDC], homeOf r ≠ rCore k off) :
    rd r (passSteps k d) = rd r d := by
  simp only [passSteps, makeSteps, passIdle]
  rw [rd_countSteps h, rd_countSteps h]
  rfl

theorem rd_retireInstr {k x len : Nat} {v : DWord} {d : Dev} {r : RegId}
    (h : ∀ off ∈ [0xD0, 0xD4, 0xD8, 0xDC], homeOf r ≠ rCore k off) : rd r (retireInstr k x v len d) = rd r d := by
  rw [retireInstr, rd_passSteps h]
  rfl

/-- A change of the core that shows neither in its pc nor in its registers leaves an instruction retired. -/
theorem Retires.modCore {k r : Nat} {v : DWord} {d e : Dev} {f : Core → Core} (h : Retires k r v d e)
    (hpc : (f (coreOf k e)).pc = (coreOf k e).pc) (hw : (f (coreOf k e)).waiting = (coreOf k e).waiting)
    (hx : (f (coreOf k e)).xs = (coreOf k e).xs) (hm : (f (coreOf k e)).machine = (coreOf k e).machine) :
    Retires k r v d (modCore k f e) := by
  obtain ⟨h1, h2, h3, h4, h5, hrest⟩ := h
  refine ⟨?_, ?_, fun q => ?_, ?_, fun j hj => (coreOf_modCore_other f e hj).trans (h5 j hj), hrest⟩
  all_goals rw [coreOf_modCore_same]
  · exact hpc.trans h1
  · exact hw.trans h2
  · rw [← h3 q, xreg, hx]
    rfl
  · exact hm.trans h4

/-! ### Fetch and execution -/

section Fetch

variable {k w : Nat} {v : DWord} {d : Dev}

theorem fetchRun_word (ht : (coreOf k d).pc + 4 ≤ reach (!(coreOf k d).machine))
    (hp : sramPoisoned k (coreOf k d).pc 2 d = false) (hp' : sramPoisoned k ((coreOf k d).pc + 2) 2 d = false)
    (hw : leNat (sramRead k (coreOf k d).pc 4 d) = w) (h3 : leNat (sramRead k (coreOf k d).pc 2 d) % 4 = 3) :
    fetchRun k d = runWord k w 4 d := by
  have h1 : ¬ reach (!(coreOf k d).machine) < (coreOf k d).pc + 2 := by omega
  have h2 : ¬ reach (!(coreOf k d).machine) < (coreOf k d).pc + 4 := by omega
  simp only [fetchRun, h1, h2, hp, hp', h3, hw, Bool.false_eq_true, if_false, ne_eq, not_true]

theorem fetchRun_half (ht : (coreOf k d).pc + 2 ≤ reach (!(coreOf k d).machine))
    (hp : sramPoisoned k (coreOf k d).pc 2 d = false) (h3 : leNat (sramRead k (coreOf k d).pc 2 d) % 4 ≠ 3)
    (hx : expandC (leNat (sramRead k (coreOf k d).pc 2 d)) = some w) : fetchRun k d = runWord k w 2 d := by
  have h1 : ¬ reach (!(coreOf k d).machine) < (coreOf k d).pc + 2 := by omega
  simp only [fetchRun, h1, hp, hx, Bool.false_eq_true, if_false, ne_eq, h3, not_false_eq_true, if_true]

theorem scalarStep_runs (hi : inProgress (pCore k) 0x40 d = false) (hr : runs k d) :
    (if inProgress (pCore k) 0x40 d then tryStart k d else stepCore k (fetchRun k) d) = fetchRun k d := by
  rw [hi, if_neg Bool.false_ne_true, stepCore_runs hr]

theorem runWord_opImm (hw : w % 128 = 0x13)
    (hv : aluI (fieldOf w 31 20) (fieldOf w 14 12) (xreg (coreOf k d) (fieldOf w 19 15)) = some v) :
    runWord k w 4 d = retireInstr k (fieldOf w 11 7) v 4 d := by
  simp only [runWord, hw, hv, retireOr]

theorem runWord_op (hw : w % 128 = 0x33) (hv : aluR (fieldOf w 31 25) (fieldOf w 14 12)
      (xreg (coreOf k d) (fieldOf w 19 15)) (xreg (coreOf k d) (fieldOf w 24 20)) = some v) :
    runWord k w 4 d = retireInstr k (fieldOf w 11 7) v 4 d := by
  simp only [runWord, hw, hv, retireOr]

end Fetch

/-! ### ECALL and MRET (R106, R107) -/

section Returns

variable {k : Nat} {d : Dev}

theorem doEcall_ends (hu : (coreOf k d).machine = false) (h0 : xreg (coreOf k d) 17 = 0)
    (hk : (coreOf k d).kernel.isSome = true) (he : (coreOf k d).ending = none) :
    (coreOf k (doEcall k d)).ending = some (0, low32 (xreg (coreOf k d) 10)) ∧ (coreOf k (doEcall k d)).machine = true
      ∧ (coreOf k (doEcall k d)).mepc = BitVec.ofNat 64 (coreOf k d).pc ∧ (coreOf k (doEcall k d)).mcause = 8 := by
  have h : doEcall k d = beginEnd k 0 (low32 (xreg (coreOf k d) 10)) (enterTrap k false 8 0 d) := by
    simp only [doEcall, hu, h0, Bool.false_eq_true, if_false, if_true]
  rw [h]
  simp [beginEnd, enterTrap, hk, he]

theorem timePasses_passRuntime_core (k : Nat) (d : Dev) :
    ∃ m t s l, coreOf k (passRuntime k d) = { coreOf k d with minstret := m, mcycle := t, slot := s, windowShade := l } := by
  obtain ⟨⟨t, s, l, hc⟩, -⟩ := timePasses_passSteps k (modCore k (fun c => { c with
    minstret := if c.mcountinhibit.getLsbD 2 then c.minstret else c.minstret + drawFree d }) (tickFree d))
  refine ⟨if (coreOf k d).mcountinhibit.getLsbD 2 then (coreOf k d).minstret else (coreOf k d).minstret + drawFree d,
    t, s, l, ?_⟩
  rw [passRuntime, hc, coreOf_modCore_same]
  rfl

theorem leaveTrap_user (c : Core) (h : fieldOf c.mstatus.toNat 12 11 = 0) : (leaveTrap c).machine = false := by
  simp [leaveTrap, h]

theorem doEcall_other (hu : (coreOf k d).machine = false) (h0 : xreg (coreOf k d) 17 ≠ 0) :
    xreg (coreOf k (doEcall k d)) 10 = BitVec.allOnes 64
      ∧ (coreOf k (doEcall k d)).pc = ((coreOf k d).pc + 4) % 2 ^ 64 ∧ (coreOf k (doEcall k d)).machine = false := by
  have h : doEcall k d = passRuntime k (modCore k (fun x => { leaveTrap { setX 10 (BitVec.allOnes 64) x with mepc := x.mepc + 4 } with
      waitSince := none }) (enterTrap k false 8 0 d)) := by
    simp only [doEcall, hu, h0, Bool.false_eq_true, if_false]
  obtain ⟨m, t, s, l, hc⟩ := timePasses_passRuntime_core k (modCore k (fun x => { leaveTrap { setX 10 (BitVec.allOnes 64) x with
    mepc := x.mepc + 4 } with waitSince := none }) (enterTrap k false 8 0 d))
  have hmode := (trapStatus_fields (coreOf k d).mstatus 0 (b2n ((coreOf k d).mstatus.getLsbD 3))).1
  rw [h, hc, coreOf_modCore_same]
  refine ⟨?_, ?_, ?_⟩
  · exact (xreg_setX 10 10 _ _).trans (if_pos (by decide))
  · simp [leaveTrap, enterTrap]
  · refine leaveTrap_user _ ?_
    simpa [enterTrap, hu] using hmode

theorem putField_mod_low (w hi lo v : Nat) : putField w hi lo v % 2 ^ lo = w % 2 ^ lo := by
  have hle : 2 ^ lo * fieldOf w hi lo ≤ w := by
    rw [fieldOf, Nat.shiftRight_eq_div_pow]
    exact Nat.le_trans (Nat.mul_le_mul_left _ (Nat.mod_le _ _)) (Nat.mul_div_le w (2 ^ lo))
  rw [putField, Nat.add_mul_mod_self_right, Nat.mul_comm, Nat.sub_mul_mod hle]

theorem fieldOf_mod_above (w : Nat) {hi lo n : Nat} (h : hi < n) (hl : lo ≤ hi) : fieldOf (w % 2 ^ n) hi lo = fieldOf w hi lo := by
  obtain ⟨j, rfl⟩ : ∃ j, n = lo + j := ⟨n - lo, by omega⟩
  rw [fieldOf, fieldOf, Nat.shiftRight_eq_div_pow, Nat.shiftRight_eq_div_pow, Nat.pow_add, Nat.mod_mul_right_div_self,
    Nat.mod_mod_of_dvd _ (Nat.pow_dvd_pow 2 (by omega))]

/-- A write of a field above leaves a field below. -/
theorem fieldOf_putField_below (w v : Nat) {hi lo hi' lo' : Nat} (h : hi' < lo) (hl : lo' ≤ hi') :
    fieldOf (putField w hi lo v) hi' lo' = fieldOf w hi' lo' := by
  rw [← fieldOf_mod_above _ h hl, putField_mod_low, fieldOf_mod_above _ h hl]

/-- MRET takes the interrupt enable from the stacked one. -/
theorem leaveTrap_enable (c : Core) : fieldOf (leaveTrap c).mstatus.toNat 3 3 = fieldOf c.mstatus.toNat 7 7 := by
  have h1 := putField_lt (hi := 3) (lo := 3) (fieldOf c.mstatus.toNat 7 7) (by omega) (by omega) c.mstatus.isLt
  have h2 := putField_lt (hi := 7) (lo := 7) 1 (by omega) (by omega) h1
  have h3 := putField_lt (hi := 12) (lo := 11) 0 (by omega) (by omega) h2
  have h4 := putField_lt (hi := 17) (lo := 17) 0 (by omega) (by omega) h3
  have hs : fieldOf (putField (putField (putField c.mstatus.toNat 3 3 (fieldOf c.mstatus.toNat 7 7)) 7 7 1) 12 11 0) 3 3
      = fieldOf c.mstatus.toNat 7 7 := by
    rw [fieldOf_putField_below _ _ (by omega) (by omega), fieldOf_putField_below _ _ (by omega) (by omega), fieldOf_putField_same]
    exact Nat.mod_eq_of_lt (Nat.mod_lt _ (by decide))
  simp only [leaveTrap, BitVec.toNat_ofNat]
  split
  · rw [Nat.mod_eq_of_lt h3, hs]
  · rw [Nat.mod_eq_of_lt h4, fieldOf_putField_below _ _ (by omega) (by omega), hs]

theorem doMret_returns (hm : (coreOf k d).machine = true) :
    (coreOf k (doMret k d)).pc = (coreOf k d).mepc.toNat
      ∧ (coreOf k (doMret k d)).machine = (fieldOf (coreOf k d).mstatus.toNat 12 11 == 3)
      ∧ fieldOf (coreOf k (doMret k d)).mstatus.toNat 3 3 = fieldOf (coreOf k d).mstatus.toNat 7 7 := by
  obtain ⟨m, w, t, s, l, hc⟩ := coreOf_retireInstr k 0 0 4 d
  have h : doMret k d = modCore k leaveTrap (retireInstr k 0 0 4 d) := by simp [doMret, hm]
  rw [h, coreOf_modCore_same, leaveTrap_enable, hc]
  simp [leaveTrap]

end Returns

/-! ### The module CSRs (R103, R105) -/

section ModuleCsrs

variable {k : Nat} {d : Dev}

theorem answerBeacon_pending (hp : (coreOf k d).beaconPending = true) (hl : (coreOf k d).loaded = false) :
    answerBeacon k d = wr (rCore k 0xE4) 0 (addWrap (rCore k 0xE0) 1 (modCore k (fun x => { x with beaconPending := false })
      (setPending k 16 false d))) := by
  simp only [answerBeacon, hp, hl, if_true, Bool.false_and, Bool.false_eq_true, if_false]

theorem vxbeacon_answers (hp : (coreOf k d).beaconPending = true) (hl : (coreOf k d).loaded = false) :
    let e := answerBeacon k (retireInstr k 0 0 4 d)
    (coreOf k e).beaconPending = false ∧ rd (rCore k 0xE4) e = 0 ∧ rd (rCore k 0xE0) e = (rd (rCore k 0xE0) d + 1) % 2 ^ 32
      ∧ (coreOf k e).pc = ((coreOf k d).pc + 4) % 2 ^ 64 := by
  intro e
  obtain ⟨m, w, t, s, l, hc⟩ := coreOf_retireInstr k 0 0 4 d
  have he : e = _ := answerBeacon_pending (k := k) (d := retireInstr k 0 0 4 d) (by rw [hc]; simpa using hp) (by rw [hc]; simpa using hl)
  have hcount : rd (rCore k 0xE0) (retireInstr k 0 0 4 d) = rd (rCore k 0xE0) d := rd_retireInstr (by simp [homeOf])
  rw [he]
  refine ⟨?_, rd_wr_same _ _ _, ?_, ?_⟩
  · rw [coreOf_wr, addWrap, coreOf_wr, coreOf_modCore_same]
  · rw [rd_wr_other _ _ (by simp [homeOf]), addWrap, rd_wr_same]
    exact congrArg (fun n => (n + 1) % 2 ^ 32) hcount
  · rw [coreOf_wr, addWrap, coreOf_wr, coreOf_modCore_same, setPending, coreOf_modCore_same, hc]
    simp

theorem csrWrite_seed (v : DWord) (d : Dev) : csrWrite k 0x800 v.toNat d = modCore k (fun c => { c with vxseed := v }) d := by
  simp [csrWrite]

end ModuleCsrs

/-- Settles O20: each instruction by the equation of its row, and what retiring leaves of the core. -/
theorem scalarInstructionsComplete : Obligations.ScalarInstructionsComplete := by
  intro k w v s hon hr d c
  refine ⟨fun hi ht hp hp' hw h3 h3' => ⟨?_, fun h hv => ?_, fun h hv => ?_⟩, fun hi ht hp h3 hx => ?_,
    fun hu h0 hk he => does_runs hon hr (doEcall_ends hu h0 hk he), fun hu h0 => does_runs hon hr (doEcall_other hu h0),
    fun hm => does_runs hon hr (doMret_returns hm), does_runs hon hr (retires_retireInstr k 0 0 d), fun hm hp hl => ?_, ?_⟩
  · exact gives_of_eq hon ((scalarStep_runs hi hr).trans (fetchRun_word ht hp hp' hw h3'))
  · refine does_of hon (f := fun d => if inProgress (pCore k) 0x40 d then tryStart k d else stepCore k (fetchRun k) d) ?_
    rw [scalarStep_runs hi hr, fetchRun_word ht hp hp' hw h3', runWord_opImm h hv]
    exact retires_retireInstr k _ v d
  · refine does_of hon (f := fun d => if inProgress (pCore k) 0x40 d then tryStart k d else stepCore k (fetchRun k) d) ?_
    rw [scalarStep_runs hi hr, fetchRun_word ht hp hp' hw h3', runWord_op h hv]
    exact retires_retireInstr k _ v d
  · exact gives_of_eq hon ((scalarStep_runs hi hr).trans (fetchRun_half ht hp h3 hx))
  · refine does_runs hon hr ?_
    rw [if_pos hm]
    exact vxbeacon_answers hp hl
  · refine does_runs hon hr ?_
    rw [csrWrite_seed]
    exact ⟨(retires_retireInstr k 0 0 d).modCore rfl rfl rfl rfl, by rw [coreOf_modCore_same]⟩

/-! ### Issues (R108 to R110) -/

theorem issue_misaligned {k e r a : Nat} {d : Dev} (h : (xreg (coreOf k d) a).toNat % 64 ≠ 0) :
    issue k e r a d = exception k 24 (xreg (coreOf k d) a).toNat d := by
  simp [issue, h]

/-- The copy that an engine keeps of an issued descriptor: its ticket, bytes, address, context and mode. -/
structure CopyOf (t : Word) (b : List Byte) (at_ : Nat) (c : Core) (x : EngCmd) : Prop where
  ticket : x.ticket = t
  desc : x.desc = b
  addr : x.addr = at_
  ctx : x.ctx = c.vxctx
  user : x.user = !c.machine
  started : x.started = false

/-- The copy that an issue keeps, with the draws and the order of the moment. -/
def issuedCopy (k e a : Nat) (d : Dev) : EngCmd :=
  let c := coreOf k d
  { ticket := (engineOf c e).issued + 1, addr := (xreg c a).toNat, desc := sramRead k (xreg c a).toNat 64 d, ctx := c.vxctx,
    user := !c.machine, issuePc := c.pc, draws := if e = 0 then c.drawsMx else c.drawsVx, seed := c.vxseed,
    order := [0, 1, 2].foldl (fun n x => n + (engineOf c x).issued.toNat) 0, started := false, startGen := 0, ended := none,
    completed := false, quiet := false, msgId := 0, awaited := 0, outcomes := [] }

/-- An accepted descriptor: its copy goes behind the engine's commands, and nothing else of the core changes but its draws. -/
theorem issue_accepts {k e r a : Nat} {d : Dev} (ha : (xreg (coreOf k d) a).toNat % 64 = 0)
    (hs : inSram (!(coreOf k d).machine) (xreg (coreOf k d) a).toNat 64 = true)
    (hc : ctxOpen (coreOf k d).vxctx d = true) (hp : sramPoisoned k (xreg (coreOf k d) a).toNat 64 d = false)
    (hv : descInvalid e (sramRead k (xreg (coreOf k d) a).toNat 64 d) = false)
    (hroom : ((engineOf (coreOf k d) e).cmds.filter (fun x => !x.completed)).length < 16) :
    ∃ mx vx : Core → DWord, issue k e r a d = retireInstr k r (((engineOf (coreOf k d) e).issued + 1).setWidth 64) 4
          (putEngine k e { engineOf (coreOf k d) e with
            issued := (engineOf (coreOf k d) e).issued + 1, cmds := (engineOf (coreOf k d) e).cmds ++ [issuedCopy k e a d] }
            (modCore k (fun x => { x with drawsMx := mx x, drawsVx := vx x }) d)) := by
  refine ⟨fun x => if e = 0 then x.drawsMx + BitVec.ofNat 64 (drawsOf e (sramRead k (xreg (coreOf k d) a).toNat 64 d)) else x.drawsMx,
    fun x => if e = 1 then x.drawsVx + BitVec.ofNat 64 (drawsOf e (sramRead k (xreg (coreOf k d) a).toNat 64 d)) else x.drawsVx, ?_⟩
  simp only [issue, ha, hs, hc, hp, hv, Nat.not_le.2 hroom, ne_eq, not_true, Bool.true_eq_false, Bool.false_eq_true, or_self,
    if_false]
  rfl

theorem issue_retires {k e r a : Nat} {d : Dev} (ha : (xreg (coreOf k d) a).toNat % 64 = 0)
    (hs : inSram (!(coreOf k d).machine) (xreg (coreOf k d) a).toNat 64 = true)
    (hc : ctxOpen (coreOf k d).vxctx d = true) (hp : sramPoisoned k (xreg (coreOf k d) a).toNat 64 d = false)
    (hv : descInvalid e (sramRead k (xreg (coreOf k d) a).toNat 64 d) = false)
    (hroom : ((engineOf (coreOf k d) e).cmds.filter (fun x => !x.completed)).length < 16) :
    let x := issue k e r a d
    let g := engineOf (coreOf k d) e
    Retires k r ((g.issued + 1).setWidth 64) d x ∧ (engineOf (coreOf k x) e).issued = g.issued + 1
      ∧ ∃ cmd, (engineOf (coreOf k x) e).cmds = g.cmds ++ [cmd]
        ∧ CopyOf (g.issued + 1) (sramRead k (xreg (coreOf k d) a).toNat 64 d) (xreg (coreOf k d) a).toNat (coreOf k d) cmd := by
  obtain ⟨mx, vx, hi⟩ := issue_accepts (r := r) ha hs hc hp hv hroom
  intro x g
  have hcmd : CopyOf (g.issued + 1) (sramRead k (xreg (coreOf k d) a).toNat 64 d) (xreg (coreOf k d) a).toNat (coreOf k d)
      (issuedCopy k e a d) := ⟨rfl, rfl, rfl, rfl, rfl, rfl⟩
  generalize issuedCopy k e a d = cmd at hcmd hi
  have hx : x = _ := hi
  obtain ⟨m, w, t, s, l, hcore⟩ := coreOf_retireInstr k r ((g.issued + 1).setWidth 64) 4
    (putEngine k e { g with issued := g.issued + 1, cmds := g.cmds ++ [cmd] }
      (modCore k (fun x => { x with drawsMx := mx x, drawsVx := vx x }) d))
  have hret := retires_retireInstr k r ((g.issued + 1).setWidth 64)
    (putEngine k e { g with issued := g.issued + 1, cmds := g.cmds ++ [cmd] }
      (modCore k (fun x => { x with drawsMx := mx x, drawsVx := vx x }) d))
  have heng : engineOf (coreOf k x) e = { g with issued := g.issued + 1, cmds := g.cmds ++ [cmd] } := by
    rw [hx, hcore]
    simp [engineOf, putEngine]
  refine ⟨?_, by rw [heng], cmd, by rw [heng], hcmd⟩
  rw [hx]
  obtain ⟨h1, h2, h3, h4, h5, hrest⟩ := hret
  have hcore0 : ∃ en, coreOf k (putEngine k e { g with issued := g.issued + 1, cmds := g.cmds ++ [cmd] }
      (modCore k (fun x => { x with drawsMx := mx x, drawsVx := vx x }) d))
      = { coreOf k d with engines := en, drawsMx := mx (coreOf k d), drawsVx := vx (coreOf k d) } := by
    refine ⟨(coreOf k d).engines.set e { g with issued := g.issued + 1, cmds := g.cmds ++ [cmd] }, ?_⟩
    rw [putEngine, coreOf_modCore_same, coreOf_modCore_same]
  obtain ⟨en, hcore0⟩ := hcore0
  rw [hcore0] at h1 h3 h4
  refine ⟨h1, h2, h3, h4, fun j hj => ?_, hrest⟩
  rw [h5 j hj, putEngine, coreOf_modCore_other _ _ hj, coreOf_modCore_other _ _ hj]

/-- Settles O21: the three instructions are one function of the engine. -/
theorem issuesComplete : Obligations.IssuesComplete := by
  intro k r a e i s hon hr hi d c at_ b g
  have hrow : exec i s = onDev (stepCore k (issue k e r a)) s := by
    simp only [List.mem_cons, Prod.mk.injEq, List.not_mem_nil, or_false] at hi
    obtain ⟨rfl, rfl⟩ | ⟨rfl, rfl⟩ | ⟨rfl, rfl⟩ := hi
    all_goals rfl
  rw [hrow]
  refine ⟨fun ha hs hc hp hv hroom => does_runs hon hr ?_, fun hm ha => does_runs hon hr ?_⟩
  · obtain ⟨hret, hissued, cmd, hcmds, h1, h2, h3, h4, h5, h6⟩ := issue_retires (r := r) ha hs hc hp hv hroom
    exact ⟨hret, hissued, cmd, hcmds, h1, h2, h3, h4, h5, h6⟩
  · rw [issue_misaligned ha]
    exact traps_exception 24 _ hm

end Sys2Proof.Machine
end


section
/-!
SUPPORT. Engine commands, kernels and the watches over a core (R99, R105, R109, R114, R129, R132 to R136).
-/

namespace Sys2Proof.Machine

/-! ### The end of an engine command (R109, R114) -/

section Finish

variable {k e : Nat} {c : EngCmd} {d : Dev}

/-- A write to SRAM may end a reservation of its core, and does nothing else to it. -/
theorem coreOf_breakReservation (k a n : Nat) (d : Dev) :
    ∃ r, coreOf k (breakReservation k a n d) = { coreOf k d with reservation := r } := by
  unfold breakReservation
  split
  · split
    · exact ⟨none, coreOf_modCore_same k _ d⟩
    · exact ⟨(coreOf k d).reservation, rfl⟩
  · exact ⟨(coreOf k d).reservation, rfl⟩

theorem sram_breakReservation (k a n : Nat) (d : Dev) : (breakReservation k a n d).sram = d.sram := by
  unfold breakReservation
  split
  · split <;> rfl
  · rfl

/-- The flag and the status word of a command that completes (R109). -/
def flagged (k : Nat) (c : EngCmd) (d : Dev) : Dev :=
  if bitOf (descW c.desc 0) 8 then addFlag k (fieldOf (descW c.desc 0) 21 16) (BitVec.ofNat 32 (descW c.desc 4)) d else d

def statusStored (k : Nat) (c : EngCmd) (r : Result) (detail : Nat) (d : Dev) : Dev :=
  if bitOf (descW c.desc 0) 9 then breakReservation k (c.addr + 0x3C) 4
    (sramStore k (c.addr + 0x3C) (leBytes 4 (2 ^ 31 + 2 ^ 4 * detail + resultCode r)) (flagged k c d)) else flagged k c d

/-- The engine without a command that completed at its front. -/
def engineEnded (c : EngCmd) (r : Result) (detail : Nat) (g : Engine) : Engine :=
  let g1 := { g with cmds := updCmd c.ticket (fun x => { x with completed := true, ended := some (r, detail) }) g.cmds }
  retireFront g1.cmds.length g1

theorem finishCmd_eq (r : Result) (detail : Nat) : finishCmd k e c r detail d =
    let d3 := putEngine k e (engineEnded c r detail (engineOf (coreOf k (statusStored k c r detail d)) e)) (statusStored k c r detail d)
    if r ≠ .done ∧ bitOf (descW c.desc 0) 10 = false ∧ c.quiet = false then
      beginEnd k 3 0 (setPending k 17 true (latchFault k (e + 1) (resultCode r) detail c.ctx c.user c.issuePc c.addr d3))
    else d3 := rfl

theorem coreOf_flagged : ∃ t, coreOf k (flagged k c d) = { coreOf k d with flags := t }
    ∧ flagOf (coreOf k (flagged k c d)) (fieldOf (descW c.desc 0) 21 16) = flagOf (coreOf k d) (fieldOf (descW c.desc 0) 21 16)
        + (if bitOf (descW c.desc 0) 8 then BitVec.ofNat 32 (descW c.desc 4) else 0) := by
  unfold flagged
  split
  · refine ⟨_, coreOf_modCore_same k _ d, ?_⟩
    rw [addFlag, coreOf_modCore_same]
    simp [flagOf]
  · exact ⟨(coreOf k d).flags, rfl, (BitVec.add_zero _).symm⟩

theorem coreOf_statusStored (r : Result) (detail : Nat) :
    ∃ t v, coreOf k (statusStored k c r detail d) = { coreOf k d with flags := t, reservation := v }
    ∧ flagOf (coreOf k (statusStored k c r detail d)) (fieldOf (descW c.desc 0) 21 16)
      = flagOf (coreOf k d) (fieldOf (descW c.desc 0) 21 16)
        + (if bitOf (descW c.desc 0) 8 then BitVec.ofNat 32 (descW c.desc 4) else 0) := by
  obtain ⟨t, ht, hf⟩ := coreOf_flagged (k := k) (c := c) (d := d)
  unfold statusStored
  split
  · obtain ⟨v, hv⟩ := coreOf_breakReservation k (c.addr + 0x3C) 4
      (sramStore k (c.addr + 0x3C) (leBytes 4 (2 ^ 31 + 2 ^ 4 * detail + resultCode r)) (flagged k c d))
    have hs : coreOf k (sramStore k (c.addr + 0x3C) (leBytes 4 (2 ^ 31 + 2 ^ 4 * detail + resultCode r)) (flagged k c d))
        = coreOf k (flagged k c d) := rfl
    rw [hs] at hv
    refine ⟨t, v, by rw [hv, ht], ?_⟩
    rw [hv]
    exact hf
  · exact ⟨t, (coreOf k d).reservation, by rw [ht], hf⟩

theorem sram_statusStored (r : Result) (detail : Nat) (h : bitOf (descW c.desc 0) 9 = false) :
    (statusStored k c r detail d).sram = d.sram := by
  simp only [statusStored, h, Bool.false_eq_true, if_false, flagged]
  split <;> rfl

theorem engineEnded_single (r : Result) (detail : Nat) {g : Engine} (h : g.cmds = [c]) :
    engineEnded c r detail g = { g with completed := c.ticket, cmds := [] } := by
  simp [engineEnded, h, updCmd, retireFront]

theorem sram_latchFault (k src cause detail ctx : Nat) (user : Bool) (pc addr : Nat) (d : Dev) :
    (latchFault k src cause detail ctx user pc addr d).sram = d.sram := (latchFault_frame ..).2.1

/-- What the completion of an engine's one command leaves of its core. -/
theorem finishCmd_single (r : Result) (detail : Nat) (h : (engineOf (coreOf k d) e).cmds = [c]) :
    let x := finishCmd k e c r detail d
    let w := descW c.desc 0
    (engineOf (coreOf k x) e).completed = c.ticket ∧ (engineOf (coreOf k x) e).cmds = []
      ∧ flagOf (coreOf k x) (fieldOf w 21 16) = flagOf (coreOf k d) (fieldOf w 21 16)
          + (if bitOf w 8 then BitVec.ofNat 32 (descW c.desc 4) else 0)
      ∧ (bitOf w 9 = false → x.sram = d.sram)
      ∧ (r ≠ .done → bitOf w 10 = false → c.quiet = false → (coreOf k d).kernel.isSome = true →
          (coreOf k d).ending = none → (coreOf k x).ending = some (3, 0)) := by
  obtain ⟨t, v, hs, hf⟩ := coreOf_statusStored (k := k) (c := c) (d := d) r detail
  have hsram := sram_statusStored (k := k) (c := c) (d := d) r detail
  rw [finishCmd_eq]
  generalize statusStored k c r detail d = y at hs hf hsram
  have hcmds : (engineOf (coreOf k y) e).cmds = [c] := by rw [hs]; exact h
  have hx : coreOf k (putEngine k e (engineEnded c r detail (engineOf (coreOf k y) e)) y)
      = { coreOf k y with engines := (coreOf k y).engines.set e { engineOf (coreOf k y) e with completed := c.ticket, cmds := [] } } := by
    rw [putEngine, coreOf_modCore_same, engineEnded_single r detail hcmds]
  have hxs : (putEngine k e (engineEnded c r detail (engineOf (coreOf k y) e)) y).sram = y.sram := rfl
  generalize putEngine k e (engineEnded c r detail (engineOf (coreOf k y) e)) y = x at hx hxs
  simp only
  split
  · next hcond =>
    obtain ⟨i, a, hl⟩ := coreOf_latchFault k (e + 1) (resultCode r) detail c.ctx c.user c.issuePc c.addr x
    refine ⟨?_, ?_, ?_, fun hw => ?_, fun _ _ _ hk he => ?_⟩
    · simp [beginEnd, setPending, hl, hx, engineOf]
    · simp [beginEnd, setPending, hl, hx, engineOf]
    · rw [← hf]
      simp [beginEnd, setPending, hl, hx, flagOf]
    · exact (sram_latchFault ..).trans (hxs.trans (hsram hw))
    · simp [beginEnd, setPending, hl, hx, hs, hk, he]
  · next hcond =>
    refine ⟨?_, ?_, ?_, fun hw => hxs.trans (hsram hw), fun hr hw hq => absurd ⟨hr, hw, hq⟩ hcond⟩
    · simp [hx, engineOf]
    · simp [hx, engineOf]
    · rw [← hf, hx]
      rfl

end Finish

/-- Settles O23: the one command of the engine is found and completes. -/
theorem engineCommandsEnd : Obligations.EngineCommandsEnd := by
  intro k e t c r detail s hon he hcmds ht hended hcomp hret hoff d w
  have hfind : findCmd (coreOf k d) e (BitVec.ofNat 32 t) = some c := by
    rw [findCmd, hcmds]
    simp [ht]
  have heq : completeCmd k e (BitVec.ofNat 32 t) d = finishCmd k e c r detail d := by
    have hret : stateOf (pCore k) d ≠ .retired := hret
    have hoff : stateOf (pCore k) d ≠ .off := hoff
    simp [completeCmd, hfind, hended, hcomp, hret, hoff]
  refine does_of hon (f := completeCmd k e (BitVec.ofNat 32 t)) ?_
  rw [show completeCmd k e (BitVec.ofNat 32 t) s.dev = _ from heq]
  exact finishCmd_single r detail hcmds

/-! ### Interrupts, and the watches over a core (R99, R104 to R106, R129) -/

theorem interruptsComeFirst : Claims.InterruptsComeFirst := by
  intro k b s hon hup hb hv
  have hi : stepCore k (retireInstr k 0 0 4) s.dev = enterTrap k true b 0 s.dev := by
    simp [stepCore, interrupted, hup, hb, takeInterrupt]
  refine does_of hon (f := stepCore k (retireInstr k 0 0 4)) ?_
  rw [hi, enterTrap, coreOf_modCore_same]
  exact ⟨if_pos ⟨rfl, hv⟩, rfl, rfl, rfl, rfl⟩

section Watches

variable {k t a : Nat} {c : EngCmd} {d : Dev}

theorem usable_of_takes (hk : k < 2560) (h : coreTakes k d = true) : usable (uCore k) d = true := by
  have hu : unitState (uCore k) d = stateOf (pCore k) d := by
    rw [unitState, unitPage, unitClass_uCore hk, unitIndex_uCore hk]
    rfl
  have hs : stateOf (pCore k) d = .ready ∨ stateOf (pCore k) d = .active ∨ stateOf (pCore k) d = .quiesced := by
    simpa [coreTakes, inState] using h
  rw [usable, hu]
  obtain hs | hs | hs := hs
  all_goals rw [hs]; rfl

theorem stallMessage_latches (hk : coreTakes k d = true) (hf : findCmd (coreOf k d) 2 (BitVec.ofNat 32 t) = some c)
    (hs : c.started = true) (hc : c.completed = false) (hb : bitOf (rd (rCore k 0xA0) d) 31 = false)
    (hl : stallLimit k d < d.now - c.startedAt) :
    ∃ v, stallMessage k t d = raise (pCore k) 18 (wr (rCore k 0xA4) v
      (wr (rCore k 0xA0) (2 ^ 31 + 2 ^ 28 * c.ctx + c.addr % 2 ^ 21) d)) := by
  refine ⟨putField (descW c.desc 0x20) 31 28 (msgDesc c.desc).target, ?_⟩
  simp [stallMessage, hf, hs, hc, hk, hb, Nat.not_le.2 hl]

theorem rd_raise {p : PageId} {b : Nat} {r : RegId} (hr : ringIndex r = false) (hh : ringIndex (homeOf r) = false) (d : Dev) :
    rd r (raise p b d) = rd r d := (reported_raise p b d).rd hr hh

/-- The word that holds an address. -/
abbrev wordStart (a : Nat) : Nat := a / 16 * 16

theorem scrub_goesOn (hk : k < 2560) (h : coreTakes k d = true) (ha : a < sramSize) :
    ¬ (sramSize ≤ a ∨ usable (uCore k) d = false ∨ 2560 ≤ k) := by
  rw [usable_of_takes hk h]
  simp only [Bool.true_eq_false, false_or, not_or, Nat.not_le]
  exact ⟨ha, hk⟩

/-- A word without errors is left. -/
theorem scrubSram_clean (hk : k < 2560) (h : coreTakes k d = true) : scrubSram k a 0 d = d := by
  by_cases ha : a < sramSize
  · cases hp : sramPoisoned k (wordStart a) 16 d <;>
      simp only [scrubSram, if_neg (scrub_goesOn hk h ha), judgeWord, hp] <;> simp
  · rw [scrubSram, if_pos (.inl (Nat.not_lt.1 ha))]

theorem scrubSram_corrected {error : WordNoise} (hk : k < 2560) (h : coreTakes k d = true) (ha : a < sramSize)
    (hj : judgeWord (sramPoisoned k (wordStart a) 16 d) error = .good true 0) :
    scrubSram k a error d = bump (rCore k 0xC0) d := by
  simp only [scrubSram, if_neg (scrub_goesOn hk h ha), hj]
  simp

theorem scrubSram_uncorrectable {error : WordNoise} (hk : k < 2560) (h : coreTakes k d = true) (ha : a < kernelWindow)
    (hj : judgeWord (sramPoisoned k (wordStart a) 16 d) error = .uncorrectable) :
    scrubSram k a error d = raise (pCore k) 19 (bump (rCore k 0xC4) (sramPoisonRange k (wordStart a) 16 d)) := by
  have hs : a < sramSize := Nat.lt_trans ha (by decide)
  simp only [scrubSram, if_neg (scrub_goesOn hk h hs), hj]
  exact if_neg (Nat.not_le.2 ha)

theorem weightBelow_two_pow {b n : Nat} (hb : b < n) : weightBelow n (2 ^ b) = 1 := by
  have hbit : ∀ i, bitOf (2 ^ b) i = (i == b) := by
    intro i
    have h := Nat.testBit_eq_decide_div_mod_eq (x := 2 ^ b) (i := i)
    rw [Nat.testBit_two_pow, ← Nat.shiftRight_eq_div_pow] at h
    rw [bitOf, Bool.eq_iff_iff, beq_iff_eq, beq_iff_eq]
    exact (decide_eq_decide.1 h).symm.trans eq_comm
  have hcount : (List.range n).count b = 1 := by rw [List.count_range, if_pos hb]
  rw [List.count_eq_length_filter] at hcount
  rw [weightBelow, countBelow, List.filter_congr fun i _ => hbit i, hcount]

theorem judgeWord_single {b : Nat} (hb : b < 144) : judgeWord false (BitVec.ofNat 144 (2 ^ b)) = .good true 0 := by
  have hn : (BitVec.ofNat 144 (2 ^ b)).toNat = 2 ^ b := by
    rw [BitVec.toNat_ofNat, Nat.mod_eq_of_lt (Nat.pow_lt_pow_right (by decide) hb)]
  have h0 : BitVec.ofNat 144 (2 ^ b) ≠ 0 := by
    intro h0
    rw [h0] at hn
    exact absurd hn (Nat.ne_of_lt (Nat.two_pow_pos b))
  rw [judgeWord, if_neg h0, hn]
  exact if_pos (weightBelow_two_pow hb)

theorem sramPoison_breakReservation (k a n : Nat) (d : Dev) : (breakReservation k a n d).sramPoison = d.sramPoison := by
  unfold breakReservation
  split
  · split <;> rfl
  · rfl

theorem regs_sramPoisonRange (k a n : Nat) (d : Dev) : (sramPoisonRange k a n d).regs = d.regs := by
  have hb : ∀ (k a n : Nat) (d : Dev), (breakReservation k a n d).regs = d.regs := by
    intro k a n d
    unfold breakReservation
    split
    · split <;> rfl
    · rfl
  simp only [sramPoisonRange, sramWrite]
  split
  · rfl
  · split
    · rfl
    · exact hb _ _ _ _

theorem mip_setPending {b : Nat} (hb : b < 64) (k : Nat) (d : Dev) : (coreOf k (setPending k b true d)).mip.getLsbD b = true := by
  rw [setPending, coreOf_modCore_same]
  simp only [BitVec.getLsbD_ofNat, orBit, Nat.testBit_or, Nat.testBit_two_pow_self, hb, Bool.or_true, if_true, decide_true,
    Bool.and_self]

theorem sramPoison_word (k a : Nat) (d : Dev) :
    sramWord k (wordStart a) ∈ (sramPoisonRange k (wordStart a) 16 d).sramPoison := by
  have hw : wordStart (wordStart a) = wordStart a := by simp only [wordStart]; omega
  have hr : (wordStart a % 16 + 16 + 15) / 16 = 1 := by simp only [wordStart]; omega
  have hl : (zeros (16 * 1)).length = 16 := rfl
  simp only [sramPoisonRange, hr, List.length_range, sramWrite, hl, Nat.reduceEqDiff, if_false,
    sramPoison_breakReservation, hw]
  simp

theorem sramPoisoned_of_mem (h : sramWord k (wordStart a) ∈ d.sramPoison) : sramPoisoned k a 1 d = true := by
  have hw : sramWord k (wordStart a) = sramWord k a := by simp only [sramWord, wordStart]; omega
  rw [hw] at h
  simp only [sramPoisoned, List.any_eq_true, Bool.and_eq_true, decide_eq_true_eq]
  exact ⟨rfl, sramWord k a, h, Nat.le_refl _, Nat.le_refl _⟩

theorem requestBeacon_due (hk : k < 2560) (h : coreTakes k d = true) (hr : resetActs .core d = false)
    (hb : (coreOf k d).beaconAt.all (fun t => decide (1000000 ≤ d.now - t)) = true) :
    requestBeacon k d = if (coreOf k d).beaconPending then
      (let n := rd (rCore k 0xE4) d + 1
       let d1 := wr (rCore k 0xE4) n (modCore k (fun x => { x with beaconAt := some d.now }) d)
       if 4 ≤ n then declareHang k d1 else d1)
      else modCore k (fun x => { x with beaconPending := true }) (setPending k 16 true
        (modCore k (fun x => { x with beaconAt := some d.now }) d)) := by
  have hdue : (coreOf k d).beaconAt.any (fun t => decide (d.now - t < 1000000)) = false := by
    cases hat : (coreOf k d).beaconAt with
    | none => rfl
    | some t =>
      rw [hat] at hb
      simp only [Option.all_some, decide_eq_true_eq] at hb
      simp only [Option.any_some, decide_eq_false_iff_not]
      omega
  have hk : ¬ 2560 ≤ k := by omega
  simp only [requestBeacon, hdue, h, hr, coreOf_modCore_same, hk]
  simp
  rfl

end Watches

theorem coreWatchesComplete : Claims.CoreWatchesComplete := by
  intro k t a c s hon hk htakes d
  refine ⟨fun hf hs hc hb hctx hl => ?_, gives_of_eq hon (scrubSram_clean hk htakes), fun b hb ha hp => ?_,
    fun bits ha hp hj => ?_, fun hr hp hat => ?_, fun hr hp hn hat => ?_⟩
  · obtain ⟨v, he⟩ := stallMessage_latches htakes hf hs hc hb hl
    refine does_of hon (f := stallMessage k t) ?_
    rw [he]
    refine ⟨?_, events_raise (by decide) _ _⟩
    rw [rd_raise rfl rfl, rd_wr_other _ _ (by simp [homeOf]), rd_wr_same]
    omega
  · refine gives_of_eq hon (scrubSram_corrected hk htakes ha ?_)
    rw [show sramPoisoned k (wordStart a) 16 s.dev = false from hp, judgeWord_single hb]
  · refine does_of hon (f := scrubSram k a bits) ?_
    rw [scrubSram_uncorrectable hk htakes ha (by rw [show sramPoisoned k (wordStart a) 16 s.dev = false from hp, hj])]
    refine ⟨sramPoisoned_of_mem ?_, ?_, events_raise (by decide) _ _⟩
    · rw [(reported_raise _ _ _).sameQuiet.field Dev.sramPoison fun _ => rfl]
      exact sramPoison_word k a s.dev
    · have hrd : rd (rCore k 0xC4) (sramPoisonRange k (wordStart a) 16 s.dev) = rd (rCore k 0xC4) s.dev := by
        rw [rd, regs_sramPoisonRange, rd]
      rw [rd_raise rfl rfl, bump, addSat, rd_wr_same, hrd]
      exact Nat.mod_eq_of_lt (Nat.lt_of_le_of_lt (Nat.min_le_left _ _) (by decide))
  · refine does_of hon (f := requestBeacon k) ?_
    rw [requestBeacon_due hk htakes hr hat, if_neg (by rw [show (coreOf k s.dev).beaconPending = false from hp]; simp)]
    refine ⟨?_, ?_, ?_, rfl⟩
    all_goals rw [coreOf_modCore_same]
    · exact mip_setPending (by decide) k _
    · rw [setPending, coreOf_modCore_same, coreOf_modCore_same]
  · refine gives_of_eq hon ((requestBeacon_due hk htakes hr hat).trans ?_)
    rw [if_pos hp]
    exact if_neg (by have : rd (rCore k 0xE4) s.dev < 3 := hn; omega)

/-- Settles O24. -/
theorem coreEventsComplete : Obligations.CoreEventsComplete := ⟨interruptsComeFirst, coreWatchesComplete⟩

end Sys2Proof.Machine
end


section
/-!
SUPPORT. Kernels (R132, R133, R136): what a read of memory leaves to a core, and the steps of START, STOP and KERNEL_END.
-/

namespace Sys2Proof.Machine

/-! ### What a read of memory changes (R194 to R196) -/

/-- How far the start has come: the address map, the states of units without pages, the waves and the mesh test. -/
def startOf (d : Dev) : Option MemMap × Tbl Nat UnitRec × Cause × Tbl Nat Nat × Bool :=
  (d.memMap, d.units, d.startCause, d.boot.waves, d.boot.meshTested)

/-- What holds the module's control: resets, boot, fuses, flash, power, coolant, the complexes, management and the pins. -/
def controlOf (d : Dev) : AlwaysOn × ResetCtl × Boot × Fuses × Flash × PowerSt × Coolant × Tbl Nat Complex × Lead × Mgmt × Pins :=
  (d.always, d.reset, d.boot, d.fused, d.flash, d.power, d.coolant, d.complexes, d.lead, d.mgmt, d.pins)

/-- Memory, its registers and its pages change, and for a core nothing does but reports. -/
structure InMemory (d e : Dev) : Prop where
  cores : e.cores = d.cores
  engines : e.engines = d.engines
  packets : e.packets = d.packets
  map : e.memMap = d.memMap
  net : e.net = d.net
  start : startOf e = startOf d
  control : controlOf e = controlOf d
  regs : ∀ r : RegId, r.ty = .core → rd r e = rd r d
  pages : ∀ p : PageId, p.ty ≠ .memoryController → (pageOf p e).quiet = (pageOf p d).quiet

theorem InMemory.refl (d : Dev) : InMemory d d := ⟨rfl, rfl, rfl, rfl, rfl, rfl, rfl, fun _ _ => rfl, fun _ _ => rfl⟩

theorem InMemory.trans {a b c : Dev} (h : InMemory a b) (k : InMemory b c) : InMemory a c :=
  ⟨k.cores.trans h.cores, k.engines.trans h.engines, k.packets.trans h.packets, k.map.trans h.map, k.net.trans h.net, k.start.trans h.start, k.control.trans h.control, fun r hr => (k.regs r hr).trans (h.regs r hr), fun p hp => (k.pages p hp).trans (h.pages p hp)⟩

theorem InMemory.foldl {α : Type} {f : Dev → α → Dev} (h : ∀ d x, InMemory d (f d x)) (l : List α) (d : Dev) :
    InMemory d (l.foldl f d) := by
  induction l generalizing d with
  | nil => exact .refl d
  | cons x l ih => exact (h d x).trans (ih _)

theorem homeOf_ty (r : RegId) : (homeOf r).ty = r.ty := by
  unfold homeOf
  split <;> (try split) <;> rfl

theorem inMemory_wr {q : RegId} (hq : q.ty ≠ .core) (n : Nat) (d : Dev) : InMemory d (wr q n d) :=
  ⟨rfl, rfl, rfl, rfl, rfl, rfl, rfl, fun r hr => rd_wr_other n d fun h => hq (by rw [← homeOf_ty, ← h, homeOf_ty, hr]), fun _ _ => rfl⟩

theorem Reported.inMemory {d e : Dev} (h : Reported d e) : InMemory d e where
  cores := h.sameQuiet.field Dev.cores fun _ => rfl
  engines := h.sameQuiet.field Dev.engines fun _ => rfl
  packets := h.sameQuiet.field Dev.packets fun _ => rfl
  map := h.sameQuiet.field Dev.memMap fun _ => rfl
  net := h.sameQuiet.field Dev.net fun _ => rfl
  start := h.sameQuiet.field startOf fun _ => rfl
  control := h.sameQuiet.field controlOf fun _ => rfl
  regs r hr := h.rd (by simp [ringIndex, hr]) (by simp [ringIndex, homeOf_ty, hr])
  pages p _ := h.2.1 p

theorem inMemory_bump {q : RegId} (hq : q.ty ≠ .core) (d : Dev) : InMemory d (bump q d) := inMemory_wr hq _ d

theorem inMemory_logPoison (c addr cause ch : Nat) (ctx : Option Nat) (d : Dev) : InMemory d (logPoison c addr cause ch ctx d) := by
  refine InMemory.trans ?_ (reported_raise _ _ _).inMemory
  have hw : ∀ (off n : Nat) (x : Dev), InMemory x (wr (rMem c 1 off) n x) := fun off n x => inMemory_wr (by simp) n x
  exact (((((hw _ _ _).trans (hw _ _ _)).trans (hw _ _ _)).trans (hw _ _ _)).trans (hw _ _ _))

theorem inMemory_countCorrection (ch : Nat) (d : Dev) : InMemory d (countCorrection ch d) := by
  have hput : ∀ (m : MemCtl) (x : Dev), InMemory x (putMemCtl (ch / 16) m x) := fun _ _ => ⟨rfl, rfl, rfl, rfl, rfl, rfl, rfl, fun _ _ => rfl, fun _ _ => rfl⟩
  have hb : ∀ x, InMemory x (bump (rMem (ch / 16) 1 (0x80 + 4 * (ch % 16))) x) := inMemory_bump (by simp)
  simp only [countCorrection]
  split
  · exact ((hput _ _).trans (hb _)).trans ((hput _ _).trans (reported_raise _ _ _).inMemory)
  · exact (hput _ _).trans (hb _)

theorem inMemory_settleLine (l : Nat) (d : Dev) : InMemory d (settleLine l d) := by
  unfold settleLine
  split
  · unfold settleMarks
    split
    · exact ⟨rfl, rfl, rfl, rfl, rfl, rfl, rfl, fun _ _ => rfl, fun _ _ => rfl⟩
    · exact .refl d
  · exact .refl d

/-- The mark of a line that can no longer be read. -/
def lineMarkSet (l : Nat) (d : Dev) : Dev :=
  { d with memPoison := addOnce l d.memPoison, memFlaws := d.memFlaws.filter (fun f => f.addr / 64 != l) }

theorem inMemory_poisonLine (l ch cause : Nat) (ctx : Option Nat) (d : Dev) : InMemory d (poisonLine l ch cause ctx d) := by
  have hp : poisonLine l ch cause ctx d = logPoison (ch / 16) (64 * l) cause ch ctx
      (bump (rMem (ch / 16) 1 (0xC0 + 4 * (ch % 16))) (lineMarkSet l (settleLine l d))) := rfl
  have hmem : ∀ x, InMemory x (lineMarkSet l x) := fun _ => ⟨rfl, rfl, rfl, rfl, rfl, rfl, rfl, fun _ _ => rfl, fun _ _ => rfl⟩
  rw [hp]
  have hb := inMemory_bump (q := rMem (ch / 16) 1 (0xC0 + 4 * (ch % 16))) (by simp) (lineMarkSet l (settleLine l d))
  have hs := inMemory_settleLine l d
  generalize settleLine l d = y at hb hs
  exact (hs.trans (hmem y)).trans (hb.trans (inMemory_logPoison _ _ _ _ _ _))

theorem inMemory_mem (m : Mem) (d : Dev) : InMemory d { d with mem := m } := ⟨rfl, rfl, rfl, rfl, rfl, rfl, rfl, fun _ _ => rfl, fun _ _ => rfl⟩

theorem inMemory_flipWord (a : Nat) (bits : WordNoise) (d : Dev) : InMemory d (flipWord a bits d) := by
  unfold flipWord
  split
  · exact .refl d
  · exact inMemory_mem _ d

/-- The word's errors are gone. -/
def flawGone (f : WordFlaw) (d : Dev) : Dev :=
  { d with memBad := d.memBad.filter (· != f.addr / 16), memFlaws := d.memFlaws.filter (fun x => x.addr != f.addr) }

theorem inMemory_meetFlaw (f : WordFlaw) (cause : Nat) (ctx : Option Nat) (d : Dev) : InMemory d (meetFlaw f cause ctx d) := by
  have hgone : ∀ flips, InMemory d (flipWord f.addr flips (flawGone f d)) := fun flips =>
    InMemory.trans (b := flawGone f d) ⟨rfl, rfl, rfl, rfl, rfl, rfl, rfl, fun _ _ => rfl, fun _ _ => rfl⟩ (inMemory_flipWord _ _ _)
  unfold meetFlaw
  cases channelAt f.addr d with
  | none => exact .refl d
  | some ch =>
    simp only
    split
    · exact .refl d
    · cases judgeWord (d.memBad.contains (f.addr / 16)) f.bits with
      | good corrected flips =>
        cases corrected with
        | true => exact (hgone flips).trans (inMemory_countCorrection _ _)
        | false => exact hgone flips
      | poisoned => exact inMemory_poisonLine _ _ _ _ d
      | uncorrectable => exact inMemory_poisonLine _ _ _ _ d

theorem inMemory_meetBurst (g : Nat × Nat) (cause : Nat) (ctx : Option Nat) (d : Dev) : InMemory d (meetBurst g cause ctx d) := by
  have hmem : InMemory d { d with burstFlaws := d.burstFlaws.filter (· != g) } := ⟨rfl, rfl, rfl, rfl, rfl, rfl, rfl, fun _ _ => rfl, fun _ _ => rfl⟩
  refine hmem.trans (.foldl (fun x l => ?_) _ _)
  split
  · exact .refl x
  · exact inMemory_poisonLine _ _ _ _ x

theorem inMemory_meetMark (l : Nat) (ctx : Option Nat) (d : Dev) : InMemory d (meetMark l ctx d) := by
  unfold meetMark
  split
  · exact .refl d
  · have hmem : InMemory d { d with memMarks := d.memMarks.filter (· != l) } := ⟨rfl, rfl, rfl, rfl, rfl, rfl, rfl, fun _ _ => rfl, fun _ _ => rfl⟩
    exact hmem.trans (inMemory_poisonLine _ _ _ _ _)

theorem inMemory_meetBad (w : Nat) (ctx : Option Nat) (d : Dev) : InMemory d (meetBad w ctx d) := by
  unfold meetBad
  split
  · exact .refl d
  · split
    · exact .refl d
    · exact inMemory_poisonLine _ _ _ _ d

theorem inMemory_memTouch (a n : Nat) (ctx : Option Nat) (d : Dev) : InMemory d (memTouch a n ctx d) :=
  (((InMemory.foldl (fun x g => inMemory_meetBurst g 0 ctx x) _ d).trans
    (.foldl (fun x f => inMemory_meetFlaw f 0 ctx x) _ _)).trans (.foldl (fun x w => inMemory_meetBad w ctx x) _ _)).trans
    (.foldl (fun x l => inMemory_meetMark l ctx x) _ _)

/-! ### START (R133) -/

/-- What the reads of a core wait for depends on memory and its controllers alone. -/
theorem rangeHeld_congr {a n : Nat} {w : Bool} {d e : Dev} (hm : e.memMap = d.memMap) (hu : e.units = d.units)
    (hs : e.startCause = d.startCause) (hc : e.memCtls = d.memCtls) (hp : ∀ c, stateOf (pMem c) e = stateOf (pMem c) d) :
    rangeHeld a n w e = rangeHeld a n w d := by
  simp only [rangeHeld, linesHeld, heldAt, channelAt, unitRec, memCtl, hm, hu, hs, hc, hp]

section Start

variable {k arg : Nat} {d : Dev}

/-- The device as a core's runtime begins START. -/
abbrev startTold (k arg : Nat) (d : Dev) : Dev := runtimeTold (pCore k) (accept (pCore k) 0x40 arg d)

theorem pageOf_startTold : pageOf (pCore k) (startTold k arg d) = (pageOf (pCore k) d).started 0x40 arg :=
  pageOf_accept (pCore k) 0x40 arg d

theorem rangeHeld_startTold (a n : Nat) (w : Bool) : rangeHeld a n w (startTold k arg d) = rangeHeld a n w d := by
  refine rangeHeld_congr rfl rfl rfl rfl fun c => ?_
  exact congrArg Page.state (pageOf_putPage_other _ d (by simp [pMem, pCore]))

theorem tryStart_enters (h0 : kernelLen k d ≠ 0)
    (hh : rangeHeld (rd64 (rCore k 0x50) d / 16 * 16) (kernelLen k d) false d = false)
    (hp : memPoisonWords (rd64 (rCore k 0x50) d / 16 * 16) (kernelLen k d)
      (memTouch (rd64 (rCore k 0x50) d / 16 * 16) (kernelLen k d) (some (arg % 8)) (startTold k arg d)) = []) :
    tryStart k (startTold k arg d) = enterKernel k (arg % 8) (sramWrite k (rd (rCore k 0x5C) d / 16 * 16)
      (memBytes (rd64 (rCore k 0x50) d / 16 * 16) (kernelLen k d)
        (memTouch (rd64 (rCore k 0x50) d / 16 * 16) (kernelLen k d) (some (arg % 8)) (startTold k arg d))) []
      (memTouch (rd64 (rCore k 0x50) d / 16 * 16) (kernelLen k d) (some (arg % 8)) (startTold k arg d))) := by
  have hcmd : (pageOf (pCore k) (startTold k arg d)).cmd = some ⟨0x40, arg⟩ := by rw [pageOf_startTold]; rfl
  have hlen : kernelLen k (startTold k arg d) = kernelLen k d := rfl
  have haddr : rd64 (rCore k 0x50) (startTold k arg d) = rd64 (rCore k 0x50) d := rfl
  have hat : ∀ x, rd (rCore k 0x5C) (memTouch (rd64 (rCore k 0x50) d / 16 * 16) (kernelLen k d) x (startTold k arg d))
      = rd (rCore k 0x5C) d := fun x => (inMemory_memTouch _ _ _ _).regs _ rfl
  simp only [tryStart, hcmd, hlen, haddr, h0, if_false, rangeHeld_startTold, hh, Bool.false_eq_true, hp, if_true]
  rfl

theorem sramWrite_frame (k a : Nat) (bs : List Byte) (pw : List Nat) (d : Dev) :
    (sramWrite k a bs pw d).regs = d.regs ∧ ∀ p, pageOf p (sramWrite k a bs pw d) = pageOf p d := by
  simp only [sramWrite]
  split
  · exact ⟨rfl, fun _ => rfl⟩
  · refine ⟨?_, fun p => by rw [pageOf_breakReservation]; rfl⟩
    unfold breakReservation
    split
    · split <;> rfl
    · rfl

theorem pageOf_modCore (p : PageId) (k : Nat) (f : Core → Core) (d : Dev) : pageOf p (modCore k f d) = pageOf p d := rfl

theorem pageOf_passRuntime (p : PageId) (k : Nat) (d : Dev) : pageOf p (passRuntime k d) = pageOf p d := rfl

/-- The entry of a kernel: the page is ACTIVE, the command has ended, and the core stands at ENTRY with its argument. -/
theorem enterKernel_leaves (ctx : Nat) (h : (pageOf (pCore k) d).cmd.isSome = true) :
    let e := enterKernel k ctx d
    stateOf (pCore k) e = .active ∧ (pageOf (pCore k) e).cause = .work ∧ (pageOf (pCore k) e).seq = (pageOf (pCore k) d).seq
      ∧ (pageOf (pCore k) e).lastCmd = (pageOf (pCore k) d).lastCmd ∧ (pageOf (pCore k) e).result = .done
      ∧ (coreOf k e).kernel = some ctx ∧ (coreOf k e).vxctx = ctx ∧ (coreOf k e).machine = false
      ∧ (coreOf k e).pc = rd (rCore k 0x60) d / 2 * 2 ∧ xreg (coreOf k e) 10 = BitVec.ofNat 64 (rd64 (rCore k 0x68) d) := by
  intro e
  have he : e = endCmd (pCore k) true (setState (pCore k) .active .work (modCore k (fun c => { c with
      vxctx := ctx, kernel := some ctx, ending := none, machine := false, pc := rd (rCore k 0x60) d / 2 * 2
      mepc := BitVec.ofNat 64 (rd (rCore k 0x60) d / 2 * 2), mstatus := (c.mstatus &&& ~~~0x21800) ||| 0x80, mie := 0xF0000
      xs := [(10, BitVec.ofNat 64 (rd64 (rCore k 0x68) d))], waiting := none, waitSince := none, reservation := none })
      (passRuntime k d))) := rfl
  have hpage : ∀ f, pageOf (pCore k) (modCore k f (passRuntime k d)) = pageOf (pCore k) d := fun f =>
    (pageOf_modCore _ k f _).trans (pageOf_passRuntime _ k d)
  generalize hy : modCore k _ (passRuntime k d) = y at he
  have hy' : pageOf (pCore k) y = pageOf (pCore k) d := by rw [← hy, hpage]
  obtain ⟨w, hw⟩ := pageOf_setState (pCore k) .active .work y
  have hsome : (pageOf (pCore k) (setState (pCore k) .active .work y)).cmd.isSome = true := by rw [hw, hy']; exact h
  obtain ⟨w', hw'⟩ := (reported_endCmd_done hsome).pageFields (pCore k)
  have hcore : coreOf k e = coreOf k y := by
    rw [he]
    exact ((sameQuiet_setState _ _ _ y).trans (sameQuiet_endCmd _ _ _)).field (coreOf k) fun _ => rfl
  have hp : pageOf (pCore k) e = { pageOf (pCore k) d with
      state := .active, cause := .work, gen := fpGen y % 65536, result := .done, cmd := none, events := w' } := by
    rw [he, hw', pageOf_putPage_same, hw, hy']
    rfl
  rw [stateOf, hp, hcore, ← hy, coreOf_modCore_same]
  exact ⟨rfl, rfl, rfl, rfl, rfl, rfl, rfl, rfl, rfl, rfl⟩

theorem cmdStart_runs (hm : mayCommand (pCore k) d = true) (hs : stateOf (pCore k) d = .ready) (hc : ctxOpen (arg % 8) d = true)
    (h1 : inMemory (rd64 (rCore k 0x50) d) (kernelLen k d) d = true)
    (h2 : rd (rCore k 0x5C) d / 16 * 16 + kernelLen k d ≤ kernelWindow) (h3 : rd (rCore k 0x60) d / 2 * 2 < kernelWindow) :
    cmdStart k arg d = tryStart k (startTold k arg d) := by
  have hl : (inState (pCore k) [.ready] d && ctxOpen (arg % 8) d) = true := by rw [inState_of hs rfl, hc]; rfl
  exact pageCommand_accepted 0x40 arg (fun x => tryStart k (tellRuntime (pCore k) x)) hm rfl hl (by simp [h1, h2, h3])

end Start

/-! ### STOP and the end of a kernel (R132, R136) -/

section Stop

variable {k : Nat} {d : Dev}

theorem cmdStop_begins (hm : mayCommand (pCore k) d = true) (hs : stateOf (pCore k) d = .active ∨ stateOf (pCore k) d = .quiesced)
    (hk : (coreOf k d).kernel.isSome = true) :
    cmdStop k 0 d = beginEnd k 1 0 (setPending k 19 true (accept (pCore k) 0x41 0 d)) := by
  have hst : inState (pCore k) [.active, .quiesced] d = true := by
    obtain h | h := hs
    all_goals exact inState_of h rfl
  have hrun : (coreOf k (beginEnd k 1 0 (setPending k 19 true (accept (pCore k) 0x41 0 d)))).kernel.isNone = false := by
    have hk' : (coreOf k (accept (pCore k) 0x41 0 d)).kernel.isSome = true := hk
    simp only [beginEnd, setPending, coreOf_modCore_same]
    rw [Option.isNone_eq_false_iff]
    exact hk'
  have hend : ∀ e : Dev, (coreOf k e).kernel.isNone = false → endStop k e = e := by
    intro e he
    rw [endStop, he, Bool.and_false, if_neg Bool.false_ne_true]
  exact (pageCommand_accepted _ _ _ hm rfl hst rfl).trans (hend _ hrun)

theorem enginesEmpty_of_none {c : Core} (h : ∀ e < 3, (engineOf c e).cmds = []) : enginesEmpty c = true ∧ enginesQuiet c = true := by
  simp [enginesEmpty, enginesQuiet, h 0 (by omega), h 1 (by omega), h 2 (by omega)]

theorem dropAllUnstarted_none {p : EngCmd → Bool} (h : ∀ e < 3, (engineOf (coreOf k d) e).cmds = []) :
    dropAllUnstarted k p d = d := by
  simp [dropAllUnstarted, dropUnstarted, h 0 (by omega), h 1 (by omega), h 2 (by omega)]

theorem kernelEndStep_exits {cause ctx : Nat} {value : Word} (he : (coreOf k d).ending = some (cause, value))
    (hk : (coreOf k d).kernel = some ctx) (h : ∀ e < 3, (engineOf (coreOf k d) e).cmds = []) :
    kernelEndStep k d = writeExit k cause value ctx d := by
  obtain ⟨hempty, hquiet⟩ := enginesEmpty_of_none h
  simp only [kernelEndStep, he, hk, dropAllUnstarted_none h, hempty, hquiet, if_true, ite_self]

/-- The EXIT registers of a kernel that has ended. -/
def exitWritten (k cause : Nat) (value : Word) (ctx : Nat) (d : Dev) : Dev :=
  modCore k (fun c => { c with
    kernel := none, ending := none, waiting := none, waitSince := none, machine := true
    pc := if c.machine then c.pc else c.mtvec.toNat / 4 * 4 })
    (addWrap (rCore k 0x78) 1 (wr (rCore k 0x74) (if cause = 0 then value.toNat else 0) (wr (rCore k 0x70) (cause + 2 ^ 8 * ctx) d)))

theorem reported_writeExit {cause ctx : Nat} {value : Word} (hs : stateOf (pCore k) d = .active) :
    Reported (setState (pCore k) .ready .work (exitWritten k cause value ctx d)) (writeExit k cause value ctx d) := by
  have hs' : (pageOf (pCore k) (exitWritten k cause value ctx d)).state = .active := hs
  have hw : writeExit k cause value ctx d = if cause = 0
      then raise (pCore k) 16 (setState (pCore k) .ready .work (exitWritten k cause value ctx d))
      else raise (pCore k) 17 (raise (pCore k) 16 (setState (pCore k) .ready .work (exitWritten k cause value ctx d))) := by
    have hd3 : (if (pageOf (pCore k) (exitWritten k cause value ctx d)).state = .active
        then setState (pCore k) .ready .work (exitWritten k cause value ctx d)
        else putPage (pCore k) { pageOf (pCore k) (exitWritten k cause value ctx d) with before := .ready }
          (exitWritten k cause value ctx d)) = setState (pCore k) .ready .work (exitWritten k cause value ctx d) := if_pos hs'
    rw [← hd3]
    rfl
  rw [hw]
  split
  · exact reported_raise _ _ _
  · exact (reported_raise _ _ _).trans (reported_raise _ _ _)

theorem rd_exitWritten (cause ctx : Nat) (value : Word) (hc : cause < 256) (hx : ctx < 8) :
    rd (rCore k 0x70) (exitWritten k cause value ctx d) = cause + 2 ^ 8 * ctx
      ∧ rd (rCore k 0x74) (exitWritten k cause value ctx d) = if cause = 0 then value.toNat else 0 := by
  have hv := value.isLt
  have hcore : ∀ (r : RegId) (f : Core → Core) (x : Dev), rd r (modCore k f x) = rd r x := fun _ _ _ => rfl
  rw [exitWritten, hcore, hcore, addWrap, rd_wr_other _ _ (by simp [homeOf]), rd_wr_other _ _ (by simp [homeOf]), rd_wr_same,
    rd_wr_other _ _ (by simp [homeOf]), rd_wr_same]
  refine ⟨by omega, ?_⟩
  split <;> omega

/-- What the end of a kernel leaves. -/
theorem writeExit_leaves {cause ctx : Nat} {value : Word} (hs : stateOf (pCore k) d = .active) (hc : cause < 256) (hx : ctx < 8) :
    let e := writeExit k cause value ctx d
    (coreOf k e).kernel = none ∧ stateOf (pCore k) e = .ready ∧ (pageOf (pCore k) e).cause = .work
      ∧ (pageOf (pCore k) e).cmd = (pageOf (pCore k) d).cmd
      ∧ rd (rCore k 0x70) e = cause + 2 ^ 8 * ctx ∧ rd (rCore k 0x74) e = if cause = 0 then value.toNat else 0 := by
  intro e
  have hr := reported_writeExit (cause := cause) (ctx := ctx) (value := value) hs
  obtain ⟨w, hw⟩ := hr.pageFields (pCore k)
  obtain ⟨w', hw'⟩ := pageOf_setState (pCore k) .ready .work (exitWritten k cause value ctx d)
  obtain ⟨h70, h74⟩ := rd_exitWritten (k := k) (d := d) cause ctx value hc hx
  have hrd : ∀ off, rd (rCore k off) e = rd (rCore k off) (exitWritten k cause value ctx d) := fun off =>
    (hr.rd rfl rfl).trans (rd_raise rfl rfl _)
  have hcore : coreOf k e = coreOf k (exitWritten k cause value ctx d) :=
    ((sameQuiet_setState _ _ _ _).trans hr.sameQuiet).field (coreOf k) fun _ => rfl
  have hp : pageOf (pCore k) e = { (pageOf (pCore k) d).moved .ready .work (exitWritten k cause value ctx d) with events := w } := by
    rw [show pageOf (pCore k) e = _ from hw, hw']
    rfl
  refine ⟨by rw [hcore, exitWritten, coreOf_modCore_same], by rw [stateOf, hp]; rfl, by rw [hp]; rfl, by rw [hp]; rfl,
    (hrd _).trans h70, (hrd _).trans h74⟩

theorem endStop_idle (h : inProgress (pCore k) 0x41 d = false) : endStop k d = d := by
  rw [endStop, h, Bool.false_and, if_neg Bool.false_ne_true]

end Stop

/-- Settles O22: START, STOP and KERNEL_END by their equations. -/
theorem kernelsComplete : Obligations.KernelsComplete := by
  intro k arg s hon hk d c p a
  refine ⟨fun hm hs hc h0 h1 h2 h3 hh hp => ?_, fun hm hs hker he => ?_, fun cause ctx value hs hi he hker hc hx hcmds => ?_⟩
  · refine does_of hon (f := fun d => if k < 2560 then cmdStart k arg d else d) ?_
    rw [if_pos hk, cmdStart_runs hm hs hc h1 h2 h3, tryStart_enters h0 hh hp]
    have hmem := inMemory_memTouch a (kernelLen k d) (some (arg % 8)) (startTold k arg d)
    obtain ⟨hregs, hpages⟩ := sramWrite_frame k (rd (rCore k 0x5C) d / 16 * 16)
      (memBytes a (kernelLen k d) (memTouch a (kernelLen k d) (some (arg % 8)) (startTold k arg d))) []
      (memTouch a (kernelLen k d) (some (arg % 8)) (startTold k arg d))
    generalize sramWrite k (rd (rCore k 0x5C) d / 16 * 16)
      (memBytes a (kernelLen k d) (memTouch a (kernelLen k d) (some (arg % 8)) (startTold k arg d))) []
      (memTouch a (kernelLen k d) (some (arg % 8)) (startTold k arg d)) = y at hregs hpages
    have hq : (pageOf p y).quiet = ((pageOf p d).started 0x40 arg).quiet := by
      rw [hpages, hmem.pages p (by simp [p]), pageOf_startTold]
    have hrd : ∀ off, rd (rCore k off) y = rd (rCore k off) d := fun off => by
      rw [rd, hregs]
      exact hmem.regs (rCore k off) rfl
    obtain ⟨e1, e2, e3, e4, e5, e6, e7, e8, e9, e10⟩ := enterKernel_leaves (k := k) (d := y) (arg % 8)
      (by rw [Page.cmd_of_quiet hq]; rfl)
    have hseq : (pageOf p y).seq = ((pageOf p d).seq + 1) % 65536 := congrArg Page.seq hq
    have hlast : (pageOf p y).lastCmd = 0x40 := congrArg Page.lastCmd hq
    have harg : rd64 (rCore k 0x68) y = rd64 (rCore k 0x68) d := by simp only [rd64, hiOf, hrd]
    rw [harg] at e10
    rw [hrd] at e9
    exact ⟨e1, e2, ⟨e3.trans hseq, e4.trans hlast, e5⟩, e6, e7, e8, e9, e10⟩
  · refine does_of hon (f := fun d => if k < 2560 then cmdStop k 0 d else d) ?_
    rw [if_pos hk, cmdStop_begins hm hs hker]
    have hker' : (coreOf k (accept (pCore k) 0x41 0 d)).kernel.isSome = true := hker
    have he' : (coreOf k (accept (pCore k) 0x41 0 d)).ending = none := he
    refine ⟨?_, ?_, ?_⟩
    · simp only [beginEnd, setPending, coreOf_modCore_same]
      exact if_pos (by rw [show (coreOf k (accept (pCore k) 0x41 0 s.dev)).kernel.isSome = true from hker',
        show (coreOf k (accept (pCore k) 0x41 0 s.dev)).ending = none from he']; rfl)
    · rw [beginEnd, coreOf_modCore_same]
      exact mip_setPending (by decide) k _
    · have hpage : pageOf (pCore k) (beginEnd k 1 0 (setPending k 19 true (accept (pCore k) 0x41 0 s.dev)))
          = (pageOf (pCore k) s.dev).started 0x41 0 := pageOf_accept (pCore k) 0x41 0 s.dev
      rw [answers, hpage]
      exact ⟨rfl, rfl, rfl⟩
  · refine does_of hon (f := fun d => if coreTakes k d then endStop k (kernelEndStep k d) else d) ?_
    have ht : coreTakes k s.dev = true := inState_of hs rfl
    obtain ⟨h1, h2, h3, h4, h5, h6⟩ := writeExit_leaves (k := k) (d := d) (value := value) hs hc hx
    have hi' : inProgress (pCore k) 0x41 (writeExit k cause value ctx s.dev) = false := by
      rw [inProgress, show (pageOf (pCore k) (writeExit k cause value ctx s.dev)).cmd = _ from h4]
      exact hi
    rw [if_pos ht, kernelEndStep_exits he hker hcmds, endStop_idle hi']
    exact ⟨h1, h2, h3, h5, h6⟩

end Sys2Proof.Machine
end


section
/-!
SUPPORT. The vector engine on a command that a state claims to be spoilt before it started: the refutation of O25.
-/

namespace Sys2Proof.Machine

/-- What no other command meets stays as it is. -/
theorem agentWrote_own {k e : Nat} {t : Word} (outs : List (Nat × Nat)) {d : Dev}
    (h : ∀ f < 3, ∀ x ∈ running k f d, f = e ∧ x.ticket = t) : agentWrote k (some (e, t)) outs d = d := by
  have hn : ∀ f < 3, (running k f d).filter (fun c => some (e, t) != some (f, c.ticket)) = [] := by
    intro f hf
    rw [List.filter_eq_nil_iff]
    intro x hx
    obtain ⟨rfl, rfl⟩ := h f hf x hx
    simp
  simp [agentWrote, hn 0 (by omega), hn 1 (by omega), hn 2 (by omega), freeBytes]

theorem sram_sramWrite (k a : Nat) (bs : List Byte) (pw : List Nat) (d : Dev) :
    (sramWrite k a bs pw d).sram = d.sram.write (sramAddr k a) bs := by
  simp only [sramWrite]
  split
  · next h => rw [List.length_eq_zero_iff.1 h]; rfl
  · rw [sram_breakReservation]

theorem sram_freeBytes_single (k a n : Nat) (d : Dev) :
    (freeBytes k [(a, n)] d).sram = d.sram.write (sramAddr k a) (freeList n d) := sram_sramWrite k a _ [] _

/-- A TRANSPOSE of one FP32 element at 0 to 0x100, with a range named as spoilt. -/
def spoiltTranspose : EngCmd :=
  { ticket := 1, addr := 0x2000, desc := leBytes 4 8 ++ zeros 8 ++ leBytes 4 0x10001 ++ zeros 12 ++ leBytes 4 0x100
      ++ leBytes 4 0x10001 ++ zeros 28, ctx := 0, user := false, issuePc := 0,
    draws := 0, seed := 0, order := 0, started := false, startGen := 0, ended := none, completed := false, quiet := false,
    msgId := 0, awaited := 0, outcomes := [], spoilt := [(0x1000, 16)] }

/-- Core 0 READY with that command in its vector engine. -/
def spoiltState (m : Mem) : State :=
  { coreZeroReady with dev := { coreZeroReady.dev with
      cores := [(0, { freshCore with engines := [(1, { freshEngine with issued := 1, cmds := [spoiltTranspose] })] })]
      sram := m } }

/-- The command as it stands once its work has begun. -/
def spoiltBegun (m : Mem) : EngCmd :=
  { spoiltTranspose with
    started := true, reads := vecIns (vecDesc spoiltTranspose.desc), writes := [(0x100, 4)]
    inputs := [keptWord 0 (spoiltState m).dev 0], olds := [keptWord 0 (spoiltState m).dev 0x100], ended := some (.done, 0) }

theorem vecOut_spoilt (c : EngCmd) (d : Dev) : ∃ w, (vecOut (vecDesc spoiltTranspose.desc) 0 c d).1 = [(0x100, leBytes 4 w)] :=
  ⟨_, rfl⟩

theorem writeOutputs_spoilt (m : Mem) (d : Dev) : ∃ w,
    writeOutputs 0 1 (spoiltBegun m) d = freeBytes 0 [(0x1000, 16)] (sramWrite 0 0x100 (leBytes 4 w) [] d) := by
  obtain ⟨w, hw⟩ := vecOut_spoilt (spoiltBegun m) (withKept 0 (spoiltBegun m).inputs d)
  have hwrites : (workOf 0 1 (spoiltBegun m) (withKept 0 (spoiltBegun m).inputs d)).writes = [(0x100, leBytes 4 w)] := by
    have hrep : (vecDesc spoiltTranspose.desc).report = false := by decide
    have hdesc : (spoiltBegun m).desc = spoiltTranspose.desc := rfl
    simp only [workOf, vecWork, hdesc, hrep, Nat.one_ne_zero, if_false, hw, Bool.false_eq_true, List.append_nil]
  have houts : (workOf 0 1 (spoiltBegun m) (withKept 0 (spoiltBegun m).inputs d)).outs
      = vecSpans (vecDesc spoiltTranspose.desc) := rfl
  have hspoilt : (spoiltBegun m).spoilt ++ (vecSpans (vecDesc spoiltTranspose.desc)).flatMap (fun o =>
      commonRanges o.1 (((spoiltBegun m).addr, 64) :: o.2)) = [(0x1000, 16)] := rfl
  have hin : (spoiltBegun m).inputs.any (·.poisoned) = false := rfl
  refine ⟨w, ?_⟩
  simp only [writeOutputs, hwrites, houts, hspoilt, hin, Bool.false_eq_true, if_false, List.foldl_cons, List.foldl_nil]

theorem beginWork_spoilt (m : Mem) : ∃ w, beginWork 0 1 spoiltTranspose (spoiltState m).dev
    = freeBytes 0 [(0x1000, 16)] (sramWrite 0 0x100 (leBytes 4 w) [] (modCmd 0 1 1 (fun _ => spoiltBegun m) (spoiltState m).dev)) := by
  obtain ⟨w, hw⟩ := writeOutputs_spoilt m (modCmd 0 1 1 (fun _ => spoiltBegun m) (spoiltState m).dev)
  refine ⟨w, ?_⟩
  have hb : beginWork 0 1 spoiltTranspose (spoiltState m).dev = agentWrote 0 (some (1, 1)) [(0x100, 4)]
      (writeOutputs 0 1 (spoiltBegun m) (modCmd 0 1 1 (fun _ => spoiltBegun m) (spoiltState m).dev)) := rfl
  rw [hb, hw]
  refine agentWrote_own _ fun f hf x hx => ?_
  have hx : x ∈ running 0 f (modCmd 0 1 1 (fun _ => spoiltBegun m) (spoiltState m).dev) := hx
  obtain rfl | rfl | rfl : f = 0 ∨ f = 1 ∨ f = 2 := by omega
  · exact absurd hx (List.not_mem_nil (a := x))
  · have hx : x ∈ [spoiltBegun m] := hx
    rw [List.mem_singleton.1 hx]
    exact ⟨rfl, rfl⟩
  · exact absurd hx (List.not_mem_nil (a := x))

theorem byte_write_head {m : Mem} (a : Nat) (b : Byte) (r : List Byte) (h : Mem.wf m = true) : (m.write a (b :: r)).byte a = b := by
  have hr := mem_read_write a (b :: r) h
  rw [List.length_cons, Mem.read] at hr
  exact (List.cons.inj hr).1

/-- The spoilt range of the command holds free bytes once it has begun. -/
theorem byte_beginWork_spoilt {m : Mem} (hm : Mem.wf m = true) :
    (beginWork 0 1 spoiltTranspose (spoiltState m).dev).sram.byte 0x1000 = (Config.freeBits (spoiltState m).dev.fresh).setWidth 8 := by
  obtain ⟨w, hw⟩ := beginWork_spoilt m
  have hfresh : (sramWrite 0 0x100 (leBytes 4 w) [] (modCmd 0 1 1 (fun _ => spoiltBegun m) (spoiltState m).dev)).fresh
      = (spoiltState m).dev.fresh := rfl
  rw [hw, sram_freeBytes_single, sram_sramWrite]
  have hlist : ∀ y : Dev, ∃ r, freeList 16 y = (Config.freeBits y.fresh).setWidth 8 :: r := fun y => ⟨_, rfl⟩
  obtain ⟨r, hr⟩ := hlist (sramWrite 0 0x100 (leBytes 4 w) [] (modCmd 0 1 1 (fun _ => spoiltBegun m) (spoiltState m).dev))
  rw [hr, hfresh]
  exact byte_write_head (a := sramAddr 0 0x1000) _ _ (mem_wf_write _ _ hm)

/-- By the statement the range keeps what it held. -/
theorem byte_writeRows_spoilt {m : Mem} (hm : Mem.wf m = true) :
    (writeRows 0 ((vecOut (vecDesc spoiltTranspose.desc) 0 spoiltTranspose (spoiltState m).dev).1
      ++ (if (vecDesc spoiltTranspose.desc).report then [((vecDesc spoiltTranspose.desc).reportAddr,
        reportBytes (vecOut (vecDesc spoiltTranspose.desc) 0 spoiltTranspose (spoiltState m).dev).2)] else []))
      (spoiltState m).dev).sram.byte 0x1000 = m.byte 0x1000 := by
  obtain ⟨w, hw⟩ := vecOut_spoilt spoiltTranspose (spoiltState m).dev
  rw [if_neg (by decide), hw, writeRows, List.append_nil, List.foldl_cons, List.foldl_nil, sram_sramWrite]
  exact mem_byte_write_outside _ _ _ hm (.inr (by simp [sramAddr, leBytes_length]))

/-- The claim at a state says that a byte beside the command's output is the first free one. -/
theorem byte_of_claim (h : Claims.VectorCommandsComplete) {m : Mem} (hm : Mem.wf m = true) :
    m.byte 0x1000 = (Config.freeBits (spoiltState m).dev.fresh).setWidth 8 := by
  have hon : (spoiltState m).on := (show coreZeroReady.on by decide)
  obtain ⟨-, -, hgives, hdoes, -⟩ := h 0 8 (.transpose 0) spoiltTranspose (spoiltState m) hon rfl rfl rfl rfl (by simp)
  have hidle : ∀ f < 3, running 0 f (spoiltState m).dev = [] := by
    intro f hf
    obtain rfl | rfl | rfl : f = 0 ∨ f = 1 ∨ f = 2 := by omega
    all_goals rfl
  have hrange : vecInRange spoiltTranspose.user (vecDesc spoiltTranspose.desc) = true := by decide
  obtain ⟨t, ht, -, -, -, hsram, -⟩ := hdoes (by decide) (by decide) hrange hidle hm rfl (by decide)
  have hg := (hgives (by decide) (by decide) hrange).symm.trans ht
  injection hg with hg
  rw [← hg] at hsram
  rw [← byte_writeRows_spoilt hm, ← byte_beginWork_spoilt hm]
  exact (congrArg (fun x => Mem.byte x 0x1000) hsram).symm

/-- Refutes O25: VectorCommandsComplete says that SRAM holds the command's rows and nothing else changed, but a command that has not
started may name ranges as spoilt in the state, and what it names is written with free bytes as it starts. Two states that differ
in one such byte of SRAM both hold the same free byte after it. -/
theorem not_vectorAndMatrixCommandsComplete : ¬ Obligations.VectorAndMatrixCommandsComplete := by
  intro h
  have h0 := byte_of_claim h.1 (m := []) rfl
  have h1 := byte_of_claim h.1 (m := [(0x1000, 1)]) rfl
  exact absurd (h0.trans h1.symm) (by decide)

end Sys2Proof.Machine
end


section
/-!
SUPPORT. Packets that arrive at cores and at the edge of the mesh (R173 to R185, R196, R207, R235).
-/

namespace Sys2Proof.Machine

/-- What holds of the device that is given. -/
theorem Gives.does {s : State} {o : Host.Outcome State Fault Refusal} {d : Dev} {P : Dev → Prop} (h : Gives s o d) (hp : P d) :
    Does s o P := ⟨_, h, rfl, rfl, rfl, hp⟩

/-! ### Packets taken out of the mesh and put into it -/

/-- The mesh without packet `n`. -/
def without (n : Nat) (d : Dev) : Dev := { d with packets := d.packets.eraseIdx n }

theorem takePacket_open {n : Nat} {kind : PacketKind} {p : Packet} {d : Dev} (f : Packet → Dev → Dev)
    (hn : d.packets[n]? = some p) (hk : p.kind = kind) (hr : reaches p d = true) :
    takePacket n kind f d = f p (without n d) := by
  simp only [takePacket, hn, hk, hr, decide_true, Bool.and_self, if_true]
  rfl

theorem atCore_open {f : Nat → Packet → Dev → Dev} {p : Packet} {d : Dev} (h : resetActs .core d = false) :
    atCore f p d = f (coreAt p.dx p.dy) p d := by
  rw [atCore, h, if_neg Bool.false_ne_true]

/-- A core's own packets are never held back. -/
theorem sendPackets_local {p : Packet} (h : portAt p.sx p.sy = .localPort) (d : Dev) :
    sendPackets [p] d = { d with packets := d.packets ++ [p] } := by
  simp [sendPackets, h]

/-- Packets that are sent stand behind the others, each as it was but for the hold of an edge block. -/
theorem sendPackets_appends (ps : List Packet) (d : Dev) :
    ∃ hold : Packet → Bool, (sendPackets ps d).packets = d.packets ++ ps.map (fun p => if hold p then { p with heldBack := true } else p) :=
  ⟨fun p => meshHeld d && portAt p.sx p.sy != .localPort, rfl⟩

theorem portAt_local {x y : Nat} (h : portAt x y = .localPort) : x < 64 ∧ y < 40 := by
  unfold portAt at h
  split at h
  · exact absurd h (by decide)
  · split at h
    · exact absurd h (by decide)
    · split at h
      · exact absurd h (by decide)
      · split at h
        · exact absurd h (by decide)
        · omega

theorem portAt_core {x y : Nat} (h : portAt x y = .localPort) : portAt (coreX (coreAt x y)) (coreY (coreAt x y)) = .localPort := by
  obtain ⟨hx, -⟩ := portAt_local h
  have h1 : coreX (coreAt x y) = x := by simp only [coreX, coreAt]; omega
  have h2 : coreY (coreAt x y) = y := by simp only [coreY, coreAt]; omega
  rw [h1, h2, h]

/-! ### Cuts of 512 bytes (R168) -/

theorem flatten_pieces (bs : List Byte) (m : Nat) (h : bs.length ≤ 512 * m) :
    (List.range m).flatMap (fun i => (bs.drop (512 * i)).take 512) = bs := by
  induction m generalizing bs with
  | zero => simpa using (List.length_eq_zero_iff.1 (Nat.le_zero.1 (by simpa using h))).symm
  | succ m ih =>
    rw [List.range_succ_eq_map, List.flatMap_cons, List.flatMap_map]
    have hd : ∀ i, bs.drop (512 * (i + 1)) = (bs.drop 512).drop (512 * i) := fun i => by
      rw [List.drop_drop]
      congr 1
      omega
    simp only [Nat.succ_eq_add_one, hd]
    rw [ih (bs.drop 512) (by rw [List.length_drop]; omega), Nat.mul_zero, List.drop_zero, List.take_append_drop]

theorem flatMap_cut512 (bs : List Byte) : (cut512 bs).flatMap (·.2) = bs := by
  unfold cut512
  split
  · next h => simpa using (List.length_eq_zero_iff.1 h).symm
  · rw [List.flatMap_map]
    exact flatten_pieces bs _ (by omega)

theorem payload_dataPackets (p : Packet) (bs : List Byte) (pw : List Nat) :
    (dataPackets p bs pw).flatMap (·.payload) = bs := by
  rw [dataPackets, List.flatMap_map]
  exact flatMap_cut512 bs

/-- A packet of data that answers a request. -/
def AnswersGet (p q : Packet) : Prop :=
  q.kind = .getData ∧ q.dx = p.sx ∧ q.dy = p.sy ∧ q.sx = p.dx ∧ q.sy = p.dy ∧ q.msgId = p.msgId

theorem AnswersGet.held {p q : Packet} (h : AnswersGet p q) (b : Bool) : AnswersGet p (if b then { q with heldBack := true } else q) := by
  cases b
  · exact h
  · exact h

theorem answersGet_dataPackets {p q : Packet} {bs : List Byte} {pw : List Nat} (h : q ∈ dataPackets p bs pw) : AnswersGet p q := by
  obtain ⟨c, -, rfl⟩ := List.mem_map.1 h
  exact ⟨rfl, rfl, rfl, rfl, rfl, rfl⟩

/-- Data that answer a request carry the bytes, in packets that go back to where it came from. -/
theorem sendPackets_data (p : Packet) (bs : List Byte) (pw : List Nat) (d : Dev) :
    ∃ ps, (sendPackets (dataPackets p bs pw) d).packets = d.packets ++ ps ∧ ps.flatMap (·.payload) = bs ∧ ∀ q ∈ ps, AnswersGet p q := by
  obtain ⟨hold, h⟩ := sendPackets_appends (dataPackets p bs pw) d
  refine ⟨_, h, ?_, fun q hq => ?_⟩
  · rw [List.flatMap_map]
    have hpay : ∀ q : Packet, (if hold q then { q with heldBack := true } else q).payload = q.payload := fun q => by split <;> rfl
    simp only [hpay]
    exact payload_dataPackets p bs pw
  · obtain ⟨q', hq', rfl⟩ := List.mem_map.1 hq
    exact (answersGet_dataPackets hq').held _

/-! ### A PUT of one packet (R176) -/

section Put

variable {t : Nat} {p : Packet} {d : Dev}

/-- The entry that the first packet of a message makes. -/
def entryFor (p : Packet) (place : Nat) : Arrival :=
  { source := senderOf p, msgId := p.msgId, ctx := p.ctx, place := place, last := p.last, counted := [],
    flagEn := p.flagEn, flag := p.flag, increment := BitVec.ofNat 32 p.amount, opened := false, openTime := 0, openGen := 0,
    result := .done, detail := 0 }

/-- The entry after its one packet. -/
def entryDone (p : Packet) (d : Dev) : Arrival :=
  { entryFor p 0 with
    counted := [p.index], opened := true, openTime := d.now, openGen := fpGen d, wrote := [(p.address, p.payload.length)] }

theorem enterArrival_first (place : Nat) (h : (coreOf t d).arrivals = []) :
    enterArrival t p place d = modCore t (fun c => { c with arrivals := c.arrivals ++ [entryFor p place] }) d := by
  simp only [enterArrival, entryIndex, h]
  rfl

theorem entryIndex_single {c : Core} {a : Arrival} (h : c.arrivals = [a]) : entryIndex c a.source a.msgId = some 0 := by
  simp [entryIndex, h]

theorem running_modCore_arrivals (k e : Nat) (f : Core → List Arrival) (d : Dev) :
    running k e (modCore t (fun c => { c with arrivals := f c }) d) = running k e d := by
  by_cases h : k = t
  · subst h
    rw [running, coreOf_modCore_same]
    rfl
  · rw [running, coreOf_modCore_other _ _ h]
    rfl

theorem running_sramWrite (k e a : Nat) (bs : List Byte) (pw : List Nat) (d : Dev) :
    running k e (sramWrite k a bs pw d) = running k e d := by
  simp only [sramWrite]
  split
  · rfl
  · obtain ⟨r, hr⟩ := coreOf_breakReservation k a bs.length { d with
      sram := d.sram.write (sramAddr k a) bs
      sramPoison := d.sramPoison.filter (fun w => decide (w < sramWord k a) || decide (sramWord k (a + bs.length - 1) < w))
        ++ pw.map (fun i => sramWord k a + i) }
    rw [running, hr]
    rfl

theorem racedOf_modCore_arrivals (k id : Nat) (f : Core → List Arrival) (d : Dev) :
    racedOf k id (modCore t (fun c => { c with arrivals := f c }) d) = racedOf k id d := by
  by_cases h : k = t
  · subst h
    rw [racedOf, coreOf_modCore_same]
    rfl
  · rw [racedOf, coreOf_modCore_other _ _ h]
    rfl

/-- A payload that meets nothing is written. -/
theorem landPayload_alone {i : Nat} {a : Arrival} (ha : (coreOf t d).arrivals[i]? = some a) (hc : a.contests = [])
    (hr : racedOf (senderOf p) p.msgId d = []) (hp : p.poison = []) (hrun : ∀ f < 3, running t f d = []) :
    landPayload t i p d = sramWrite t p.address p.payload [] d := by
  have hidle : agentWrote t none [(p.address, p.payload.length)] (sramWrite t p.address p.payload [] d)
      = sramWrite t p.address p.payload [] d :=
    agentWrote_idle none _ fun f hf => by rw [running_sramWrite, hrun f hf]
  simp only [landPayload, ha, hc, hr, hp, ite_self, landed, List.isEmpty_nil, if_true, List.filter_nil, hidle]

/-- The outcome of a core's one entry, full: the flag counts and one COMPLETION goes back. -/
theorem applyOutcomes_single {a : Arrival} (ha : (coreOf t d).arrivals = [a]) (hf : arrivalFull a = true) (hc : a.contests = [])
    (hr : a.result = .done) : ∃ l : Core → Bool, applyOutcomes 1 t d =
      sendPackets [completionPacket a.source a.msgId a.place t .done a.detail]
        (if a.flagEn then addFlag t a.flag a.increment (modCore t (fun c => { c with arrivals := c.arrivals.eraseIdx 0, loaded := l c }) d)
          else modCore t (fun c => { c with arrivals := c.arrivals.eraseIdx 0, loaded := l c }) d) := by
  refine ⟨fun c => c.loaded || (decide (4096 ≤ a.source) && a.result == .done && !a.flagEn && stateOf (pCore t) d == .loading), ?_⟩
  simp [applyOutcomes, ha, hf, hc, hr, settleContests, List.range_succ]

theorem coreOf_sramWrite (k a : Nat) (bs : List Byte) (pw : List Nat) (d : Dev) :
    ∃ r, coreOf k (sramWrite k a bs pw d) = { coreOf k d with reservation := r } := by
  simp only [sramWrite]
  split
  · exact ⟨(coreOf k d).reservation, rfl⟩
  · exact coreOf_breakReservation k a bs.length _

theorem packets_sramWrite (k a : Nat) (bs : List Byte) (pw : List Nat) (d : Dev) : (sramWrite k a bs pw d).packets = d.packets := by
  simp only [sramWrite]
  split
  · rfl
  · unfold breakReservation
    split
    · split <;> rfl
    · rfl

/-- The core after a packet of one part has landed, before its outcome is applied. -/
def putLanded (t : Nat) (p : Packet) (d : Dev) : Dev :=
  modArrival t 0 (fun x => { x with
    counted := x.counted ++ [p.index], opened := true, openTime := if x.opened then x.openTime else d.now
    openGen := if x.opened then x.openGen else fpGen d, result := .done, detail := 0, dropped := x.dropped || false
    wrote := x.wrote ++ [(p.address, p.payload.length)] })
    (sramWrite t p.address p.payload [] (modCore t (fun c => { c with arrivals := c.arrivals ++ [entryFor p 0] }) d))

theorem arrive_lands (ha : (coreOf t d).arrivals = []) (ht : coreTakes t d = true)
    (ho : ctxOpen p.ctx d = true) (hp : p.poison = []) (hr : racedOf (senderOf p) p.msgId d = [])
    (hrun : ∀ f < 3, running t f d = []) :
    arrive t p true 0 d = applyOutcomes (coreOf t (putLanded t p d)).arrivals.length t (putLanded t p d) := by
  have hd0 := enterArrival_first (p := p) 0 ha
  have harr : (coreOf t (enterArrival t p 0 d)).arrivals = [entryFor p 0] := by rw [hd0, coreOf_modCore_same, ha]; rfl
  have hidx : entryIndex (coreOf t (enterArrival t p 0 d)) (senderOf p) p.msgId = some 0 := entryIndex_single harr
  have hget : (coreOf t (enterArrival t p 0 d)).arrivals[0]? = some (entryFor p 0) := by rw [harr]; rfl
  have htakes : takesPacket t p (enterArrival t p 0 d) = true := by
    have : coreTakes t (enterArrival t p 0 d) = true := by rw [hd0]; exact ht
    simp [takesPacket, this]
  have hopen : packetOpen p (enterArrival t p 0 d) = true := by
    have : ctxOpen p.ctx (enterArrival t p 0 d) = true := by rw [hd0]; exact ho
    simp [packetOpen, this]
  have hland : landPayload t 0 p (enterArrival t p 0 d) = sramWrite t p.address p.payload [] (enterArrival t p 0 d) := by
    refine landPayload_alone hget rfl ?_ hp fun f hf => ?_
    · rw [hd0, racedOf_modCore_arrivals, hr]
    · rw [hd0, running_modCore_arrivals, hrun f hf]
  have hout : outcomeAfter t p (entryFor p 0) (enterArrival t p 0 d) = (.done, 0) := by
    simp [outcomeAfter, htakes, hopen, hp, entryFor]
  have hcount : (entryFor p 0).counted.contains p.index = false := rfl
  simp only [arrive, hidx, hget, hcount, Bool.false_eq_true, if_false, htakes, hopen, hland, hout, Bool.and_self, Bool.not_true,
    Bool.and_false, if_true, Bool.false_and]
  rw [hd0]
  rfl

theorem arrivals_putLanded (ha : (coreOf t d).arrivals = []) : (coreOf t (putLanded t p d)).arrivals = [entryDone p d] := by
  obtain ⟨r, hr⟩ := coreOf_sramWrite t p.address p.payload [] (modCore t (fun c => { c with arrivals := c.arrivals ++ [entryFor p 0] }) d)
  rw [putLanded, modArrival, coreOf_modCore_same, hr, coreOf_modCore_same, ha]
  rfl

/-- A flag that counts where the message asks for it. -/
theorem addFlag_if (b : Bool) (t f : Nat) (inc : Word) (g : Dev) :
    let y := if b then addFlag t f inc g else g
    y.sram = g.sram ∧ y.packets = g.packets ∧ (coreOf t y).arrivals = (coreOf t g).arrivals
      ∧ flagOf (coreOf t y) f = flagOf (coreOf t g) f + if b then inc else 0 := by
  cases b with
  | true =>
    refine ⟨rfl, rfl, ?_, ?_⟩
    · rw [if_pos rfl, addFlag, coreOf_modCore_same]
    · rw [if_pos rfl, if_pos rfl, addFlag, coreOf_modCore_same]
      simp [flagOf]
  | false => exact ⟨rfl, rfl, rfl, (BitVec.add_zero _).symm⟩

/-- What a PUT of one packet leaves: its payload in SRAM, its flag counted, and one COMPLETION for its source. -/
theorem arrive_put (hl : portAt p.dx p.dy = .localPort) (ht' : t = coreAt p.dx p.dy) (ha : (coreOf t d).arrivals = [])
    (hlast : p.last = 0) (ht : coreTakes t d = true) (ho : ctxOpen p.ctx d = true)
    (hp : p.poison = []) (hr : racedOf (senderOf p) p.msgId d = []) (hrun : ∀ f < 3, running t f d = []) :
    let e := arrive t p true 0 d
    e.sram = (sramWrite t p.address p.payload [] d).sram ∧ (coreOf t e).arrivals = []
      ∧ flagOf (coreOf t e) p.flag = flagOf (coreOf t d) p.flag + (if p.flagEn then BitVec.ofNat 32 p.amount else 0)
      ∧ e.packets = d.packets ++ [completionPacket (senderOf p) p.msgId 0 t .done 0] := by
  have harr := arrivals_putLanded (p := p) ha
  have hfull : arrivalFull (entryDone p d) = true := by simp [arrivalFull, entryDone, entryFor, hlast]
  obtain ⟨l, hl'⟩ := applyOutcomes_single harr hfull rfl rfl
  have hlocal : portAt (completionPacket (senderOf p) p.msgId 0 t .done 0).sx (completionPacket (senderOf p) p.msgId 0 t .done 0).sy
      = .localPort := by
    rw [ht']
    exact portAt_core hl
  intro e
  have he : e = _ := arrive_lands ha ht ho hp hr hrun
  rw [harr, List.length_singleton, hl'] at he
  have hsram : (putLanded t p d).sram = (sramWrite t p.address p.payload [] d).sram := by
    rw [putLanded, sram_sramWrite]
    exact sram_sramWrite t p.address p.payload [] _
  have hpack : (putLanded t p d).packets = d.packets := packets_sramWrite t p.address p.payload [] _
  have hflags : (coreOf t (putLanded t p d)).flags = (coreOf t d).flags := by
    obtain ⟨r, hr⟩ := coreOf_sramWrite t p.address p.payload [] (modCore t (fun c => { c with arrivals := c.arrivals ++ [entryFor p 0] }) d)
    rw [putLanded, modArrival, coreOf_modCore_same, hr, coreOf_modCore_same]
  have hgone : (coreOf t (modCore t (fun c => { c with arrivals := c.arrivals.eraseIdx 0, loaded := l c }) (putLanded t p d))).arrivals = [] := by
    rw [coreOf_modCore_same, harr]
    rfl
  have hkeeps : ∀ f, flagOf (coreOf t (modCore t (fun c => { c with arrivals := c.arrivals.eraseIdx 0, loaded := l c })
      (putLanded t p d))) f = flagOf (coreOf t d) f := fun f => by
    rw [coreOf_modCore_same]
    exact congrArg (fun x => Tbl.get x 0 f) hflags
  have hgs : (modCore t (fun c => { c with arrivals := c.arrivals.eraseIdx 0, loaded := l c }) (putLanded t p d)).sram
      = (sramWrite t p.address p.payload [] d).sram := hsram
  have hgp : (modCore t (fun c => { c with arrivals := c.arrivals.eraseIdx 0, loaded := l c }) (putLanded t p d)).packets
      = d.packets := hpack
  generalize modCore t (fun c => { c with arrivals := c.arrivals.eraseIdx 0, loaded := l c }) (putLanded t p d) = g
    at he hgone hkeeps hgs hgp
  obtain ⟨h1, h2, h3, h4⟩ := addFlag_if p.flagEn t p.flag (BitVec.ofNat 32 p.amount) g
  have he : e = sendPackets [completionPacket (senderOf p) p.msgId 0 t .done 0]
      (if p.flagEn then addFlag t p.flag (BitVec.ofNat 32 p.amount) g else g) := he
  rw [he, sendPackets_local hlocal]
  exact ⟨h1.trans hgs, h3.trans hgone, h4.trans (by rw [hkeeps]), congrArg (· ++ _) (h2.trans hgp)⟩

end Put

/-! ### Answers at a core's messenger (R120, R176, R177) -/

section Answers

variable {k : Nat} {p : Packet} {c : EngCmd} {d : Dev}

theorem findMsg_some (h : findMsg (coreOf k d) p.msgId = some c) :
    c ∈ (engineOf (coreOf k d) 2).cmds ∧ c.started = true ∧ c.ended = none ∧ c.msgId = p.msgId := by
  have hm := List.mem_of_find?_eq_some h
  have hp := List.find?_some h
  simpa [hm, and_assoc] using hp

/-- The one command of a ticket is changed. -/
theorem mem_modCmd {e : Nat} {t : Word} {f : EngCmd → EngCmd} (hm : c ∈ (engineOf (coreOf k d) e).cmds) (ht : c.ticket = t) :
    f c ∈ (engineOf (coreOf k (modCmd k e t f d)) e).cmds := by
  have : (engineOf (coreOf k (modCmd k e t f d)) e).cmds = updCmd t f (engineOf (coreOf k d) e).cmds := by
    simp [modCmd, putEngine, engineOf]
  rw [this, updCmd]
  exact List.mem_map.2 ⟨c, hm, if_pos ht⟩

/-- The command after one answer. -/
def answered (place : Nat) (r : Result) (detail n : Nat) (x : EngCmd) : EngCmd :=
  let x1 := { x with outcomes := x.outcomes ++ [(place, r, detail)], awaited := x.awaited - n }
  if (msgDesc x.desc).get && r != .done && n == 0 then { x1 with ended := some (r, detail) } else settle x1

theorem answer_eq {id : Nat} (place : Nat) (r : Result) (detail n : Nat) (h : findMsg (coreOf k d) id = some c) :
    answer k id place r detail n d = modCmd k 2 c.ticket (answered place r detail n) d := by
  simp only [answer, h]
  rfl

theorem ticket_answered (place : Nat) (r : Result) (detail n : Nat) (x : EngCmd) :
    (answered place r detail n x).ticket = x.ticket := by
  simp only [answered, settle]
  split
  · rfl
  · split <;> rfl

/-- The last answer of a message decides its end. -/
theorem ended_answered {place n detail : Nat} {r : Result} {x : EngCmd} (ha : x.awaited = n) (ho : x.outcomes = [])
    (he : x.ended = none) (hg : ((msgDesc x.desc).get && r != .done && n == 0) = false) :
    (answered place r detail n x).ended = some (combine [(place, r, detail)]) := by
  simp only [answered, hg, Bool.false_eq_true, if_false, ho, ha, List.nil_append, Nat.sub_self, settle, he, Option.isNone_none,
    and_self, if_true]

theorem combine_single {place detail : Nat} {r : Result} (h : r ≠ .done) : combine [(place, r, detail)] = (r, detail) := by
  simp [combine, h]

theorem engineOf_sramWrite (k e a : Nat) (bs : List Byte) (pw : List Nat) (d : Dev) :
    engineOf (coreOf k (sramWrite k a bs pw d)) e = engineOf (coreOf k d) e := by
  obtain ⟨r, hr⟩ := coreOf_sramWrite k a bs pw d
  rw [hr]
  rfl

/-- GET_DATA that completes its GET lands where it says. -/
theorem dataAtCore_last (hf : findMsg (coreOf k d) p.msgId = some c) (hp : p.poison = []) (ha : c.awaited = p.payload.length)
    (ho : c.outcomes = []) (hr : c.raced = []) (hrun : ∀ f < 3, ∀ x ∈ running k f d, f = 2 ∧ x.ticket = c.ticket) :
    dataAtCore k p d = modCmd k 2 c.ticket (answered 0 .done 0 p.payload.length) (sramWrite k p.address p.payload [] d)
      ∧ (answered 0 .done 0 p.payload.length c).ended = some (.done, 0) := by
  have hfind : findMsg (coreOf k (sramWrite k p.address p.payload [] d)) p.msgId = some c := by
    rw [findMsg, engineOf_sramWrite]
    exact hf
  have hown : agentWrote k (some (2, c.ticket)) [(p.address, p.payload.length)] (sramWrite k p.address p.payload [] d)
      = sramWrite k p.address p.payload [] d :=
    agentWrote_own _ fun f h x hx => hrun f h x (by rwa [running_sramWrite] at hx)
  obtain ⟨-, -, he, -⟩ := findMsg_some hf
  refine ⟨?_, ?_⟩
  · simp only [dataAtCore, hf, hr, landed, List.isEmpty_nil, if_true, hp, hown]
    exact answer_eq 0 .done 0 _ hfind
  · rw [ended_answered ha ho he (by simp)]
    rfl

theorem takeCompletion_last (hf : findMsg (coreOf k d) p.msgId = some c) (hg : (msgDesc c.desc).get = false) (ha : c.awaited = 1)
    (ho : c.outcomes = []) (hr : p.result ≠ .done) :
    takeCompletion k p d = modCmd k 2 c.ticket (answered p.place p.result p.detail 1) d
      ∧ (answered p.place p.result p.detail 1 c).ended = some (p.result, p.detail) := by
  obtain ⟨-, -, he, -⟩ := findMsg_some hf
  refine ⟨?_, ?_⟩
  · simp only [takeCompletion, hf, hg, Bool.false_eq_true, if_false]
    exact answer_eq _ _ _ _ hf
  · rw [ended_answered ha ho he (by simp), combine_single hr]

end Answers

/-! ### Runs (R183 to R185) -/

section Runs

variable {n : Nat} {p : Packet} {d : Dev}

theorem hurtAt_unhurt (k : Nat) (h : p.hurt = []) : hurtAt k p = p := by simp [hurtAt, h]

theorem onward_without (k n : Nat) (p : Packet) (d : Dev) : onward p k (without n d) = onward p k d := rfl

theorem spread_last {fuel k : Nat} {copy : Packet → Nat → Dev → Dev} (hh : p.hurt = []) (hx : p.cutAt = [])
    (ho : onward p k d = []) : spread (fuel + 1) k copy p d = copy p k d := by
  rw [spread, hx]
  simp only [hurtAt_unhurt k hh, ho, List.contains_nil, Bool.false_eq_true, if_false, List.foldl_nil]

/-- A run that ends at its entry router. -/
theorem runDeliver_single {copy : Packet → Nat → Dev → Dev} (hc : (if p.kind = .relayPut then relayCopy else mcCopy) = copy)
    (hh : p.hurt = []) (hx : p.cutAt = []) (ho : onward p (routerAt p.dx p.dy) d = []) :
    runDeliver p (without n d) = copy p (routerAt p.dx p.dy) (without n d) := by
  rw [runDeliver, hc]
  exact spread_last hh hx ((onward_without _ n p d).trans ho)

end Runs

theorem corePacketsArrive : Claims.CorePacketsArrive := by
  intro n p s hon hn hreset hreach d t rest gone
  have hopen : ∀ {kind : PacketKind} (f : Packet → Dev → Dev), p.kind = kind → takePacket n kind f d = f p (without n d) :=
    fun f hk => takePacket_open f hn hk hreach
  have hcore : ∀ f, atCore f p (without n d) = f t p (without n d) := fun f => atCore_open hreset
  have hsram : ∀ a bs, (sramWrite t a bs [] (without n d)).sram = (sramWrite t a bs [] d).sram := fun a bs => by
    rw [sram_sramWrite, sram_sramWrite]
    rfl
  have hrow : toCore p = true → p.kind = .getReq → Gives s (exec (.getReq n) s) (getAtCore t p gone) := fun hto hk => by
    refine gives_of_eq hon (Eq.trans ?_ ((hopen (atCore getAtCore) hk).trans (hcore _)))
    simp only [show s.dev.packets[n]? = some p from hn, hk, hto, ne_eq, not_true, if_false, if_true]
    rfl
  refine ⟨fun hk => ?_, fun hk hdma => ?_, fun hk hto ha hi hl ht ho hp hr hrun => ?_, fun hk hto => hrow hto hk,
    fun hk hto ht ho => ?_, fun c hk hdma hf hp ha ho hr hrun => ?_, fun c hk hdie hdma hf hg ha ho hr => ?_, fun hk => ?_,
    fun hk => ?_, fun hk hh hx ho => ?_, fun hk hh hx ho => ?_⟩
  · exact gives_of_eq hon ((hopen _ hk).trans (hcore _))
  · refine gives_of_eq hon ((hopen _ hk).trans ?_)
    rw [if_neg (by rw [hdma]; exact Bool.false_ne_true)]
    exact hcore _
  · refine does_of hon (f := takePacket n .put (atCore (fun t p => arrive t p true 0))) ?_
    have hlocal : portAt p.dx p.dy = .localPort := by
      simp only [toCore, Bool.and_eq_true, beq_iff_eq] at hto
      exact hto.2
    obtain ⟨h1, h2, h3, h4⟩ := arrive_put (t := t) (d := without n s.dev) hlocal rfl ha hl ht ho hp hr hrun
    rw [hopen _ hk, hcore]
    exact ⟨h1.trans (hsram _ _), h2, h3, h4⟩
  · refine (hrow hto hk).does ?_
    have ht' : coreTakes t gone = true := ht
    have ho' : ctxOpen p.ctx gone = true := ho
    obtain ⟨ps, h1, h2, h3⟩ := sendPackets_data p (sramRead t p.address p.amount gone) (sramPoisonWords t p.address p.amount gone) gone
    simp only [getAtCore, ht', ho', Bool.not_true, Bool.false_eq_true, if_false]
    exact ⟨ps, h1, h2, fun q hq => by
      obtain ⟨g1, g2, g3, -, -, g4⟩ := h3 q hq
      exact ⟨g1, g2, g3, g4⟩⟩
  · refine does_of hon (f := takePacket n .getData (fun p d => if toDma p then dmaData p d else atCore dataAtCore p d)) ?_
    obtain ⟨he, hend⟩ := dataAtCore_last (d := without n s.dev) hf hp ha ho hr hrun
    obtain ⟨hm, -⟩ := findMsg_some hf
    rw [hopen _ hk, if_neg (by rw [hdma]; exact Bool.false_ne_true), hcore, he]
    refine ⟨hsram _ _, packets_sramWrite t _ _ _ (without n s.dev), _, mem_modCmd ?_ rfl, ticket_answered _ _ _ _ c, hend⟩
    rw [engineOf_sramWrite]
    exact hm
  · refine does_of hon (f := takePacket n .completion (fun p d =>
      if p.die.isSome then relayAnswered p d else if toDma p then dmaAnswer p d else atCore takeCompletion p d)) ?_
    obtain ⟨he, hend⟩ := takeCompletion_last (d := without n s.dev) hf hg ha ho hr
    obtain ⟨hm, -⟩ := findMsg_some hf
    rw [hopen _ hk, hdie, if_neg (by simp), if_neg (by rw [hdma]; exact Bool.false_ne_true), hcore, he]
    exact ⟨rfl, _, mem_modCmd (d := without n s.dev) hm rfl, ticket_answered _ _ _ _ c, hend⟩
  · refine gives_of_eq hon ((hopen _ hk).trans ?_)
    exact if_neg (by rw [show resetActs .core (without n s.dev) = false from hreset]; exact Bool.false_ne_true)
  · refine gives_of_eq hon ((hopen _ hk).trans ?_)
    exact if_neg (by rw [show resetActs .core (without n s.dev) = false from hreset]; exact Bool.false_ne_true)
  · exact runDeliver_single (if_neg (by rw [hk]; simp)) hh hx ho
  · exact runDeliver_single (if_pos hk) hh hx ho

/-! ### The edge of the mesh (R167, R182, R196, R207, R235) -/

theorem inMemory_readBefore (a n : Nat) (d : Dev) : InMemory d (readBefore a n d) := by
  refine InMemory.trans (.foldl (fun x g => ?_) _ _) (.foldl (fun x f => inMemory_meetFlaw f 0 none x) _ _)
  split
  · exact ⟨rfl, rfl, rfl, rfl, rfl, rfl, rfl, fun _ _ => rfl, fun _ _ => rfl⟩
  · exact inMemory_meetBurst g 0 none x

theorem inMemory_writeMark (a n : Nat) (pw : List Nat) (l : Nat) (d : Dev) : InMemory d (writeMark a n pw l d) := by
  refine (inMemory_settleLine l d).trans ?_
  simp only [writeMark]
  generalize settleLine l d = y
  split
  · exact ⟨rfl, rfl, rfl, rfl, rfl, rfl, rfl, fun _ _ => rfl, fun _ _ => rfl⟩
  · split
    · exact ⟨rfl, rfl, rfl, rfl, rfl, rfl, rfl, fun _ _ => rfl, fun _ _ => rfl⟩
    · exact .refl y

theorem inMemory_injectOn (a n l : Nat) (d : Dev) : InMemory d (injectOn a n l d) := by
  have hraise : ∀ c v, InMemory d (raise (pMem c) 22 (wr (rMem c 0 0x88) v d)) := fun c v =>
    (inMemory_wr (by simp) v d).trans (reported_raise _ _ _).inMemory
  unfold injectOn
  cases channelAt (64 * l) d with
  | none => exact .refl d
  | some ch =>
    simp only
    split
    · refine (hraise (ch / 16) (clrBit (rd (rMem (ch / 16) 0 0x88) d) 31)).trans ?_
      generalize raise (pMem (ch / 16)) 22 _ = y
      split <;> exact ⟨rfl, rfl, rfl, rfl, rfl, rfl, rfl, fun _ _ => rfl, fun _ _ => rfl⟩
    · exact .refl d

theorem inMemory_memWrite (a : Nat) (bs : List Byte) (pw : List Nat) (d : Dev) : InMemory d (memWrite a bs pw d) := by
  simp only [memWrite]
  split
  · exact .refl d
  · refine (inMemory_readBefore a bs.length d).trans ?_
    generalize readBefore a bs.length d = y
    refine InMemory.trans ?_ (.foldl (fun x l => ?_) _ _)
    · exact ⟨rfl, rfl, rfl, rfl, rfl, rfl, rfl, fun _ _ => rfl, fun _ _ => rfl⟩
    · split
      · exact .refl x
      · exact (inMemory_writeMark _ _ _ _ x).trans (inMemory_injectOn _ _ _ _)

/-- Nothing comes to light in clean memory. -/
theorem memTouch_clean {d : Dev} (a n : Nat) (ctx : Option Nat) (h : memClean d) : memTouch a n ctx d = d := by
  obtain ⟨hf, -, hb, hbad, hm⟩ := h
  simp [memTouch, burstsIn, hf, hb, hbad, hm]

theorem controllerOf_controllerPort {c : Nat} (hc : c < 24) (a : Nat) :
    controllerOf (controllerPort c a).1 (controllerPort c a).2 = c := by
  have h3 : c % 3 = 0 ∨ c % 3 = 1 ∨ c % 3 = 2 := by omega
  simp only [controllerPort, controllerOf]
  obtain h | h | h := h3 <;> simp only [h] <;> (repeat' split) <;> omega

section Edge

variable {n c : Nat} {p : Packet} {d : Dev}

theorem memArrive_applies (hc : controllerAt p.address d = some c) (hf : holdFull c d = false)
    (hh : rangeHeld p.address (memSpan p) (p.kind == .putMem) d = false) : memArrive n p d = applyMemPacket p (without n d) := by
  simp only [memArrive, hc, hf, hh, Bool.false_eq_true, if_false]
  rfl

theorem memArrive_holds (hc : controllerAt p.address d = some c) (hf : holdFull c d = false)
    (hh : rangeHeld p.address (memSpan p) (p.kind == .putMem) d = true) :
    memArrive n p d = putMemCtl c { memCtl c d with held := (memCtl c d).held ++ [p] } (without n d) := by
  simp only [memArrive, hc, hf, hh, Bool.false_eq_true, if_false, if_true]
  rfl

theorem memArrive_full (hc : controllerAt p.address d = some c) (hf : holdFull c d = true) : memArrive n p d = d := by
  simp only [memArrive, hc, hf, if_true]

/-- A write that meets no undefined range and no armed chunk. -/
theorem mem_applyMemPacket (hk : p.kind = .putMem) (hr : racedOf (senderOf p) p.msgId d = []) (hn : noPlans d = true) :
    (applyMemPacket p d).mem = (memWrite p.address p.payload p.poison d).mem := by
  have hp : noPlans (memWrite p.address p.payload p.poison d) = true := by
    rw [noPlans, (inMemory_memWrite _ _ _ d).engines]
    exact hn
  simp only [applyMemPacket, hk, if_true, hr, ite_self, landed, List.isEmpty_nil, memWrote_no_plans _ _ hp]
  rfl

theorem applyMemPacket_get (hk : p.kind = .getReq) (h : memClean d) : applyMemPacket p d =
    sendPackets (dataPackets p (memBytes p.address p.amount d) (memPoisonWords p.address p.amount d)) d := by
  simp only [applyMemPacket, hk, reduceCtorEq, if_false, memTouch_clean _ _ _ h]

/-- Records without poison are taken one by one. -/
theorem updateArrive_clean (hc : controllerOf p.dx p.dy = c) (hs : inState (pUpd c) [.off, .retired] d = false)
    (hp : p.poison = []) (hr : racedOf (senderOf p) p.msgId d = []) :
    updateArrive p d = sendPackets [answerTo p .done 0] ((recordsOf p).foldl (fun x r => takeTrigger c p.ctx r.1 x) d) := by
  have hrec : ∀ (l : List (Trigger × Bool)) (x : Dev), (∀ r ∈ l, r.2 = false) →
      l.foldl (fun x r => if r.2 then bump (rUpd c 0 0x64) x else takeTrigger c p.ctx r.1 x) x
        = l.foldl (fun x r => takeTrigger c p.ctx r.1 x) x := by
    intro l
    induction l with
    | nil => exact fun _ _ => rfl
    | cons r l ih =>
      intro x h
      rw [List.foldl_cons, List.foldl_cons, h r List.mem_cons_self, if_neg Bool.false_ne_true]
      exact ih _ fun q hq => h q (List.mem_cons_of_mem r hq)
  have hclean : ∀ r ∈ recordsOf p, r.2 = false := by
    intro r hr
    obtain ⟨i, -, rfl⟩ := List.mem_map.1 hr
    simp [hp]
  simp only [updateArrive, hc, hs, Bool.false_eq_true, if_false, hr, landed, List.isEmpty_nil, if_true, hrec _ _ hclean, if_pos hp]

/-- The bytes of a range come from memory and its poison alone. -/
theorem memBytes_without (a m : Nat) : memBytes a m (without n d) = memBytes a m d := by
  have haux : ∀ l a m, memBytesAux (without n d) l a m = memBytesAux d l a m := by
    intro l a m
    induction m generalizing a with
    | zero => rfl
    | succ m ih => exact congrArg _ (ih (a + 1))
  exact haux _ a m

end Edge

theorem edgePacketsArrive : Claims.EdgePacketsArrive := by
  intro n c p s hon hn hreach d rest gone
  have hput : p.kind = .putMem → exec (.putMem n) s = onDev (memArrive n p) s := fun hk => by
    rw [onDev_on hon]
    refine (onDev_on hon _).trans ?_
    simp only [show s.dev.packets[n]? = some p from hn, hk, if_true, deliverMem, hreach]
  have hget : p.kind = .getReq → toCore p = false → exec (.getReq n) s = onDev (memArrive n p) s := fun hk hto => by
    rw [onDev_on hon]
    refine (onDev_on hon _).trans ?_
    simp only [show s.dev.packets[n]? = some p from hn, hk, hto, ne_eq, not_true, if_false, Bool.false_eq_true, deliverMem,
      hreach, if_true]
  refine ⟨fun hk hc hf hh => ?_, fun hk hc hf hh => ?_, fun hk hc hf => ?_, fun hk hto hc hf hh hm => ?_, fun hk hs => ?_,
    fun hk hc hf hs hp hr => ?_, fun hc a => controllerOf_controllerPort hc a⟩
  · have happ := memArrive_applies (n := n) hc hf (by rw [hk]; exact hh)
    rw [hput hk]
    refine ⟨gives_of_eq hon happ, fun hr hp => does_of hon (f := memArrive n p) ?_⟩
    rw [show memArrive n p s.dev = _ from happ]
    exact mem_applyMemPacket (d := without n s.dev) hk hr hp
  · rw [hput hk]
    exact gives_of_eq hon (memArrive_holds hc hf (by rw [hk]; exact hh))
  · rw [hput hk]
    exact gives_of_eq hon (memArrive_full hc hf)
  · rw [hget hk hto]
    refine does_of hon (f := memArrive n p) ?_
    obtain ⟨ps, h1, h2, h3⟩ := sendPackets_data p (memBytes p.address p.amount (without n s.dev))
      (memPoisonWords p.address p.amount (without n s.dev)) (without n s.dev)
    rw [memArrive_applies (n := n) hc hf (by rw [hk]; exact hh), applyMemPacket_get (d := without n s.dev) hk hm]
    exact ⟨ps, h1, h2.trans (memBytes_without _ _), h3⟩
  · refine gives_of_eq hon ((takePacket_open addAtSide hn hk hreach).trans ?_)
    exact if_neg (by rw [show inState (pCounters (if p.dx = 0x7F then 0 else 1)) [.off, .retired] (without n s.dev) = false from hs]
                     exact Bool.false_ne_true)
  · refine gives_of_eq hon ((takePacket_open (fun p d => if holdFull (controllerOf p.dx p.dy) d then sendPackets [p] d else updateArrive p d)
      hn hk hreach).trans ?_)
    rw [if_neg (by rw [hc, show holdFull c (without n s.dev) = false from hf]; exact Bool.false_ne_true)]
    exact updateArrive_clean (d := without n s.dev) hc hs hp hr

/-- Settles O27, with an equation for each kind of packet that arrives. -/
theorem packetsArrive : Obligations.PacketsArrive := ⟨corePacketsArrive, edgePacketsArrive⟩

end Sys2Proof.Machine
end


section
/-!
SUPPORT. The words of a header flit (R169): fields that stand in order within a number come back by their places.
-/

namespace Sys2Proof.Machine

/-- Each field begins at or above `place`, where those before it end. -/
def fieldsInOrder : Nat → List (Nat × Nat × Nat) → Bool
  | _, [] => true
  | place, f :: l => decide (place ≤ f.2.1) && fieldsInOrder (f.2.1 + f.2.2) l

theorem packed_lt {n place lo w : Nat} (v : Nat) (hn : n < 2 ^ place) (h : place ≤ lo) : n + v % 2 ^ w * 2 ^ lo < 2 ^ (lo + w) := by
  have hlo : 2 ^ place ≤ 2 ^ lo := Nat.pow_le_pow_right Nat.two_pos h
  have hv : v % 2 ^ w + 1 ≤ 2 ^ w := Nat.mod_lt _ (Nat.two_pow_pos w)
  calc n + v % 2 ^ w * 2 ^ lo < 2 ^ lo + v % 2 ^ w * 2 ^ lo := by omega
    _ = (v % 2 ^ w + 1) * 2 ^ lo := by rw [Nat.add_mul, Nat.one_mul, Nat.add_comm]
    _ ≤ 2 ^ w * 2 ^ lo := Nat.mul_le_mul_right _ hv
    _ = 2 ^ (lo + w) := by rw [Nat.pow_add, Nat.mul_comm]

/-- Later fields leave what stands below them. -/
theorem packed_mod {l : List (Nat × Nat × Nat)} {n place : Nat} (hn : n < 2 ^ place) (h : fieldsInOrder place l = true) :
    (l.foldl (fun n f => n + f.1 % 2 ^ f.2.2 * 2 ^ f.2.1) n) % 2 ^ place = n := by
  induction l generalizing n place with
  | nil => exact Nat.mod_eq_of_lt hn
  | cons f l ih =>
    obtain ⟨v, lo, w⟩ := f
    simp only [fieldsInOrder, Bool.and_eq_true, decide_eq_true_eq] at h
    obtain ⟨hlo, hl⟩ := h
    have hrest := ih (packed_lt v hn hlo) hl
    have hdvd : 2 ^ place ∣ 2 ^ lo := Nat.pow_dvd_pow 2 hlo
    rw [List.foldl_cons, ← Nat.mod_mod_of_dvd _ (Nat.dvd_trans hdvd (Nat.pow_dvd_pow 2 (Nat.le_add_right lo w))), hrest,
      Nat.add_mod, Nat.mod_eq_zero_of_dvd (Nat.dvd_mul_left_of_dvd hdvd _), Nat.add_zero, Nat.mod_mod, Nat.mod_eq_of_lt hn]

/-- The bits from `lo` on of a number that is known below `lo + w`. -/
theorem div_mod_of_mod {x m lo w : Nat} (h : x % 2 ^ (lo + w) = m) : x / 2 ^ lo % 2 ^ w = m / 2 ^ lo := by
  rw [← h, Nat.pow_add, Nat.mod_mul_right_div_self]

theorem field_of_packed {l : List (Nat × Nat × Nat)} {n place v lo w : Nat} (hn : n < 2 ^ place) (h : fieldsInOrder place l = true)
    (hm : (v, lo, w) ∈ l) : (l.foldl (fun n f => n + f.1 % 2 ^ f.2.2 * 2 ^ f.2.1) n) / 2 ^ lo % 2 ^ w = v % 2 ^ w := by
  induction l generalizing n place with
  | nil => exact absurd hm List.not_mem_nil
  | cons f l ih =>
    simp only [fieldsInOrder, Bool.and_eq_true, decide_eq_true_eq] at h
    obtain ⟨hlo, hl⟩ := h
    have hlt := packed_lt (w := f.2.2) f.1 hn hlo
    rw [List.foldl_cons]
    obtain rfl | hm := List.mem_cons.1 hm
    · have hnlo : n < 2 ^ lo := Nat.lt_of_lt_of_le hn (Nat.pow_le_pow_right Nat.two_pos hlo)
      rw [div_mod_of_mod (packed_mod hlt hl), Nat.add_mul_div_right _ _ (Nat.two_pow_pos lo), Nat.div_eq_of_lt hnlo, Nat.zero_add]
    · exact ih hlt hl hm

theorem fieldOf_packFields {l : List (Nat × Nat × Nat)} {v hi lo : Nat} (h : fieldsInOrder 0 l = true) (hhi : lo ≤ hi ∧ hi < 128)
    (hm : (v, lo, hi + 1 - lo) ∈ l) : fieldOf (BitVec.ofNat 128 (packFields l)).toNat hi lo = v % 2 ^ (hi + 1 - lo) := by
  have hdvd : 2 ^ (lo + (hi + 1 - lo)) ∣ 2 ^ 128 := Nat.pow_dvd_pow 2 (by omega)
  rw [fieldOf, Nat.shiftRight_eq_div_pow, BitVec.toNat_ofNat, ← field_of_packed (n := 0) (by decide : 0 < 2 ^ 0) h hm,
    div_mod_of_mod rfl, div_mod_of_mod rfl, Nat.mod_mod_of_dvd _ hdvd]
  rfl

theorem bitOf_eq_fieldOf (n i : Nat) : bitOf n i = (fieldOf n i i == 1) := by
  rw [bitOf, fieldOf, Nat.add_sub_cancel_left, Nat.pow_one]

theorem kindOf_kindCode (k : PacketKind) : kindOf (kindCode k) = some k := by cases k <;> rfl

theorem kindCode_lt (k : PacketKind) : kindCode k < 2 ^ 4 := by cases k <;> decide

theorem resultOfCode_resultCode (r : Result) : resultOfCode (resultCode r) = r := by cases r <;> rfl

theorem resultCode_lt (r : Result) : resultCode r < 2 ^ 4 := by cases r <;> decide

theorem b2n_flag (b : Bool) : (b2n b % 2 ^ 1 == 1) = b := by cases b <;> rfl

/-- The fields of a header's first word (R169). -/
def headerFields (p : Packet) : List (Nat × Nat × Nat) :=
  [(p.dx, 0, 7), (p.dy, 7, 7), (p.sx, 14, 7), (p.sy, 21, 7), (kindCode p.kind, 28, 4), (p.ctx, 32, 3),
    (p.msgId, 35, 8), (p.index, 43, 7), (p.last, 50, 7), (payWords p, 57, 6), (b2n p.wp.isSome, 63, 1),
    ((p.wp.getD (0, 0)).1, 64, 7), ((p.wp.getD (0, 0)).2, 71, 7), (b2n p.leg, 78, 1), (p.runHi, 79, 6), (p.relayEnd, 85, 6),
    (p.flag, 91, 6), (b2n p.flagEn, 97, 1), (resultCode p.result, 98, 4), (p.detail, 102, 4)]

theorem headerWord0_eq (p : Packet) : headerWord0 p = BitVec.ofNat 128 (packFields (headerFields p)) := rfl

/-- A field of the first word, and one bit of it. -/
theorem field_headerWord0 {p : Packet} {v : Nat} (hi lo : Nat) (hv : v < 2 ^ (hi + 1 - lo)) (i : Nat)
    (hm : (headerFields p)[i]? = some (v, lo, hi + 1 - lo)) (hhi : lo ≤ hi ∧ hi < 128 := by decide) :
    fieldOf (headerWord0 p).toNat hi lo = v := by
  rw [headerWord0_eq, fieldOf_packFields (l := headerFields p) rfl hhi (List.mem_of_getElem? hm), Nat.mod_eq_of_lt hv]

theorem bit_headerWord0 {p : Packet} {b : Bool} (i j : Nat)
    (hm : (headerFields p)[j]? = some (b2n b, i, 1)) (hi : i < 128 := by decide) : bitOf (headerWord0 p).toNat i = b := by
  have hw : i + 1 - i = 1 := Nat.add_sub_cancel_left i 1
  rw [bitOf_eq_fieldOf, headerWord0_eq, fieldOf_packFields (l := headerFields p) rfl ⟨Nat.le_refl _, hi⟩ (by rw [hw]; exact List.mem_of_getElem? hm), hw, b2n_flag]

theorem field_headerWord1 {p : Packet} {v : Nat} (hi lo : Nat) (hv : v < 2 ^ (hi + 1 - lo)) (i : Nat)
    (hm : [(p.address, 0, 64), (p.amount, 64, 32), (p.returnAddr, 96, 21)][i]? = some (v, lo, hi + 1 - lo))
    (hhi : lo ≤ hi ∧ hi < 128 := by decide) :
    fieldOf (headerWord1 p).toNat hi lo = v := by
  rw [show headerWord1 p = BitVec.ofNat 128 (packFields _) from rfl, fieldOf_packFields rfl hhi (List.mem_of_getElem? hm), Nat.mod_eq_of_lt hv]

theorem withHeader_headerWords {p : Packet} (h : headerFits p = true) : withHeader (headerWord0 p) (headerWord1 p) p = some p := by
  simp only [headerFits, Bool.and_eq_true, decide_eq_true_eq] at h
  obtain ⟨⟨⟨⟨⟨⟨⟨⟨⟨⟨⟨⟨⟨⟨⟨⟨hdx, hdy⟩, hsx⟩, hsy⟩, hctx⟩, hmsg⟩, hidx⟩, hlast⟩, hpay⟩, hwp⟩, hrun⟩, hrel⟩, hflag⟩, hdet⟩, haddr⟩,
    ham⟩, hret⟩ := h
  have hwords : payWords p < 2 ^ 6 := by simp only [payWords]; omega
  have htake : p.payload.take (16 * payWords p) = p.payload := List.take_of_length_le (by simp only [payWords]; omega)
  have hway : (if bitOf (headerWord0 p).toNat 63 then
      some (fieldOf (headerWord0 p).toNat 70 64, fieldOf (headerWord0 p).toNat 77 71) else none) = p.wp := by
    rw [bit_headerWord0 (b := p.wp.isSome) 63 10 rfl]
    cases hw : p.wp with
    | none => rfl
    | some w =>
      simp only [hw, Option.all_some, Bool.and_eq_true, decide_eq_true_eq] at hwp
      obtain ⟨h1, h2⟩ := hwp
      rw [field_headerWord0 (v := w.1) 70 64 h1 11 (by simp [headerFields, hw]),
        field_headerWord0 (v := w.2) 77 71 h2 12 (by simp [headerFields, hw])]
      rfl
  simp only [withHeader, hway, field_headerWord0 (v := p.dx) 6 0 hdx 0 rfl,
    field_headerWord0 (v := p.dy) 13 7 hdy 1 rfl,
    field_headerWord0 (v := p.sx) 20 14 hsx 2 rfl,
    field_headerWord0 (v := p.sy) 27 21 hsy 3 rfl,
    field_headerWord0 (v := kindCode p.kind) 31 28 (kindCode_lt _) 4 rfl,
    field_headerWord0 (v := p.ctx) 34 32 hctx 5 rfl,
    field_headerWord0 (v := p.msgId) 42 35 hmsg 6 rfl,
    field_headerWord0 (v := p.index) 49 43 hidx 7 rfl,
    field_headerWord0 (v := p.last) 56 50 hlast 8 rfl,
    field_headerWord0 (v := payWords p) 62 57 hwords 9 rfl,
    bit_headerWord0 (b := p.leg) 78 13 rfl,
    field_headerWord0 (v := p.runHi) 84 79 hrun 14 rfl,
    field_headerWord0 (v := p.relayEnd) 90 85 hrel 15 rfl,
    field_headerWord0 (v := p.flag) 96 91 hflag 16 rfl,
    bit_headerWord0 (b := p.flagEn) 97 17 rfl,
    field_headerWord0 (v := resultCode p.result) 101 98 (resultCode_lt _) 18 rfl,
    field_headerWord0 (v := p.detail) 105 102 hdet 19 rfl,
    field_headerWord1 (v := p.address) 63 0 haddr 0 rfl,
    field_headerWord1 (v := p.amount) 95 64 ham 1 rfl,
    field_headerWord1 (v := p.returnAddr) 116 96 hret 2 rfl, kindOf_kindCode, resultOfCode_resultCode, htake,
    Option.map_some]

end Sys2Proof.Machine
end


section
/-!
SUPPORT. Flits that cross to a router, and the windows after a retirement (R171, R172, R186).
-/

namespace Sys2Proof.Machine

section Flit

variable {k n : Nat} {port : MeshPort} {h : FlitHop} {once again : FlitNoise} {d : Dev}

/-- The packet as it stands once a flit has been kept. -/
def flitKept (k n : Nat) (port : MeshPort) (q : Packet) (d : Dev) : List Packet :=
  d.packets.set n (pruneTrail (advanceHop k port q) d)

theorem routerFlit_body {p : Packet} (hk : k < 2560) (hp : d.packets[n]? = some p) (hu : usable (uRouter k) d = true)
    (hl : linkUsable k port d = true) (hb : bodyHop k port p d = some h) :
    routerFlit k port n once again d = receiveFlit k port n h once again d := by
  simp [routerFlit, hp, hu, hl, hb, Nat.not_le.2 hk]

theorem routerFlit_head {p : Packet} (hk : k < 2560) (hp : d.packets[n]? = some p) (hu : usable (uRouter k) d = true)
    (hl : linkUsable k port d = true) (hb : bodyHop k port p d = none) (hh : headHop k port p d = some h) :
    routerFlit k port n once again d = receiveFlit k port n h once again d := by
  simp [routerFlit, hp, hu, hl, hb, hh, Nat.not_le.2 hk]

theorem routerFlit_none {p : Packet} (hp : d.packets[n]? = some p) (hb : bodyHop k port p d = none)
    (hh : headHop k port p d = none) : routerFlit k port n once again d = d := by
  simp [routerFlit, hp, hb, hh]

theorem judgeWord_clean (poisoned : Bool) : fails (judgeWord poisoned 0) = false ∧ corrects (judgeWord poisoned 0) = false := by
  cases poisoned <;> exact ⟨rfl, rfl⟩

/-- A word that is poisoned already, or had no error left, passes as it is. -/
theorem passWord_clean (i : Nat) (branch poisoned : Bool) (p : Packet) : passWord k i branch (judgeWord poisoned 0) p = p := by
  cases poisoned <;> simp [passWord, judgeWord]

theorem passWord_good (i : Nat) (branch c : Bool) (p : Packet) : passWord k i branch (.good c 0) p = p := by
  simp [passWord]

theorem receiveFlit_payload (hf : h.flit ≠ 0) {q : Packet} {x : Dev}
    (hx : countCorrected k (checkFlit h.packet h.flit once again).corrected
      (if (checkFlit h.packet h.flit once again).resent then countResent k d else d) = x)
    (hq : passWord k (2 * h.flit - 1) h.branch (checkFlit h.packet h.flit once again).second
      (passWord k (2 * h.flit - 2) h.branch (checkFlit h.packet h.flit once again).first h.packet) = q) :
    receiveFlit k port n h once again d = { x with packets := flitKept k n port q x } := by
  simp only [receiveFlit, hx, hf, if_false, hq]
  rfl

theorem judgeFlit_unpoisoned (hp : h.packet.poison = []) (e : FlitNoise) :
    judgeFlit h.packet h.flit e = (judgeWord false e.word0, judgeWord false e.word1) := by
  simp [judgeFlit, hp]

theorem judgeFlit_header (e : FlitNoise) : judgeFlit h.packet 0 e = (judgeWord false e.word0, judgeWord false e.word1) := rfl

theorem checkFlit_clean : (checkFlit h.packet h.flit ⟨0, 0⟩ again).corrected = 0
    ∧ (checkFlit h.packet h.flit ⟨0, 0⟩ again).resent = false
    ∧ passWord k (2 * h.flit - 1) h.branch (checkFlit h.packet h.flit ⟨0, 0⟩ again).second
      (passWord k (2 * h.flit - 2) h.branch (checkFlit h.packet h.flit ⟨0, 0⟩ again).first h.packet) = h.packet := by
  simp only [checkFlit, judgeFlit, (judgeWord_clean _).1, (judgeWord_clean _).2, Bool.or_self, Bool.false_eq_true, if_false]
  exact ⟨rfl, trivial, by rw [passWord_clean, passWord_clean]⟩

/-- A word that fails is had again. -/
theorem checkFlit_resent {v w : Verdict} (ha : judgeFlit h.packet h.flit once = (.uncorrectable, judgeWord false 0))
    (hb : judgeFlit h.packet h.flit again = (v, w)) :
    checkFlit h.packet h.flit once again = ⟨v, w, b2n (corrects v) + b2n (corrects w), true⟩ := by
  simp only [checkFlit, ha, hb, fails, beq_self_eq_true, Bool.true_or, if_true]
  rw [(judgeWord_clean false).2]
  simp [corrects, b2n]

theorem routerOf_countCorrected {m : Nat} (hm : m ≠ 0) :
    routerOf k (countCorrected k m d) = { routerOf k d with corrected := min 255 ((routerOf k d).corrected + m) } := by
  simp [countCorrected, hm, routerOf]

theorem routerOf_countResent :
    routerOf k (countResent k d) = { routerOf k d with resent := min 255 ((routerOf k d).resent + 1) } := by
  simp [countResent, routerOf]

theorem countCorrected_pos {m : Nat} (hm : m ≠ 0) : countCorrected k m d =
    { d with routers := d.routers.set k { routerOf k d with corrected := min 255 ((routerOf k d).corrected + m) } } := if_neg hm

/-- The buffers and the trail do not depend on the routers' counts. -/
theorem flitKept_routers (q : Packet) (r : Tbl Nat Router) : flitKept k n port q { d with routers := r } = flitKept k n port q d := rfl

theorem receiveFlit_clean (hf : h.flit ≠ 0) :
    receiveFlit k port n h ⟨0, 0⟩ again d = { d with packets := flitKept k n port h.packet d } := by
  obtain ⟨hc, hr, hq⟩ := checkFlit_clean (k := k) (h := h) (again := again)
  exact receiveFlit_payload hf (by rw [hc, hr]; rfl) hq

theorem receiveFlit_corrected {b : Nat} (hb : b < 144) (hf : h.flit ≠ 0) (hp : h.packet.poison = []) :
    receiveFlit k port n h ⟨BitVec.ofNat 144 (2 ^ b), 0⟩ again d =
      { countCorrected k 1 d with packets := flitKept k n port h.packet d } := by
  have hc : checkFlit h.packet h.flit ⟨BitVec.ofNat 144 (2 ^ b), 0⟩ again = ⟨.good true 0, .good false 0, 1, false⟩ := by
    simp only [checkFlit, judgeFlit_unpoisoned hp, judgeWord_single hb]
    rfl
  rw [receiveFlit_payload (x := countCorrected k 1 d) (q := h.packet) hf (by rw [hc]; rfl) (by rw [hc, passWord_good, passWord_good]),
    countCorrected_pos Nat.one_ne_zero, flitKept_routers]

theorem receiveFlit_resent (hf : h.flit ≠ 0) (hp : h.packet.poison = []) (h0 : judgeWord false once.word0 = .uncorrectable)
    (h1 : once.word1 = 0) :
    receiveFlit k port n h once ⟨0, 0⟩ d = { countResent k d with packets := flitKept k n port h.packet d } := by
  have hc := checkFlit_resent (h := h) (once := once) (again := ⟨0, 0⟩) (by rw [judgeFlit_unpoisoned hp, h0, h1])
    (judgeFlit_unpoisoned hp _)
  rw [receiveFlit_payload (x := countResent k d) (q := h.packet) hf (by rw [hc]; rfl) (by rw [hc, passWord_clean, passWord_clean]),
    countResent, flitKept_routers]

theorem receiveFlit_poisons (hf : h.flit ≠ 0) (hb : h.branch = false) (hi : 2 * h.flit - 2 < payWords h.packet)
    (hp : h.packet.poison = []) (h0 : judgeWord false once.word0 = .uncorrectable) (h1 : once.word1 = 0) :
    (receiveFlit k port n h once once d).packets = flitKept k n port { h.packet with poison := [2 * h.flit - 2] } d := by
  have hj : judgeFlit h.packet h.flit once = (.uncorrectable, judgeWord false 0) := by rw [judgeFlit_unpoisoned hp, h0, h1]
  have hc := checkFlit_resent hj hj
  have hw : passWord k (2 * h.flit - 2) false .uncorrectable h.packet = { h.packet with poison := [2 * h.flit - 2] } := by
    simp [passWord, Nat.not_le.2 hi, hp]
  rw [receiveFlit_payload (x := countResent k d) (q := { h.packet with poison := [2 * h.flit - 2] }) hf (by rw [hc]; rfl)
    (by rw [hc, hb, hw, passWord_clean]), countResent, flitKept_routers]

theorem receiveFlit_header_lost {u : Nat} (hf : h.flit = 0) (hb : h.branch = false)
    (h0 : judgeWord false once.word0 = .uncorrectable) (h1 : once.word1 = 0) (hl : linkOfPort k port = some u) :
    receiveFlit k port n h once once d = retireUnit u .selfFault { countResent k d with packets := d.packets.eraseIdx n } := by
  have hj : judgeFlit h.packet h.flit once = (.uncorrectable, judgeWord false 0) := by rw [hf, judgeFlit_header, h0, h1]
  have hc := checkFlit_resent hj hj
  rw [hf] at hc
  simp only [receiveFlit, hc, hf, if_true, passHeader, headerLost, hb, Bool.false_eq_true, if_false, hl]
  rfl

end Flit

/-! What spoils data, and what a message meets as it starts, leave packets and MSG_IDs. -/

/-- Only bytes, and the reservations that they break, have changed. -/
structure Spoils (d e : Dev) : Prop where
  packets : e.packets = d.packets
  cores : ∀ k, ∃ r, coreOf k e = { coreOf k d with reservation := r }

theorem Spoils.refl (d : Dev) : Spoils d d := ⟨rfl, fun k => ⟨(coreOf k d).reservation, rfl⟩⟩

theorem Spoils.trans {a b c : Dev} (h : Spoils a b) (h' : Spoils b c) : Spoils a c := by
  refine ⟨h'.packets.trans h.packets, fun k => ?_⟩
  obtain ⟨r, hr⟩ := h.cores k
  obtain ⟨r', hr'⟩ := h'.cores k
  exact ⟨r', by rw [hr', hr]⟩

theorem Spoils.foldl {α : Type} {f : Dev → α → Dev} (h : ∀ d x, Spoils d (f d x)) (l : List α) (d : Dev) : Spoils d (l.foldl f d) := by
  induction l generalizing d with
  | nil => exact .refl d
  | cons x l ih => exact (h d x).trans (ih _)

theorem coreOf_breakReservation_other {j k : Nat} (a n : Nat) (d : Dev) (h : j ≠ k) :
    coreOf j (breakReservation k a n d) = coreOf j d := by
  unfold breakReservation
  split
  · split
    · exact coreOf_modCore_other _ d h
    · rfl
  · rfl

theorem coreOf_sramWrite_other {j k : Nat} (a : Nat) (bs : List Byte) (pw : List Nat) (d : Dev) (h : j ≠ k) :
    coreOf j (sramWrite k a bs pw d) = coreOf j d := by
  simp only [sramWrite]
  split
  · rfl
  · exact coreOf_breakReservation_other a bs.length _ h

theorem coreOf_sramWrite_any (j k a : Nat) (bs : List Byte) (pw : List Nat) (d : Dev) :
    ∃ r, coreOf j (sramWrite k a bs pw d) = { coreOf j d with reservation := r } := by
  by_cases h : j = k
  · subst h
    exact coreOf_sramWrite j a bs pw d
  · exact ⟨(coreOf j d).reservation, coreOf_sramWrite_other a bs pw d h⟩

theorem spoils_freeBytes (k : Nat) (l : List (Nat × Nat)) (d : Dev) : Spoils d (freeBytes k l d) := by
  refine .foldl (fun x r => ?_) l d
  exact ⟨packets_sramWrite k r.1 (freeList r.2 x) [] { x with fresh := x.fresh + r.2 },
    fun j => coreOf_sramWrite_any j k r.1 (freeList r.2 x) [] { x with fresh := x.fresh + r.2 }⟩

theorem InMemory.spoils {d e : Dev} (h : InMemory d e) : Spoils d e :=
  ⟨h.packets, fun k => ⟨(coreOf k d).reservation, by rw [coreOf, h.cores]; rfl⟩⟩

theorem spoils_freeMemory (l : List (Nat × Nat)) (d : Dev) : Spoils d (freeMemory l d) := by
  refine .foldl (fun x r => ?_) l d
  have h := (inMemory_memWrite r.1 (freeList r.2 x) [] { x with fresh := x.fresh + r.2 }).spoils
  exact ⟨h.packets, h.cores⟩

/-- The packets in the mesh and the cores' next MSG_IDs stay. -/
structure SameTraffic (d e : Dev) : Prop where
  packets : e.packets = d.packets
  nextMsg : ∀ k, (coreOf k e).nextMsg = (coreOf k d).nextMsg

theorem SameTraffic.refl (d : Dev) : SameTraffic d d := ⟨rfl, fun _ => rfl⟩

theorem SameTraffic.trans {a b c : Dev} (h : SameTraffic a b) (h' : SameTraffic b c) : SameTraffic a c :=
  ⟨h'.packets.trans h.packets, fun k => (h'.nextMsg k).trans (h.nextMsg k)⟩

theorem SameTraffic.foldl {α : Type} {f : Dev → α → Dev} (h : ∀ d x, SameTraffic d (f d x)) (l : List α) (d : Dev) :
    SameTraffic d (l.foldl f d) := by
  induction l generalizing d with
  | nil => exact .refl d
  | cons x l ih => exact (h d x).trans (ih _)

theorem Spoils.traffic {d e : Dev} (h : Spoils d e) : SameTraffic d e :=
  ⟨h.packets, fun k => by obtain ⟨r, hr⟩ := h.cores k; rw [hr]⟩

theorem sameTraffic_modCore {k : Nat} {f : Core → Core} (hf : ∀ c, (f c).nextMsg = c.nextMsg) (d : Dev) :
    SameTraffic d (modCore k f d) := by
  refine ⟨rfl, fun j => ?_⟩
  by_cases h : j = k
  · rw [h, coreOf_modCore_same, hf]
  · rw [coreOf_modCore_other f d h]

theorem sameTraffic_modCmd (k e : Nat) (t : Word) (f : EngCmd → EngCmd) (d : Dev) : SameTraffic d (modCmd k e t f d) := by
  simp only [modCmd, putEngine]
  refine sameTraffic_modCore (fun _ => ?_) d
  rfl

theorem sameTraffic_addRaced (k : Nat) (t : Word) (l : List (Nat × Nat)) (d : Dev) : SameTraffic d (addRaced k t l d) := by
  unfold addRaced
  split
  · exact .refl d
  · exact sameTraffic_modCmd _ _ _ _ d

theorem sameTraffic_messagesMeet (k : Nat) (c : EngCmd) (o : Nat × EngCmd) (d : Dev) : SameTraffic d (messagesMeet k c o d) := by
  have htwo : ∀ l l', SameTraffic d (addRaced k c.ticket l (addRaced o.1 o.2.ticket l' d)) := fun l l' =>
    (sameTraffic_addRaced _ _ l' d).trans (sameTraffic_addRaced _ _ l _)
  simp only [messagesMeet]
  split
  · exact .refl d
  split
  · exact ((sameTraffic_addRaced _ _ _ d).trans (sameTraffic_addRaced _ _ _ _)).trans (spoils_freeBytes _ _ _).traffic
  split
  · exact sameTraffic_addRaced _ _ _ d
  split
  · exact sameTraffic_addRaced _ _ _ d
  split
  · exact (htwo _ _).trans (spoils_freeMemory _ _).traffic
  split
  · exact .refl d
  · exact (htwo _ _).trans (.foldl (fun x t => (spoils_freeBytes t _ x).traffic) _ _)

theorem sameTraffic_messageMeets (k : Nat) (c : EngCmd) (d : Dev) : SameTraffic d (messageMeets k c d) := by
  refine SameTraffic.trans ?_ (.foldl (fun x o => sameTraffic_messagesMeet k c o x) _ _)
  split
  · exact sameTraffic_modCmd _ _ _ _ d
  · exact (sameTraffic_modCmd _ _ _ _ d).trans (sameTraffic_addRaced _ _ _ _)

/-! The messages that start. -/

theorem portAt_of_core {k : Nat} (hk : k < 2560) : portAt (coreX k) (coreY k) = .localPort := by
  have hx : coreX k < 64 := Nat.mod_lt _ (by decide)
  have hy : coreY k ≤ 39 := by rw [coreY]; omega
  simp only [portAt]
  rw [if_neg (by omega), if_neg (by omega), if_neg (by omega), if_neg (by omega)]

theorem sendPackets_locals {ps : List Packet} (h : ∀ p ∈ ps, portAt p.sx p.sy = .localPort) (d : Dev) :
    sendPackets ps d = { d with packets := d.packets ++ ps } := by
  have hmap : ps.map (fun p => if meshHeld d && portAt p.sx p.sy != .localPort then { p with heldBack := true } else p) = ps :=
    (List.map_congr_left (g := id) fun p hp => by rw [h p hp, bne_self_eq_false, Bool.and_false]; rfl).trans (List.map_id ps)
  rw [sendPackets, hmap]

section Start

variable {k : Nat} {c : EngCmd} {d : Dev}

theorem launchMsg_sends {ps : List Packet} (awaited : Nat) (outs : List (Nat × Result × Nat))
    (h : ∀ p ∈ ps, portAt p.sx p.sy = .localPort) :
    (launchMsg k c ps awaited outs d).packets = d.packets ++ ps
    ∧ (coreOf k (launchMsg k c ps awaited outs d)).nextMsg = ((coreOf k d).nextMsg + 1) % 256 := by
  have hm := sameTraffic_messageMeets k c (modCore k (fun x => { x with nextMsg := (x.nextMsg + 1) % 256 })
    (modCmd k 2 c.ticket (startCmd (coreOf k d).nextMsg awaited outs d) (sendPackets ps d)))
  have hs := sameTraffic_modCmd k 2 c.ticket (startCmd (coreOf k d).nextMsg awaited outs d) (sendPackets ps d)
  refine ⟨(hm.packets.trans hs.packets).trans (by rw [sendPackets_locals h]), (hm.nextMsg k).trans ?_⟩
  rw [coreOf_modCore_same]
  exact congrArg (fun x => (x + 1) % 256) (hs.nextMsg k)

theorem startMessage_goes {pick : MsgDesc → Bool} (go : EngCmd → MsgDesc → Dev → Dev) (hn : nextCmd (coreOf k d) 2 = some c)
    (hp : pick (msgDesc c.desc) = true) (hs : inState (pCore k) [.ready, .active, .loading] d = true)
    (hf : (msgDesc c.desc).fence = false ∨ (engineOf (coreOf k d) 2).cmds.any (fun x => x.started && !x.completed) = false)
    (hl : (msgDesc c.desc).length ≤ 65536) : startMessage k pick go d = go c (msgDesc c.desc) d := by
  have hf' : ((msgDesc c.desc).fence && (engineOf (coreOf k d) 2).cmds.any (fun x => x.started && !x.completed)) = false := by
    obtain hf | hf := hf <;> simp [hf]
  simp only [startMessage, hn, hp, hs, hf', Bool.not_true, Bool.or_self, Bool.false_eq_true, if_false, Nat.not_lt.2 hl]

/-- The pieces of a range carry its bytes, 512 at most each. -/
theorem payload_cut512 (bs : List Byte) {f : Nat × List Byte → Packet} (hf : ∀ x, (f x).payload = x.2) :
    ((cut512 bs).map f).flatMap (·.payload) = bs := by
  rw [List.flatMap_map]
  simp only [hf]
  exact flatMap_cut512 bs

theorem length_of_mem_cut512 {bs : List Byte} {x : Nat × List Byte} (h : x ∈ cut512 bs) : x.2.length ≤ 512 := by
  unfold cut512 at h
  split at h
  · rw [List.mem_singleton.1 h]
    exact Nat.zero_le _
  · obtain ⟨i, -, rfl⟩ := List.mem_map.1 h
    exact List.length_take_le _ _

theorem sameTraffic_expectAt (t src id ctx place : Nat) (m : MsgDesc) (last : Nat) (d : Dev) :
    SameTraffic d (expectAt t src id ctx place m last d) := by
  unfold expectAt
  refine sameTraffic_modCore (fun _ => ?_) d
  rfl

/-- Usable places in a row make one run. -/
theorem runsOf_usable {ok : Nat → Bool} (m q lo : Nat) (h : ∀ p, q < p → p ≤ q + m → ok p = true) :
    runsOf ok (List.range' (q + 1) m) [(lo, q)] = [(lo, q + m)] := by
  induction m generalizing q with
  | zero => rfl
  | succ m ih =>
    rw [List.range'_succ, runsOf, if_pos (h _ (by omega) (by omega))]
    simp only [if_true]
    rw [ih (q + 1) fun p h1 h2 => h p (by omega) (by omega)]
    congr 2
    omega

theorem runsOf_placesOf {ok : Nat → Bool} {lo hi : Nat} (hl : lo ≤ hi) (h : ∀ p, lo ≤ p → p ≤ hi → ok p = true) :
    runsOf ok (placesOf lo hi) [] = [(lo, hi)] := by
  have hp : placesOf lo hi = lo :: List.range' (lo + 1) (hi - lo) := by
    rw [placesOf, show hi + 1 - lo = hi - lo + 1 by omega, ← List.range'_succ, List.range'_eq_map_range]
    exact List.map_congr_left fun x _ => Nat.add_comm x lo
  rw [hp, runsOf, if_pos (h lo (Nat.le_refl lo) hl)]
  rw [runsOf_usable _ _ _ fun p h1 h2 => h p (by omega) (by omega)]
  congr 2
  omega

end Start

end Sys2Proof.Machine
end


section
/-!
SUPPORT. Messages start, and messages whose window has passed end (R111, R116 to R118, R168, R181 to R183, R186).
-/

namespace Sys2Proof.Machine

section Start

variable {k : Nat} {c : EngCmd} {m : MsgDesc} {d : Dev}

/-- What the packets of a message carry, with what else holds of each. -/
def Carries (k : Nat) (c : EngCmd) (kind : PacketKind) (ok : Packet → Prop) (d e : Dev) : Prop :=
  ∃ ps, e.packets = d.packets ++ ps
    ∧ ps.flatMap (·.payload) = sramRead k (msgDesc c.desc).localAddr (msgDesc c.desc).length d
    ∧ ∀ p ∈ ps, p.kind = kind ∧ p.msgId = (coreOf k d).nextMsg ∧ p.ctx = c.ctx ∧ p.payload.length ≤ 512 ∧ ok p

/-- A launch of one packet for each piece of the source range. -/
theorem carries_launchMsg {kind : PacketKind} {ok : Packet → Prop} {f : Nat × List Byte → Packet} {x : Dev} (hk : k < 2560)
    (hx : SameTraffic d x) (awaited : Nat) (outs : List (Nat × Result × Nat)) (hpay : ∀ y, (f y).payload = y.2)
    (hfrom : ∀ y, (f y).sx = coreX k ∧ (f y).sy = coreY k)
    (hok : ∀ y, (f y).kind = kind ∧ (f y).msgId = (coreOf k d).nextMsg ∧ (f y).ctx = c.ctx ∧ ok (f y)) :
    Carries k c kind ok d (launchMsg k c
      ((cut512 (sramRead k (msgDesc c.desc).localAddr (msgDesc c.desc).length d)).map f) awaited outs x)
    ∧ (coreOf k (launchMsg k c
      ((cut512 (sramRead k (msgDesc c.desc).localAddr (msgDesc c.desc).length d)).map f) awaited outs x)).nextMsg
        = ((coreOf k d).nextMsg + 1) % 256 := by
  have hlocal : ∀ p ∈ (cut512 (sramRead k (msgDesc c.desc).localAddr (msgDesc c.desc).length d)).map f,
      portAt p.sx p.sy = .localPort := by
    intro p hp
    obtain ⟨y, -, rfl⟩ := List.mem_map.1 hp
    obtain ⟨h1, h2⟩ := hfrom y
    rw [h1, h2, portAt_of_core hk]
  obtain ⟨h1, h2⟩ := launchMsg_sends (k := k) (c := c) (d := x) awaited outs hlocal
  refine ⟨⟨_, h1.trans (by rw [hx.packets]), payload_cut512 _ hpay, fun p hp => ?_⟩, h2.trans (by rw [hx.nextMsg])⟩
  obtain ⟨y, hy, rfl⟩ := List.mem_map.1 hp
  obtain ⟨ha, hb, hc, hd⟩ := hok y
  exact ⟨ha, hb, hc, by rw [hpay]; exact length_of_mem_cut512 hy, hd⟩

theorem counterMsg_sends (hk : k < 2560) (hl : m.length = 0) (hr : m.remote ≤ 511) :
    ∃ p, (counterMsg k c m d).packets = d.packets ++ [p] ∧ p.kind = .counterAdd
      ∧ p.dx = (if m.x % 2 = 0 then 0x7F else 0x40) ∧ p.dy = coreY k ∧ p.address = m.remote ∧ p.amount = m.inc := by
  rw [counterMsg, if_neg (by omega)]
  refine ⟨_, (launchMsg_sends 1 [] fun p hp => ?_).1, rfl, rfl, rfl, rfl, rfl⟩
  rw [List.mem_singleton.1 hp]
  exact portAt_of_core hk

theorem getMsg_sends (hk : k < 2560) (ht : m.target = 0) (hy : m.y ≤ 39) (hr : m.remote + m.length ≤ kernelWindow)
    (hin : inSram c.user m.localAddr m.length = true) (hs : coreSendable (coreAt m.x m.y) d = true) :
    ∃ p, (getMsg k c m d).packets = d.packets ++ [p] ∧ p.kind = .getReq ∧ p.dx = m.x ∧ p.dy = m.y
      ∧ p.address = m.remote ∧ p.amount = m.length ∧ p.returnAddr = m.localAddr ∧ p.msgId = (coreOf k d).nextMsg := by
  simp only [getMsg, ht, if_true, hin, hs, Nat.not_lt.2 hy, Nat.not_lt.2 hr, show (true == false) = false from rfl, Bool.false_eq_true,
    or_self, if_false, Bool.true_eq_false]
  refine ⟨_, (launchMsg_sends m.length [] fun p hp => ?_).1, rfl, rfl, rfl, rfl, rfl, rfl, rfl⟩
  rw [List.mem_singleton.1 hp]
  exact portAt_of_core hk

theorem sameTraffic_expected (t : Nat → Nat) (src id ctx last : Nat) (place : Nat → Nat) (m : MsgDesc) (l : List Nat) (d : Dev) :
    SameTraffic d (l.foldl (fun x p => expectAt (t p) src id ctx (place p) m last x) d) :=
  .foldl (fun x p => sameTraffic_expectAt (t p) src id ctx (place p) m last x) l d

/-- A piece of a PUT to a core. -/
def putPiece (k : Nat) (c : EngCmd) (m : MsgDesc) (last : Nat) (d : Dev) (x : Nat × List Byte) : Packet :=
  { packetFrom k c m (coreOf k d).nextMsg with
    kind := .put, dx := m.x, dy := m.y, index := x.1, last := last, address := m.remote + 512 * x.1, payload := x.2,
    poison := poisonWithin (sramPoisonWords k m.localAddr m.length d) (32 * x.1) 32 }

/-- A piece of an UPDATE_QUEUE message. -/
def updatePiece (k : Nat) (c : EngCmd) (m : MsgDesc) (d : Dev) (x : Nat × List Byte) : Packet :=
  { packetFrom k c m (coreOf k d).nextMsg with
    kind := .updatePut, dx := (controllerPort m.x (512 * x.1)).1, dy := (controllerPort m.x (512 * x.1)).2,
    address := 512 * x.1, payload := x.2, poison := poisonWithin (sramPoisonWords k m.localAddr m.length d) (32 * x.1) 32,
    place := m.x }

/-- A piece of a multicast to the run lo..hi, entered at (dx, dy). -/
def runPiece (k : Nat) (c : EngCmd) (m : MsgDesc) (row : Bool) (lo hi dx dy last : Nat) (d : Dev) (x : Nat × List Byte) : Packet :=
  { packetFrom k c m (coreOf k d).nextMsg with
    kind := .mcPut, dx := dx, dy := dy, index := x.1, last := last, address := m.remote + 512 * x.1, payload := x.2,
    poison := poisonWithin (sramPoisonWords k m.localAddr m.length d) (32 * x.1) 32, row := row, runLo := lo, runHi := hi,
    place := lo }

theorem putCoreMsg_eq (hy : m.y ≤ 39) (hr : m.remote + m.length ≤ kernelWindow)
    (hin : inSram c.user m.localAddr m.length = true) (hs : coreSendable (coreAt m.x m.y) d = true) :
    putCoreMsg k c m d = launchMsg k c ((cut512 (sramRead k m.localAddr m.length d)).map
        (putPiece k c m ((cut512 (sramRead k m.localAddr m.length d)).length - 1) d)) 1 []
      (expectAt (coreAt m.x m.y) k (coreOf k d).nextMsg c.ctx 0 m ((cut512 (sramRead k m.localAddr m.length d)).length - 1) d) := by
  rw [putCoreMsg, if_neg (by rw [hin]; simp only [Bool.true_eq_false, or_false]; omega)]
  simp only [hs, Bool.true_eq_false, if_false]
  rfl

theorem updateMsg_eq (hx : m.x ≤ 23) (hin : inSram c.user m.localAddr m.length = true) :
    updateMsg k c m d = launchMsg k c ((cut512 (sramRead k m.localAddr m.length d)).map (updatePiece k c m d))
      ((cut512 (sramRead k m.localAddr m.length d)).map (updatePiece k c m d)).length [] d := by
  rw [updateMsg, if_neg (by rw [hin]; simp only [Bool.true_eq_false, or_false]; omega)]
  rfl

/-- A multicast whose routers are all usable is one run. -/
theorem rowMsg_eq (hx : m.x ≤ m.x2) (hy : m.y ≤ 39) (hr : m.remote + m.length ≤ kernelWindow)
    (hin : inSram c.user m.localAddr m.length = true)
    (hu : ∀ x, m.x ≤ x → x ≤ m.x2 → usable (uRouter (coreAt x m.y)) d = true) :
    ∃ n outs e, SameTraffic d e ∧ multicastMsg k c m true d = launchMsg k c ((cut512 (sramRead k m.localAddr m.length d)).map
      (runPiece k c m true m.x m.x2 (entryPlace (coreX k) m.x m.x2) m.y ((cut512 (sramRead k m.localAddr m.length d)).length - 1) d))
        n outs e := by
  rw [multicastMsg, if_neg (by rw [hin]; simp; omega)]
  simp only [if_true, lineCore]
  rw [runsOf_placesOf hx hu]
  simp only [List.flatMap_cons, List.flatMap_nil, List.append_nil]
  refine ⟨_, _, _, ?_, rfl⟩
  exact sameTraffic_expected _ _ _ _ _ _ _ _ _

theorem columnMsg_eq (hx : m.y ≤ m.y2) (hy : m.y2 ≤ 39) (hr : m.remote + m.length ≤ kernelWindow)
    (hin : inSram c.user m.localAddr m.length = true)
    (hu : ∀ y, m.y ≤ y → y ≤ m.y2 → usable (uRouter (coreAt m.x y)) d = true) :
    ∃ n outs e, SameTraffic d e ∧ multicastMsg k c m false d = launchMsg k c ((cut512 (sramRead k m.localAddr m.length d)).map
      (runPiece k c m false m.y m.y2 m.x (entryPlace (coreY k) m.y m.y2) ((cut512 (sramRead k m.localAddr m.length d)).length - 1) d))
        n outs e := by
  rw [multicastMsg, if_neg (by rw [hin]; simp; omega)]
  simp only [Bool.false_eq_true, if_false, lineCore]
  rw [runsOf_placesOf hx hu]
  simp only [List.flatMap_cons, List.flatMap_nil, List.append_nil]
  refine ⟨_, _, _, ?_, rfl⟩
  exact sameTraffic_expected _ _ _ _ _ _ _ _ _

theorem carries_put (hk : k < 2560) (hm : msgDesc c.desc = m) (hy : m.y ≤ 39) (hr : m.remote + m.length ≤ kernelWindow)
    (hin : inSram c.user m.localAddr m.length = true) (hs : coreSendable (coreAt m.x m.y) d = true) :
    Carries k c .put (fun p => p.dx = m.x ∧ p.dy = m.y) d (putCoreMsg k c m d)
    ∧ (coreOf k (putCoreMsg k c m d)).nextMsg = ((coreOf k d).nextMsg + 1) % 256 := by
  subst hm
  rw [putCoreMsg_eq hy hr hin hs]
  refine carries_launchMsg hk (sameTraffic_expectAt _ _ _ _ _ _ _ _) 1 [] (fun _ => ?_) (fun _ => ?_) fun _ => ?_
  · exact rfl
  · exact ⟨rfl, rfl⟩
  · exact ⟨rfl, rfl, rfl, rfl, rfl⟩

theorem carries_update (hk : k < 2560) (hm : msgDesc c.desc = m) (hx : m.x ≤ 23)
    (hin : inSram c.user m.localAddr m.length = true) :
    Carries k c .updatePut (fun p => p.place = m.x) d (updateMsg k c m d) := by
  subst hm
  rw [updateMsg_eq hx hin]
  refine (carries_launchMsg hk (.refl d) _ _ (fun _ => ?_) (fun _ => ?_) fun _ => ?_).1
  · exact rfl
  · exact ⟨rfl, rfl⟩
  · exact ⟨rfl, rfl, rfl, rfl⟩

theorem carries_row (hk : k < 2560) (hm : msgDesc c.desc = m) (hx : m.x ≤ m.x2) (hy : m.y ≤ 39)
    (hr : m.remote + m.length ≤ kernelWindow) (hin : inSram c.user m.localAddr m.length = true)
    (hu : ∀ x, m.x ≤ x → x ≤ m.x2 → usable (uRouter (coreAt x m.y)) d = true) :
    Carries k c .mcPut (fun p => p.row = true ∧ p.dy = m.y ∧ p.runLo = m.x ∧ p.runHi = m.x2
      ∧ p.dx = entryPlace (coreX k) m.x m.x2) d (multicastMsg k c m true d) := by
  subst hm
  obtain ⟨n, outs, e, he, h⟩ := rowMsg_eq (k := k) (c := c) hx hy hr hin hu
  rw [h]
  refine (carries_launchMsg hk he n outs (fun _ => ?_) (fun _ => ?_) fun _ => ?_).1
  · exact rfl
  · exact ⟨rfl, rfl⟩
  · exact ⟨rfl, rfl, rfl, rfl, rfl, rfl, rfl, rfl⟩

theorem carries_column (hk : k < 2560) (hm : msgDesc c.desc = m) (hx : m.y ≤ m.y2) (hy : m.y2 ≤ 39)
    (hr : m.remote + m.length ≤ kernelWindow) (hin : inSram c.user m.localAddr m.length = true)
    (hu : ∀ y, m.y ≤ y → y ≤ m.y2 → usable (uRouter (coreAt m.x y)) d = true) :
    Carries k c .mcPut (fun p => p.row = false ∧ p.dx = m.x ∧ p.runLo = m.y ∧ p.runHi = m.y2
      ∧ p.dy = entryPlace (coreY k) m.y m.y2) d (multicastMsg k c m false d) := by
  subst hm
  obtain ⟨n, outs, e, he, h⟩ := columnMsg_eq (k := k) (c := c) hx hy hr hin hu
  rw [h]
  refine (carries_launchMsg hk he n outs (fun _ => ?_) (fun _ => ?_) fun _ => ?_).1
  · exact rfl
  · exact ⟨rfl, rfl⟩
  · exact ⟨rfl, rfl, rfl, rfl, rfl, rfl, rfl, rfl⟩

end Start

theorem messagesStart : Claims.MessagesStart := by
  intro k c s hon hk hn hs d m id carries hfence hlen
  have hgo : ∀ {pick : MsgDesc → Bool} {go : EngCmd → MsgDesc → Dev → Dev} {P : Dev → Prop}, pick m = true → P (go c m d) →
      Does s (onDev (startMessage k pick go) s) P := fun hp hP =>
    does_of hon (by rw [startMessage_goes _ hn hp hs hfence hlen]; exact hP)
  refine ⟨fun hg ht hl hr => hgo (by simp [hg, ht]) (counterMsg_sends hk hl hr), fun hin =>
    ⟨fun hg ht hy hr hc => hgo (by simp [hg, ht]) ?_, fun hg ht hy hr hl hc => hgo hg (getMsg_sends hk ht hy hr hin hc),
      fun hg ht hx => hgo (by simp [hg, ht]) (carries_update hk rfl hx hin),
      fun hg ht hx hy hr hu => hgo (by simp [hg, ht]) (carries_row hk rfl hx hy hr hin hu),
      fun hg ht hx hy hr hu => hgo (by simp [hg, ht]) (carries_column hk rfl hx hy hr hin hu)⟩⟩
  rw [if_pos ht]
  exact carries_put hk rfl hy hr hin hc

/-! ### The windows after a retirement -/

section Windows

variable {k : Nat} {d : Dev}

theorem freeEntries_stale (hk : k < 2560) (ht : coreTakes k d = true) (hs : ∀ a ∈ (coreOf k d).arrivals, staleArrival d a = true) :
    (coreOf k (freeEntries k d)).arrivals = []
    ∧ (freeEntries k d).packets = d.packets ++ (coreOf k d).arrivals.map (fun a =>
        completionPacket a.source a.msgId a.place k .failed 5) := by
  have hall : (coreOf k d).arrivals.filter (staleArrival d) = (coreOf k d).arrivals := List.filter_eq_self.2 hs
  have hnone : (coreOf k d).arrivals.filter (fun a => !staleArrival d a) = [] :=
    List.filter_eq_nil_iff.2 fun a ha => by simp [hs a ha]
  have hf := spoils_freeBytes k ((coreOf k d).arrivals.flatMap (·.wrote))
    (modCore k (fun c => { c with arrivals := c.arrivals.filter (fun a => !staleArrival d a) }) d)
  simp only [freeEntries, ht, Bool.true_eq_false, if_false, hall]
  rw [sendPackets_locals]
  · have hgone : (coreOf k { freeBytes k ((coreOf k d).arrivals.flatMap (·.wrote))
          (modCore k (fun c => { c with arrivals := c.arrivals.filter (fun a => !staleArrival d a) }) d) with
        packets := (freeBytes k ((coreOf k d).arrivals.flatMap (·.wrote))
          (modCore k (fun c => { c with arrivals := c.arrivals.filter (fun a => !staleArrival d a) }) d)).packets
            ++ (coreOf k d).arrivals.map (fun a => completionPacket a.source a.msgId a.place k .failed 5) }).arrivals = [] := by
      obtain ⟨r, hr⟩ := hf.cores k
      exact (congrArg Core.arrivals hr).trans ((congrArg Core.arrivals (coreOf_modCore_same k _ d)).trans hnone)
    rw [hgone]
    exact ⟨hgone, congrArg (· ++ _) hf.packets⟩
  · intro p hp
    obtain ⟨a, -, rfl⟩ := List.mem_map.1 hp
    exact portAt_of_core hk

/-- The engines of every core stay. -/
def SameEngines (d e : Dev) : Prop := ∀ k, (coreOf k e).engines = (coreOf k d).engines

theorem SameEngines.trans {a b c : Dev} (h : SameEngines a b) (h' : SameEngines b c) : SameEngines a c :=
  fun k => (h' k).trans (h k)

theorem SameEngines.foldl {α : Type} {f : Dev → α → Dev} (h : ∀ d x, SameEngines d (f d x)) (l : List α) (d : Dev) :
    SameEngines d (l.foldl f d) := by
  induction l generalizing d with
  | nil => exact fun _ => rfl
  | cons x l ih => exact (h d x).trans (ih _)

theorem Spoils.engines {d e : Dev} (h : Spoils d e) : SameEngines d e := fun k => by
  obtain ⟨r, hr⟩ := h.cores k
  rw [hr]

theorem sameEngines_modCore {t : Nat} {f : Core → Core} (hf : ∀ c, (f c).engines = c.engines) (d : Dev) :
    SameEngines d (modCore t f d) := fun j => by
  by_cases h : j = t
  · rw [h, coreOf_modCore_same, hf]
  · rw [coreOf_modCore_other f d h]

theorem sameEngines_addFlag (t f : Nat) (n : Word) (d : Dev) : SameEngines d (addFlag t f n d) := by
  unfold addFlag
  refine sameEngines_modCore (fun _ => ?_) d
  rfl

theorem sameEngines_settleContests (t : Nat) (l : List Contest) (d : Dev) : SameEngines d (settleContests t l d) := by
  refine .foldl (fun x c => ?_) l d
  split <;> exact fun _ => rfl

theorem sameEngines_applyOutcomes (n t : Nat) (d : Dev) : SameEngines d (applyOutcomes n t d) := by
  induction n generalizing d with
  | zero => exact fun _ => rfl
  | succ n ih =>
    simp only [applyOutcomes]
    split
    · exact fun _ => rfl
    · split
      · exact fun _ => rfl
      · refine SameEngines.trans ?_ (ih _)
        have hm : ∀ (l : List Contest) (f : Core → Core), (∀ c, (f c).engines = c.engines) →
            SameEngines d (settleContests t l (modCore t f d)) := fun l f hf =>
          (sameEngines_modCore hf d).trans (sameEngines_settleContests t l _)
        refine SameEngines.trans (b := ite _ _ _) ?_ fun _ => rfl
        split
        · refine (hm _ _ fun _ => ?_).trans (sameEngines_addFlag _ _ _ _)
          rfl
        · refine hm _ _ fun _ => ?_
          rfl

theorem sameEngines_dropExpected (k id : Nat) (d : Dev) : SameEngines d (dropExpected k id d) := by
  refine .foldl (fun x t => ?_) _ d
  refine (sameEngines_modCore (fun _ => ?_) x).trans (sameEngines_applyOutcomes _ _ _)
  rfl

theorem sameEngines_spoilTarget (k : Nat) (m : MsgDesc) (d : Dev) : SameEngines d (spoilTarget k m d) := by
  unfold spoilTarget
  split
  · exact (spoils_freeBytes _ _ d).engines
  · split
    · exact (spoils_freeMemory _ d).engines
    · exact .foldl (fun x t => (spoils_freeBytes t _ x).engines) _ d

/-- The messenger holds a message of the ticket, with this end where one is named. -/
def holdsMessage (k : Nat) (t : Word) (P : EngCmd → Prop) (d : Dev) : Prop :=
  ∃ y ∈ (engineOf (coreOf k d) 2).cmds, y.ticket = t ∧ P y

theorem SameEngines.holdsMessage {d e : Dev} (h : SameEngines d e) {t : Word} {P : EngCmd → Prop} (hd : holdsMessage k t P d) :
    holdsMessage k t P e := by
  have he : engineOf (coreOf k e) 2 = engineOf (coreOf k d) 2 := by rw [engineOf, h k]; rfl
  rwa [Sys2Proof.Machine.holdsMessage, he]

/-- An end that is written stands, at each message of its ticket. -/
theorem holdsMessage_endWork {t u : Word} {r : Result} {detail : Nat} {P : EngCmd → Prop}
    (hP : ∀ y : EngCmd, y.ticket = u → (P y ∨ t = u) → P { y with ended := some (r, detail) })
    (h : holdsMessage k t P d ∨ t = u ∧ holdsMessage k t (fun _ => True) d) :
    holdsMessage k t P (endWork k 2 u r detail d) := by
  have hc : (engineOf (coreOf k (endWork k 2 u r detail d)) 2).cmds
      = updCmd u (fun c => { c with ended := some (r, detail) }) (engineOf (coreOf k d) 2).cmds := by
    simp [endWork, modCmd, putEngine, engineOf]
  rw [holdsMessage, hc, updCmd]
  obtain ⟨y, hy, ht, hPy⟩ | ⟨rfl, y, hy, ht, -⟩ := h
  · refine ⟨_, List.mem_map.2 ⟨y, hy, rfl⟩, ?_⟩
    split
    · next hu => exact ⟨ht, hP y hu (.inl hPy)⟩
    · exact ⟨ht, hPy⟩
  · exact ⟨_, List.mem_map.2 ⟨y, hy, if_pos ht⟩, ht, hP y ht (.inr rfl)⟩

/-- One stale message of a source ends. -/
def endOneStale (k : Nat) (d : Dev) (c : EngCmd) : Dev :=
  endWork k 2 c.ticket .failed 5 (dropExpected k c.msgId (spoilTarget k (msgDesc c.desc) d))

theorem endOneStale_ends (c : EngCmd) (h : holdsMessage k c.ticket (fun _ => True) d) :
    holdsMessage k c.ticket (fun y => y.ended = some (.failed, 5)) (endOneStale k d c) :=
  holdsMessage_endWork (fun _ _ _ => rfl)
    (.inr ⟨rfl, ((sameEngines_spoilTarget k _ d).trans (sameEngines_dropExpected k _ _)).holdsMessage h⟩)

theorem endOneStale_keeps (c : EngCmd) {t : Word} {P : EngCmd → Prop} (hP : ∀ y : EngCmd, P { y with ended := some (.failed, 5) })
    (h : holdsMessage k t P d) : holdsMessage k t P (endOneStale k d c) :=
  holdsMessage_endWork (fun y _ _ => hP y)
    (.inl (((sameEngines_spoilTarget k _ d).trans (sameEngines_dropExpected k _ _)).holdsMessage h))

theorem foldl_endOneStale_keeps (l : List EngCmd) {t : Word} {P : EngCmd → Prop}
    (hP : ∀ y : EngCmd, P { y with ended := some (.failed, 5) }) (h : holdsMessage k t P d) :
    holdsMessage k t P (l.foldl (endOneStale k) d) := by
  induction l generalizing d with
  | nil => exact h
  | cons c l ih => exact ih (endOneStale_keeps c hP h)

theorem foldl_endOneStale_ends {l : List EngCmd} {c : EngCmd} (hc : c ∈ l) (h : holdsMessage k c.ticket (fun _ => True) d) :
    holdsMessage k c.ticket (fun y => y.ended = some (.failed, 5)) (l.foldl (endOneStale k) d) := by
  induction l generalizing d with
  | nil => exact absurd hc List.not_mem_nil
  | cons b l ih =>
    obtain rfl | hc := List.mem_cons.1 hc
    · exact foldl_endOneStale_keeps l (fun _ => rfl) (endOneStale_ends c h)
    · exact ih hc (endOneStale_keeps b (fun _ => trivial) h)

end Windows

theorem meshErrorsComplete : Claims.MeshErrorsComplete := by
  intro k n i u port h once again p s hon hk d kept clean bit e
  refine ⟨withHeader_headerWords, fun hp hu hl hb => gives_of_eq hon (routerFlit_body hk hp hu hl hb),
    fun hp hu hl hb hh => gives_of_eq hon (routerFlit_head hk hp hu hl hb hh),
    fun hp hb hh => gives_of_eq hon (routerFlit_none hp hb hh), receiveFlit_clean, fun b hb hf hp => ?_,
    fun hf hp h0 h1 => ?_, fun hf hb hi hw hp h0 h1 => ?_, fun hf hb h0 h1 hl => receiveFlit_header_lost hf hb h0 h1 hl,
    fun ht ha hs => does_of hon (freeEntries_stale hk ht hs), fun c hc hs => does_of hon (f := endStale k) ?_⟩
  · have hr := receiveFlit_corrected (k := k) (n := n) (port := port) (again := again) (d := d) hb hf hp
    exact ⟨congrArg Dev.packets hr, (congrArg (routerOf k) hr).trans (routerOf_countCorrected Nat.one_ne_zero)⟩
  · have hr := receiveFlit_resent (k := k) (n := n) (port := port) (d := d) hf hp h0 h1
    exact ⟨congrArg Dev.packets hr, (congrArg (routerOf k) hr).trans routerOf_countResent⟩
  · subst hi
    exact receiveFlit_poisons hf hb hw hp h0 h1
  · exact foldl_endOneStale_ends (List.mem_filter.2 ⟨hc, hs⟩) ⟨c, hc, rfl, trivial⟩

/-- Settles O28, with an equation for each way a message starts and a flit crosses. -/
theorem messagesComplete : Obligations.MessagesComplete := ⟨messagesStart, meshErrorsComplete⟩

end Sys2Proof.Machine
end


section
/-!
SUPPORT. The address map once it is fixed, and scrub passes over clean memory (R198, R200 to R203, R221).
-/

namespace Sys2Proof.Machine

/-! ### What leaves the address map -/

/-- The address map stays, and with it how far the start has come. -/
def SameMap (d e : Dev) : Prop := startOf e = startOf d

theorem SameMap.map {d e : Dev} (h : SameMap d e) : e.memMap = d.memMap := congrArg Prod.fst h

theorem SameMap.refl (d : Dev) : SameMap d d := rfl

theorem SameMap.trans {a b c : Dev} (h : SameMap a b) (h' : SameMap b c) : SameMap a c := Eq.trans h' h

theorem SameMap.foldl {α : Type} {f : Dev → α → Dev} (h : ∀ d x, SameMap d (f d x)) (l : List α) (d : Dev) :
    SameMap d (l.foldl f d) := by
  induction l generalizing d with
  | nil => exact .refl d
  | cons x l ih => exact (h d x).trans (ih _)

theorem Reported.sameMap {d e : Dev} (h : Reported d e) : SameMap d e := h.sameQuiet.field startOf fun _ => rfl

theorem sameMap_setState (p : PageId) (st : PState) (c : Cause) (d : Dev) : SameMap d (setState p st c d) :=
  (SameMap.refl d).trans (reported_setState p st c d).sameMap

theorem sameMap_wr (r : RegId) (n : Nat) (d : Dev) : SameMap d (wr r n d) := rfl

theorem sameMap_freeMemory (l : List (Nat × Nat)) (d : Dev) : SameMap d (freeMemory l d) := by
  refine .foldl (fun x r => ?_) l d
  exact (inMemory_memWrite r.1 (freeList r.2 x) [] { x with fresh := x.fresh + r.2 }).start

theorem sameMap_landed (l : List (Nat × Nat)) (a : Nat) (bs : List Byte) (d : Dev) : SameMap d (landed l a bs d).2 := by
  unfold landed
  split <;> rfl

theorem sameMap_applyMemPacket (p : Packet) (d : Dev) : SameMap d (applyMemPacket p d) := by
  simp only [applyMemPacket]
  split
  · generalize (if fromCore p = true then racedOf (senderOf p) p.msgId d else []) = l
    refine (sameMap_landed l p.address p.payload d).trans ?_
    exact SameMap.trans (inMemory_memWrite p.address _ p.poison _).start (sameMap_freeMemory _ _)
  · exact (inMemory_memTouch p.address p.amount (some p.ctx) d).start

theorem sameMap_releaseHeld (c : Nat) (waiting kept : List Packet) (d : Dev) : SameMap d (releaseHeld waiting kept c d) := by
  induction waiting generalizing kept d with
  | nil => exact .refl d
  | cons p r ih =>
    rw [releaseHeld]
    split
    · exact ih _ _
    · exact (sameMap_applyMemPacket p d).trans (ih _ _)

theorem sameMap_afterHold (p : PageId) (d : Dev) : SameMap d (afterHold p d) := by
  unfold afterHold
  split
  · exact sameMap_releaseHeld _ _ _ d
  · exact .refl d

/-- A move to a state in which a port's links may stand. -/
theorem moveTo_up (p : PageId) {st : PState} (h : (st == .ready || st == .active || st == .quiesced) = true) (c : Cause) (d : Dev) :
    moveTo p st c d = setState p st c d := by
  simp only [moveTo, h, Bool.not_true, Bool.and_false, Bool.false_eq_true, if_false]

theorem sameMap_becomeReady (p : PageId) (c : Cause) (d : Dev) : SameMap d (becomeReady p c d) := by
  have h1 := sameMap_setState p .ready c d
  simp only [becomeReady, moveTo_up p (st := .ready) rfl]
  refine h1.trans ?_
  generalize setState p .ready c d = x
  split
  · next h _ _ =>
    rw [moveTo_up p (st := .quiesced) rfl]
    exact SameMap.trans (sameMap_setState p .quiesced (holdCause h) (putPage p { pageOf p x with before := .ready } x))
      (sameMap_afterHold p _)
  · refine SameMap.trans ?_ (sameMap_afterHold p _)
    split
    · exact .refl x
    · exact sameMap_setState p _ _ x

theorem sameMap_judgeGuarantee (b m : Bool) (d : Dev) : SameMap d (judgeGuarantee b m d) := by
  simp only [judgeGuarantee]
  split
  · exact (reported_raise pModule 17 (wr (rModule 0x74) _ d)).sameMap
  · exact .refl d

theorem sameMap_readyPage (p : PageId) (d : Dev) : SameMap d (readyPage p d) := by
  unfold readyPage
  split
  · exact sameMap_becomeReady p _ d
  · exact .refl d

theorem sameMap_settleIo (d : Dev) : SameMap d (settleIo d) := by
  have hpages : SameMap d ([0, 1].foldl (fun x s =>
      if stateOf ⟨.dieController, 8 + s⟩ x == .testing && sideTested s x then
        (plainPages s).foldl (fun y p => readyPage p y) x else x) d) := by
    refine .foldl (fun x s => ?_) _ d
    split
    · exact .foldl (fun y p => sameMap_readyPage p y) _ x
    · exact .refl x
  simp only [settleIo]
  refine hpages.trans ?_
  generalize List.foldl _ d [0, 1] = x
  split
  · exact SameMap.trans (sameMap_readyPage pJob (wr (rModule 0x5C) _ x)) (sameMap_readyPage pPower _)
  · exact .refl x

theorem sameMap_completeStart (d : Dev) : SameMap d (completeStart d) := by
  have hset : ∀ x, SameMap d x → SameMap d (mgmtEvent 13 (raise pModule 18 (setState pModule .ready .testPassed x))) :=
    fun x hx => (hx.trans (sameMap_setState pModule .ready .testPassed x)).trans (reported_raise pModule 18 _).sameMap
  refine SameMap.trans (hset _ ?_) (sameMap_judgeGuarantee true false _)
  rfl

theorem sameMap_settleStart (d : Dev) : SameMap d (settleStart d) := by
  simp only [settleStart]
  split
  · exact .refl d
  · refine (sameMap_settleIo d).trans ?_
    have hdies : ∀ x : Dev, SameMap x ((List.range 10).foldl (fun x die =>
        if stateOf ⟨.dieController, die⟩ x == .testing && dieDone die x then
          becomeReady ⟨.dieController, die⟩ .testPassed (wr (rDie die 0 0x44) (putField (rd (rDie die 0 0x44) x) 3 0 4) x)
        else x) x) := fun x => by
      refine .foldl (fun y die => ?_) (List.range 10) x
      split
      · exact (sameMap_wr _ _ y).trans (sameMap_becomeReady _ _ _)
      · exact .refl y
    refine (hdies _).trans ?_
    generalize List.foldl _ (settleIo d) (List.range 10) = x
    split
    · exact (sameMap_wr _ _ x).trans (sameMap_completeStart _)
    · exact sameMap_wr _ _ x

theorem sameMap_readyEngine (c : Nat) (d : Dev) : SameMap d (readyEngine c d) := by
  unfold readyEngine
  split
  · exact sameMap_becomeReady _ _ d
  · exact .refl d

theorem sameMap_beginPass (c : Nat) (fast on : Bool) (d : Dev) : SameMap d (beginPass c fast on d) := rfl

/-- The map that the channels and LOCAL_SHARE give (R198, R200). -/
def mapOf (d : Dev) : MemMap :=
  { share := if 1000 < d.flash.mapLocal then 0 else d.flash.mapLocal
    usable := (List.range 384).filter (fun n => (unitRec (uChannel n) d).state == .ready
      && ((List.range 24).filter (fun c => starting (uController c) .training d)).contains (n / 16)) }

theorem memMap_fixMap {d : Dev} (hb : bringsUp d = true) (hm : d.memMap = none) (ht : ∀ c < 24, trained c d = true) :
    (fixMap d).memMap = some (mapOf d) := by
  have hall : (List.range 24).all (fun c => trained c d) = true := List.all_eq_true.2 fun c hc => ht c (List.mem_range.1 hc)
  simp only [fixMap, hb, hm, hall, Bool.not_true, Option.isSome_none, Bool.or_self, Bool.false_eq_true, if_false]
  have hctls : ∀ (l : List Nat) (x : Dev), SameMap x (l.foldl (fun x c =>
      readyEngine c (beginPass c false (scrubPeriod c x != 0) (becomeReady (pMem c) .testPassed x))) x) := fun l x =>
    .foldl (fun y c => (sameMap_becomeReady (pMem c) .testPassed y).trans
      ((sameMap_beginPass c _ _ _).trans (sameMap_readyEngine c _))) l x
  refine Eq.trans (sameMap_settleStart _).map (Eq.trans (sameMap_judgeGuarantee false true _).map
    (Eq.trans (sameMap_wr _ _ _).map (Eq.trans (hctls _ _).map ?_)))
  rfl

theorem mapFixedCompletes : Claims.MapFixedCompletes := by
  intro s hon hb hm ht
  refine does_of hon ⟨mapOf s.dev, memMap_fixMap hb hm ht, rfl, fun n hn => ?_⟩
  obtain ⟨h1, h2⟩ := List.mem_filter.1 hn
  rw [Bool.and_eq_true, beq_iff_eq] at h2
  exact ⟨List.mem_range.1 h1, h2.1⟩

/-! ### Scrub passes -/

section Scrubs

variable {c : Nat} {d : Dev}

theorem scrubGroup_clean (channel group : Nat) (h : memClean d) : scrubGroup channel group d = d := by
  obtain ⟨hf, hmarks, hb, hbad, -⟩ := h
  simp [scrubGroup, settleMarks, hf, hmarks, hb, hbad]

theorem foldl_scrubGroup_clean (l : List (Nat × Nat)) (h : memClean d) : l.foldl (fun x g => scrubGroup g.1 g.2 x) d = d := by
  induction l with
  | nil => rfl
  | cons g l ih => rw [List.foldl_cons, scrubGroup_clean _ _ h, ih]

theorem scrubStep_clean (hp : passRuns c d = true) (h : memClean d) : scrubStep c [] d =
    if channelGroups ≤ (memCtl c d).position + 1 then
      endScrubPass c (putMemCtl c { memCtl c d with position := (memCtl c d).position + 1 } d)
    else putMemCtl c { memCtl c d with position := (memCtl c d).position + 1 } d := by
  simp only [scrubStep, List.foldl_nil, hp, Bool.not_true, Bool.false_eq_true, if_false, foldl_scrubGroup_clean _ h]

@[simp] theorem memCtl_putMemCtl (c : Nat) (m : MemCtl) (d : Dev) : memCtl c (putMemCtl c m d) = m := by
  simp [memCtl, putMemCtl]

theorem rd_putMemCtl (r : RegId) (m : MemCtl) (d : Dev) : rd r (putMemCtl c m d) = rd r d := rfl

theorem endScrubPass_slow (h : (memCtl c d).fast = false) : endScrubPass c d =
    beginPass c false (scrubPeriod c (bump (rMem c 0 0x6C) d) != 0) (bump (rMem c 0 0x6C) d) :=
  if_neg (by rw [show memCtl c (bump (rMem c 0 0x6C) d) = memCtl c d from rfl, h]; exact Bool.false_ne_true)

theorem scrubPeriod_bump (d : Dev) : scrubPeriod c (bump (rMem c 0 0x6C) d) = scrubPeriod c d := by
  rw [scrubPeriod, scrubPeriod, bump, addSat, rd_wr_other _ d (by simp [homeOf])]

theorem rd_bump (r : RegId) (d : Dev) : rd r (bump r d) = min m32 (rd r d + 1) := by
  rw [bump, addSat, rd_wr_same]
  exact Nat.mod_eq_of_lt (Nat.lt_of_le_of_lt (Nat.min_le_left _ _) (by decide))

theorem cmdScrubNow_begins (hm : mayCommand (pMem c) d = true) (hs : inState (pMem c) [.ready, .active] d = true) :
    cmdScrubNow c 0 d = putMemCtl c
        { memCtl c d with scrubbing := true, fast := true, position := 0, passCount := [], passRetrained := [] }
        (putPage (pMem c) ((pageOf (pMem c) d).started 0x40 0) d) :=
  pageCommand_accepted 0x40 0 (beginPass c true true) hm rfl hs rfl

end Scrubs

theorem scrubsComplete : Claims.ScrubsComplete := by
  intro c s hon d m
  refine ⟨fun hp hc hn => gives_of_eq hon ((scrubStep_clean hp hc).trans (if_neg (Nat.not_le.2 hn))), fun hp hc hn hf => ?_,
    fun hm hs => gives_of_eq hon (cmdScrubNow_begins hm hs)⟩
  refine does_of hon (f := scrubStep c []) ?_
  rw [scrubStep_clean hp hc, if_pos (Nat.le_of_eq hn.symm), endScrubPass_slow (by rw [memCtl_putMemCtl]; exact hf)]
  refine ⟨rd_bump _ _, ?_, ?_⟩
  · rw [beginPass, memCtl_putMemCtl]
  · rw [beginPass, memCtl_putMemCtl, scrubPeriod_bump]
    rfl

/-- Settles O29, the map by the functions that leave it, the scrub pass by its equation over clean memory. -/
theorem mapAndScrubsComplete : Obligations.MapAndScrubsComplete := ⟨mapFixedCompletes, scrubsComplete⟩

end Sys2Proof.Machine
end


section
/-!
SUPPORT. Channels of module memory: drift, refresh, retrains, injections and self-refresh (R189, R205 to R207, R215, R219).
-/

namespace Sys2Proof.Machine

section Channels

variable {c j n : Nat} {d : Dev}

theorem unitPage_channel {n : Nat} (h : n < 384) : unitPage (uChannel n) = none := by
  have hc : unitClass (uChannel n) = 6 := by rw [unitClass, uChannel]; omega
  rw [unitPage, hc]
  rfl

theorem unitPage_controller {c : Nat} (h : c < 24) : unitPage (uController c) = some (pMem c) := by
  have hc : unitClass (uController c) = 5 := by rw [unitClass, uController]; omega
  have hi : unitIndex (uController c) = c := by rw [unitIndex, uController]; omega
  rw [unitPage, hc, hi]
  rfl

/-- A controller that is in use has been trained. -/
theorem starting_controller_of_state (h : c < 24) (hs : stateOf (pMem c) d ≠ .training) :
    starting (uController c) .training d = false := by
  have hu : unitState (uController c) d = stateOf (pMem c) d := unitState_of_page (unitPage_controller h) d
  rw [starting, hu, beq_false_of_ne hs, Bool.false_and]

theorem readDrift_one (ha : devicesAwake c d = true) (hj : j < 16) (hr : (unitRec (uChannel (16 * c + j)) d).state = .ready) :
    readDrift c [j] d = putMemCtl c { memCtl c d with wanted := addOnce j (memCtl c d).wanted } d := by
  simp [readDrift, ha, hj, hr]

theorem readMr4_awake (rate : Nat) (hot : Bool) (ha : devicesAwake c d = true) : readMr4 c rate hot d =
    if hot then raise (pMem c) 21 (putMemCtl c { memCtl c d with refreshRate := rate } d)
    else putMemCtl c { memCtl c d with refreshRate := rate } d := by
  simp only [readMr4, ha, Bool.not_true, Bool.false_eq_true, if_false]

theorem unitRec_trainChannel (n : Nat) (cause : Cause) (d : Dev) : unitRec (uChannel n) (trainChannel n cause d) =
    { unitRec (uChannel n) d with
      state := .training, cause := cause, gen := fpGen d % 65536, back := (unitRec (uChannel n) d).state,
      backCause := (unitRec (uChannel n) d).cause } := by
  simp [unitRec, trainChannel]

theorem unitRec_setUnit_entry {u : Nat} (h : unitPage u = none) (st : PState) (cause : Cause) (d : Dev) :
    unitRec u (setUnit u st cause d) = { unitRec u d with state := st, cause := cause, gen := fpGen d % 65536 } := by
  simp [unitRec, setUnit, h]

theorem releaseAll_none (h : (memCtl c d).held = []) : releaseAll c d = putMemCtl c { memCtl c d with held := [] } d := by
  rw [releaseAll, h, releaseHeld]

/-- The channel is back as it was, and the retrain counted. -/
def channelBack (c n : Nat) (d : Dev) : Dev :=
  setUnit (uChannel n) (unitRec (uChannel n) d).back (unitRec (uChannel n) d).backCause
    (bump (rMem c 0 0x74) (putMemCtl c { memCtl c d with retraining := none } d))

theorem channelBack_eq (h : unitPage (uChannel n) = none) : channelBack c n d =
    { bump (rMem c 0 0x74) (putMemCtl c { memCtl c d with retraining := none } d) with
      units := d.units.set (uChannel n) { unitRec (uChannel n) d with
        state := (unitRec (uChannel n) d).back, cause := (unitRec (uChannel n) d).backCause,
        gen := fpGen (bump (rMem c 0 0x74) (putMemCtl c { memCtl c d with retraining := none } d)) % 65536 } } := by
  simp only [channelBack, setUnit, h]
  rfl

/-- The automatic retrain of one channel ends without a failure. -/
theorem endRetrain_one (hc : c < 24) (hn : n < 384) (ht : trainingChannels c d = [n]) (hs : (memCtl c d).selfRefresh = false)
    (hp : inState (pMem c) [.ready, .active] d = true) (hcmd : (pageOf (pMem c) d).cmd = none) (hh : (memCtl c d).held = []) :
    endRetrain c [] d = putMemCtl c { memCtl c d with retraining := none, held := [] } (raise (pMem c) 19 (channelBack c n d)) := by
  have hst : stateOf (pMem c) d ≠ .training := by
    intro h
    rw [inState, h] at hp
    exact absurd hp (by decide)
  have hstart := starting_controller_of_state hc hst
  have hb := channelBack_eq (c := c) (d := d) (unitPage_channel hn)
  have hrep := reported_raise (pMem c) 19 (channelBack c n d)
  have hpage : stateOf (pMem c) (raise (pMem c) 19 (channelBack c n d)) ≠ .training := by
    rw [hrep.stateOf, hb]
    exact hst
  have hcmd' : (pageOf (pMem c) (raise (pMem c) 19 (channelBack c n d))).cmd = none := by
    obtain ⟨w, hw⟩ := hrep.pageFields (pMem c)
    rw [hw, hb]
    exact hcmd
  have hctl : memCtl c (raise (pMem c) 19 (channelBack c n d)) = { memCtl c d with retraining := none } := by
    rw [memCtl, hrep.sameQuiet.field Dev.memCtls fun _ => rfl, hb]
    exact memCtl_putMemCtl c _ d
  have hawake : ¬(24 ≤ c ∨ (memCtl c d).selfRefresh = true) := by
    rw [hs]
    simpa using hc
  have hone : endChannel [] n (bump (rMem c 0 0x74) (putMemCtl c { memCtl c d with retraining := none } d)) = channelBack c n d := rfl
  have hfalse : ∀ l : List Nat, l.filter (fun _ => false) = [] := fun l => by simp
  have hend : endRetrain c [] d = releaseAll c (raise (pMem c) 19 (channelBack c n d)) := by
    simp only [endRetrain, ht, hawake, hstart, Bool.false_eq_true, if_false, List.isEmpty_cons, List.foldl_cons, List.foldl_nil,
      hone, List.contains_nil, hfalse, List.length_nil, List.length_cons, Nat.zero_add, Nat.zero_ne_one, hpage]
    rw [endRetrainCmd, hcmd']
  rw [hend, releaseAll_none (by rw [hctl]; exact hh), hctl]

theorem memCtls_mgmtEvent (b : Nat) (d : Dev) : (mgmtEvent b d).memCtls = d.memCtls := rfl

theorem memCtls_settlePowerOff (d : Dev) : (settlePowerOff d).memCtls = d.memCtls := by
  unfold settlePowerOff
  split
  · unfold endOrder
    split
    · have hr := reported_raise pView 18 (modMgmt (fun m => { m with orderState := 2 }) d)
      exact (memCtls_mgmtEvent _ _).trans (hr.sameQuiet.field Dev.memCtls fun _ => rfl)
    · rfl
  · rfl

theorem startChannel_trains (h : mayRetrain c j d = true) : startChannel c j d =
    putMemCtl c { memCtl c d with wanted := (memCtl c d).wanted.filter (· != j), retraining := some j }
      (trainChannel (16 * c + j) (unitRec (uChannel (16 * c + j)) d).cause d) := if_pos h

end Channels

theorem channelCommandsComplete : Claims.ChannelCommandsComplete := by
  intro c j rate s hon hrun d m n
  refine ⟨fun ha hj hr => gives_of_eq hon (readDrift_one ha hj hr), fun ha =>
    ⟨gives_of_eq hon (readMr4_awake rate false ha), reaches_of_reported hon ?_⟩, fun hm => ?_, fun hc ht hs hp hcmd hh => ?_⟩
  · rw [readMr4_awake rate true ha, if_pos rfl]
    exact reported_raise _ _ _
  · rw [show exec (.channelRetrainStart c j) s = _ from onDevPart_none 6 (mayRetrain c j) (startChannel c j) hrun]
    refine does_of hon (f := startChannel c j) ?_
    rw [startChannel_trains hm]
    have hu := unitRec_trainChannel n (unitRec (uChannel n) d).cause d
    have hready : (unitRec (uChannel n) d).state = .ready := by
      simp only [mayRetrain, Bool.and_eq_true, beq_iff_eq] at hm
      exact hm.2
    exact ⟨congrArg UnitRec.state hu, (congrArg UnitRec.cause hu).trans rfl, (congrArg UnitRec.back hu).trans hready,
      congrArg MemCtl.retraining (memCtl_putMemCtl _ _ _), rfl⟩
  · have hn : n < 384 := by
      have hmem : n ∈ trainingChannels c d := by rw [ht]; exact List.mem_singleton_self n
      obtain ⟨h1, -⟩ := List.mem_filter.1 hmem
      obtain ⟨i, hi, hin⟩ := List.mem_map.1 h1
      have := List.mem_range.1 hi
      omega
    refine does_of hon (f := endRetrain c []) ?_
    have hr := reported_raise (pMem c) 19 (channelBack c n d)
    have hend := endRetrain_one hc hn ht hs hp hcmd hh
    have hb := channelBack_eq (c := c) (d := d) (unitPage_channel hn)
    have hu : unitRec (uChannel n) (endRetrain c [] d) = unitRec (uChannel n) (channelBack c n d) := by
      rw [hend, unitRec, unitRec, ← hr.sameQuiet.field Dev.units fun _ => rfl, ← hr.sameQuiet.field Dev.startCause fun _ => rfl]
      rfl
    have hrec := unitRec_setUnit_entry (unitPage_channel hn) (unitRec (uChannel n) d).back (unitRec (uChannel n) d).backCause
      (bump (rMem c 0 0x74) (putMemCtl c { memCtl c d with retraining := none } d))
    refine ⟨congrArg UnitRec.state (hu.trans hrec), congrArg UnitRec.cause (hu.trans hrec), ?_⟩
    rw [hend, rd_putMemCtl, hr.rd rfl rfl, hb]
    exact rd_bump (rMem c 0 0x74) _

theorem memoryControlsComplete : Claims.MemoryControlsComplete := by
  intro c v s hon d g
  have hwhen : ∀ {p : PageId} {f : Dev → Dev}, pageSilent p d = false → (pageOf p d).negotiated = true → whenNegotiated p f d = f d :=
    fun hs hn => by simp only [whenNegotiated, hs, hn, Bool.false_eq_true, if_false, if_true]
  have hbit : v.getLsbD 31 = true → bitOf v.toNat 31 ≠ false := fun hv => by
    rw [BitVec.getLsbD, Nat.testBit] at hv
    rw [bitOf]
    simpa [Nat.and_comm, Nat.and_one_is_mod] using hv
  refine ⟨fun hs hn hv hok => gives_of_eq hon ?_, fun hs hn hv hok => gives_of_eq hon ?_, fun hs hn => gives_of_eq hon (hwhen hs hn),
    fun hc hh hq hsr => ?_⟩
  · rw [hwhen hs hn, writeInject, if_neg (hbit hv), if_pos hok]
  · rw [hwhen hs hn, writeInject, if_neg (hbit hv), if_neg (by rw [hok]; exact Bool.false_ne_true)]
    rfl
  · have henter : enterSelfRefresh c d = settlePowerOff (raise (pMem c) 20 (putMemCtl c { memCtl c d with selfRefresh := true } d)) := by
      have hin : inState (pMem c) [.off, .retired] d = false := by rw [inState, stateOf, hq]; rfl
      have hholds : (g.holds.contains .coolant || g.holds.contains .powerOff) = true := by
        obtain h | h := hh <;> simp only [h, Bool.true_or, Bool.or_true]
      simp only [enterSelfRefresh, decide_eq_true hc, hholds, hin, hsr, Bool.not_false, Bool.and_self, if_true, g]
    have hrep := reported_raise (pMem c) 20 (putMemCtl c { memCtl c d with selfRefresh := true } d)
    refine ⟨does_of hon (f := enterSelfRefresh c) ?_, fun hoff => reaches_of_reported hon (f := enterSelfRefresh c) ?_⟩
    · rw [henter, memCtl, memCtls_settlePowerOff, hrep.sameQuiet.field Dev.memCtls fun _ => rfl]
      exact congrArg MemCtl.selfRefresh (memCtl_putMemCtl c _ d)
    · have hpow : (raise (pMem c) 20 (putMemCtl c { memCtl c d with selfRefresh := true } d)).mgmt.powerOff = false := by
        rw [hrep.sameQuiet.field (fun x => x.mgmt.powerOff) fun _ => rfl]
        exact hoff
      rw [henter, settlePowerOff, hpow, Bool.false_and]
      exact hrep

/-- Settles O30, with an equation for each command of a channel. -/
theorem memoryCommandsComplete : Obligations.MemoryCommandsComplete := ⟨channelCommandsComplete, memoryControlsComplete⟩

end Sys2Proof.Machine
end


section
/-!
SUPPORT. Plans of the update engines (R246): a table entry that says RUNNING while no chunk runs.
-/

namespace Sys2Proof.Machine

/-- A plan of one chunk at entry 0 of the chunk state table. -/
def onePlan : Plan :=
  { context := 0, program := [], chunkLog2 := 16, chunks := 1, stateBase := 0, length := 0, streams := [], counterEn := false,
    counter := 0, drainEn := false, drainFlag := 0 }

/-- Update engine 0 ACTIVE with that plan, its chunk RUNNING in the table, and no chunk run. -/
def engineZeroActive : State :=
  { State.reset with dev := { State.reset.dev with
      reset := { State.reset.dev.reset with level := none }
      engines := [(0, { freshEng with plans := [(0, onePlan)], table := [(0, (.running, 0))] })]
      pages := [(pUpd 0, { freshPage .powerOn 0 with state := .active, negotiated := true })] } }

/-- Refutes O31: DISABLE_PLAN leaves an entry that says RUNNING, whether or not the engine runs a chunk, so that where it runs none
the clause on DISABLE_PLAN, that every chunk of the plan is IDLE, does not hold of a state whose table has such an entry. -/
theorem not_updateEnginesComplete : ¬ Obligations.UpdateEnginesComplete := by
  rintro ⟨hplans, -⟩
  have hon : engineZeroActive.on := by decide
  obtain ⟨-, hdisable, -⟩ := hplans 0 0 onePlan 0 engineZeroActive hon (by decide)
  obtain ⟨-, -, hidle⟩ := (hdisable (by decide) (by decide) rfl rfl).holds hon
  exact absurd (hidle 0 (by decide)) (by decide)

end Sys2Proof.Machine
end


section
/-!
SUPPORT. Links and laser inputs of the ports (R249 to R253).
-/

namespace Sys2Proof.Machine

section Links

variable {p : Nat} {d : Dev}

theorem unitPage_port {p : Nat} (h : p < 48) : unitPage (uPort p) = some (pPort p) := by
  have hc : unitClass (uPort p) = 8 := by rw [unitClass, uPort]; omega
  have hi : unitIndex (uPort p) = p := by rw [unitIndex, uPort]; omega
  rw [unitPage, hc, hi]
  rfl

/-- A port that trains on the host's command is past its bring-up. -/
theorem starting_port_of_cause (h : p < 48) (hc : freshCause (pageOf (pPort p) d).cause = false) (st : PState) :
    starting (uPort p) st d = false := by
  have hu : unitCause (uPort p) d = (pageOf (pPort p) d).cause := by
    rw [unitCause, unitPage_port h]
  rw [starting, hu, hc, Bool.and_false]

/-- What follows from a command in progress. -/
theorem cmd_of_inProgress {q : PageId} {code : Nat} (h : inProgress q code d = true) :
    ∃ c, (pageOf q d).cmd = some c ∧ c.code = code := by
  unfold inProgress at h
  cases hc : (pageOf q d).cmd with
  | none => simp [hc] at h
  | some c => exact ⟨c, rfl, by simpa [hc] using h⟩

theorem endCmdIf_same {q : PageId} {c : PageCmd} (h : (pageOf q d).cmd = some c) (ok : Bool) :
    endCmdIf q c.code ok d = endCmd q ok d := by
  simp only [endCmdIf, h, if_true]

theorem endPortTraining_training (hp : p < 48) (hs : (pageOf (pPort p) d).state = .training)
    (hc : (pageOf (pPort p) d).cause = .hostCommand) (passed : Bool) : endPortTraining p passed d =
      if passed then endCmdIf (pPort p) 6 true (returnBack (pPort p) d)
      else endCmdIf (pPort p) 6 false (moveTo (pPort p) .fault .trainingFailed d) := by
  have hstart := starting_port_of_cause (d := d) hp (by rw [hc]; rfl) .training
  simp only [endPortTraining, Nat.not_le.2 hp, if_false, hstart, Bool.false_eq_true, stateOf, hs, if_true]

/-- A page without holds is back as it was. -/
theorem returnBack_free {q : PageId} (hq : q.ty ≠ .memoryController) (hh : (pageOf q d).holds = [])
    (hb : (pageOf q d).back = .ready ∨ (pageOf q d).back = .active) :
    returnBack q d = setState q (pageOf q d).back (pageOf q d).backCause d := by
  have hne : (pageOf q d).back ≠ .quiesced := by obtain h | h := hb <;> rw [h] <;> decide
  simp only [returnBack, hh, hne, if_false, afterHold, hq]
  exact moveTo_up q (by obtain h | h := hb <;> rw [h] <;> rfl) _ d

/-- A port that trains has no link to take down. -/
theorem moveTo_of_down {q : PageId} (h : (stateOf q d == .ready || stateOf q d == .active || stateOf q d == .quiesced) = false)
    (st : PState) (c : Cause) : moveTo q st c d = setState q st c d := by
  simp only [moveTo, h, Bool.and_false, Bool.false_and, Bool.false_eq_true, if_false]

/-- The rates of the streams are written anew; ports, registers and pages stay. -/
structure SameLinks (d e : Dev) : Prop where
  ports : e.net.ports = d.net.ports
  optics : e.net.optics = d.net.optics
  regs : e.regs = d.regs
  pages : ∀ q, pageOf q e = pageOf q d

theorem sameLinks_refreshRates (d : Dev) : SameLinks d (refreshRates d) := by
  unfold refreshRates
  generalize d.net.tx.filter (fun e => e.2.rate.isSome) = l
  induction l generalizing d with
  | nil => exact ⟨rfl, rfl, rfl, fun _ => rfl⟩
  | cons x l ih =>
    obtain ⟨h1, h2, h3, h4⟩ := ih (refreshRate x.1 d)
    exact ⟨h1.trans rfl, h2.trans rfl, h3.trans rfl, fun q => (h4 q).trans rfl⟩

@[simp] theorem portOf_modPort (p : Nat) (f : PortLink → PortLink) (d : Dev) : portOf p (modPort p f d) = f (portOf p d) := by
  simp [portOf, modPort, modNet]

theorem SameLinks.portOf {d e : Dev} (h : SameLinks d e) (p : Nat) : portOf p e = portOf p d := by
  rw [Machine.portOf, h.ports]
  rfl

theorem SameLinks.rd {d e : Dev} (h : SameLinks d e) (r : RegId) : rd r e = rd r d := by
  rw [Machine.rd, h.regs]
  rfl

theorem Reported.portOf {d e : Dev} (h : Reported d e) (p : Nat) : portOf p e = portOf p d := by
  rw [Machine.portOf, h.sameQuiet.field (fun x => x.net.ports) fun _ => rfl]
  rfl

/-- Registers but the rings' indexes are what they were. -/
theorem Reported.rd_of_ty {d e : Dev} (h : Reported d e) {r : RegId} (hr : r.ty ≠ .luawick) :
    Machine.rd r e = Machine.rd r d :=
  h.rd (by simp [ringIndex, hr]) (by simp [ringIndex, homeOf_ty, hr])

theorem portOf_bump (p : Nat) (r : RegId) (d : Dev) : portOf p (bump r d) = portOf p d := rfl

/-- A page that moves and whose command then ends. -/
theorem reported_moved_done {q : PageId} (hc : (pageOf q d).cmd.isSome = true) (st : PState) (c : Cause) :
    Reported (putPage q { (pageOf q d).moved st c d with result := .done, cmd := none } d) (endCmd q true (setState q st c d)) := by
  obtain ⟨w, hw⟩ := pageOf_setState q st c d
  have h1 := (reported_setState q st c d).putPage q (g := { (pageOf q d).moved st c d with result := .done, cmd := none })
    (k := { pageOf q (setState q st c d) with result := .done, cmd := none }) (by rw [hw]; rfl)
  rw [putPage_putPage] at h1
  exact h1.trans (reported_endCmd_done (by rw [hw]; exact hc))

theorem reported_moved_failed {q : PageId} {k : PageCmd} (hc : (pageOf q d).cmd = some k) (st : PState) (c : Cause) :
    Reported (putPage q ({ (pageOf q d).moved st c d with result := .failed, cmd := none }.erred
      (2 ^ 12 * 5 + 2 ^ 8 * stateCode st + k.code)) d) (endCmd q false (setState q st c d)) := by
  obtain ⟨w, hw⟩ := pageOf_setState q st c d
  have hst : (pageOf q (setState q st c d)).state = st := by rw [hw]; rfl
  have h1 := (reported_setState q st c d).putPage q
    (g := { (pageOf q d).moved st c d with result := .failed, cmd := none }.erred (2 ^ 12 * 5 + 2 ^ 8 * stateCode st + k.code))
    (k := { pageOf q (setState q st c d) with result := .failed, cmd := none }.erred
      (2 ^ 12 * 5 + 2 ^ 8 * stateCode (pageOf q (setState q st c d)).state + k.code)) (by rw [hst, hw]; rfl)
  rw [putPage_putPage] at h1
  exact h1.trans (reported_endCmd_failed (by rw [hw]; exact hc))

theorem loseCarrier_up (lanes : Nat) (hu : (portOf p d).up = true) :
    (portOf p (loseCarrier p lanes d)).up = false ∧ (portOf p (loseCarrier p lanes d)).lanes = lanes
      ∧ rd (rPort p 0x44) (loseCarrier p lanes d) = min m32 (rd (rPort p 0x44) d + 1)
      ∧ (pageOf (pPort p) (loseCarrier p lanes d)).events.getLsbD 17 = true := by
  have hr := reported_raise (pPort p) 17 (bump (rPort p 0x44) (modPort p (fun x => { x with up := false, lanes := lanes }) d))
  have hs := sameLinks_refreshRates
    (raise (pPort p) 17 (bump (rPort p 0x44) (modPort p (fun x => { x with up := false, lanes := lanes }) d)))
  have hport : portOf p (loseCarrier p lanes d) = { portOf p d with up := false, lanes := lanes } := by
    rw [loseCarrier, if_pos hu, hs.portOf, hr.portOf, portOf_bump, portOf_modPort]
  refine ⟨congrArg PortLink.up hport, congrArg PortLink.lanes hport, ?_, ?_⟩
  · rw [loseCarrier, if_pos hu, hs.rd, hr.rd_of_ty (by simp)]
    exact rd_bump _ _
  · rw [loseCarrier, if_pos hu, hs.pages]
    exact events_raise (by decide) _ _

theorem bringLinkUp_down (hw : linkWanted p d = true) (hu : (portOf p d).up = false) :
    (portOf p (bringLinkUp p d)).up = true ∧ (portOf p (bringLinkUp p d)).lanes = 15
      ∧ rd (rPort p 0x44) (bringLinkUp p d) = rd (rPort p 0x44) d
      ∧ (pageOf (pPort p) (bringLinkUp p d)).events.getLsbD 16 = true := by
  have hr := reported_raise (pPort p) 16 (modPort p (fun x => { x with up := true, lanes := 15 }) d)
  have hs := sameLinks_refreshRates (raise (pPort p) 16 (modPort p (fun x => { x with up := true, lanes := 15 }) d))
  have hup : bringLinkUp p d = refreshRates (raise (pPort p) 16 (modPort p (fun x => { x with up := true, lanes := 15 }) d)) := by
    simp only [bringLinkUp, hw, hu, Bool.not_false, Bool.and_self, if_true]
  have hport : portOf p (bringLinkUp p d) = { portOf p d with up := true, lanes := 15 } := by
    rw [hup, hs.portOf, hr.portOf]
    exact portOf_modPort p _ d
  refine ⟨congrArg PortLink.up hport, congrArg PortLink.lanes hport, ?_, ?_⟩
  · rw [hup, hs.rd, hr.rd_of_ty (by simp)]
    rfl
  · rw [hup, hs.pages]
    exact events_raise (by decide) _ _

theorem countFec_wanted (n m lanes : Nat) (hw : linkWanted p d = true) (hl : lanes < 16) : countFec p n m lanes d =
    if rd (rPort p 0x54) d < m then
      raise (pPort p) 18 (modPort p (fun x => { x with degraded := true, lanes := lanes }) (addSat (rPort p 0x50) m (add64 (rPort p 0x48) n d)))
    else modPort p (fun x => { x with degraded := false, lanes := lanes }) (addSat (rPort p 0x50) m (add64 (rPort p 0x48) n d)) := by
  simp only [countFec, hw, Bool.not_true, Bool.false_eq_true, if_false, Nat.mod_eq_of_lt hl, decide_eq_true_eq]
  by_cases h : rd (rPort p 0x54) d < m
  · simp only [h, decide_true, if_true]
  · simp only [h, decide_false, if_false]

end Links

theorem portLinksComplete : Claims.PortLinksComplete := by
  intro p n m lanes lasted s hon hp hlanes d g
  have hport : (pPort p).ty ≠ .memoryController := by simp
  have hlose : linkWanted p d = true → clampReg 10 100000 (rd (rPort p 0x58) d) < lasted →
      loseLock p lasted lanes d = loseCarrier p lanes d := fun hw hl => by
    simp only [loseLock, hw, hl, decide_true, Bool.and_self, if_true, Nat.mod_eq_of_lt hlanes]
  refine ⟨fun hs hc hr hb hh => reaches_of_reported hon ?_, fun hs hc hr => reaches_of_reported hon ?_, fun hw hu hl => ?_,
    fun hw hl => gives_of_eq hon ?_, fun hw hu => does_of hon (f := bringLinkUp p) (bringLinkUp_down hw hu),
    fun hw hm => gives_of_eq hon ?_, fun hw hm => reaches_of_reported hon ?_⟩
  · obtain ⟨k, hk, hcode⟩ := cmd_of_inProgress hr
    obtain ⟨w, hw⟩ := pageOf_setState (pPort p) g.back g.backCause d
    have hend := endCmdIf_same (q := pPort p) (d := setState (pPort p) g.back g.backCause d) (c := k) (by rw [hw]; exact hk) true
    rw [hcode] at hend
    rw [endPortTraining_training hp hs hc true, if_pos rfl, returnBack_free hport hh hb, hend]
    exact reported_moved_done (by rw [hk]; rfl) _ _
  · obtain ⟨k, hk, hcode⟩ := cmd_of_inProgress hr
    have hmove : moveTo (pPort p) .fault .trainingFailed d = setState (pPort p) .fault .trainingFailed d :=
      moveTo_of_down (by rw [stateOf, hs]; rfl) _ _
    obtain ⟨w, hw⟩ := pageOf_setState (pPort p) .fault .trainingFailed d
    have hend := endCmdIf_same (q := pPort p) (d := setState (pPort p) .fault .trainingFailed d) (c := k) (by rw [hw]; exact hk) false
    rw [hcode] at hend
    rw [endPortTraining_training hp hs hc false, if_neg Bool.false_ne_true, hmove, hend]
    have h := reported_moved_failed hk .fault .trainingFailed
    rwa [hcode] at h
  · refine does_of hon (f := loseLock p lasted lanes) ?_
    rw [hlose hw hl]
    exact loseCarrier_up lanes hu
  · show loseLock p lasted lanes d = d
    simp only [loseLock, Nat.not_lt.2 hl, decide_false, Bool.and_false, Bool.false_eq_true, if_false]
  · exact (countFec_wanted n m lanes hw hlanes).trans (if_neg (Nat.not_lt.2 hm))
  · rw [(countFec_wanted n m lanes hw hlanes).trans (if_pos hm)]
    exact reported_raise (pPort p) 18 _

section Lasers

variable {e : Nat} {d : Dev}

theorem opticOf_putOptic (e : Nat) (o : Optic) (d : Dev) : opticOf e (putOptic e o d) = o := by
  simp [opticOf, putOptic, modNet]

/-- Events of an engine's ports. -/
theorem reported_foldl_raise (bit : Nat) (l : List Nat) (d : Dev) : Reported d (l.foldl (fun x p => raise (pPort p) bit x) d) := by
  induction l generalizing d with
  | nil => exact .refl d
  | cons p l ih => exact (reported_raise (pPort p) bit d).trans (ih _)

theorem Reported.opticOf {d e : Dev} (h : Reported d e) (k : Nat) : opticOf k e = opticOf k d := by
  rw [Machine.opticOf, h.sameQuiet.field (fun x => x.net.optics) fun _ => rfl]
  rfl

/-- A measurement of an engine that has chosen its input. -/
theorem opticOf_measureOptic (powers : List Int) (hu : usable (uOptical e) d = true)
    (hany : d.net.optics.any (fun x => x.1 == e) = true) : opticOf e (measureOptic powers e d) =
      ⟨(opticOf e d).input, powers.getD (2 * e) 0, powers.getD (2 * e + 1) 0,
        decide (powers.getD (2 * e) 0 < laserLow e d) && decide (powers.getD (2 * e + 1) 0 < laserLow e d),
        if (if (opticOf e d).input = 0 then powers.getD (2 * e) 0 else powers.getD (2 * e + 1) 0) < laserLow e d
        then (opticOf e d).lowSince.or (some d.now) else none⟩ := by
  simp only [measureOptic, hu, hany, Bool.not_true, Bool.false_eq_true, if_false, if_true, decide_eq_true_eq]
  split
  · rw [(reported_foldl_raise 20 (enginePorts e) _).opticOf, opticOf_putOptic]
  · rw [opticOf_putOptic]

theorem switchLaser_low {since : Nat} (he : e < 6) (hu : usable (uOptical e) d = true) (hs : (opticOf e d).lowSince = some since)
    (hw : since + 10000 ≤ d.now) (hp : laserLow e d ≤ inputPower (opticOf e d) (1 - (opticOf e d).input)) :
    switchLaser e d = (enginePorts e).foldl (fun x p => raise (pPort p) 19 x)
      (bump (rPort (8 * e) 0xA0) (putOptic e { opticOf e d with input := 1 - (opticOf e d).input, lowSince := none } d)) := by
  simp only [switchLaser, he, hu, hs, hw, hp, decide_true, Option.any_some, Bool.and_self, if_true]

end Lasers

theorem lasersComplete : Claims.LasersComplete := by
  intro e p arg powers s hon d o
  refine ⟨gives_of_eq hon rfl, fun hu ha => opticOf_measureOptic powers hu ha, fun since he hu hs hw hp => ?_,
    fun hm hs hl => reaches_of_reported hon ?_⟩
  · refine does_of hon (f := switchLaser e) ?_
    rw [switchLaser_low he hu hs hw hp]
    have hr := reported_foldl_raise 19 (enginePorts e)
      (bump (rPort (8 * e) 0xA0) (putOptic e { opticOf e s.dev with input := 1 - (opticOf e s.dev).input, lowSince := none } s.dev))
    exact ⟨(hr.opticOf e).trans (opticOf_putOptic e _ s.dev), (hr.rd_of_ty (by simp)).trans (rd_bump _ _)⟩
  · have hcmd : cmdLaserSelect p arg d = endCmd (pPort p) true
        (putOptic (p / 8) { opticOf (p / 8) d with input := arg % 2, lowSince := none } (accept (pPort p) 0x40 arg d)) :=
      pageCommand_accepted 0x40 arg _ hm rfl (by rw [hs, decide_eq_true hl]; rfl) rfl
    have h := reported_doneAtOnce (p := pPort p) (d := d) (e := putPage (pPort p) ((pageOf (pPort p) d).started 0x40 arg)
      (putOptic (p / 8) { opticOf (p / 8) d with input := arg % 2, lowSince := none } d)) (pageOf_putPage_same ..)
    rw [putPage_putPage] at h
    rw [hcmd]
    exact h

/-- Settles O32, with an equation for each way a link or a laser input changes. -/
theorem portsComplete : Obligations.PortsComplete := ⟨portLinksComplete, lasersComplete⟩

end Sys2Proof.Machine
end


section
/-!
SUPPORT. Priority pause of the ports (R280, R281).
-/

namespace Sys2Proof.Machine

section Pause

variable {p : Nat} {d : Dev}

theorem portOf_putOut (q : Nat) (o : WireOut) (d : Dev) : portOf p (putOut q o d) = portOf p d := rfl

/-- A 64-bit counter takes two registers. -/
theorem rd_add64_other {q r : RegId} {n : Nat} (h : homeOf q ≠ homeOf r) (h' : homeOf q ≠ homeOf (hiOf r)) :
    rd q (add64 r n d) = rd q d := by
  rw [add64, wr64, rd_wr_other _ _ h', rd_wr_other _ _ h]

theorem portOf_bumpHalf (r : RegId) (high : Bool) (p : Nat) (d : Dev) : portOf p (bumpHalf r high d) = portOf p d := by
  unfold bumpHalf
  split <;> rfl

/-- The halves of a counter of two. -/
theorem halves_of_low (v n : Nat) (hn : n < 2 ^ 16) (hv : v < 2 ^ 32) :
    (v / 2 ^ 16 * 2 ^ 16 + n) % 2 ^ 32 % 2 ^ 16 = n ∧ (v / 2 ^ 16 * 2 ^ 16 + n) % 2 ^ 32 / 2 ^ 16 = v / 2 ^ 16 := by omega

theorem halves_of_high (v n : Nat) (hn : n < 2 ^ 16) :
    (2 ^ 16 * n + v % 2 ^ 16) % 2 ^ 32 / 2 ^ 16 = n := by omega

theorem rd_lt (r : RegId) (d : Dev) : rd r d < 2 ^ 32 := BitVec.isLt _

theorem rd_bumpHalf_low (r : RegId) (d : Dev) : rd r (bumpHalf r false d) % 2 ^ 16 = min 0xFFFF (rd r d % 2 ^ 16 + 1)
    ∧ rd r (bumpHalf r false d) / 2 ^ 16 = rd r d / 2 ^ 16 := by
  have h := rd_lt r d
  have hb : rd r (bumpHalf r false d) = (rd r d / 2 ^ 16 * 2 ^ 16 + min 0xFFFF (rd r d % 2 ^ 16 + 1)) % 2 ^ 32 := rd_wr_same ..
  rw [hb]
  exact halves_of_low _ _ (by omega) h

theorem rd_bumpHalf_high (r : RegId) (d : Dev) : rd r (bumpHalf r true d) / 2 ^ 16 = min 0xFFFF (rd r d / 2 ^ 16 + 1) := by
  have hb : rd r (bumpHalf r true d) = (2 ^ 16 * min 0xFFFF (rd r d / 2 ^ 16 + 1) + rd r d % 2 ^ 16) % 2 ^ 32 := rd_wr_same ..
  rw [hb]
  exact halves_of_high _ _ (by omega)

theorem pauseFrom_eq (quanta now : Nat) (old : Option (Nat × Nat)) : pauseFrom quanta now old =
    if quanta = 0 then none else some ((old.map (·.1)).getD now, now + (512 * quanta + 799) / 800) := by
  cases old <;> rfl

theorem portOf_pausePriority (ctrl : Bool) (q : Nat) : portOf p (pausePriority p ctrl q d) =
    if ctrl then { portOf p d with pausedCtrl := pauseFrom q d.now (portOf p d).pausedCtrl }
    else { portOf p d with pausedData := pauseFrom q d.now (portOf p d).pausedData } := by
  rw [pausePriority, portOf_bumpHalf, portOf_modPort]

theorem otherFrame_good (f : Dev → Dev) (hc : carries p d = true) (ht : rd (rPort p 0x80) d ≠ 0) :
    otherFrame p true f d = f (add64 (rPort p 0xB0) 1 d) := by
  simp only [otherFrame, hc, Bool.not_true, Bool.false_eq_true, if_false, ht]

theorem otherFrame_bad (f : Dev → Dev) (hc : carries p d = true) :
    otherFrame p false f d = bump (rPort p 0xC0) (add64 (rPort p 0xB0) 1 d) := by
  simp only [otherFrame, hc, Bool.not_true, Bool.false_eq_true, if_false, Bool.not_false, if_true]

/-- A PFC frame that names the data priority alone. -/
theorem pauseBy_data {q : Nat} {quanta : PauseQuanta} (hq : quantaOf quanta (fieldOf (rd (rPort p 0x78) d) 14 12) = some q)
    (hd : fieldOf (rd (rPort p 0x78) d) 18 16 ≠ fieldOf (rd (rPort p 0x78) d) 14 12)
    (ho : ∀ i < 8, i ≠ fieldOf (rd (rPort p 0x78) d) 14 12 → quantaOf quanta i = none) :
    pauseBy p quanta d = pausePriority p false q d := by
  have hctrl : quantaOf quanta (fieldOf (rd (rPort p 0x78) d) 18 16) = none := ho _ (Nat.mod_lt _ (by decide)) hd
  have hrest : (List.range 8).any (fun i => i != fieldOf (rd (rPort p 0x78) d) 14 12 && i != fieldOf (rd (rPort p 0x78) d) 18 16
      && (quantaOf quanta i).isSome) = false := by
    refine List.any_eq_false.2 fun i hi => ?_
    by_cases h : i = fieldOf (rd (rPort p 0x78) d) 14 12
    · simp [h]
    · simp [ho i (List.mem_range.1 hi) h]
  simp only [pauseBy, hq, hctrl, hrest, Bool.false_eq_true, if_false]

theorem pauseBy_control {q : Nat} {quanta : PauseQuanta} (hq : quantaOf quanta (fieldOf (rd (rPort p 0x78) d) 18 16) = some q)
    (hd : fieldOf (rd (rPort p 0x78) d) 18 16 ≠ fieldOf (rd (rPort p 0x78) d) 14 12)
    (ho : ∀ i < 8, i ≠ fieldOf (rd (rPort p 0x78) d) 18 16 → quantaOf quanta i = none) :
    pauseBy p quanta d = pausePriority p true q d := by
  have hdata : quantaOf quanta (fieldOf (rd (rPort p 0x78) d) 14 12) = none := ho _ (Nat.mod_lt _ (by decide)) hd.symm
  have hrest : (List.range 8).any (fun i => i != fieldOf (rd (rPort p 0x78) d) 14 12 && i != fieldOf (rd (rPort p 0x78) d) 18 16
      && (quantaOf quanta i).isSome) = false := by
    refine List.any_eq_false.2 fun i hi => ?_
    by_cases h : i = fieldOf (rd (rPort p 0x78) d) 18 16
    · simp [h]
    · simp [ho i (List.mem_range.1 hi) h]
  simp only [pauseBy, hq, hdata, hrest, Bool.false_eq_true, if_false]

theorem portOf_pauseBy_both {q : Nat} {quanta : PauseQuanta} (hq : quantaOf quanta (fieldOf (rd (rPort p 0x78) d) 14 12) = some q)
    (hd : fieldOf (rd (rPort p 0x78) d) 18 16 = fieldOf (rd (rPort p 0x78) d) 14 12) :
    portOf p (pauseBy p quanta d) = { portOf p d with
      pausedData := pauseFrom q d.now (portOf p d).pausedData, pausedCtrl := pauseFrom q d.now (portOf p d).pausedCtrl } := by
  have htwo : portOf p (pausePriority p true q (pausePriority p false q d)) = { portOf p d with
      pausedData := pauseFrom q d.now (portOf p d).pausedData, pausedCtrl := pauseFrom q d.now (portOf p d).pausedCtrl } := by
    rw [portOf_pausePriority, if_pos rfl, portOf_pausePriority, if_neg Bool.false_ne_true]
    rfl
  simp only [pauseBy, hd, hq]
  split
  · rw [portOf_bump, htwo]
  · exact htwo

theorem endPause_due {ctrl : Bool} {t : Nat × Nat} (h : pauseOf p ctrl d = some t) (ht : t.2 ≤ d.now) : endPause p ctrl d =
    modPort p (fun x => if ctrl then { x with pausedCtrl := none } else { x with pausedData := none }) d := by
  simp only [endPause, h, Option.any_some, decide_eq_true ht, if_true]

theorem repeatPfc_rises {ctrl : Bool} (hx : xoffOf p ctrl d = none) (hl : 3 * bufferSize ctrl < 4 * levelOf p ctrl d) :
    repeatPfc p ctrl d = sendPfc p ctrl 0xFFFF d := by
  simp only [repeatPfc, hx, Option.any_none, Bool.false_eq_true, if_false, judgeRise, Option.isNone_none, decide_eq_true hl,
    Bool.and_self, if_true]

theorem repeatPfc_due {ctrl : Bool} {t : Nat} (hx : xoffOf p ctrl d = some t) (ht : t + 20000 ≤ d.now) : repeatPfc p ctrl d =
    if bufferSize ctrl < 2 * levelOf p ctrl d then sendPfc p ctrl 0xFFFF d
    else if 2 * levelOf p ctrl d < bufferSize ctrl then sendPfc p ctrl 0 d else d := by
  simp only [repeatPfc, hx, Option.any_some, decide_eq_true ht, if_true, judgeFall, Option.isSome_some, Bool.true_and,
    decide_eq_true_eq]

theorem sendPfc_sends {ctrl : Bool} {q : Nat} (hc : carries p d = true) (ht : rd (rPort p 0x80) d ≠ 0) :
    (sendPfc p ctrl q d).net.wire = d.net.wire ++ [.pfc p (if ctrl then fieldOf (rd (rPort p 0x78) d) 18 16
        else fieldOf (rd (rPort p 0x78) d) 14 12) q]
    ∧ xoffOf p ctrl (sendPfc p ctrl q d) = (if q = 0 then none else some d.now) := by
  have hs : sendPfc p ctrl q d = bump (rPort p 0x8C) (putOut p (.pfc p (if ctrl then fieldOf (rd (rPort p 0x78) d) 18 16
      else fieldOf (rd (rPort p 0x78) d) 14 12) q) (modPort p (fun x =>
        if ctrl then { x with xoffCtrl := if q = 0 then none else some d.now }
        else { x with xoffData := if q = 0 then none else some d.now }) d)) :=
    if_neg (by rw [hc]; simpa using ht)
  have hp : portOf p (sendPfc p ctrl q d) = (if ctrl then { portOf p d with xoffCtrl := if q = 0 then none else some d.now }
      else { portOf p d with xoffData := if q = 0 then none else some d.now }) := by
    rw [hs, portOf_bump, portOf_putOut]
    exact portOf_modPort p _ d
  refine ⟨by rw [hs]; rfl, ?_⟩
  cases ctrl with
  | true => exact congrArg PortLink.xoffCtrl hp
  | false => exact congrArg PortLink.xoffData hp

theorem pauseStorm_due {ctrl : Bool} {t : Nat × Nat} (h : pauseOf p ctrl d = some t)
    (ht : t.1 + 1000000 * clampReg 1 10000 (rd (rPort p 0x94) d) < d.now) : pauseStorm p ctrl d = raise (pPort p) 21 d := by
  simp only [pauseStorm, h, Option.any_some, decide_eq_true ht, if_true]

end Pause

/-- Settles O34, with an equation for each way a pause begins and ends. -/
theorem pauseCompletes : Obligations.PauseCompletes := by
  intro p q ctrl quanta s hon hp d size tag data control port until_
  have hsize : size = bufferSize ctrl := rfl
  have hport : 24 * (p / 24) + p % 24 = p := Nat.div_add_mod p 24
  have hrep : exec (.pfcRepeat (p / 24) (p % 24) ctrl) s = onDev (repeatPfc p ctrl) s := by
    show onDev (repeatPfc (24 * (p / 24) + p % 24) ctrl) s = _
    rw [hport]
  have htag : rd (rPort p 0x78) (add64 (rPort p 0xB0) 1 d) = rd (rPort p 0x78) d :=
    rd_add64_other (by simp [homeOf]) (by simp [homeOf, hiOf])
  have h88 : rd (rPort p 0x88) (add64 (rPort p 0xB0) 1 d) = rd (rPort p 0x88) d :=
    rd_add64_other (by simp [homeOf]) (by simp [homeOf, hiOf])
  have huntil : ∀ old, pauseFrom q d.now old = until_ old := fun old => pauseFrom_eq q d.now old
  refine ⟨fun hc ht hq hd ho => does_of hon (f := otherFrame p true (pauseBy p quanta)) ?_,
    fun hc ht hq hd ho => does_of hon (f := otherFrame p true (pauseBy p quanta)) ?_,
    fun hc ht hq hd => does_of hon (f := otherFrame p true (pauseBy p quanta)) ?_, fun hc => gives_of_eq hon (otherFrame_bad _ hc),
    fun t hx ht => gives_of_eq hon (endPause_due (ctrl := true) hx ht), fun t hx ht => gives_of_eq hon (endPause_due (ctrl := false) hx ht),
    fun hx hl => ?_, fun t hx ht hl => ?_, fun t hx ht hl => ?_, fun hc ht => sendPfc_sends hc ht, fun t hx ht => ?_⟩
  · rw [otherFrame_good _ hc ht, pauseBy_data (by rw [htag]; exact hq) (by rw [htag]; exact hd) (by rw [htag]; exact ho)]
    have hl := rd_bumpHalf_low (rPort p 0x88) (modPort p (fun x =>
      if false then { x with pausedCtrl := pauseFrom q d.now x.pausedCtrl }
      else { x with pausedData := pauseFrom q d.now x.pausedData }) (add64 (rPort p 0xB0) 1 d))
    have hl' : rd (rPort p 0x88) (modPort p (fun x =>
      if false then { x with pausedCtrl := pauseFrom q d.now x.pausedCtrl }
      else { x with pausedData := pauseFrom q d.now x.pausedData }) (add64 (rPort p 0xB0) 1 d)) = rd (rPort p 0x88) d := h88
    rw [hl'] at hl
    refine ⟨?_, ?_, hl⟩
    · rw [portOf_pausePriority, if_neg Bool.false_ne_true]
      exact huntil _
    · rw [portOf_pausePriority, if_neg Bool.false_ne_true]
      rfl
  · rw [otherFrame_good _ hc ht, pauseBy_control (by rw [htag]; exact hq) (by rw [htag]; exact hd) (by rw [htag]; exact ho)]
    have hl := rd_bumpHalf_high (rPort p 0x88) (modPort p (fun x =>
      if true then { x with pausedCtrl := pauseFrom q d.now x.pausedCtrl }
      else { x with pausedData := pauseFrom q d.now x.pausedData }) (add64 (rPort p 0xB0) 1 d))
    have hl' : rd (rPort p 0x88) (modPort p (fun x =>
      if true then { x with pausedCtrl := pauseFrom q d.now x.pausedCtrl }
      else { x with pausedData := pauseFrom q d.now x.pausedData }) (add64 (rPort p 0xB0) 1 d)) = rd (rPort p 0x88) d := h88
    rw [hl'] at hl
    refine ⟨?_, ?_, hl⟩
    · rw [portOf_pausePriority, if_pos rfl]
      exact huntil _
    · rw [portOf_pausePriority, if_pos rfl]
      rfl
  · rw [otherFrame_good _ hc ht, portOf_pauseBy_both (by rw [htag]; exact hq) (by rw [htag]; exact hd)]
    exact ⟨huntil _, huntil _⟩
  · rw [hrep]
    exact gives_of_eq hon (repeatPfc_rises hx hl)
  · rw [hrep]
    exact gives_of_eq hon ((repeatPfc_due hx ht).trans (if_pos hl))
  · rw [hrep]
    have hl' : 2 * levelOf p ctrl s.dev < bufferSize ctrl := hl
    exact gives_of_eq hon ((repeatPfc_due hx ht).trans ((if_neg (Nat.not_lt.2 (Nat.le_of_lt hl'))).trans (if_pos hl')))
  · refine does_of hon (f := pauseStorm p ctrl) ?_
    rw [pauseStorm_due (d := s.dev) hx ht]
    exact ⟨reported_raise _ _ _, events_raise (by decide) _ _⟩

end Sys2Proof.Machine
end


section
/-!
SUPPORT. Frames that arrive on a port, and its receive buffers (R257, R259, R267, R280, R294).
-/

namespace Sys2Proof.Machine

section Frames

variable {p : Nat} {f : Frame} {d : Dev}

theorem receiveFrame_fails {bytes : List Byte} {r : RegId} (hc : carries p d = true)
    (hf : frameFails p (readFrame bytes) (add64 (rPort p 0xB0) 1 d) = some r) :
    receiveFrame p bytes d = bump r (add64 (rPort p 0xB0) 1 d) := by
  simp only [receiveFrame, hc, Bool.not_true, Bool.false_eq_true, if_false, hf]

theorem receiveFrame_enters {bytes : List Byte} (hc : carries p d = true)
    (hf : frameFails p (readFrame bytes) (add64 (rPort p 0xB0) 1 d) = none) :
    receiveFrame p bytes d = settleAll (bufferFrame p (readFrame bytes) (add64 (rPort p 0xB0) 1 d)) := by
  simp only [receiveFrame, hc, Bool.not_true, Bool.false_eq_true, if_false, hf]

@[simp] theorem bufferOf_putBuffer (p : Nat) (ctrl : Bool) (l : List Frame) (d : Dev) : bufferOf p ctrl (putBuffer p ctrl l d) = l := by
  cases ctrl <;> simp [bufferOf, putBuffer]

theorem bufferFrame_full (h : bufferSize (!isData f.type) < levelOf p (!isData f.type) d + f.length) : bufferFrame p f d = d :=
  if_pos h

/-- A frame that enters an empty buffer and need not wait is taken at once. -/
theorem bufferFrame_taken (he : bufferOf p (!isData f.type) d = []) (hl : 4 * f.length ≤ 3 * bufferSize (!isData f.type))
    (hw : rxWaits p f (putBuffer p (!isData f.type) [f] d) = false) : bufferFrame p f d =
      judgeFall p (!isData f.type) (takeFrame p f (putBuffer p (!isData f.type) [] (putBuffer p (!isData f.type) [f] d))) := by
  have hroom : ¬bufferSize (!isData f.type) < levelOf p (!isData f.type) d + f.length := by
    have hlevel : levelOf p (!isData f.type) d = 0 := by rw [levelOf, he]; rfl
    omega
  have hrise : judgeRise p (!isData f.type) (putBuffer p (!isData f.type) [f] d) = putBuffer p (!isData f.type) [f] d := by
    have hlevel : levelOf p (!isData f.type) (putBuffer p (!isData f.type) [f] d) = f.length := by
      rw [levelOf, bufferOf_putBuffer]
      exact Nat.zero_add _
    rw [judgeRise, hlevel, decide_eq_false (Nat.not_lt.2 hl), Bool.and_false, if_neg Bool.false_ne_true]
  simp only [bufferFrame, hroom, if_false, he, List.nil_append, hrise, pumpPort, bufferOf_putBuffer, List.length_cons,
    List.length_nil, Nat.zero_add]
  rw [pumpBuffer.eq_def]
  simp only [bufferOf_putBuffer, hw, Bool.false_eq_true, if_false]
  rw [pumpBuffer.eq_def]

theorem takeFrame_sequenced (h2 : f.type ≠ 2) (h3 : f.type ≠ 3) (hc : f.ce = false) :
    takeFrame p f d = receiveSequenced (peerStream p f) p f d := by
  simp only [takeFrame, hc, h2, h3, or_self, if_false, Bool.false_eq_true]

theorem takeFrame_acknowledges (h : f.type = 2 ∨ f.type = 3) (hc : f.ce = false) : takeFrame p f d =
    pushRecord (sideOf p) (rxQueue p false) (headerRecord 2 f none) (add64 (rNi p 0x100) 1 d) := by
  simp only [takeFrame, hc, h, if_true, if_false, Bool.false_eq_true]

end Frames

/-- Settles O35, with an equation for each place where a frame goes. -/
theorem framesReachTheirHalf : Obligations.FramesReachTheirHalf := by
  intro p bytes r i s hon hc hi d f d1 ctrl b k
  have hexec : exec i s = onDev (receiveFrame p bytes) s := by
    simp only [List.mem_cons, List.not_mem_nil, or_false] at hi
    obtain rfl | rfl | rfl | rfl | rfl := hi <;> rfl
  rw [hexec]
  exact ⟨fun hf => gives_of_eq hon (receiveFrame_fails hc hf), fun hf => gives_of_eq hon (receiveFrame_enters hc hf),
    bufferFrame_full, bufferFrame_taken, takeFrame_sequenced, takeFrame_acknowledges⟩

end Sys2Proof.Machine
end


section
/-!
SUPPORT. The receiving and the sending half of a stream (R267, R270 to R277, R291, R296).
-/

namespace Sys2Proof.Machine

/-! ### What happens in the queue pools alone -/

/-- Of the network only queue pools have changed, and nothing in module memory. -/
structure InPool (d e : Dev) : Prop where
  net : { e.net with pools := d.net.pools } = d.net
  mem : e.mem = d.mem

theorem InPool.refl (d : Dev) : InPool d d := ⟨rfl, rfl⟩

theorem InPool.trans {a b c : Dev} (h : InPool a b) (h' : InPool b c) : InPool a c := by
  refine ⟨?_, h'.mem.trans h.mem⟩
  rw [← h.net, ← h'.net]

theorem InPool.foldl {α : Type} {f : Dev → α → Dev} (h : ∀ d x, InPool d (f d x)) (l : List α) (d : Dev) : InPool d (l.foldl f d) := by
  induction l generalizing d with
  | nil => exact .refl d
  | cons x l ih => exact (h d x).trans (ih _)

theorem Reported.inPool {d e : Dev} (h : Reported d e) : InPool d e :=
  ⟨by rw [h.sameQuiet.field Dev.net fun _ => rfl], h.sameQuiet.field Dev.mem fun _ => rfl⟩

theorem inPool_wr (r : RegId) (n : Nat) (d : Dev) : InPool d (wr r n d) := ⟨rfl, rfl⟩

theorem inPool_modPool (side : Nat) (f : Pool → Pool) (d : Dev) : InPool d (modPool side f d) := ⟨rfl, rfl⟩

theorem inPool_linkLevel (side q before after : Nat) (d : Dev) : InPool d (linkLevel side q before after d) := by
  simp only [linkLevel]
  split
  · exact ((inPool_wr _ _ d).trans (inPool_wr _ _ _)).trans (reported_raise _ _ _).inPool
  · exact inPool_wr _ _ d

theorem inPool_strike (side q : Nat) (cells : List PoolCell) (d : Dev) : InPool d (strike side q cells d).1 := by
  simp only [strike]
  split
  · exact inPool_wr _ _ d
  · exact .refl d

theorem inPool_pushRecord (side q : Nat) (r : PktRec) (d : Dev) : InPool d (pushRecord side q r d) := by
  simp only [pushRecord, linkCells, putRecords]
  exact ((inPool_strike side q r.cells d).trans (inPool_linkLevel _ _ _ _ _)).trans (inPool_modPool _ _ _)

theorem inPool_admitHeaders (side : Nat) (d : Dev) : InPool d (admitHeaders side d) := by
  unfold admitHeaders
  split
  · exact .refl d
  · refine (inPool_modPool side _ d).trans (.foldl (fun x w => ?_) _ _)
    split
    · exact inPool_modPool _ _ x
    · exact inPool_pushRecord _ _ _ x

theorem inPool_sendControl (p : Nat) (f : Frame) (d : Dev) : InPool d (sendControl p f d) := by
  unfold sendControl
  split
  · exact .refl d
  · exact (inPool_modPool _ _ d).trans (inPool_admitHeaders _ _)

theorem InPool.rxOf {d e : Dev} (h : InPool d e) (k : StreamId) : rxOf k e = rxOf k d := by
  rw [Machine.rxOf, Machine.rxOf, ← h.net]

/-! ### Halves of a stream -/

@[simp] theorem rxOf_modRx (k : StreamId) (f : RxHalf → RxHalf) (d : Dev) : rxOf k (modRx k f d) = f (rxOf k d) := by
  simp [rxOf, modRx, modNet]

@[simp] theorem txOf_modTx (k : StreamId) (f : TxHalf → TxHalf) (d : Dev) : txOf k (modTx k f d) = f (txOf k d) := by
  simp [txOf, modTx, modNet]

theorem Reported.txOf {d e : Dev} (h : Reported d e) (k : StreamId) : txOf k e = txOf k d := by
  rw [Machine.txOf, h.sameQuiet.field Dev.net fun _ => rfl]
  rfl

theorem packetRecords_putRecords (side q : Nat) (l : List PktRec) (d : Dev) : packetRecords side q (putRecords side q l d) = l := by
  simp [packetRecords, putRecords, poolOf, modPool, modNet]

section Queues

variable {side q : Nat} {r : PktRec} {rest : List PktRec} {d : Dev}

theorem consumeRx_ack (h : packetRecords side q d = r :: rest) (hb : r.cells.any badCell = false) (ht : r.frame.type = 2) :
    consumeRx side q d = receiveAck (peerStream (24 * side + q / 4) r.frame) (24 * side + q / 4) r.frame (putRecords side q rest d) := by
  simp only [consumeRx, h, hb, Bool.false_eq_true, if_false, ht]

theorem consumeRx_nack (h : packetRecords side q d = r :: rest) (hb : r.cells.any badCell = false) (ht : r.frame.type = 3) :
    consumeRx side q d = receiveNack (peerStream (24 * side + q / 4) r.frame) (24 * side + q / 4) r.frame (putRecords side q rest d) := by
  simp only [consumeRx, h, hb, Bool.false_eq_true, if_false, ht]

theorem consumeRx_sequenced (h : packetRecords side q d = r :: rest) (hb : r.cells.any badCell = false) (h2 : r.frame.type ≠ 2)
    (h3 : r.frame.type ≠ 3) : consumeRx side q d =
      keep (peerStream (24 * side + q / 4) r.frame) (24 * side + q / 4) r.frame false (putRecords side q rest d) := by
  simp only [consumeRx, h, hb, Bool.false_eq_true, if_false]

theorem consumeRx_poisoned (h : packetRecords side q d = r :: rest) (hb : r.cells.any badCell = true) :
    consumeRx side q d = countParity side (putRecords side q rest d) := by
  simp only [consumeRx, h, hb, if_true]

theorem transmit_oldest {a : Nat} {data : Bool} (h : packetRecords (a / 24) (txQueue a data) d = r :: rest)
    (hm : mayTransmit a data d = true) (hb : r.cells.any badCell = false) :
    transmit a data d = emit a (leaving r d) (putRecords (a / 24) (txQueue a data) rest d) := by
  simp only [transmit, h, hm, hb, Bool.not_true, Bool.false_eq_true, if_false]

theorem wire_emit (a : Nat) (f : Frame) (d : Dev) :
    (emit a f d).net.wire = d.net.wire ++ [.packet a (frameBytes (wrapOf a f d) f)] := by
  simp only [emit]
  split <;> rfl

end Queues

theorem receiveQueuesAreServed : Claims.ReceiveQueuesAreServed := by
  intro side q r rest d h p k d1
  refine ⟨fun hb ht => consumeRx_ack h hb ht, fun hb ht => consumeRx_nack h hb ht, fun hb h2 h3 => consumeRx_sequenced h hb h2 h3,
    fun hb => consumeRx_poisoned h hb, packetRecords_putRecords side q rest d, fun a data hm hs hq hb => ?_, fun a f => wire_emit a f d⟩
  subst hs hq
  exact transmit_oldest h hm hb

/-! ### The receiving half -/

section Receive

variable {k : StreamId} {p : Nat} {f : Frame} {d : Dev}

/-- Numbers that follow each other, by what is left of 2³². -/
theorem seqLe_next_of_not {n cum : Nat} (h : seqLe ((cum + 1) % 2 ^ 32) n = false) : seqLe n cum = true := by
  simp only [seqLe, decide_eq_false_iff_not, decide_eq_true_eq] at *
  omega

theorem seqLe_next (cum : Nat) : seqLe ((cum + 1) % 2 ^ 32) cum = false := by
  simp only [seqLe, decide_eq_false_iff_not]
  omega

theorem judgePacket_duplicate (h : seqLe (((rxOf k d).cum + 1) % 2 ^ 32) f.seq.toNat = false) : judgePacket k p f d = .duplicate := by
  have hc := seqLe_next_of_not h
  simp only [judgePacket, h, hc, Bool.false_and, Bool.true_or, if_true, Bool.false_eq_true, if_false]

theorem judgePacket_window (h : seqLe (((rxOf k d).cum + 1) % 2 ^ 32) f.seq.toNat = true)
    (hw : 1024 < (f.seq.toNat + 2 ^ 32 - ((rxOf k d).cum + 1) % 2 ^ 32) % 2 ^ 32) : judgePacket k p f d = .window := by
  simp only [judgePacket, h, decide_eq_true hw, Bool.and_self, if_true]

section Next

variable (hs : f.seq.toNat = ((rxOf k d).cum + 1) % 2 ^ 32) (hp : (rxOf k d).pkts = [])
  (hq : queuedSeq k (((rxOf k d).cum + 1) % 2 ^ 32) d = false) (hst : stateOf (pPort p) d ≠ .quiesced)
include hs hp hq hst

/-- The packet after CUM_SEQ is judged by the page and by its fields. -/
theorem judgePacket_accept (hr : rejectReason p f d = none) : judgePacket k p f d = .accept := by
  have hw : ¬1024 < (((rxOf k d).cum + 1) % 2 ^ 32 + 2 ^ 32 - ((rxOf k d).cum + 1) % 2 ^ 32) % 2 ^ 32 := by omega
  simp only [judgePacket, hs, decide_eq_false hw, Bool.and_false, Bool.false_eq_true, if_false, seqLe_next, hp, List.any_nil, hq,
    Bool.or_self, hst, hr]

theorem judgePacket_reject {reason : Nat} (hr : rejectReason p f d = some reason) : judgePacket k p f d = .reject reason := by
  have hw : ¬1024 < (((rxOf k d).cum + 1) % 2 ^ 32 + 2 ^ 32 - ((rxOf k d).cum + 1) % 2 ^ 32) % 2 ^ 32 := by omega
  simp only [judgePacket, hs, decide_eq_false hw, Bool.and_false, Bool.false_eq_true, if_false, seqLe_next, hp, List.any_nil, hq,
    Bool.or_self, hst, hr]

end Next

theorem settleBytes_staging {a : Nat} (bs : List Byte) (ha : 2 ^ 63 ≤ a) (hp : netPoisoned a bs.length d = []) :
    (settleBytes a bs d).net.staging = d.net.staging.write (a - 2 ^ 63) bs := by
  have hmerge : ∀ l : List Byte, l.length = bs.length → (bs.zip l).zipIdx.map (fun x =>
      if ([] : List Nat).contains (x.2 / 16) then x.1.2 else x.1.1) = bs := fun l hl => by
    have h1 : (bs.zip l).zipIdx.map (fun x => x.1.1) = ((bs.zip l).zipIdx.map Prod.fst).map Prod.fst := by
      rw [List.map_map]; rfl
    simp only [List.contains_nil, Bool.false_eq_true, if_false]
    rw [h1, List.zipIdx_map_fst, List.map_fst_zip (Nat.le_of_eq hl.symm)]
  have hlen : ∀ (m : Mem) (b n : Nat), (m.read b n).length = n := fun m b n => by
    induction n generalizing b with
    | zero => rfl
    | succ n ih => rw [Mem.read, List.length_cons, ih]
  simp only [settleBytes, hp, if_pos ha]
  exact congrArg (d.net.staging.write (a - 2 ^ 63)) (hmerge _ (hlen _ _ _))

theorem settleBytes_modRx (a : Nat) (bs : List Byte) (k : StreamId) (g : RxHalf → RxHalf) (d : Dev) :
    settleBytes a bs (modRx k g d) = modRx k g (settleBytes a bs d) := by
  simp only [settleBytes]
  split <;> rfl

/-- The receiving half as it stands once a packet that ends its message has passed. -/
def passedHalf (p : Nat) (f : Frame) (now : Nat) (x : RxHalf) : RxHalf :=
  { x with
    cum := (x.cum + 1) % 2 ^ 32, pkts := [], rejecting := false, landing := [], sinceAck := x.sinceAck + 1,
    firstAt := x.firstAt.or (some now), ce := x.ce || f.ce, plane := p }

theorem land_single {e : Landing} (hn : noPlans d = true) : land [e] d = if e.poison then d else settleBytes e.address e.payload d := by
  have hplans : noPlans (settleBytes e.address e.payload d) = true := by
    rw [show noPlans (settleBytes e.address e.payload d) = noPlans d by simp only [settleBytes]; split <;> rfl]
    exact hn
  simp only [land, List.foldl_cons, List.foldl_nil, memWrote_no_plans _ _ hplans, ite_self]

theorem modRx_modRx (k : StreamId) (g h : RxHalf → RxHalf) (d : Dev) : modRx k h (modRx k g d) = modRx k (h ∘ g) d := by
  simp [modRx, modNet, rxOf]

theorem modRx_congr {g h : RxHalf → RxHalf} (e : g (rxOf k d) = h (rxOf k d)) : modRx k g d = modRx k h d := by
  rw [modRx, e]
  rfl

/-- The half once the packet has been kept. -/
def keptHalf (p : Nat) (f : Frame) (now : Nat) (rejected : Bool) (x : RxHalf) : RxHalf :=
  { x with
    pkts := x.pkts ++ [keptPacket p now f rejected], sinceAck := x.sinceAck + 1, firstAt := x.firstAt.or (some now)
    ce := x.ce || f.ce, plane := p }

theorem keep_eq (rejected : Bool) : ∃ b : Bool, keep k p f rejected d =
    if b then sendAck k (advance (rxOf k (modRx k (keptHalf p f d.now rejected) d)).pkts.length k (modRx k (keptHalf p f d.now rejected) d))
    else advance (rxOf k (modRx k (keptHalf p f d.now rejected) d)).pkts.length k (modRx k (keptHalf p f d.now rejected) d) :=
  ⟨_, rfl⟩

/-- CUM_SEQ passes the one packet that is kept. -/
theorem advance_single {q : RxPkt} (hp : (rxOf k d).pkts = [q]) (hq : q.seq = ((rxOf k d).cum + 1) % 2 ^ 32) :
    advance 1 k d = passPacket k q (modRx k (fun x => { x with cum := (x.cum + 1) % 2 ^ 32, pkts := [] }) d) := by
  have hfind : [q].find? (fun y => y.seq == ((rxOf k d).cum + 1) % 2 ^ 32) = some q := by simp [hq]
  have hmod : modRx k (fun x => { x with
      cum := ((rxOf k d).cum + 1) % 2 ^ 32, pkts := x.pkts.filter (fun y => y.seq != ((rxOf k d).cum + 1) % 2 ^ 32) }) d
        = modRx k (fun x => { x with cum := (x.cum + 1) % 2 ^ 32, pkts := [] }) d :=
    modRx_congr (by simp [hp, hq])
  rw [advance]
  simp only [hp, hfind]
  rw [advance, hmod]

theorem passPacket_message {q : RxPkt} (hj : q.rejected = false) (ht : q.type = 1) (he : q.eom = true) (hc : q.chunk = false)
    (hno : q.notify = false) (hr : (rxOf k d).rejecting = false) (hl : (rxOf k d).landing = []) (hn : noPlans d = true) :
    passPacket k q d = if q.poison then modRx k (fun x => { x with rejecting := false, landing := [] }) d
      else settleBytes q.address q.payload (modRx k (fun x => { x with rejecting := false, landing := [] }) d) := by
  have hplans : noPlans (modRx k (fun x => { x with rejecting := false, landing := [] }) d) = true := hn
  simp only [passPacket, hj, ht, he, hc, hno, hr, hl, Bool.or_self, Bool.not_true, Bool.and_false, Bool.false_eq_true, if_false,
    if_true, and_self, List.nil_append, Bool.not_false, Bool.and_self, ne_eq, not_true, land_single hplans]

/-- The one packet that a stream keeps, a whole message, passes. -/
theorem advance_message (hs : f.seq.toNat = ((rxOf k d).cum + 1) % 2 ^ 32) (ht : f.type = 1) (hc : f.chunk = false)
    (hno : f.notify = false) (he : f.endOfMessage = true) (hp : (rxOf k d).pkts = []) (hr : (rxOf k d).rejecting = false)
    (hl : (rxOf k d).landing = []) (hn : noPlans d = true) : advance 1 k (modRx k (keptHalf p f d.now false) d) =
    modRx k (passedHalf p f d.now) (if f.poison then d else settleBytes f.remoteAddr.toNat f.payload d) := by
  have h1 := advance_single (k := k) (d := modRx k (keptHalf p f d.now false) d) (q := keptPacket p d.now f false)
    (by rw [rxOf_modRx, keptHalf, hp]; rfl) (by rw [rxOf_modRx]; exact hs)
  have h2 := passPacket_message (k := k) (q := keptPacket p d.now f false)
    (d := modRx k (fun x => { x with cum := (x.cum + 1) % 2 ^ 32, pkts := [] }) (modRx k (keptHalf p f d.now false) d)) rfl ht
    (by simp [keptPacket, he]) (by simp [keptPacket, hc]) hno (by rw [rxOf_modRx, rxOf_modRx]; exact hr)
    (by rw [rxOf_modRx, rxOf_modRx]; exact hl) hn
  have hmod : modRx k (fun x => { x with rejecting := false, landing := [] })
      (modRx k (fun x => { x with cum := (x.cum + 1) % 2 ^ 32, pkts := [] }) (modRx k (keptHalf p f d.now false) d))
        = modRx k (passedHalf p f d.now) d := by
    rw [modRx_modRx, modRx_modRx]
    rfl
  rw [h1, h2, hmod, settleBytes_modRx]
  show (if f.poison = true then _ else _) = _
  split <;> rfl

theorem inPool_sendAck (k : StreamId) (d : Dev) : ∃ e, InPool d e
    ∧ sendAck k d = modRx k (fun x => { x with sinceAck := 0, ce := false, firstAt := none }) e :=
  ⟨_, inPool_sendControl _ _ d, rfl⟩

/-- A whole message that is the packet after CUM_SEQ completes as it is kept. -/
theorem keep_message (hs : f.seq.toNat = ((rxOf k d).cum + 1) % 2 ^ 32) (ht : f.type = 1) (hc : f.chunk = false)
    (hno : f.notify = false) (he : f.endOfMessage = true) (hp : (rxOf k d).pkts = []) (hr : (rxOf k d).rejecting = false)
    (hl : (rxOf k d).landing = []) (hn : noPlans d = true) :
    (rxOf k (keep k p f false d)).cum = ((rxOf k d).cum + 1) % 2 ^ 32 ∧ (rxOf k (keep k p f false d)).pkts = []
      ∧ (rxOf k (keep k p f false d)).landing = []
      ∧ (f.poison = false → (keep k p f false d).net.staging = (settleBytes f.remoteAddr.toNat f.payload d).net.staging
        ∧ (keep k p f false d).mem = (settleBytes f.remoteAddr.toNat f.payload d).mem) := by
  have hrx : rxOf k (if f.poison then d else settleBytes f.remoteAddr.toNat f.payload d) = rxOf k d := by
    split
    · rfl
    · simp only [settleBytes]
      split <;> rfl
  have hadv := advance_message (p := p) hs ht hc hno he hp hr hl hn
  have hlen : (rxOf k (modRx k (keptHalf p f d.now false) d)).pkts.length = 1 := by
    rw [rxOf_modRx, keptHalf, hp]
    rfl
  have hbase : ∀ e, InPool (modRx k (passedHalf p f d.now) (if f.poison then d else settleBytes f.remoteAddr.toNat f.payload d)) e →
      ((rxOf k e).cum = ((rxOf k d).cum + 1) % 2 ^ 32 ∧ (rxOf k e).pkts = [] ∧ (rxOf k e).landing = [])
      ∧ (f.poison = false → e.net.staging = (settleBytes f.remoteAddr.toNat f.payload d).net.staging
        ∧ e.mem = (settleBytes f.remoteAddr.toNat f.payload d).mem) := by
    intro e h
    have hrxe := h.rxOf k
    rw [rxOf_modRx, hrx] at hrxe
    refine ⟨by rw [hrxe]; exact ⟨rfl, rfl, rfl⟩, fun hpoison => ?_⟩
    have hnet := congrArg Net.staging h.net
    have hmem := h.mem
    rw [hpoison, if_neg Bool.false_ne_true] at hnet hmem
    exact ⟨hnet, hmem⟩
  obtain ⟨b, hb⟩ := keep_eq (k := k) (p := p) (f := f) (d := d) false
  rw [hb, hlen, hadv]
  cases b with
  | false =>
    obtain ⟨⟨h1, h2, h3⟩, h4⟩ := hbase _ (.refl _)
    exact ⟨h1, h2, h3, h4⟩
  | true =>
    rw [if_pos rfl]
    obtain ⟨e, he, hack⟩ := inPool_sendAck k
      (modRx k (passedHalf p f d.now) (if f.poison then d else settleBytes f.remoteAddr.toNat f.payload d))
    obtain ⟨⟨h1, h2, h3⟩, h4⟩ := hbase e he
    rw [hack, rxOf_modRx]
    exact ⟨h1, h2, h3, h4⟩

end Receive

/-- What a verdict does with a sequenced packet. -/
def onVerdict (k : StreamId) (p : Nat) (f : Frame) (d : Dev) (v : RxVerdict) : Dev :=
  let seq := f.seq.toNat
  match v with
  | .window => answerCe k p f (bump (rNi p 0x110) d)
  | .duplicate => sendAck k (modRx k (fun x => { x with plane := p, ce := x.ce || f.ce }) (bump (rNi p 0x114) d))
  | .held =>
    let d1 := modRx k (fun x => { x with ce := x.ce || f.ce }) d
    answerCe k p f (bump (rNi p 0x128) (sendNack p k seq (if stopHeld p d then 5 else 6) d1))
  | .reject reason =>
    let d1 := modRx k (fun x => { x with ce := x.ce || f.ce }) d
    keep k p f true (raise (pNi p) 18 (bump (rNi p (reasonCounter reason)) (sendNack p k seq reason d1)))
  | .accept => acceptPacket p f d

theorem receiveSequenced_eq (k : StreamId) (p : Nat) (f : Frame) (d : Dev) :
    receiveSequenced k p f d = onVerdict k p f d (judgePacket k p f d) := rfl

theorem sequencedPacketsAreJudged : Claims.SequencedPacketsAreJudged := by
  intro p f k d r next e kept
  refine ⟨fun hs hp hq hst hr => ?_, fun hs ht hc hno he hp hr hl hn => keep_message hs ht hc hno he hp hr hl hn,
    fun a bs ha hp => settleBytes_staging bs ha hp, fun h => ?_, fun h hw hc => ?_, fun reason hs hp hq hst hr => ?_⟩
  · have hne : stateOf (pPort p) d ≠ .quiesced := by obtain h | h := hst <;> rw [h] <;> decide
    exact (receiveSequenced_eq k p f d).trans (congrArg _ (judgePacket_accept hs hp hq hne hr))
  · exact (receiveSequenced_eq k p f d).trans (congrArg _ (judgePacket_duplicate h))
  · refine ((receiveSequenced_eq k p f d).trans (congrArg _ (judgePacket_window h hw))).trans ?_
    exact if_neg (by rw [hc]; exact Bool.false_ne_true)
  · have h := (receiveSequenced_eq k p f d).trans (congrArg _ (judgePacket_reject hs hp hq hst hr))
    rw [onVerdict, hs] at h
    exact h

/-! ### The sending half -/

theorem noteEce_keeps (k : StreamId) (p : Nat) (f : Frame) (d : Dev) : (txOf k (noteEce k p f d)).next = (txOf k d).next
    ∧ (txOf k (noteEce k p f d)).unacked = (txOf k d).unacked := by
  unfold noteEce
  split
  · simp only [cutRate, txOf_modTx]
    exact ⟨rfl, rfl⟩
  · exact ⟨rfl, rfl⟩

theorem txOf_settleStream (k : StreamId) (d : Dev) : txOf k (settleStream k d) = txOf k d := rfl

/-- A packet in flight once an ACK has been read. -/
def marked (f : Frame) (o : OutPkt) : OutPkt := if sacked f o.seq then { o with sacked := true } else o

theorem seq_marked (f : Frame) (o : OutPkt) : (marked f o).seq = o.seq := by
  unfold marked
  split <;> rfl

theorem sacked_marked {f : Frame} {o : OutPkt} (h : sacked f o.seq = true) : (marked f o).sacked = true := by
  rw [marked, if_pos h]

/-- What an ACK takes from the packets in flight, and what it marks. -/
theorem txOf_receiveAck {k : StreamId} {p : Nat} {f : Frame} {d : Dev} (hb : (txOf k d).broken = false)
    (hs : seqLe f.seq.toNat (((txOf k d).next + 2 ^ 32 - 1) % 2 ^ 32) = true) : txOf k (receiveAck k p f d) =
      { txOf k (noteEce k p f d) with
        cum := f.seq.toNat, held := false,
        unacked := ((txOf k (noteEce k p f d)).unacked.filter (fun o => !seqLe o.seq f.seq.toNat)).map (marked f) } := by
  simp only [receiveAck, hb, hs, Bool.not_true, Bool.or_self, Bool.false_eq_true, if_false]
  rw [txOf_settleStream, txOf_modTx]
  rfl

/-- What a NACK with a reason asks for the packet that it names. -/
def onNack (k : StreamId) (p : Nat) (seq : Nat) (d1 : Dev) (reason : Nat) (s : Option Send) : Dev :=
  match reason, s with
  | 0, some _ => resend k seq none d1
  | 5, some _ => holdStream k p d1
  | 6, some s =>
    let plane := match (txOf k d1).unacked.find? (fun o => o.seq == seq) with | some o => o.plane | none => p
    if (sidePlanes k.side).any (fun q => bitOf s.planes q && q != plane) then resend k seq (some plane) d1
    else holdStream k p d1
  | n, some s =>
    if 1 ≤ n ∧ n ≤ 4 then
      raise (pNi p) 17 (modOut k seq (fun o => { o with sacked := true })
        (modSend s.num (fun x => { x with
          rejected := x.rejected.or (some (if n = 3 then Result.rejectedState else .rejectedRange)) }) d1))
    else d1
  | _, none => d1

theorem receiveNack_eq (k : StreamId) (p : Nat) (f : Frame) (d : Dev) :
    receiveNack k p f d = onNack k p f.seq.toNat (noteEce k p f d) (f.remoteAddr.toNat % 256)
      (sendOfSeq k f.seq.toNat (noteEce k p f d)) := rfl

/-- A NACK for a closed path. -/
theorem receiveNack_closed {k : StreamId} {p : Nat} {f : Frame} {d : Dev} {s : Send} (he : f.ece = false) (hr : f.remoteAddr = 5)
    (hx : sendOfSeq k f.seq.toNat d = some s) : receiveNack k p f d = holdStream k p d := by
  have hnote : noteEce k p f d = d := if_neg (by rw [he]; exact Bool.false_ne_true)
  have hreason : f.remoteAddr.toNat % 256 = 5 := by rw [hr]; decide
  rw [receiveNack_eq, hnote, hreason, hx]
  rfl

/-- What an ACK covers has left, and no other packet. -/
theorem seqs_of_taken (f : Frame) (n : Nat) (l : List OutPkt) :
    ((l.filter (fun o => !seqLe o.seq n)).map (marked f)).map (·.seq) = (l.map (·.seq)).filter (fun m => !seqLe m n) := by
  induction l with
  | nil => rfl
  | cons o l ih =>
    rw [List.map_cons]
    by_cases h : seqLe o.seq n = true
    · rw [List.filter_cons_of_neg (by rw [h]; exact Bool.false_ne_true), List.filter_cons_of_neg (by rw [h]; exact Bool.false_ne_true), ih]
    · rw [Bool.not_eq_true] at h
      rw [List.filter_cons_of_pos (by rw [h]; rfl), List.filter_cons_of_pos (by rw [h]; rfl), List.map_cons, List.map_cons, ih,
        seq_marked]

/-- What stands in flight after an ACK. -/
theorem receiveAck_takes {k : StreamId} {p : Nat} {f : Frame} {d : Dev} (hb : (txOf k d).broken = false)
    (hs : seqLe f.seq.toNat (((txOf k d).next + 2 ^ 32 - 1) % 2 ^ 32) = true) :
    (txOf k (receiveAck k p f d)).cum = f.seq.toNat ∧ (txOf k (receiveAck k p f d)).held = false
      ∧ (txOf k (receiveAck k p f d)).next = (txOf k d).next
      ∧ (txOf k (receiveAck k p f d)).unacked.map (·.seq)
        = ((txOf k d).unacked.map (·.seq)).filter (fun n => !seqLe n f.seq.toNat)
      ∧ ∀ o ∈ (txOf k (receiveAck k p f d)).unacked, sacked f o.seq = true → o.sacked = true := by
  obtain ⟨hnext, hun⟩ := noteEce_keeps k p f d
  rw [txOf_receiveAck hb hs, hun]
  refine ⟨rfl, rfl, hnext, seqs_of_taken f _ _, fun o ho hsack => ?_⟩
  obtain ⟨y, -, rfl⟩ := List.mem_map.1 ho
  rw [seq_marked] at hsack
  exact sacked_marked hsack

theorem acknowledgementsAreTaken : Claims.AcknowledgementsAreTaken := by
  intro p f k s d t a
  refine ⟨fun hb hs => receiveAck_takes hb hs, fun he hr hx => ⟨receiveNack_closed he hr hx, ?_⟩⟩
  have htx : txOf k (holdStream k p d) = { t with held := true, probeAt := if t.held then t.probeAt else d.now } := by
    rw [holdStream, (reported_raise _ _ _).txOf, txOf_modTx]
  exact ⟨by rw [htx], by rw [htx]⟩

/-- Settles O36, with an equation for each judgement of a packet and of its answer. -/
theorem streamHalvesKeepOrder : Obligations.StreamHalvesKeepOrder :=
  ⟨receiveQueuesAreServed, sequencedPacketsAreJudged, acknowledgementsAreTaken⟩

end Sys2Proof.Machine
end


section
/-!
SUPPORT. Timers of the transport, retransmission and broken streams (R266, R275 to R278, R283, R289).
-/

namespace Sys2Proof.Machine

/-! ### Acknowledgements leave (R275, R294) -/

@[simp] theorem length_beBytes (n v : Nat) : (beBytes n v).length = n := by simp [beBytes]

theorem length_transportHeader (f : Frame) : (transportHeader f).length = 40 := by
  unfold transportHeader addressBytes
  split <;> simp [zeros]

theorem cells_headerRecord (kind : Nat) (f : Frame) (send : Option Nat) : (headerRecord kind f send).cells.length = packetCells := by
  simp [headerRecord, recordCells, length_transportHeader, packetCells]

theorem packetRecords_pushRecord (side q : Nat) (r : PktRec) (d : Dev) :
    ∃ y, packetRecords side q (pushRecord side q r d) = packetRecords side q d ++ [y] ∧ y.send = r.send ∧ y.frame = r.frame :=
  ⟨_, packetRecords_putRecords side q _ _, rfl, rfl⟩

section Control

variable {p : Nat} {f : Frame} {d : Dev}

/-- A control packet that has credit leaves to its queue at once. -/
theorem packetRecords_sendControl (hs : inState (pPort p) [.off, .retired] d = false) (hw : (poolOf (p / 24) d).waiting = [])
    (hc : packetCells ≤ creditOf (p / 24) (txQueue p false) d) : ∃ y,
      packetRecords (p / 24) (txQueue p false) (sendControl p f d) = packetRecords (p / 24) (txQueue p false) d ++ [y]
        ∧ y.frame = f := by
  have hpool : ∀ (g : Pool → Pool) (x : Dev), poolOf (p / 24) (modPool (p / 24) g x) = g (poolOf (p / 24) x) := fun g x => by
    simp [poolOf, modPool, modNet]
  have hring : ∀ (n : Nat) (g : Pool → Pool) (x : Dev), ringSt n (modPool (p / 24) g x) = ringSt n x := fun _ _ _ => rfl
  have hcred : ∀ (l l' : List (Nat × PktRec)), hasCredit (p / 24) (txQueue p false) (headerRecord 1 f none)
      (modPool (p / 24) (fun y => { y with waiting := l }) (modPool (p / 24) (fun y => { y with waiting := y.waiting ++ l' }) d))
        = true := fun l l' => by
    simpa [hasCredit, cells_headerRecord, creditOf, reserveOf, depthOf, packetRecords, hpool, hring] using hc
  simp only [sendControl, hs, Bool.false_eq_true, if_false, admitHeaders, hpool, hw, List.nil_append, List.isEmpty_cons,
    List.foldl_cons, List.foldl_nil, List.any_nil, hcred, Bool.not_true, Bool.or_self]
  obtain ⟨y, h, -, hf⟩ := packetRecords_pushRecord (p / 24) (txQueue p false) (headerRecord 1 f none)
    (modPool (p / 24) (fun y => { y with waiting := [] })
      (modPool (p / 24) (fun y => { y with waiting := y.waiting ++ [(txQueue p false, headerRecord 1 f none)] }) d))
  refine ⟨y, h.trans ?_, hf⟩
  simp only [packetRecords, hpool]

end Control

/-! ### A packet is sent again (R266, R276) -/

section Resend

variable {k : StreamId} {o : OutPkt} {x : Send} {p : Nat} {d : Dev}

/-- The packet as it waits to be sent again. -/
def dueAgain (o : OutPkt) : OutPkt := { o with due := true, avoid := none }

/-- The device once a packet waits to be sent again. -/
def dueDev (k : StreamId) (o : OutPkt) (d : Dev) : Dev := modOut k o.seq (fun _ => dueAgain o) d

/-- The packet has left again on a plane. -/
def onPlane (p : Nat) (o : OutPkt) : OutPkt := { o with plane := p, age := 0, due := false, avoid := none }

/-- The device once the packet's source has been read and its record stands in the plane's queue. -/
def resentDev (k : StreamId) (o : OutPkt) (x : Send) (p : Nat) (d : Dev) : Dev :=
  pushRecord k.side (txQueue p (isData x.type))
    (headerRecord 1 (buildPacket x (dueAgain o) p true (dueDev k o d)).2 (some x.num))
    (buildPacket x (dueAgain o) p true (dueDev k o d)).1

theorem resend_goes (ho : (txOf k d).unacked.find? (fun y => y.seq == o.seq) = some o) (hx : findSend o.send d = some x)
    (hh : sourceHeld x o.index d = false)
    (hp : nextPlane (txOf k d).lastPlane (isData x.type) (eligible k.side x.planes (isData x.type) d) d = some p)
    (hc : packetCells ≤ creditOf k.side (txQueue p (isData x.type)) d) :
    resend k o.seq none d = modTx k (fun x => { x with lastPlane := p }) (modOut k o.seq (onPlane p) (resentDev k o x p d)) := by
  have hfilter : ∀ l : List Nat, l.filter (fun p => some p != none) = l := fun l => by simp
  have hplane : resendPlane k x (dueAgain o) (dueDev k o d) = some p := by
    have hlast : (txOf k (dueDev k o d)).lastPlane = (txOf k d).lastPlane := by simp [dueDev, modOut]
    rw [resendPlane, hlast, show (dueAgain o).avoid = none from rfl, hfilter]
    exact hp
  have hdue : sendDue k (dueAgain o) (dueDev k o d) = modTx k (fun x => { x with lastPlane := p })
      (modOut k o.seq (onPlane p) (resentDev k o x p d)) := by
    have hx' : findSend (dueAgain o).send (dueDev k o d) = some x := hx
    have hh' : sourceHeld x (dueAgain o).index (dueDev k o d) = false := hh
    have hc' : ¬ creditOf k.side (txQueue p (isData x.type)) (dueDev k o d) < packetCells := Nat.not_lt.2 hc
    simp only [sendDue, hx', hh', Bool.false_eq_true, if_false, hplane, hc']
    rfl
  simp only [resend, ho, hx]
  rw [show modOut k o.seq (fun _ => { o with due := true, avoid := none }) d = dueDev k o d from rfl,
    show ({ o with due := true, avoid := none } : OutPkt) = dueAgain o from rfl, hplane]
  exact hdue

theorem net_netRead (a n : Nat) (d : Dev) : (netRead a n d).1.net = d.net := by
  unfold netRead
  split
  · rfl
  · exact (inMemory_memTouch a n none d).net

/-- Building a packet changes of the network at most that its send has met poison. -/
theorem txOf_buildPacket (s : Send) (again : Bool) : txOf k (buildPacket s o p again d).1 = txOf k d := by
  simp only [buildPacket]
  split
  · exact congrArg (fun n => n.tx.get freshTx k) (net_netRead _ _ d)
  · rfl

theorem rxOf_buildPacket (s : Send) (again : Bool) : rxOf k (buildPacket s o p again d).1 = rxOf k d := by
  simp only [buildPacket]
  split
  · exact congrArg (fun n => n.rx.get freshRx k) (net_netRead _ _ d)
  · rfl

theorem rxOf_modTx (f : TxHalf → TxHalf) : rxOf k (modTx k f d) = rxOf k d := rfl

theorem rxOf_bump (q : RegId) : rxOf k (bump q d) = rxOf k d := rfl

theorem packetRecords_modTx (side q : Nat) (f : TxHalf → TxHalf) : packetRecords side q (modTx k f d) = packetRecords side q d := rfl

theorem packetRecords_buildPacket (side q : Nat) (s : Send) (again : Bool) :
    packetRecords side q (buildPacket s o p again d).1 = packetRecords side q d := by
  simp only [buildPacket]
  split
  · exact congrArg (fun n => (n.pools.get freshPool side).records.get [] q) (net_netRead _ _ d)
  · rfl

theorem buildPacket_frame (s : Send) (again : Bool) : (buildPacket s o p again d).2.seq = BitVec.ofNat 32 o.seq
    ∧ (buildPacket s o p again d).2.retransmission = again := by
  simp only [buildPacket]
  split <;> exact ⟨rfl, rfl⟩

theorem InPool.txOf {d e : Dev} (h : InPool d e) (k : StreamId) : txOf k e = txOf k d := by
  rw [Machine.txOf, Machine.txOf, ← h.net]

theorem txOf_resentDev : txOf k (resentDev k o x p d) =
    { txOf k d with unacked := (txOf k d).unacked.map (fun y => if y.seq = o.seq then dueAgain o else y) } := by
  rw [resentDev, (inPool_pushRecord _ _ _ _).txOf, txOf_buildPacket, dueDev, modOut, txOf_modTx]

theorem records_resentDev (q : Nat) (hq : q = txQueue p (isData x.type)) : ∃ y,
    packetRecords k.side q (resentDev k o x p d) = packetRecords k.side q d ++ [y] ∧ y.send = some x.num
      ∧ y.frame.seq = BitVec.ofNat 32 o.seq ∧ y.frame.retransmission = true := by
  subst hq
  obtain ⟨y, h, hs, hf⟩ := packetRecords_pushRecord k.side (txQueue p (isData x.type))
    (headerRecord 1 (buildPacket x (dueAgain o) p true (dueDev k o d)).2 (some x.num))
    (buildPacket x (dueAgain o) p true (dueDev k o d)).1
  obtain ⟨hseq, hagain⟩ := buildPacket_frame (o := dueAgain o) (p := p) (d := dueDev k o d) x true
  refine ⟨y, h.trans ?_, hs, ?_, ?_⟩
  · rw [packetRecords_buildPacket]
    rfl
  · rw [hf]
    exact hseq
  · rw [hf]
    exact hagain

theorem map_seq_of_same {g : OutPkt → OutPkt} (n : Nat) (hg : ∀ y, y.seq = n → (g y).seq = n) (l : List OutPkt) :
    (l.map (fun y => if y.seq = n then g y else y)).map (·.seq) = l.map (·.seq) := by
  rw [List.map_map]
  refine List.map_congr_left fun y _ => ?_
  simp only [Function.comp_apply]
  split
  · next h => rw [hg y h, h]
  · rfl

/-- The packets in flight once one has left again. -/
theorem txOf_resend {e : Dev} (he : e = modTx k (fun x => { x with lastPlane := p }) (modOut k o.seq (onPlane p) (resentDev k o x p d))) :
    (txOf k e).unacked = ((txOf k d).unacked.map (fun y => if y.seq = o.seq then dueAgain o else y)).map
        (fun y => if y.seq = o.seq then onPlane p y else y)
      ∧ (txOf k e).lastPlane = p ∧ (txOf k e).next = (txOf k d).next := by
  rw [he, txOf_modTx, modOut, txOf_modTx, txOf_resentDev]
  exact ⟨rfl, rfl, rfl⟩

theorem find_resent (ho : (txOf k d).unacked.find? (fun y => y.seq == o.seq) = some o) :
    (((txOf k d).unacked.map (fun y => if y.seq = o.seq then dueAgain o else y)).map
      (fun y => if y.seq = o.seq then onPlane p y else y)).find? (fun y => y.seq == o.seq) = some (onPlane p (dueAgain o)) := by
  have hsame : ∀ (g : OutPkt → OutPkt) (_ : ∀ y, y.seq = o.seq → (g y).seq = o.seq),
      ((fun y : OutPkt => y.seq == o.seq) ∘ fun y => if y.seq = o.seq then g y else y) = fun y => y.seq == o.seq := fun g hg => by
    funext y
    simp only [Function.comp_apply]
    split
    · next h => rw [hg y h, h]
    · rfl
  rw [List.find?_map, hsame (onPlane p) fun _ h => h, List.find?_map, hsame (fun _ => dueAgain o) fun _ _ => rfl, ho]
  simp [dueAgain]

end Resend

/-! ### The timers (R275 to R278, R283) -/

section Timers

variable {k : StreamId} {o : OutPkt} {x : Send} {p r : Nat} {d : Dev}

theorem delayedAck_sends {t0 : Nat} (h : (rxOf k d).firstAt = some t0)
    (ht : t0 + 1000 * clampReg 1 1000 (rd (rNi 0 0x98) d) ≤ d.now) : delayedAck k d = sendAck k d := by
  simp only [delayedAck, h]
  exact if_pos ht

/-- What an ACK tells, and what the receiving half forgets with it. -/
theorem sendAck_leaves (hs : inState (pPort (rxOf k d).plane) [.off, .retired] d = false)
    (hw : (poolOf ((rxOf k d).plane / 24) d).waiting = [])
    (hc : packetCells ≤ creditOf ((rxOf k d).plane / 24) (txQueue (rxOf k d).plane false) d) :
    (rxOf k (sendAck k d)).sinceAck = 0 ∧ (rxOf k (sendAck k d)).ce = false ∧ (rxOf k (sendAck k d)).cum = (rxOf k d).cum
      ∧ ∃ y, packetRecords ((rxOf k d).plane / 24) (txQueue (rxOf k d).plane false) (sendAck k d)
          = packetRecords ((rxOf k d).plane / 24) (txQueue (rxOf k d).plane false) d ++ [y]
        ∧ y.frame.type = 2 ∧ y.frame.seq = BitVec.ofNat 32 (rxOf k d).cum ∧ y.frame.ece = (rxOf k d).ce := by
  have hrx : ∃ f : Frame, rxOf k (sendAck k d) = { rxOf k d with sinceAck := 0, ce := false, firstAt := none }
      ∧ sendAck k d = modRx k (fun x => { x with sinceAck := 0, ce := false, firstAt := none }) (sendControl (rxOf k d).plane f d)
      ∧ f.type = 2 ∧ f.seq = BitVec.ofNat 32 (rxOf k d).cum ∧ f.ece = (rxOf k d).ce := by
    refine ⟨{ plainFrame (rxOf k d).plane k 2 d with
      seq := BitVec.ofNat 32 (rxOf k d).cum, remoteAddr := BitVec.ofNat 64 (sackMap (rxOf k d))
      chunkOffset := BitVec.ofNat 32 ((rxOf k d).cum + 2), ece := (rxOf k d).ce }, ?_, rfl, rfl, rfl, rfl⟩
    rw [sendAck, rxOf_modRx, (inPool_sendControl _ _ d).rxOf]
  obtain ⟨f, hrx, hd, htype, hseq, hece⟩ := hrx
  obtain ⟨y, hy, hf⟩ := packetRecords_sendControl (f := f) hs hw hc
  rw [hrx]
  refine ⟨rfl, rfl, rfl, y, ?_, ?_, ?_, ?_⟩
  · rw [hd]
    exact hy
  · rw [hf, htype]
  · rw [hf, hseq]
  · rw [hf, hece]

theorem firstNack_sends (ha : (rxOf k d).pkts.any (fun y => decide (y.at_ + 1000 * clampReg 1 1000 (rd (rNi 0 0x90) d) ≤ d.now)) = true)
    (hl : (rxOf k d).lastNack = none) : firstNack k d =
      modRx k (fun x => { x with lastNack := some (((rxOf k d).cum + 1) % 2 ^ 32, d.now) })
        (sendNack (rxOf k d).plane k (((rxOf k d).cum + 1) % 2 ^ 32) 0 d) := by
  have hne : (rxOf k d).pkts.isEmpty = false := by
    obtain ⟨y, hy, -⟩ := List.any_eq_true.1 ha
    exact List.isEmpty_eq_false_iff_exists_mem.2 ⟨y, hy⟩
  rw [firstNack, if_pos (by exact ha)]
  simp only [nackGap, hl, hne, Bool.or_self, Bool.false_eq_true, if_false]

theorem timeoutResend_counts (hl : (rxOf k d).lastNack = none) (ht : timedOut k d = [o])
    (ho : (txOf k d).unacked.find? (fun y => y.seq == o.seq) = some o) (hx : findSend o.send d = some x)
    (hh : sourceHeld x o.index d = false)
    (hp : nextPlane (txOf k d).lastPlane (isData x.type) (eligible k.side x.planes (isData x.type) d) d = some p)
    (hc : packetCells ≤ creditOf k.side (txQueue p (isData x.type)) d) :
    repeatNack k (timeoutResend k d) = bump (rNi p 0x13C) (resend k o.seq none d) := by
  have he := resend_goes ho hx hh hp hc
  obtain ⟨hun, -, -⟩ := txOf_resend he
  have htime : timeoutResend k d = bump (rNi p 0x13C) (resend k o.seq none d) := by
    simp only [timeoutResend, ht, List.foldl_cons, List.foldl_nil, hun, find_resent ho]
    rfl
  have hrx : rxOf k (bump (rNi p 0x13C) (resend k o.seq none d)) = rxOf k d := by
    rw [rxOf_bump, he, rxOf_modTx, modOut, rxOf_modTx, resentDev, (inPool_pushRecord _ _ _ _).rxOf, rxOf_buildPacket]
    rfl
  rw [htime, repeatNack, hrx, hl]
  rfl

theorem probe_resends (hh : (txOf k d).held = true) (ht : (txOf k d).probeAt + 1000 * clampReg 10 100000 (rd (rNi 0 0xA4) d) ≤ d.now)
    (hu : (txOf k d).unacked = o :: (txOf k d).unacked.tail) :
    probe k d = resend k o.seq none (modTx k (fun y => { y with probeAt := d.now }) d) := by
  have hd : decide ((txOf k d).probeAt + netLimit 0xA4 10 100000 d ≤ d.now) = true := decide_eq_true ht
  simp only [probe, hh, hd, Bool.and_self]
  rw [hu]

theorem giveUp_breaks (hb : (txOf k d).broken = false) (ho : (lowestUnreported k d).or (txOf k d).unacked.head? = some o)
    (ht : o.firstAt + 1000000 * clampReg 1 60000 (rd (rNi 0 0x8C) d) ≤ d.now) :
    giveUp k d = abortOnStream k (settleAll (raise (pNi (txOf k d).lastPlane) 16 (breakStream k d))) := by
  have hg : givenUp k d = true := by
    simp only [givenUp, ho, hb, Bool.not_false, Bool.true_and]
    exact decide_eq_true ht
  rw [giveUp, if_pos hg]

/-- The half as an interval of RATE_RISE ends, before its rate falls to the cap. -/
def risenHalf (d : Dev) (t : TxHalf) : TxHalf :=
  { t with
    rate := if t.eceSeen then t.rate else t.rate.map (· + 2 ^ 16 * fieldOf (rd (rNi 0 0x9C) d) 31 24)
    eceSeen := false, riseAt := d.now }

theorem txOf_raiseRate (hr : (txOf k d).rate = some r) (ht : (txOf k d).riseAt + 1000 * fieldOf (rd (rNi 0 0x9C) d) 23 16 ≤ d.now) :
    txOf k (raiseRate k d) =
      { risenHalf d (txOf k d) with
        cap := capOf k (modTx k (risenHalf d) d)
        rate := (risenHalf d (txOf k d)).rate.map (min · (capOf k (modTx k (risenHalf d) d))) } := by
  have hcond : ((txOf k d).rate.isNone || decide (d.now < (txOf k d).riseAt + 1000 * fieldOf (rd (rNi 0 0x9C) d) 23 16)) = false := by
    rw [hr, decide_eq_false (Nat.not_lt.2 ht)]
    rfl
  have hraise : raiseRate k d = refreshRate k (modTx k (risenHalf d) d) := by
    simp only [raiseRate, hcond, Bool.false_eq_true, if_false]
    rfl
  rw [hraise, refreshRate, txOf_modTx, txOf_modTx]

theorem rate_risenHalf (hr : (txOf k d).rate = some r) : (risenHalf d (txOf k d)).rate =
    some (if (txOf k d).eceSeen then r else r + 2 ^ 16 * fieldOf (rd (rNi 0 0x9C) d) 31 24) := by
  simp only [risenHalf, hr]
  split <;> rfl

theorem capOf_risen (h : oldestSend k d = none) : capOf k (modTx k (risenHalf d) d) = (txOf k d).cap := by
  have h' : oldestSend k (modTx k (risenHalf d) d) = none := h
  simp only [capOf, h', txOf_modTx]
  rfl

theorem capOf_risen_send (h : oldestSend k d = some x) :
    capOf k (modTx k (risenHalf d) d) = 2 ^ 16 * (800 * (capPlanes k.side x.planes d).length) := by
  have h' : oldestSend k (modTx k (risenHalf d) d) = some x := h
  simp only [capOf, h']
  rfl

end Timers

theorem transportTimersComplete : Claims.TransportTimersComplete := by
  intro k o x p r s hon d t rx limit q
  refine ⟨fun t0 h ht => gives_of_eq hon (f := delayedAck k) (delayedAck_sends h ht), sendAck_leaves,
    fun ha hl => gives_of_eq hon (f := firstNack k) (firstNack_sends ha hl),
    fun hl ht ho hx hh hp hc => gives_of_eq hon (f := fun d => repeatNack k (timeoutResend k d)) (timeoutResend_counts hl ht ho hx hh hp hc),
    fun hh ht hu => gives_of_eq hon (f := probe k) (probe_resends hh ht hu),
    fun hb ho ht => gives_of_eq hon (f := giveUp k) (giveUp_breaks hb ho ht),
    fun hr ht hx => does_of hon (f := raiseRate k) ?_, fun hr ht hx => does_of hon (f := raiseRate k) ?_⟩
  · rw [txOf_raiseRate hr ht, rate_risenHalf hr, capOf_risen hx]
    exact ⟨rfl, rfl, rfl⟩
  · rw [txOf_raiseRate hr ht, rate_risenHalf hr, capOf_risen_send hx]
    rfl

/-! ### Loss (R266, R278, R289) -/

theorem ended_breakStream {k : StreamId} {y : Send} {d : Dev} (h : y ∈ (breakStream k d).net.sends) (hk : y.stream = k) :
    y.ended.isSome = true := by
  obtain ⟨z, -, rfl⟩ := List.mem_map.1 (show y ∈ d.net.sends.map (fun s =>
    if s.stream = k ∧ s.ended.isNone then { s with ended := some (.failed, 6) } else s) from h)
  split at hk
  · next hz => rw [if_pos hz]; rfl
  · next hz =>
    rw [if_neg hz]
    rw [Option.isSome_iff_ne_none]
    exact fun hn => hz ⟨hk, by rw [hn]; rfl⟩

theorem rd_emit_again {p : Nat} {f : Frame} {d : Dev} (hf : f.retransmission = true) :
    rd (rNi p 0x138) (emit p f d) = min m32 (rd (rNi p 0x138) d + 1) := by
  have hput : ∀ (o : WireOut) (y : Dev), rd (rNi p 0x138) (putOut p o y) = rd (rNi p 0x138) y := fun o y =>
    rd_add64_other (by simp [homeOf]) (by simp [homeOf, hiOf])
  simp only [emit, hf, if_true, rd_bump]
  rw [rd_add64_other (by simp [homeOf]) (by simp [homeOf, hiOf]), hput]
  rfl

theorem streamsBreakAndResend : Claims.StreamsBreakAndResend := by
  intro k o x p f d t e q
  refine ⟨⟨?_, ?_, fun y hy hk => ended_breakStream hy hk⟩, fun ho hx hh hp hc => ?_, fun hf _ => rd_emit_again hf⟩
  · rw [show txOf k (breakStream k d) = txOf k (modTx k (fun t => { t with broken := true, held := false, unacked := [] }) d) from rfl,
      txOf_modTx]
  · rw [show txOf k (breakStream k d) = txOf k (modTx k (fun t => { t with broken := true, held := false, unacked := [] }) d) from rfl,
      txOf_modTx]
  · have he := resend_goes ho hx hh hp hc
    obtain ⟨hun, hlast, hnext⟩ := txOf_resend he
    refine ⟨?_, hlast, hnext, ?_⟩
    · rw [hun, map_seq_of_same (g := onPlane p) o.seq (fun _ h => h), map_seq_of_same (g := fun _ => dueAgain o) o.seq (fun _ _ => rfl)]
    · obtain ⟨y, hy, hrest⟩ := records_resentDev (k := k) (o := o) (x := x) (p := p) (d := d) q rfl
      refine ⟨y, ?_, hrest⟩
      rw [← hy, show e = resend k o.seq none d from rfl, he, packetRecords_modTx, modOut, packetRecords_modTx]

/-- Settles O37: the equation of each timer, and what a retransmission leaves in the queue of its plane. -/
theorem transportTimersAndLossComplete : Obligations.TransportTimersAndLossComplete :=
  ⟨transportTimersComplete, streamsBreakAndResend⟩

end Sys2Proof.Machine
end


section
/-!
SUPPORT. Sends, their packets, and receive windows (R263 to R266, R269, R283, R289, R294).
-/

namespace Sys2Proof.Machine

/-! ### A send starts (R264, R265) -/

theorem settleAll_running {d : Dev} (h : ∀ y ∈ d.net.sends, y.ended = none) : settleAll d = d := by
  have hf : d.net.sends.find? (fun s => s.ended.isSome) = none := by
    rw [List.find?_eq_none]
    intro y hy
    rw [h y hy]
    exact Bool.false_ne_true
  unfold settleAll
  cases d.net.sends.length with
  | zero => rfl
  | succ n => simp only [settleSends, hf]

/-- The device once a send of some length stands among the sends. -/
def sendListed (h : Send) (d : Dev) : Dev :=
  modNet (fun n => { n with sends := n.sends ++ [{ h with num := n.nextSend }], nextSend := n.nextSend + 1 }) d

theorem startSend_message {h : Send} (d : Dev) (he : h.ended = none) (hc : h.chunk = false) (hl : h.length ≠ 0) :
    startSend h d = modTx h.stream (fun t => { t with used := true }) (sendListed h d) := by
  obtain ⟨num, origin, stream, type, ctx, src, length, remote, planes, notify, counter, chunk, chunkEnd, chunkId, chunkOffset, passTag, notice,
    sent, poisoned, abandoned, rejected, ended⟩ := h
  obtain rfl : ended = none := he
  obtain rfl : chunk = false := hc
  have hno : ¬ (type = 1 ∧ length = 0 ∧ notify = false) := fun ⟨_, h0, _⟩ => hl h0
  simp only [startSend, hno, if_false, openTxHalf, Bool.false_and, Bool.false_eq_true, Option.isSome_none]
  rfl

theorem cmdSend_starts {p : Nat} {d : Dev} (hrun : ∀ y ∈ d.net.sends, y.ended = none) (hm : mayCommand (pNi p) d = true)
    (hs : stateOf (pNi p) d = .active) (hj : judgeSend (hostSendOf p d) d = .done) (hc : (hostSendOf p d).chunk = false)
    (hl : (hostSendOf p d).length ≠ 0) :
    cmdSend p 0 d = modTx (hostSendOf p d).stream (fun t => { t with used := true })
      (sendListed (hostSendOf p d) (accept (pNi p) 0x40 0 d)) := by
  have hd : cmdSend p 0 d = settleAll (startSend (hostSendOf p d) (accept (pNi p) 0x40 0 d)) := by
    have hno : (sendJudged p d && judgeSend (hostSendOf p d) d != .done) = false := by rw [hj]; simp
    simp only [cmdSend, hno, Bool.false_eq_true, if_false]
    exact pageCommand_accepted _ _ _ hm rfl (by rw [hj, inState, hs]; rfl) (by rw [hj]; rfl)
  rw [hd, startSend_message _ rfl hc hl]
  refine settleAll_running fun y hy => ?_
  obtain hy | hy := List.mem_append.1 hy
  · exact hrun y hy
  · rw [List.mem_singleton.1 hy]
    rfl

/-! ### A packet is handed to a port (R263, R266, R283) -/

section Packet

variable {k : StreamId} {x : Send} {p : Nat} {d : Dev}

theorem startRate_keeps : (startRate k d).net.sends = d.net.sends ∧ (startRate k d).net.pools = d.net.pools
    ∧ (startRate k d).now = d.now ∧ (txOf k (startRate k d)).next = (txOf k d).next
    ∧ (txOf k (startRate k d)).unacked = (txOf k d).unacked := by
  have hr : txOf k (refreshRate k d) = { txOf k d with cap := capOf k d, rate := (txOf k d).rate.map (min · (capOf k d)) } :=
    txOf_modTx k _ d
  unfold startRate
  simp only
  split
  · rw [hr]
    exact ⟨rfl, rfl, rfl, rfl, rfl⟩
  · rw [txOf_modTx, hr]
    exact ⟨rfl, rfl, rfl, rfl, rfl⟩

/-- The stream's next packet, as it waits for its acknowledgement. -/
def nextOut (k : StreamId) (x : Send) (p : Nat) (d : Dev) : OutPkt :=
  ⟨(txOf k d).next, x.num, x.sent, false, 0, p, d.now, 0, false, none⟩

/-- A send whose packet has been built: poison that its source met stays with it. -/
def builtSend (num : Nat) (bad : Bool) (s : Send) : Send := if s.num = num then { s with poisoned := s.poisoned || bad } else s

/-- A send that has handed one more packet to its stream. -/
def sentOnce (num : Nat) (s : Send) : Send := if s.num = num then { s with sent := s.sent + 1 } else s

/-- The device once the packet's record stands in the queue of its plane. -/
def queuedDev (k : StreamId) (x : Send) (p : Nat) (d : Dev) : Dev :=
  pushRecord k.side (txQueue p true)
    (headerRecord 1 { (buildPacket x (nextOut k x p d) p false d).2 with check := 0 } (some x.num))
    (buildPacket x (nextOut k x p d) p false d).1

/-- The sending half once a packet has been handed to a port. -/
def aheadHalf (k : StreamId) (x : Send) (p : Nat) (d : Dev) (t : TxHalf) : TxHalf :=
  { t with
    used := true
    next := (t.next + 1) % 2 ^ 32
    unacked := t.unacked ++ [nextOut k x p d]
    lastPlane := p
    paceAt := max d.now t.paceAt
      + paceTime (t.rate.getD 1) (frameLength { (buildPacket x (nextOut k x p d) p false d).2 with check := 0 }) }

theorem handOver_message (hc : x.chunk = false) (ht : x.type = 1) : handOver k x p d =
    refreshRate k (modTx k (aheadHalf k x p d) (modSend x.num (fun s => { s with sent := s.sent + 1 }) (queuedDev k x p d))) := by
  have hlast : (buildPacket x (nextOut k x p d) p false d).2.lastOfChunk = false := by
    simp only [buildPacket, ht, if_true, hc, Bool.false_and]
  have htype : (buildPacket x (nextOut k x p d) p false d).2.type = 1 := by
    simp only [buildPacket, ht, if_true]
    rfl
  have hfold : ∀ (last : Bool) (bs : List Byte) (y : Dev), foldSent x last bs y = (y, 0) := fun last bs y => by
    simp only [foldSent, hc, Bool.false_and, Bool.false_eq_true, if_false]
  have hn : (⟨(txOf k d).next, x.num, x.sent, false, 0, p, d.now, 0, false, none⟩ : OutPkt) = nextOut k x p d := rfl
  simp only [handOver, queuedDev, hn, hfold, hlast, htype, Bool.false_and, Bool.false_eq_true, if_false, isData, beq_self_eq_true]
  refine congrArg (refreshRate k) (congrFun (congrArg (modTx k) (funext fun t => ?_)) _)
  simp only [aheadHalf, hlast, htype]

theorem sends_queuedDev (ht : x.type = 1) : ∃ bad, (queuedDev k x p d).net.sends = d.net.sends.map (builtSend x.num bad) := by
  have hpool := (inPool_pushRecord k.side (txQueue p true)
    (headerRecord 1 { (buildPacket x (nextOut k x p d) p false d).2 with check := 0 } (some x.num))
    (buildPacket x (nextOut k x p d) p false d).1).net
  have hs : (queuedDev k x p d).net.sends = (buildPacket x (nextOut k x p d) p false d).1.net.sends := by
    rw [← hpool]
    rfl
  rw [hs]
  have hb : ∀ (a n : Nat) (bad : Bool), (modSend x.num (fun s => { s with poisoned := s.poisoned || bad }) (netRead a n d).1).net.sends
      = d.net.sends.map (builtSend x.num bad) := fun a n bad =>
    congrArg (fun t : Net => t.sends.map (builtSend x.num bad)) (net_netRead a n d)
  simp only [buildPacket, ht, if_true]
  exact ⟨_, hb _ _ _⟩

theorem records_queuedDev (q : Nat) (hq : q = txQueue p true) : ∃ r,
    packetRecords k.side q (queuedDev k x p d) = packetRecords k.side q d ++ [r] ∧ r.send = some x.num
      ∧ r.frame.seq = BitVec.ofNat 32 (txOf k d).next := by
  subst hq
  obtain ⟨y, h, hs, hf⟩ := packetRecords_pushRecord k.side (txQueue p true)
    (headerRecord 1 { (buildPacket x (nextOut k x p d) p false d).2 with check := 0 } (some x.num))
    (buildPacket x (nextOut k x p d) p false d).1
  refine ⟨y, h.trans ?_, hs, ?_⟩
  · rw [packetRecords_buildPacket]
  · rw [hf]
    exact (buildPacket_frame (o := nextOut k x p d) (p := p) (d := d) x false).1

theorem packetRecords_modSend (side q num : Nat) (f : Send → Send) (d : Dev) :
    packetRecords side q (modSend num f d) = packetRecords side q d := rfl

theorem txOf_queuedDev : txOf k (queuedDev k x p d) = txOf k d := by
  rw [queuedDev, (inPool_pushRecord _ _ _ _).txOf, txOf_buildPacket]

theorem map_sent_sentOnce (num : Nat) (bad : Bool) (l : List Send) :
    ((l.map (builtSend num bad)).map (sentOnce num)).map (·.sent) = l.map (fun y => if y.num = num then y.sent + 1 else y.sent) := by
  rw [List.map_map, List.map_map]
  refine List.map_congr_left fun y _ => ?_
  by_cases h : y.num = num <;> simp [builtSend, sentOnce, h]

theorem ended_sentOnce {num : Nat} {bad : Bool} {l : List Send} (h : ∀ y ∈ l, y.ended = none) :
    ∀ y ∈ (l.map (builtSend num bad)).map (sentOnce num), y.ended = none := by
  intro y hy
  rw [List.map_map] at hy
  obtain ⟨z, hz, rfl⟩ := List.mem_map.1 hy
  by_cases hn : z.num = num <;> simp [builtSend, sentOnce, hn, h z hz]

/-- What PACKET_SEND leaves once the packet has gone to a port. -/
structure HandedOver (k : StreamId) (x : Send) (p : Nat) (d e : Dev) : Prop where
  next : (txOf k e).next = ((txOf k d).next + 1) % 2 ^ 32
  plane : (txOf k e).lastPlane = p
  unacked : (txOf k e).unacked = (txOf k d).unacked ++ [nextOut k x p d]
  sends : ∃ bad, e.net.sends = (d.net.sends.map (builtSend x.num bad)).map (sentOnce x.num)
  records : ∃ r, packetRecords k.side (txQueue p true) e = packetRecords k.side (txQueue p true) d ++ [r] ∧ r.send = some x.num
    ∧ r.frame.seq = BitVec.ofNat 32 (txOf k d).next

theorem handOver_leaves (hc : x.chunk = false) (ht : x.type = 1) : HandedOver k x p d (handOver k x p d) := by
  rw [handOver_message hc ht]
  have hsame : ∀ f : Send → Send, txOf k (modSend x.num f (queuedDev k x p d)) = txOf k d := fun f =>
    (show txOf k (modSend x.num f (queuedDev k x p d)) = txOf k (queuedDev k x p d) from rfl).trans txOf_queuedDev
  have htx : txOf k (refreshRate k (modTx k (aheadHalf k x p d) (modSend x.num (fun s => { s with sent := s.sent + 1 }) (queuedDev k x p d))))
      = { aheadHalf k x p d (txOf k d) with
          cap := capOf k (modTx k (aheadHalf k x p d) (modSend x.num (fun s => { s with sent := s.sent + 1 }) (queuedDev k x p d)))
          rate := (txOf k d).rate.map
            (min · (capOf k (modTx k (aheadHalf k x p d) (modSend x.num (fun s => { s with sent := s.sent + 1 }) (queuedDev k x p d))))) } := by
    rw [refreshRate, txOf_modTx, txOf_modTx, hsame]
    rfl
  obtain ⟨bad, hsends⟩ := sends_queuedDev (k := k) (p := p) (d := d) ht
  refine ⟨by simp only [htx, aheadHalf], by simp only [htx, aheadHalf], by simp only [htx, aheadHalf], ⟨bad, ?_⟩, ?_⟩
  · rw [← hsends]
    rfl
  · rw [refreshRate, packetRecords_modTx, packetRecords_modTx, packetRecords_modSend]
    exact records_queuedDev _ rfl

theorem sendPacket_goes (hx : oldestSend k d = some x) (hheld : (txOf k d).held = false) (hb : (txOf k d).broken = false)
    (hl : (txOf k d).unacked.length < 1024) (hp : (txOf k d).paceAt ≤ d.now) (ht : x.type = 1)
    (hsrc : sourceHeld x x.sent d = false)
    (hplane : nextPlane (txOf k d).lastPlane true (eligible k.side x.planes true d) d = some p)
    (hcr : packetCells ≤ creditOf k.side (txQueue p true) d) (hr : (txOf k (startRate k d)).rate ≠ some 0) :
    sendPacket k d = handOver k x p (startRate k d) := by
  have hdata : isData x.type = true := by rw [ht]; rfl
  have hgo : ((txOf k d).held || (txOf k d).broken || decide (1024 ≤ (txOf k d).unacked.length) || decide (d.now < (txOf k d).paceAt)
      || sourceHeld x x.sent d) = false := by
    rw [hheld, hb, hsrc, decide_eq_false (Nat.not_le.2 hl), decide_eq_false (Nat.not_lt.2 hp)]
    rfl
  have hrate : (decide (creditOf k.side (txQueue p true) d < packetCells) || (txOf k (startRate k d)).rate == some 0) = false := by
    rw [decide_eq_false (Nat.not_lt.2 hcr)]
    simpa using hr
  simp only [sendPacket, hx, hdata, hgo, Bool.false_eq_true, if_false, hplane, hrate]

end Packet

theorem sendsComplete : Claims.SendsComplete := by
  intro p k x s hon hrun d h t
  refine ⟨fun hm hs hj hc hl => gives_of_eq hon (f := cmdSend p 0) (cmdSend_starts hrun hm hs hj hc hl),
    fun errors => gives_of_eq hon (f := fun d => settleAll (sendPacket k (meetStaging k.side errors d))) rfl,
    fun hx hheld hb hlen hp hc ht hsrc hplane hcr hr =>
      does_of hon (f := fun d => settleAll (sendPacket k (meetStaging k.side [] d))) ?_,
    fun hx => gives_of_eq hon (f := fun d => settleAll (sendPacket k (meetStaging k.side [] d))) ?_⟩
  · obtain ⟨hsends, hpools, hnow, hnext, hun⟩ := startRate_keeps (k := k) (d := d)
    have hgo : sendPacket k (meetStaging k.side [] d) = handOver k x p (startRate k d) :=
      sendPacket_goes hx hheld hb hlen hp ht hsrc hplane hcr hr
    obtain ⟨enext, eplane, eun, ⟨bad, esends⟩, r, erec, er, eseq⟩ := handOver_leaves (k := k) (p := p) (d := startRate k d) hc ht
    rw [show settleAll (sendPacket k (meetStaging k.side [] s.dev)) = settleAll (handOver k x p (startRate k d)) from
      congrArg settleAll hgo]
    generalize handOver k x p (startRate k d) = e at *
    rw [hsends] at esends
    rw [settleAll_running (by rw [esends]; exact ended_sentOnce hrun), esends, enext, eplane, eun, hnext, hun]
    refine ⟨rfl, rfl, ?_, map_sent_sentOnce _ _ _, r, ?_, er, ?_⟩
    · rw [nextOut, hnext, hnow]
    · rw [erec, packetRecords, poolOf, hpools]
      rfl
    · rw [eseq, hnext]
  · have hsend : sendPacket k d = d := by simp only [sendPacket, show oldestSend k d = none from hx]
    exact (congrArg settleAll hsend).trans (settleAll_running hrun)

/-! ### Receive windows and queries (R269, R289) -/

section Windows

variable {p arg : Nat} {d : Dev}

theorem reported_openWindow (hm : mayCommand (pNi p) d = true) (hs : (pageOf (pNi p) d).state = .active)
    (hw : windowOpen (arg % 256) d = false) (hc : ctxOpen (rd (rNi p 0xC0) d) d = true) (hn : rd64 (rNi p 0xB8) d ≠ 0)
    (hf : windowFits (rd64 (rNi p 0xB0) d) (rd64 (rNi p 0xB8) d) d = true)
    (ho : d.net.windows.any (fun e => overlaps (rd64 (rNi p 0xB0) d) (rd64 (rNi p 0xB8) d) e.2.base e.2.length) = false) :
    Reported (putPage (pNi p) ((pageOf (pNi p) d).ended 0x41 .done) (modNet (fun t => { t with
      windows := t.windows.set (arg % 256) ⟨rd (rNi p 0xC0) d, rd64 (rNi p 0xB0) d, rd64 (rNi p 0xB8) d⟩ }) d)) (cmdOpenWindow p arg d) := by
  have hcmd : cmdOpenWindow p arg d = endCmd (pNi p) true (putPage (pNi p) ((pageOf (pNi p) d).started 0x41 arg) (modNet (fun t => { t with
      windows := t.windows.set (arg % 256) ⟨rd (rNi p 0xC0) d, rd64 (rNi p 0xB0) d, rd64 (rNi p 0xB8) d⟩ }) d)) := by
    refine (pageCommand_accepted _ _ _ hm rfl (by rw [inState_of hs rfl, hw, hc]; rfl) (by rw [hf, ho]; simp)).trans ?_
    simp only [doneAtOnce, hn, if_false]
    rfl
  have h := reported_doneAtOnce (p := pNi p) (d := d) (e := putPage (pNi p) ((pageOf (pNi p) d).started 0x41 arg) (modNet (fun t => { t with
    windows := t.windows.set (arg % 256) ⟨rd (rNi p 0xC0) d, rd64 (rNi p 0xB0) d, rd64 (rNi p 0xB8) d⟩ }) d)) (pageOf_putPage_same ..)
  rw [putPage_putPage] at h
  rw [hcmd]
  exact h

theorem openWindow_overlapping (hm : mayCommand (pNi p) d = true) (hs : (pageOf (pNi p) d).state = .active)
    (hw : windowOpen (arg % 256) d = false) (hc : ctxOpen (rd (rNi p 0xC0) d) d = true) (hn : rd64 (rNi p 0xB8) d ≠ 0)
    (ho : d.net.windows.any (fun e => overlaps (rd64 (rNi p 0xB0) d) (rd64 (rNi p 0xB8) d) e.2.base e.2.length) = true) :
    cmdOpenWindow p arg d = reject (pNi p) 0x41 .rejectedRange d := by
  refine (pageCommand_judged _ _ _ _ _ _ hm).trans ?_
  rw [inState_of hs rfl, hw, hc, ho]
  simp [hn]

theorem reported_closeWindow (hm : mayCommand (pNi p) d = true) (hs : (pageOf (pNi p) d).state = .active)
    (hw : windowOpen (arg % 256) d = true) :
    Reported (putPage (pNi p) ((pageOf (pNi p) d).ended 0x42 .done)
      (modNet (fun t => { t with windows := t.windows.drop (· == arg % 256) }) d)) (cmdCloseWindow p arg d) := by
  have hcmd : cmdCloseWindow p arg d = endCmd (pNi p) true (putPage (pNi p) ((pageOf (pNi p) d).started 0x42 arg)
      (modNet (fun t => { t with windows := t.windows.drop (· == arg % 256) }) d)) :=
    pageCommand_accepted _ _ _ hm rfl (by rw [inState_of hs rfl, hw]; rfl) rfl
  have h := reported_doneAtOnce (p := pNi p) (d := d) (e := putPage (pNi p) ((pageOf (pNi p) d).started 0x42 arg)
    (modNet (fun t => { t with windows := t.windows.drop (· == arg % 256) }) d)) (pageOf_putPage_same ..)
  rw [putPage_putPage] at h
  rw [hcmd]
  exact h

theorem whenNegotiated_applies {q : PageId} {f : Dev → Dev} (hs : pageSilent q d = false) (hn : (pageOf q d).negotiated = true) :
    whenNegotiated q f d = f d := by
  simp only [whenNegotiated, hs, hn, Bool.false_eq_true, if_false, if_true]

end Windows

theorem windowsAndQueriesComplete : Claims.WindowsAndQueriesComplete := by
  intro p arg v s hon d g base n
  refine ⟨fun hm hs hw hc hn hf ho => reaches_of_reported hon (f := cmdOpenWindow p arg) (reported_openWindow hm hs hw hc hn hf ho),
    fun hm hs hw hc hn ho => reaches_of_reported hon (f := cmdOpenWindow p arg) ?_,
    fun hm hs hw => reaches_of_reported hon (f := cmdCloseWindow p arg) (reported_closeWindow hm hs hw),
    fun hs hn => ⟨gives_of_eq hon (whenNegotiated_applies hs hn), gives_of_eq hon (whenNegotiated_applies hs hn)⟩⟩
  have h := reported_reject (pNi p) 0x41 .rejectedRange d
  rw [show (pageOf (pNi p) d).state = .active from hs] at h
  rw [show cmdOpenWindow p arg s.dev = reject (pNi p) 0x41 .rejectedRange d from openWindow_overlapping hm hs hw hc hn ho]
  exact h

/-- Settles O38: how a send is listed, what handing over its next packet leaves, and the commands of receive windows. -/
theorem sendsAndWindowsComplete : Obligations.SendsAndWindowsComplete := ⟨sendsComplete, windowsAndQueriesComplete⟩

end Sys2Proof.Machine
end


section
/-!
SUPPORT. The queue pools and their injected errors (R293 to R298, R310, R311).
-/

namespace Sys2Proof.Machine

/-! ### Queues of a pool -/

@[simp] theorem poolOf_modPool (side : Nat) (f : Pool → Pool) (d : Dev) : poolOf side (modPool side f d) = f (poolOf side d) := by
  simp [poolOf, modPool, modNet]

theorem Reported.poolOf {d e : Dev} (h : Reported d e) (side : Nat) : poolOf side e = poolOf side d := by
  rw [Machine.poolOf, h.sameQuiet.field Dev.net fun _ => rfl]
  rfl

section Pools

variable {side q : Nat} {d : Dev}

/-- The credit of a queue of packets, by what the pool holds. -/
theorem creditOf_packets (hq : q < 96) : creditOf side q d = (poolOf side d).reserves.get (reserveReset q) q
    - ((poolOf side d).records.get [] q).foldl (fun n r => n + r.cells.length) 0 - (poolOf side d).lostCells.get 0 q := by
  rw [creditOf, depthOf, if_neg (Nat.not_le.2 hq)]
  rfl

theorem depthOf_packets (hq : q < 96) :
    depthOf side q d = ((poolOf side d).records.get [] q).foldl (fun n r => n + r.cells.length) 0 := by
  rw [depthOf, if_neg (Nat.not_le.2 hq)]
  rfl

theorem get_map_index {g : Nat → Nat} {x : Nat} {l : List Nat} {n : Nat} (h : n ∈ l) :
    Tbl.get (l.map fun i => (i, g i)) x n = g n := by
  induction l with
  | nil => cases h
  | cons i l ih =>
    rw [List.map_cons, Tbl.get]
    split
    · next hi => rw [hi]
    · next hi => exact ih ((List.mem_cons.1 h).resolve_left fun e => hi e.symm)

theorem get_drop_same {α : Type} (t : Tbl Nat α) (x : α) (k : Nat) : (t.drop (· == k)).get x k = x := by
  induction t with
  | nil => rfl
  | cons e t ih =>
    rw [Tbl.drop, List.filter_cons]
    split
    · next h =>
      have hne : e.1 ≠ k := by simpa using h
      exact (if_neg hne).trans ih
    · exact ih

/-! ### Flush, reserves and lost links -/

theorem cmdFlush_runs {arg : Nat} (hm : mayCommand (pPool side) d = true) (hs : inState (pPool side) [.ready, .active] d = true)
    (hq : arg % 128 ≤ 119) : cmdFlush side arg d =
      endCmd (pPool side) true (flushQueue side (arg % 128) (putPage (pPool side) ((pageOf (pPool side) d).started 0x40 arg) d)) :=
  pageCommand_accepted _ _ _ hm rfl hs (decide_eq_true hq)

theorem flushQueue_packets (hq : q < 96) (hw : (poolOf side d).waiting = []) : flushQueue side q d = putRecords side q [] d := by
  have hw' : (poolOf side (putRecords side q [] d)).waiting = [] := by rw [putRecords, poolOf_modPool]; exact hw
  rw [flushQueue, dropRecords, if_neg (Nat.not_le.2 hq), admitQueue, if_neg (Nat.not_le.2 hq), admitHeaders, hw']
  rfl

theorem cmdApplyReserves_judges (hm : mayCommand (pPool side) d = true) (hs : (pageOf (pPool side) d).state = .ready) :
    cmdApplyReserves side 0 d =
      if !(decide ((reserveRegs side d).foldl (· + ·) 0 ≤ 262144) && (reserveRegs side d).all (· != 0)) then
        reject (pPool side) 0x41 .rejectedRange d
      else endCmd (pPool side) true (setReserves side (accept (pPool side) 0x41 0 d)) := by
  refine (pageCommand_judged _ _ _ _ _ _ hm).trans ?_
  rw [inState_of hs rfl]
  rfl

theorem answers_doneAtOnce {p : PageId} {d e : Dev} {code arg : Nat} (he : pageOf p e = (pageOf p d).started code arg) :
    answers p code .done d (endCmd p true e) := by
  obtain ⟨w, hw⟩ := (reported_doneAtOnce he).pageFields p
  rw [answers, hw]
  simp [Page.ended]

theorem breakQueue_loses (hs : pageSilent (pPool side) d = false) (hq : q < 96) {error : WordNoise}
    (hj : judgeWord false error = .uncorrectable) : breakQueue side q error d =
      putRecords side q [] (modPool side (fun x => { x with lostCells := x.lostCells.set q (x.lostCells.get 0 q + depthOf side q d) })
        (raise (pPool side) 18 (bump (rPool side 0 0x4C) d))) := by
  have hcond : (pageSilent (pPool side) d || decide (119 < q)) = false := by rw [hs, decide_eq_false (by omega)]; rfl
  rw [breakQueue, if_neg (by rw [hcond]; exact Bool.false_ne_true)]
  simp only [hj, dropRecords, Nat.not_le.2 hq, if_false]

theorem breakQueue_corrects {b : Nat} (hb : b < 144) : breakQueue side q (BitVec.ofNat 144 (2 ^ b)) d = d := by
  unfold breakQueue
  split
  · rfl
  · simp only [judgeWord_single hb]

theorem reclaim_packets (hside : side < 2) (hq : q < 96) (hw : (poolOf side d).waiting = []) :
    reclaim side q d = modPool side (fun x => { x with lostCells := x.lostCells.drop (· == q) }) d := by
  have hcond : (decide (2 ≤ side) || decide (119 < q)) = false := by
    rw [decide_eq_false (by omega), decide_eq_false (by omega)]; rfl
  rw [reclaim, if_neg (by rw [hcond]; exact Bool.false_ne_true), admitQueue, if_neg (Nat.not_le.2 hq), admitHeaders, poolOf_modPool]
  simp only [hw, List.isEmpty_nil, if_true]

end Pools

/-! ### Injections (R296, R310) -/

theorem bitOf_iff (n i : Nat) : bitOf n i = true ↔ n / 2 ^ i % 2 = 1 := by
  simp [bitOf, Nat.shiftRight_eq_div_pow]

theorem clrBit_le (n i : Nat) : clrBit n i ≤ n := by
  unfold clrBit
  split
  · exact Nat.sub_le _ _
  · exact Nat.le_refl _

theorem bitOf_top_clear {n : Nat} (hn : n < 2 ^ 32) : bitOf (clrBit n 31) 31 = false := by
  rw [← Bool.not_eq_true, bitOf_iff, clrBit]
  split
  · next h =>
    rw [bitOf_iff] at h
    omega
  · next h => rwa [bitOf_iff] at h

/-- The fields of INJECT_CTRL, read back from the word that holds them. -/
theorem injectCtrl_fields {k w : Nat} (armed : Bool) (hk : k < 128) (hw : w < 8) :
    (k * 2 ^ 16 + w + 2 ^ 31 * b2n armed) % 2 ^ 32 % 8 = w
      ∧ fieldOf ((k * 2 ^ 16 + w + 2 ^ 31 * b2n armed) % 2 ^ 32) 22 16 = k
      ∧ bitOf ((k * 2 ^ 16 + w + 2 ^ 31 * b2n armed) % 2 ^ 32) 31 = armed := by
  have hb : b2n armed < 2 := by cases armed <;> decide
  refine ⟨by omega, ?_, ?_⟩
  · rw [fieldOf, Nat.shiftRight_eq_div_pow]
    omega
  · cases armed with
    | false =>
      rw [← Bool.not_eq_true, bitOf_iff, b2n, if_neg Bool.false_ne_true]
      omega
    | true =>
      rw [bitOf_iff, b2n, if_pos rfl]
      omega

theorem rd_writeInjectCtrl (side : Nat) (v : Word) (d : Dev) :
    rd (rPool side 0 0x50) (writeInjectCtrl side v.toNat d) % 8 = v.toNat % 8
      ∧ fieldOf (rd (rPool side 0 0x50) (writeInjectCtrl side v.toNat d)) 22 16 = fieldOf v.toNat 22 16
      ∧ bitOf (rd (rPool side 0 0x50) (writeInjectCtrl side v.toNat d)) 31
        = (v.getLsbD 31 || bitOf (rd (rPool side 0 0x50) d) 31) := by
  have hbit : v.getLsbD 31 = bitOf v.toNat 31 := by
    rw [BitVec.getLsbD, Nat.testBit_eq_decide_div_mod_eq, Bool.eq_iff_iff, bitOf_iff, decide_eq_true_iff]
  rw [writeInjectCtrl, rd_wr_same, hbit]
  exact injectCtrl_fields _ (Nat.mod_lt _ (by decide)) (Nat.mod_lt _ (by decide))

section Parity

variable {side q : Nat} {cells : List PoolCell} {d : Dev}

theorem rd_linkLevel (before after : Nat) : rd (rPool side 0 0x50) (linkLevel side q before after d) = rd (rPool side 0 0x50) d := by
  have hw : ∀ (n : Nat) (x : Dev), rd (rPool side 0 0x50) (wr (rQueueBlock side q 12) n x) = rd (rPool side 0 0x50) x := fun n x =>
    rd_wr_other n x (by simp [homeOf])
  have hhit : ∀ (n : Nat) (x : Dev), rd (rPool side 0 0x50) (wr (rPool side 0 (0x60 + 4 * (q / 32))) n x) = rd (rPool side 0 0x50) x :=
    fun n x => rd_wr_other n x (by simp only [homeOf, ne_eq, RegId.mk.injEq, true_and]; omega)
  simp only [linkLevel]
  split
  · rw [(reported_raise _ _ _).rd_of_ty (by simp), hhit, hw]
  · exact hw _ _

theorem linkCells_strikes (hq : fieldOf (rd (rPool side 0 0x50) d) 22 16 = q) :
    (linkCells side q cells d).2
        = (if bitOf (rd (rPool side 0 0x50) d) 31 then flipParity (rd (rPool side 0 0x50) d % 8) cells else cells)
      ∧ bitOf (rd (rPool side 0 0x50) (linkCells side q cells d).1) 31 = false := by
  simp only [linkCells, rd_linkLevel, strike, hq, beq_self_eq_true, Bool.and_true]
  cases h : bitOf (rd (rPool side 0 0x50) d) 31 with
  | true =>
    simp only [if_true, true_and]
    rw [rd_wr_same, Nat.mod_eq_of_lt]
    · exact bitOf_top_clear (rd_lt _ _)
    · exact Nat.lt_of_le_of_lt (clrBit_le _ _) (rd_lt (rPool side 0 0x50) d)
  | false => simp only [Bool.false_eq_true, if_false, true_and, h]

/-- Words whose parity agrees no longer agree once one parity bit has turned. -/
theorem zip_modify_bad {words : List DWord} {parity : List Bool} {w : Nat} (h1 : w < words.length) (h2 : w < parity.length)
    (h : (words.zip parity).any (fun x => parityBit x.1 != x.2) = false) :
    (words.zip (parity.modify w (! ·))).any (fun x => parityBit x.1 != x.2) = true := by
  induction words generalizing parity w with
  | nil => cases h1
  | cons a words ih =>
    cases parity with
    | nil => cases h2
    | cons b parity =>
      rw [List.zip_cons_cons, List.any_cons, Bool.or_eq_false_iff] at h
      obtain ⟨hab, hrest⟩ := h
      cases w with
      | zero =>
        have hb : parityBit a = b := by simpa using hab
        simp [List.modify_zero_cons, hb]
      | succ w =>
        rw [List.modify_succ_cons, List.zip_cons_cons, List.any_cons, ih (Nat.lt_of_succ_lt_succ h1) (Nat.lt_of_succ_lt_succ h2) hrest,
          Bool.or_true]

theorem flipParity_bad {c : PoolCell} {w : Nat} (hw : w < 8) (h1 : c.words.length = 8) (h2 : c.parity.length = 8)
    (hc : badCell c = false) : (flipParity w [c]).any badCell = true := by
  rw [flipParity, List.any_cons, List.any_nil, Bool.or_false]
  exact zip_modify_bad (h1 ▸ hw) (h2 ▸ hw) hc

end Parity

theorem injectionsAreSpent : Claims.InjectionsAreSpent := by
  intro side q cells d hq hfield armed y
  obtain ⟨hcells, hspent⟩ := linkCells_strikes (cells := cells) hfield
  refine ⟨hcells, hspent, fun c w hw h1 h2 hc => flipParity_bad hw h1 h2 hc, fun r rest hr hb => ?_⟩
  rw [consumeRx_poisoned hr hb]
  have hrep := reported_raise (pPool side) 17 (bump (rPool side 0 0x48) (putRecords side q rest d))
  refine ⟨(hrep.rd_of_ty (by simp)).trans (rd_bump _ _), ?_⟩
  rw [packetRecords, countParity, hrep.poolOf]
  exact packetRecords_putRecords side q rest d

theorem queuePoolsComplete : Claims.QueuePoolsComplete := by
  intro side arg q v s hon d g
  refine ⟨fun hm hs hq => ⟨gives_of_eq hon (f := cmdFlush side arg) (cmdFlush_runs hm hs hq), fun hq' hw =>
      reaches_of_reported hon (f := cmdFlush side arg) ?_⟩,
    fun hm hs hl h0 => does_of hon (f := cmdApplyReserves side 0) ?_,
    fun hm hs h0 => reaches_of_reported hon (f := cmdApplyReserves side 0) ?_,
    fun hs hn => does_of hon (f := whenNegotiated (pPool side) (writeInjectCtrl side v.toNat)) ?_,
    fun hs hq error hj => does_of hon (f := breakQueue side q error) ?_,
    fun b hb => gives_of_eq hon (f := breakQueue side q _) (breakQueue_corrects hb),
    fun hside hq hw => does_of hon (f := reclaim side q) ?_⟩
  · have hw' : (poolOf side (putPage (pPool side) ((pageOf (pPool side) d).started 0x40 arg) d)).waiting = [] := hw
    rw [show cmdFlush side arg s.dev = _ from cmdFlush_runs hm hs hq, flushQueue_packets hq' hw']
    have h := reported_doneAtOnce (p := pPool side) (d := d) (e := putPage (pPool side) ((pageOf (pPool side) d).started 0x40 arg)
      (putRecords side (arg % 128) [] d)) (pageOf_putPage_same ..)
    rw [putPage_putPage] at h
    exact h
  · have hall : (reserveRegs side d).all (· != 0) = true := List.all_eq_true.2 fun n hn => by simpa using h0 n hn
    have hcmd : cmdApplyReserves side 0 d = endCmd (pPool side) true (setReserves side (accept (pPool side) 0x41 0 d)) := by
      rw [cmdApplyReserves_judges hm hs, decide_eq_true hl, hall]
      rfl
    rw [show cmdApplyReserves side 0 s.dev = _ from hcmd]
    have hpage : pageOf (pPool side) (setReserves side (accept (pPool side) 0x41 0 d)) = (pageOf (pPool side) d).started 0x41 0 :=
      pageOf_accept (pPool side) 0x41 0 d
    refine ⟨answers_doneAtOnce hpage, fun n hn => ?_⟩
    rw [reserveOf, (reported_doneAtOnce hpage).poolOf]
    rw [show poolOf side (putPage (pPool side) ((pageOf (pPool side) d).ended 0x41 .done)
      (setReserves side (accept (pPool side) 0x41 0 d))) = poolOf side (setReserves side (accept (pPool side) 0x41 0 d)) from rfl,
      setReserves, poolOf_modPool]
    exact get_map_index (List.mem_range.2 hn)
  · have hall : (reserveRegs side d).all (· != 0) = false := by
      rw [Bool.eq_false_iff]
      exact fun h => absurd (List.all_eq_true.1 h 0 h0) (by decide)
    have hcmd : cmdApplyReserves side 0 d = reject (pPool side) 0x41 .rejectedRange d := by
      rw [cmdApplyReserves_judges hm hs, hall, Bool.and_false]
      rfl
    have h := reported_reject (pPool side) 0x41 .rejectedRange d
    rw [show (pageOf (pPool side) d).state = .ready from hs] at h
    rw [show cmdApplyReserves side 0 s.dev = _ from hcmd]
    exact h
  · rw [show whenNegotiated (pPool side) (writeInjectCtrl side v.toNat) s.dev = _ from whenNegotiated_applies hs hn]
    exact rd_writeInjectCtrl side v d
  · rw [show breakQueue side q error s.dev = _ from breakQueue_loses hs hq hj]
    have hr := reported_raise (pPool side) 18 (bump (rPool side 0 0x4C) d)
    refine ⟨?_, packetRecords_putRecords _ _ _ _, ?_, events_raise (by decide) _ _⟩
    · exact (hr.rd_of_ty (by simp)).trans (rd_bump _ _)
    · rw [creditOf_packets hq, creditOf_packets hq, putRecords, poolOf_modPool, poolOf_modPool, hr.poolOf, depthOf_packets hq]
      rw [show poolOf side (bump (rPool side 0 0x4C) d) = poolOf side d from rfl]
      simp only [tbl_get_set_same, List.foldl_nil]
      omega
  · rw [show reclaim side q s.dev = _ from reclaim_packets hside hq hw]
    refine ⟨?_, rfl, rfl⟩
    rw [creditOf_packets hq, poolOf_modPool, depthOf_packets hq, reserveOf]
    simp only [get_drop_same, Nat.sub_zero]
    rfl

/-- Settles O39: what each command and event of a pool leaves in its queues, and how an injection is spent. -/
theorem poolsComplete : Obligations.PoolsComplete := ⟨queuePoolsComplete, injectionsAreSpent⟩

end Sys2Proof.Machine
end


section
/-!
SUPPORT. The halves of chunk slots (R309, R313), counters and belay entries (R314 to R320).
-/

namespace Sys2Proof.Machine

/-- A command that is done at once: what it changes beside its page may be done before the page is written. -/
theorem reported_atOnce {p : PageId} {code arg : Nat} {defined legal inRange : Bool} {f : Dev → Dev} {d e : Dev}
    (hm : mayCommand p d = true) (h3 : defined = true) (h4 : legal = true) (h5 : inRange = true)
    (hf : f (accept p code arg d) = putPage p ((pageOf p d).started code arg) e) :
    Reported (putPage p ((pageOf p d).ended code .done) e) (pageCommand p code arg defined legal inRange (doneAtOnce p f) d) := by
  rw [pageCommand_accepted code arg (doneAtOnce p f) hm h3 h4 h5, doneAtOnce, hf]
  have h := reported_doneAtOnce (p := p) (d := d) (e := putPage p ((pageOf p d).started code arg) e) (pageOf_putPage_same ..)
  rwa [putPage_putPage] at h

/-! ### Halves of chunk slots (R309, R313) -/

section Halves

variable {r arg : Nat} {d : Dev}

theorem reported_setHalf (hm : mayCommand (pChk r) d = true) (hs : (pageOf (pChk r) d).state = .active)
    (ho : halfOpen r arg d = false) (hr : halfInRange r arg d = true) {e : Dev}
    (hf : openHalf r arg (accept (pChk r) 0x40 arg d) = putPage (pChk r) ((pageOf (pChk r) d).started 0x40 arg) e) :
    Reported (putPage (pChk r) ((pageOf (pChk r) d).ended 0x40 .done) e) (cmdSetHalf r arg d) :=
  reported_atOnce hm rfl (by rw [inState_of hs rfl, ho]; rfl) hr hf

theorem cmdSetHalf_rejects (hm : mayCommand (pChk r) d = true) (hs : (pageOf (pChk r) d).state = .active)
    (ho : halfOpen r arg d = true) : cmdSetHalf r arg d = reject (pChk r) 0x40 .rejectedState d := by
  refine (pageCommand_judged _ _ _ _ _ _ hm).trans ?_
  rw [inState_of hs rfl, ho]
  rfl

theorem checkRx_putCheckRx (h : Nat) (c : CheckRx) (d : Dev) : checkRx h (putCheckRx h c d) = c := by
  simp [checkRx, putCheckRx, modNet]

theorem Reported.checkRx {d e : Dev} (h : Reported d e) (n : Nat) : checkRx n e = checkRx n d := by
  rw [Machine.checkRx, h.sameQuiet.field Dev.net fun _ => rfl]
  rfl

/-- A receive half as SET_HALF opens it. -/
def openedRx (r arg : Nat) (d : Dev) : CheckRx :=
  { checkRx (4 * r + arg % 4) d with
    open_ := true, chunkId := rd (rChk r 0x40) d, bytes := rd (rChk r 0x44) d, value := BitVec.ofNat 64 (rd64 (rChk r 0x48) d)
    base := rd64 (rChk r 0x50) d, outOfOrder := false, poisoned := false, ctx := fieldOf (rd (rRing r 0x40) d) 18 16 }

theorem openHalf_rx (hb : bitOf arg 2 = true) : openHalf r arg (accept (pChk r) 0x40 arg d) =
    putPage (pChk r) ((pageOf (pChk r) d).started 0x40 arg) (putCheckRx (4 * r + arg % 4) (openedRx r arg d) d) := by
  simp only [openHalf, hb, if_true]
  rfl

theorem openHalf_tx (hb : bitOf arg 2 = false) : openHalf r arg (accept (pChk r) 0x40 arg d) =
    putPage (pChk r) ((pageOf (pChk r) d).started 0x40 arg) (putCheckTx (4 * r + arg % 4)
      ⟨true, rd (rChk r 0x40) d, rd (rChk r 0x44) d, BitVec.ofNat 64 (rd64 (rChk r 0x48) d), none⟩ d) := by
  simp only [openHalf, hb, Bool.false_eq_true, if_false]
  rfl

end Halves

theorem halvesComplete : Claims.HalvesComplete := by
  intro r arg s hon hm hs d g h c
  refine ⟨fun ho hr hb => reaches_of_reported hon (f := cmdSetHalf r arg) (reported_setHalf hm hs ho hr (openHalf_tx hb)),
    fun ho hr hb => does_of hon (f := cmdSetHalf r arg) ?_,
    fun ho => reaches_of_reported hon (f := cmdSetHalf r arg) ?_,
    fun hb => reaches_of_reported hon (f := cmdClearHalf r arg) ?_,
    fun hb => reaches_of_reported hon (f := cmdClearHalf r arg) ?_⟩
  · have hrep := reported_setHalf hm hs ho hr (openHalf_rx hb)
    obtain ⟨w, hw⟩ := hrep.pageFields (pChk r)
    have hrx := (hrep.checkRx (4 * r + arg % 4)).trans (checkRx_putCheckRx (4 * r + arg % 4) (openedRx r arg d) d)
    rw [hrx]
    refine ⟨rfl, rfl, rfl, rfl, rfl, ?_⟩
    rw [answers, hw, pageOf_putPage_same]
    exact ⟨rfl, rfl, rfl⟩
  · have hrej := reported_reject (pChk r) 0x40 .rejectedState d
    rw [show (pageOf (pChk r) d).state = .active from hs] at hrej
    rw [show cmdSetHalf r arg s.dev = _ from cmdSetHalf_rejects hm hs ho]
    exact hrej
  · refine reported_atOnce hm rfl (inState_of hs rfl) rfl ?_
    simp only [clearHalf, hb, if_true]
    rfl
  · refine reported_atOnce hm rfl (inState_of hs rfl) rfl ?_
    simp only [clearHalf, hb, Bool.false_eq_true, if_false]
    rfl

/-! ### Counters and belay entries (R314, R317, R318, R320) -/

section Belay

variable {side e n : Nat} {l : List Nat} {d : Dev}

theorem applyAdds_nil (fuel side : Nat) (d : Dev) : applyAdds fuel side [] d = d := by cases fuel <;> rfl

theorem judgeGates_none (c : Nat) (h : d.net.rings = []) : judgeGates side c d = d := by
  have hpass : ∀ r, (ringSt r d).pass = none := fun r => by
    rw [ringSt, h]
    rfl
  unfold judgeGates
  generalize (List.range 24).map (24 * side + ·) = rs
  induction rs with
  | nil => rfl
  | cons r rs ih =>
    rw [List.foldl_cons]
    simp only [hpass]
    exact ih

theorem afterChange_unwatched (c : Nat) (hb : d.net.belay = []) (hr : d.net.rings = []) : afterChange side c d = d := by
  have hw : watchers side c d = [] := by
    rw [watchers, hb]
    rfl
  simp only [afterChange, judgeCounter, hw, List.foldl_nil, judgeGates_none c hr, applyAdds_nil]

theorem fireEntry_idle (h : ¬ ((belayOf side e d).state = .armed ∧ reached (counterOf side (belayOf side e d).trigger d) (belayOf side e d).work)) :
    fireEntry n side e (d, l) = (d, l) := by
  cases n with
  | zero => rfl
  | succ n => simp only [fireEntry, h, if_false]

theorem belayOf_putBelay (b : Belay) : belayOf side e (putBelay side e b d) = b := by
  simp [belayOf, putBelay, modNet]

/-- The last firing of an entry that runs no op. -/
theorem fireEntry_last {b : Belay} (he : belayOf side e d = b) (hs : b.state = .armed)
    (hr : reached (counterOf side b.trigger d) b.work = true) (ho : entryOp b.ctrl = 0) (hg : 48 ≤ entryRing b.ctrl)
    (hl : b.fired + 1 = b.repeat_) : fireEntry (n + 1) side e (d, l) =
      (putBelay side e { b with work := b.work + b.step, fired := b.fired + 1, state := .done } d,
        l ++ if bitOf b.done 31 then [b.done % 512] else []) := by
  have hone : ∀ x, fireOnce side e b x = (x, if bitOf b.done 31 then [b.done % 512] else []) := fun x => by
    have hno : ¬ (0 : Nat) = 5 := by decide
    simp only [fireOnce, Nat.not_lt.2 hg, if_false, ho, ringOpCode, hno]
    rfl
  simp only [fireEntry, he, hs, hr, and_self, if_true, hl, hone]
  refine fireEntry_idle fun h => ?_
  rw [belayOf_putBelay] at h
  exact EntryState.noConfusion h.1

theorem judgeArmed_waits {arg : Nat} (hr : reached (counterOf side (rd (rBelay side e 8) d) d) (BitVec.ofNat 32 (rd (rBelay side e 0x0C) d)) = false) :
    judgeArmed side [e] (armOne side e (accept (pBelay side) 0x40 arg d)) =
      putPage (pBelay side) ((pageOf (pBelay side) d).started 0x40 arg) (putBelay side e (armedCopy side e d) d) := by
  have hno : ¬ ((belayOf side e (armOne side e (accept (pBelay side) 0x40 arg d))).state = .armed
      ∧ reached (counterOf side (belayOf side e (armOne side e (accept (pBelay side) 0x40 arg d))).trigger
          (armOne side e (accept (pBelay side) 0x40 arg d)))
        (belayOf side e (armOne side e (accept (pBelay side) 0x40 arg d))).work) := by
    rw [armOne, belayOf_putBelay]
    exact fun h => absurd (hr.symm.trans h.2) Bool.false_ne_true
  simp only [judgeArmed, List.foldl_cons, List.foldl_nil, fireEntry_idle hno, applyAdds_nil]
  rfl

theorem armLegal {s : Dev} {arg : Nat} (hs : (pageOf (pBelay side) s).state = .active)
    (hb : (belayOf side (arg % 1024) s).state ≠ .armed) (hr : entryRing (rd (rBelay side (arg % 1024) 0) s) = 0x3F)
    (ho : entryOp (rd (rBelay side (arg % 1024) 0) s) = 0)
    (hc : ctxOpen (fieldOf (rd (rBelay side (arg % 1024) 0) s) 21 19) s = true) :
    (inState (pBelay side) [.ready, .active] s && (belayOf side (arg % 1024) s).state != .armed
      && !ringOpCode (entryOp (rd (rBelay side (arg % 1024) 0) s)) && entryRing (rd (rBelay side (arg % 1024) 0) s) == 0x3F
      && ctxOpen (fieldOf (rd (rBelay side (arg % 1024) 0) s) 21 19) s) = true := by
  rw [inState_of hs rfl, hr, ho, hc, bne_iff_ne.2 hb]
  rfl

end Belay

theorem belayCompletes : Claims.BelayCompletes := by
  intro side c arg n v l s hon d e g b
  refine ⟨fun hc hs hn hb hr => gives_of_eq hon (f := whenNegotiated (pCounters side) (writeCounter side c v.toNat)) ?_,
    fun hm hs hb hr ho hc hw => reaches_of_reported hon (f := cmdArmEntry side arg) ?_,
    fun hm hs hp => reaches_of_reported hon (f := cmdDisarmEntry side arg) ?_,
    fun hs hr ho hg hl => fireEntry_last rfl hs hr ho hg hl, fun hs hr => fireEntry_idle fun h => ?_⟩
  · refine (whenNegotiated_applies hs hn).trans ?_
    rw [writeCounter, if_neg (Nat.not_le.2 hc)]
    exact afterChange_unwatched c hb hr
  · refine reported_atOnce hm rfl (armLegal hs hb hr ho hc) ?_ (judgeArmed_waits hw)
    rw [show entryOp (rd (rBelay side (arg % 1024) 0) s.dev) = 0 from ho]
    rfl
  · exact reported_atOnce hm rfl (by rw [hs, hp]; rfl) rfl rfl
  · exact absurd (hr.symm.trans h.2) Bool.false_ne_true

/-- Settles O40: what SET_HALF and CLEAR_HALF write, and how one entry is armed and fires. -/
theorem checksAndEntriesComplete : Obligations.ChecksAndEntriesComplete := ⟨halvesComplete, belayCompletes⟩

end Sys2Proof.Machine
end


section
/-!
SUPPORT. Passes of the rings (R6, R331, R333, R335, R338, R339).
-/

namespace Sys2Proof.Machine

/-! ### A command that runs -/

/-- The page runs a command that was accepted on `d`. -/
structure Running (p : PageId) (code arg : Nat) (d e : Dev) : Prop where
  seq : (pageOf p e).seq = ((pageOf p d).seq + 1) % 65536
  lastCmd : (pageOf p e).lastCmd = code
  cmd : (pageOf p e).cmd = some ⟨code, arg⟩

theorem running_accept (p : PageId) (code arg : Nat) (d : Dev) : Running p code arg d (accept p code arg d) := by
  refine ⟨?_, ?_, ?_⟩ <;> rw [pageOf_accept] <;> rfl

section Running

variable {p : PageId} {code arg : Nat} {d e x : Dev}

theorem Running.of_quiet (h : Running p code arg d e) (hq : (pageOf p x).quiet = (pageOf p e).quiet) : Running p code arg d x where
  seq := (congrArg Page.seq hq : (pageOf p x).quiet.seq = _).trans h.seq
  lastCmd := (congrArg Page.lastCmd hq : (pageOf p x).quiet.lastCmd = _).trans h.lastCmd
  cmd := (Page.cmd_of_quiet hq).trans h.cmd

theorem Running.setState (h : Running p code arg d e) (st : PState) (c : Cause) : Running p code arg d (setState p st c e) := by
  obtain ⟨w, hw⟩ := pageOf_setState p st c e
  exact ⟨by rw [hw]; exact h.seq, by rw [hw]; exact h.lastCmd, by rw [hw]; exact h.cmd⟩

theorem Running.answers (h : Running p code arg d e) : answers p code .done d (endCmd p true e) := by
  obtain ⟨w, hw⟩ := (reported_endCmd_done (p := p) (d := e) (by rw [h.cmd]; rfl)).pageFields p
  rw [pageOf_putPage_same] at hw
  rw [Machine.answers, hw]
  exact ⟨h.seq, h.lastCmd, rfl⟩

theorem Running.state_endCmd (h : Running p code arg d e) : stateOf p (endCmd p true e) = stateOf p e :=
  (endCmd_done_parts (by rw [h.cmd]; rfl)).1

end Running

theorem stateOf_of_quiet {p : PageId} {d e : Dev} (h : (pageOf p e).quiet = (pageOf p d).quiet) : stateOf p e = stateOf p d :=
  Page.state_of_quiet h

theorem quiet_raise (p q : PageId) (b : Nat) (d : Dev) : (pageOf q (raise p b d)).quiet = (pageOf q d).quiet :=
  (reported_raise p b d).2.1 q

theorem quiet_settleReduction {q : PageId} (i : Nat) (hq : q.ty ≠ .reduction) (d : Dev) :
    (pageOf q (settleReduction i d)).quiet = (pageOf q d).quiet :=
  (onPage_settlePage (pRed i) _ _ d).others q fun h => hq (by rw [h])

theorem settlePage_active {p : PageId} {d : Dev} (c : Cause) (h : stateOf p d = .active) :
    settlePage p .ready c d = setState p .ready c d := by
  have h : (pageOf p d).state = .active := h
  simp [settlePage, h]

theorem eventsStay_putPage {p : PageId} {g : Page} {d : Dev} (q : PageId) (h : g.events = (pageOf p d).events) :
    EventsStay q d (putPage p g d) := by
  intro i hi
  by_cases hq : q = p
  · subst hq
    rw [pageOf_putPage_same, h]
    exact hi
  · rwa [pageOf_putPage_other _ _ hq]

theorem eventsStay_settlePage (p q : PageId) (st : PState) (c : Cause) (d : Dev) : EventsStay q d (settlePage p st c d) := by
  unfold settlePage
  simp only
  split
  · exact eventsStay_putPage q rfl
  · split
    · exact eventsStay_putPage q (by split <;> rfl)
    · split
      · exact (eventsStay_putPage q (by rfl)).trans (eventsStay_raise _ _ _ _)
      · exact .of_eq rfl

/-- A settled page changes no register but those of the event rings. -/
theorem rd_settlePage {r : RegId} (hr : r.ty ≠ .luawick) (p : PageId) (st : PState) (c : Cause) (d : Dev) :
    rd r (settlePage p st c d) = rd r d := by
  unfold settlePage
  simp only
  split
  · rfl
  · split
    · rfl
    · split
      · exact (reported_setState p st c d).rd_of_ty hr
      · rfl

theorem SameQuiet.net {d e : Dev} (h : SameQuiet d e) : e.net = d.net := h.field Dev.net fun _ => rfl

theorem ringSt_of_net {d e : Dev} (h : e.net = d.net) (r : Nat) : ringSt r e = ringSt r d := by rw [ringSt, h, ringSt]

theorem ringSt_modRing (r : Nat) (f : RingSt → RingSt) (d : Dev) : ringSt r (modRing r f d) = f (ringSt r d) := by
  simp [ringSt, modRing, modNet]

theorem net_settlePage (p : PageId) (st : PState) (c : Cause) (d : Dev) : (settlePage p st c d).net = d.net :=
  (onPage_settlePage p st c d).toSameQuiet.net

theorem net_settleReduction (i : Nat) (d : Dev) : (settleReduction i d).net = d.net := net_settlePage (pRed i) _ _ d

theorem net_raise (p : PageId) (b : Nat) (d : Dev) : (raise p b d).net = d.net := (reported_raise p b d).sameQuiet.net

theorem net_endCmd (p : PageId) (ok : Bool) (d : Dev) : (endCmd p ok d).net = d.net := (onPage_endCmd p ok d).toSameQuiet.net

theorem net_endCmdIf (p : PageId) (code : Nat) (ok : Bool) (d : Dev) : (endCmdIf p code ok d).net = d.net :=
  (onPage_endCmdIf p code ok d).toSameQuiet.net

/-! ### LAUNCH (R331, R332) -/

section Launch

variable {r : Nat} {d : Dev}

theorem launch_accepted (hm : mayCommand (pRing r) d = true) (hl : launchLegal r (readPass r d) d = true)
    (hr : launchInRange r (readPass r d) d = true) :
    cmdLaunch r 0 d = endCmd (pRing r) true (launchPass r (accept (pRing r) 0x40 0 d)) :=
  pageCommand_accepted _ _ _ hm rfl hl hr

theorem ready_of_launchLegal {p : Pass} (h : launchLegal r p d = true) : stateOf (pRing r) d = .ready := by
  simp only [launchLegal, Bool.and_eq_true] at h
  simpa [inState] using h.1.1.1.1

theorem zeroPass_eq (r : Nat) (d : Dev) : ∃ regs, zeroPass r d = { d with regs := regs } := by
  unfold zeroPass
  generalize [0xD0, 0xD4, 0xD8, 0xDC, 0xE4, 0xE8, 0xEC] = l
  induction l generalizing d with
  | nil => exact ⟨d.regs, rfl⟩
  | cons off l ih =>
    obtain ⟨regs, h⟩ := ih (wr (rRing r off) 0 d)
    exact ⟨regs, h⟩

theorem pageOf_beginPassAt (q : PageId) (p : Pass) (gated : Bool) (result : Nat) (d : Dev) :
    pageOf q (beginPassAt r p gated result d) = pageOf q d := by
  obtain ⟨regs, h⟩ := zeroPass_eq r d
  rw [beginPassAt, h]
  rfl

theorem stateOf_accept (p : PageId) (code arg : Nat) (d : Dev) : stateOf p (accept p code arg d) = stateOf p d := by
  rw [stateOf, pageOf_accept]
  rfl

theorem readPass_accept (q : PageId) (code arg : Nat) (d : Dev) : readPass r (accept q code arg d) = readPass r d := rfl

theorem ringSt_beginPassAt (p : Pass) (gated : Bool) (result : Nat) (d : Dev) :
    ringSt r (beginPassAt r p gated result d) = { ringSt r d with
      pass := some p, launched := ((ringSt r d).launched + 1) % 65536, gated := gated, aborting := false, remote := false
      reason := 0, result := result, work := [], waiting := [], ops := [], nextTransfer := 0, freed := 0, begun := false
      lastProgress := d.now, timer := 0 } := by
  obtain ⟨regs, h⟩ := zeroPass_eq r d
  rw [beginPassAt, ringSt_modRing, h]
  rfl

/-- LAUNCH of a pass with nothing to do. -/
theorem launchPass_empty (hn : (readPass r d).pieceSize = 0 ∨ (readPass r d).count = 0) (hs : stateOf (pRing r) d = .ready) :
    launchPass r (accept (pRing r) 0x40 0 d) = raise (pRing r) 16
      (setState (pRing r) .active .work (beginPassAt r (readPass r d) false 2 (accept (pRing r) 0x40 0 d))) := by
  have hset : stateOf (pRing r) (beginPassAt r (readPass r d) false 2 (accept (pRing r) 0x40 0 d)) = .ready := by
    rw [stateOf, pageOf_beginPassAt]
    exact (stateOf_accept _ _ _ _).trans hs
  rw [launchPass, readPass_accept]
  simp only [hn, if_true]
  rw [settlePage_ready _ hset]

theorem running_beginPassAt (p : Pass) (gated : Bool) (result : Nat) :
    Running (pRing r) 0x40 0 d (beginPassAt r p gated result (accept (pRing r) 0x40 0 d)) :=
  (running_accept (pRing r) 0x40 0 d).of_quiet (by rw [pageOf_beginPassAt])

theorem launch_empty (hm : mayCommand (pRing r) d = true) (hl : launchLegal r (readPass r d) d = true)
    (hr : launchInRange r (readPass r d) d = true) (hn : (readPass r d).pieceSize = 0 ∨ (readPass r d).count = 0) :
    (ringSt r (cmdLaunch r 0 d)).pass = some (readPass r d) ∧ (ringSt r (cmdLaunch r 0 d)).result = 2
      ∧ (ringSt r (cmdLaunch r 0 d)).launched = ((ringSt r d).launched + 1) % 65536 ∧ stateOf (pRing r) (cmdLaunch r 0 d) = .active
      ∧ answers (pRing r) 0x40 .done d (cmdLaunch r 0 d) := by
  rw [launch_accepted hm hl hr, launchPass_empty hn (ready_of_launchLegal hl)]
  have hrun := ((running_beginPassAt (r := r) (d := d) (readPass r d) false 2).setState .active .work).of_quiet
    (quiet_raise (pRing r) (pRing r) 16 _)
  rw [hrun.state_endCmd, stateOf_of_quiet (quiet_raise _ _ _ _), stateOf_setState,
    ringSt_of_net ((net_endCmd _ _ _).trans ((net_raise _ _ _).trans (onPage_setState _ _ _ _).toSameQuiet.net)), ringSt_beginPassAt]
  exact ⟨rfl, rfl, rfl, rfl, hrun.answers⟩

theorem rd_zeroPass {q : RegId} (hq : q.ty ≠ .ring) : rd q (zeroPass r d) = rd q d := by
  have hstep : ∀ (l : List Nat) (x : Dev), rd q (l.foldl (fun x off => wr (rRing r off) 0 x) x) = rd q x := fun l => by
    induction l with
    | nil => exact fun _ => rfl
    | cons off l ih =>
      intro x
      rw [List.foldl_cons, ih]
      exact rd_wr_other _ _ fun h => hq ((homeOf_ty q).symm.trans ((congrArg RegId.ty h).trans (homeOf_ty _)))
  exact hstep _ d

theorem rd_beginPassAt {q : RegId} (p : Pass) (gated : Bool) (result : Nat) (hq : q.ty ≠ .ring) :
    rd q (beginPassAt r p gated result d) = rd q d := by
  rw [beginPassAt, show ∀ f x, rd q (modRing r f x) = rd q x from fun _ _ => rfl]
  exact rd_zeroPass hq

theorem judgeGate_keeps (x : Dev) : (ringSt r (judgeGate r x)).pass = (ringSt r x).pass
    ∧ (ringSt r (judgeGate r x)).result = (ringSt r x).result ∧ (judgeGate r x).net.belay = x.net.belay
    ∧ ∀ q, pageOf q (judgeGate r x) = pageOf q x := by
  unfold judgeGate
  split
  · split
    · rw [openGate, ringSt_modRing]
      exact ⟨rfl, rfl, rfl, fun _ => rfl⟩
    · exact ⟨rfl, rfl, rfl, fun _ => rfl⟩
  · exact ⟨rfl, rfl, rfl, fun _ => rfl⟩

/-- An entry that is judged as it is armed, before its counter has come. -/
theorem judgeArmed_none {side e : Nat} {x : Dev}
    (h : reached (counterOf side (belayOf side e x).trigger x) (belayOf side e x).work = false) : judgeArmed side [e] x = x := by
  have hno : ¬ ((belayOf side e x).state = .armed ∧ reached (counterOf side (belayOf side e x).trigger x) (belayOf side e x).work) :=
    fun hc => absurd (h.symm.trans hc.2) Bool.false_ne_true
  simp only [judgeArmed, List.foldl_cons, List.foldl_nil, fireEntry_idle hno, applyAdds_nil]

theorem rd_putBelay (q : RegId) (side e : Nat) (b : Belay) (x : Dev) : rd q (putBelay side e b x) = rd q x := rfl

theorem ringSt_putBelay (side e : Nat) (b : Belay) (x : Dev) : ringSt r (putBelay side e b x) = ringSt r x := rfl

/-- The device once a pass of one entry stands, before its page goes to ACTIVE. -/
def passArmed (r : Nat) (d : Dev) : Dev :=
  armOne (sideOf r) (readPass r d).first
    (beginPassAt r (readPass r d) (bitOf (rd (rRing r 0xBC) d) 31) 1 (accept (pRing r) 0x40 0 d))

theorem pageOf_passArmed (q : PageId) : pageOf q (passArmed r d) = pageOf q (accept (pRing r) 0x40 0 d) :=
  (show pageOf q (passArmed r d) = pageOf q (beginPassAt r (readPass r d) (bitOf (rd (rRing r 0xBC) d) 31) 1 (accept (pRing r) 0x40 0 d))
    from rfl).trans (pageOf_beginPassAt q _ _ _ _)

/-- The device once the pages of the ring and of the reduction units stand. -/
def passSettled (r : Nat) (d : Dev) : Dev := settleReduction (sideOf r) (setState (pRing r) .active .work (passArmed r d))

theorem launchPass_one (hs : stateOf (pRing r) d = .ready) (hp : (readPass r d).pieceSize ≠ 0) (hc : (readPass r d).count = 1) :
    launchPass r (accept (pRing r) 0x40 0 d) = judgeGate r (judgeArmed (sideOf r) [(readPass r d).first] (passSettled r d)) := by
  have hset : stateOf (pRing r) (passArmed r d) = .ready := by
    rw [stateOf, pageOf_passArmed]
    exact (stateOf_accept _ _ _ _).trans hs
  have hno : ¬ ((readPass r d).pieceSize = 0 ∨ (readPass r d).count = 0) := by
    rw [hc]
    simpa using hp
  have hent : passEntries (readPass r d) = [(readPass r d).first] := by rw [passEntries, hc]; rfl
  have hgate : rd (rRing r 0xBC) (accept (pRing r) 0x40 0 d) = rd (rRing r 0xBC) d := rfl
  rw [launchPass, readPass_accept]
  simp only [hno, if_false, hent, List.foldl_cons, List.foldl_nil, hgate]
  rw [← passArmed, settlePage_ready _ hset, ← passSettled]

theorem net_passSettled : (passSettled r d).net = (passArmed r d).net :=
  (net_settleReduction _ _).trans (onPage_setState _ _ _ _).toSameQuiet.net

theorem rd_passSettled {q : RegId} (h1 : q.ty ≠ .luawick) (h2 : q.ty ≠ .ring) : rd q (passSettled r d) = rd q d := by
  rw [passSettled, settleReduction, rd_settlePage h1, (reported_setState _ _ _ _).rd_of_ty h1, rd_putPage, passArmed, armOne,
    rd_putBelay, rd_beginPassAt _ _ _ h2]
  rfl

theorem belayOf_passSettled : belayOf (sideOf r) (readPass r d).first (passSettled r d) = armedCopy (sideOf r) (readPass r d).first d := by
  have hz : ∀ off, rd (rBelay (sideOf r) (readPass r d).first off) (beginPassAt r (readPass r d) (bitOf (rd (rRing r 0xBC) d) 31) 1
      (accept (pRing r) 0x40 0 d)) = rd (rBelay (sideOf r) (readPass r d).first off) d := fun off =>
    rd_beginPassAt _ _ _ (by simp)
  rw [belayOf, net_passSettled]
  refine (belayOf_putBelay _).trans ?_
  simp only [armedCopy, hz]

theorem launch_one (hm : mayCommand (pRing r) d = true) (hl : launchLegal r (readPass r d) d = true)
    (hr : launchInRange r (readPass r d) d = true) (hp : (readPass r d).pieceSize ≠ 0) (hc : (readPass r d).count = 1)
    (hrep : rd (rBelay (sideOf r) (readPass r d).first 0x14) d ≠ 0)
    (hw : reached (counterOf (sideOf r) (rd (rBelay (sideOf r) (readPass r d).first 8) d) d)
      (BitVec.ofNat 32 (rd (rBelay (sideOf r) (readPass r d).first 0x0C) d)) = false) :
    (ringSt r (cmdLaunch r 0 d)).pass = some (readPass r d) ∧ (ringSt r (cmdLaunch r 0 d)).result = 1
      ∧ (belayOf (sideOf r) (readPass r d).first (cmdLaunch r 0 d)).state = .armed ∧ stateOf (pRing r) (cmdLaunch r 0 d) = .active
      ∧ answers (pRing r) 0x40 .done d (cmdLaunch r 0 d) := by
  have hcounter : ∀ c, counterOf (sideOf r) c (passSettled r d) = counterOf (sideOf r) c d := fun c => by
    rw [counterOf, rd_passSettled (by simp) (by simp), counterOf]
  have hjudge : judgeArmed (sideOf r) [(readPass r d).first] (passSettled r d) = passSettled r d :=
    judgeArmed_none (by rw [belayOf_passSettled, hcounter]; exact hw)
  rw [launch_accepted hm hl hr, launchPass_one (ready_of_launchLegal hl) hp hc, hjudge]
  obtain ⟨hpass, hresult, hbelay, hpages⟩ := judgeGate_keeps (r := r) (passSettled r d)
  have hquiet : (pageOf (pRing r) (judgeGate r (passSettled r d))).quiet
      = (pageOf (pRing r) (setState (pRing r) .active .work (passArmed r d))).quiet := by
    rw [hpages]
    exact quiet_settleReduction _ (by simp) _
  have hrun : Running (pRing r) 0x40 0 d (judgeGate r (passSettled r d)) :=
    (((running_beginPassAt (r := r) (d := d) (readPass r d) (bitOf (rd (rRing r 0xBC) d) 31) 1).of_quiet (x := passArmed r d)
      (by rw [pageOf_passArmed, pageOf_beginPassAt])).setState
      .active .work).of_quiet hquiet
  rw [hrun.state_endCmd, stateOf_of_quiet hquiet, stateOf_setState, ringSt_of_net (net_endCmd _ _ _), hpass, hresult,
    ringSt_of_net net_passSettled, belayOf, net_endCmd, hbelay]
  rw [passArmed, armOne, ringSt_putBelay, ringSt_beginPassAt]
  refine ⟨rfl, rfl, ?_, rfl, hrun.answers⟩
  have hb := congrArg Belay.state (belayOf_passSettled (r := r) (d := d))
  refine hb.trans ?_
  rw [armedCopy]
  exact if_neg hrep

end Launch

/-! ### The end of a pass (R333, R335, R338, R339) -/

section End

variable {r reason : Nat} {p : Pass} {d : Dev}

/-- The notice that an aborted pass sends. -/
def abortNotice (r : Nat) (p : Pass) (st : RingSt) : Send :=
  { num := 0, origin := .abort r, stream := ⟨sideOf r, p.channel, p.next⟩, type := 5, ctx := p.ctx, src := 0
    length := 0, remote := 0, planes := 2 ^ r, notify := false, counter := 0, chunk := false, chunkEnd := false
    chunkId := r, chunkOffset := 0, passTag := p.tag, notice := BitVec.ofNat 32 (2 ^ 16 * st.reason + st.origin)
    sent := 0, poisoned := false, abandoned := false, rejected := none, ended := none }

/-- The device once the notice stands among the sends and RESULT reads ABORTED. -/
def noticed (r : Nat) (p : Pass) (d : Dev) : Dev :=
  modRing r (fun x => { x with result := 4, aborting := false }) (startSend (abortNotice r p (ringSt r d)) d)

theorem finishAbort_idle (hp : (ringSt r d).pass = some p) (ha : (ringSt r d).aborting = true) (ho : (ringSt r d).ops = []) :
    finishAbort r d = settleReduction (sideOf r) (endCmdIf (pRing r) 0x41 true (raise (pRing r) 16 (raise (pRing r) 19 (noticed r p d)))) := by
  simp only [finishAbort, hp, ha, ho, List.isEmpty_nil, Bool.and_self, if_true]
  rfl

theorem disarmEntries_keeps (side : Nat) (es : List Nat) (d : Dev) : (disarmEntries side es d).net.rings = d.net.rings
    ∧ (disarmEntries side es d).net.sends = d.net.sends ∧ ∀ q, pageOf q (disarmEntries side es d) = pageOf q d := by
  unfold disarmEntries
  induction es generalizing d with
  | nil => exact ⟨rfl, rfl, fun _ => rfl⟩
  | cons e es ih =>
    rw [List.foldl_cons]
    obtain ⟨h1, h2, h3⟩ := ih (if (belayOf side e d).state = .armed then
      putBelay side e { belayOf side e d with state := .idle } d else d)
    refine ⟨h1.trans ?_, h2.trans ?_, fun q => (h3 q).trans ?_⟩ <;> split <;> rfl

/-- What an abort leaves of a pass of which no op runs: the ring, its one send, and the pages as they stood. -/
structure Aborted (r reason : Nat) (p : Pass) (d y : Dev) : Prop where
  result : (ringSt r y).result = 4
  told : (ringSt r y).reason = reason
  work : (ringSt r y).work = []
  sends : ∃ st num, y.net.sends = [{ abortNotice r p st with num := num }]
  pages : ∀ q, pageOf q y = pageOf q d

theorem sends_noticed (x : Dev) : (noticed r p x).net.sends = x.net.sends ++ [{ abortNotice r p (ringSt r x) with num := x.net.nextSend }] :=
  rfl

theorem pageOf_noticed (q : PageId) (x : Dev) : pageOf q (noticed r p x) = pageOf q x := rfl

/-- The ring as an abort takes its work from it. -/
def stoppedRing (reason rank : Nat) (x : RingSt) : RingSt :=
  { x with aborting := true, reason := reason, remote := false, origin := rank, gated := false, work := [], waiting := [], ops := [] }

/-- The device as an abort has taken the ring's work. -/
def stopped (r reason rank : Nat) (d : Dev) : Dev :=
  modRing r (stoppedRing reason rank) (modNet (fun n => { n with sends := n.sends.filter (fun s => !([] : List Nat).contains s.num) }) d)

theorem ringSt_stopped (rank : Nat) : ringSt r (stopped r reason rank d) = stoppedRing reason rank (ringSt r d) := by
  rw [stopped, ringSt_modRing]
  rfl

theorem sends_stopped (rank : Nat) (h : d.net.sends = []) : (stopped r reason rank d).net.sends = [] := by
  rw [show (stopped r reason rank d).net.sends = d.net.sends.filter (fun s => !([] : List Nat).contains s.num) from rfl, h]
  rfl

theorem aborted_noticed (rank : Nat) {d1 : Dev} (hs : d1.net.sends = []) (hpages : ∀ q, pageOf q d1 = pageOf q d) :
    Aborted r reason p d (noticed r p (stopped r reason rank d1)) := by
  have hst : ringSt r (noticed r p (stopped r reason rank d1)) =
      { stoppedRing reason rank (ringSt r d1) with result := 4, aborting := false } := by
    rw [noticed, ringSt_modRing]
    exact congrArg (fun x : RingSt => { x with result := 4, aborting := false }) (ringSt_stopped rank)
  refine ⟨by rw [hst], by rw [hst]; rfl, by rw [hst]; rfl, ?_, fun q => (pageOf_noticed q _).trans (hpages q)⟩
  refine ⟨ringSt r (stopped r reason rank d1), (stopped r reason rank d1).net.nextSend, ?_⟩
  rw [sends_noticed, sends_stopped rank hs]
  rfl

theorem abortPass_idle (hp : (ringSt r d).pass = some p) (hr : isRunning r d = true) (ho : (ringSt r d).ops = [])
    (hs : d.net.sends = []) : ∃ y, Aborted r reason p d y ∧ abortPass r reason none d =
      settleReduction (sideOf r) (endCmdIf (pRing r) 0x41 true (raise (pRing r) 16 (raise (pRing r) 19 y))) := by
  obtain ⟨hrings, hsends, hpages⟩ := disarmEntries_keeps (sideOf r) (passEntries p) d
  have hst : ringSt r (disarmEntries (sideOf r) (passEntries p) d) = ringSt r d := by rw [ringSt, hrings, ringSt]
  rw [hs] at hsends
  refine ⟨_, aborted_noticed d.job.rank hsends hpages, ?_⟩
  have hring : ringSt r (stopped r reason d.job.rank (disarmEntries (sideOf r) (passEntries p) d)) = stoppedRing reason d.job.rank (ringSt r d) := by
    rw [ringSt_stopped, hst]
  rw [← finishAbort_idle (by rw [hring]; exact hp) (by rw [hring]; rfl) (by rw [hring]; rfl)]
  simp only [abortPass, hp, hr, Bool.true_eq_false, if_false, hst, ho, List.filter_nil, List.filterMap_nil, List.map_nil, Option.isSome_none,
    Option.getD_none]
  rfl

/-- The device once an abort without running ops has ended. -/
def abortEnded (r : Nat) (y : Dev) : Dev :=
  settleReduction (sideOf r) (endCmdIf (pRing r) 0x41 true (raise (pRing r) 16 (raise (pRing r) 19 y)))

theorem net_abortEnded (y : Dev) : (abortEnded r y).net = y.net :=
  (net_settleReduction _ _).trans ((net_endCmdIf _ _ _ _).trans ((net_raise _ _ _).trans (net_raise _ _ _)))

theorem quiet_raised (y : Dev) : (pageOf (pRing r) (raise (pRing r) 16 (raise (pRing r) 19 y))).quiet = (pageOf (pRing r) y).quiet :=
  (quiet_raise _ _ _ _).trans (quiet_raise _ _ _ _)

theorem answers_of_quiet {p : PageId} {code : Nat} {res : Result} {x e e' : Dev} (h : answers p code res x e)
    (hq : (pageOf p e').quiet = (pageOf p e).quiet) : answers p code res x e' := by
  obtain ⟨h1, h2, h3⟩ := h
  exact ⟨(congrArg Page.seq hq : (pageOf p e').quiet.seq = _).trans h1, (congrArg Page.lastCmd hq : (pageOf p e').quiet.lastCmd = _).trans h2,
    (congrArg Page.result hq : (pageOf p e').quiet.result = _).trans h3⟩

theorem answers_abortEnded {y : Dev} (h : Running (pRing r) 0x41 0 d y) : answers (pRing r) 0x41 .done d (abortEnded r y) := by
  have hrun := h.of_quiet (quiet_raised y)
  have hend : endCmdIf (pRing r) 0x41 true (raise (pRing r) 16 (raise (pRing r) 19 y))
      = endCmd (pRing r) true (raise (pRing r) 16 (raise (pRing r) 19 y)) := endCmdIf_same hrun.cmd true
  rw [abortEnded, hend]
  exact answers_of_quiet hrun.answers (quiet_settleReduction _ (by simp) _)

theorem sends_running {y : Dev} (h : Aborted r reason p d y) : settleAll (abortEnded r y) = abortEnded r y := by
  obtain ⟨st, num, hs⟩ := h.sends
  refine settleAll_running fun z hz => ?_
  rw [net_abortEnded, hs] at hz
  rw [List.mem_singleton.1 hz]
  rfl

theorem cmdAbort_ends (hm : mayCommand (pRing r) d = true) (hs : (pageOf (pRing r) d).state = .active) (hp : (ringSt r d).pass = some p)
    (hr : isRunning r d = true) (ho : (ringSt r d).ops = []) (hn : d.net.sends = []) :
    ∃ y, Aborted r 2 p (accept (pRing r) 0x41 0 d) y ∧ cmdAbort r 0 d = abortEnded r y := by
  have hone : ((ringSt r d).result == 1) = true := by
    rw [isRunning, Bool.and_eq_true] at hr
    exact hr.1
  have hcmd : cmdAbort r 0 d = settleAll (abortPass r 2 none (accept (pRing r) 0x41 0 d)) :=
    pageCommand_accepted _ _ _ hm rfl (by rw [inState_of hs rfl, hone]; rfl) rfl
  obtain ⟨y, hy, he⟩ := abortPass_idle (reason := 2) (d := accept (pRing r) 0x41 0 d) hp hr ho hn
  exact ⟨y, hy, by rw [hcmd, he]; exact sends_running hy⟩

/-- The device as ACKNOWLEDGE has cleared the ring, before its page goes to READY. -/
def acknowledged (r : Nat) (d : Dev) : Dev :=
  wr (rRing r 0xC8) 0 (wr (rRing r 0xCC) 0 (modRing r (fun x => { x with result := 0, arrivals := [] }) (accept (pRing r) 0x42 0 d)))

theorem cmdAcknowledge_ends (hm : mayCommand (pRing r) d = true) (hs : (pageOf (pRing r) d).state = .active)
    (hr : (ringSt r d).result ≠ 1) : cmdAcknowledge r 0 d = endCmd (pRing r) true (setState (pRing r) .ready .work (acknowledged r d)) := by
  have hst : stateOf (pRing r) (acknowledged r d) = .active := (stateOf_accept (pRing r) 0x42 0 d).trans hs
  refine (pageCommand_accepted _ _ _ hm rfl (by rw [inState_of hs rfl, bne_iff_ne.2 hr]; rfl) rfl).trans ?_
  rw [doneAtOnce, acknowledgePass, ← acknowledged, settlePage_active _ hst]

theorem acknowledge_leaves (hm : mayCommand (pRing r) d = true) (hs : (pageOf (pRing r) d).state = .active) (hr : (ringSt r d).result ≠ 1) :
    (ringSt r (cmdAcknowledge r 0 d)).result = 0 ∧ (ringSt r (cmdAcknowledge r 0 d)).arrivals = []
      ∧ rd (rRing r 0xC8) (cmdAcknowledge r 0 d) = 0 ∧ rd (rRing r 0xCC) (cmdAcknowledge r 0 d) = 0
      ∧ stateOf (pRing r) (cmdAcknowledge r 0 d) = .ready ∧ answers (pRing r) 0x42 .done d (cmdAcknowledge r 0 d) := by
  rw [cmdAcknowledge_ends hm hs hr]
  have hrun : Running (pRing r) 0x42 0 d (setState (pRing r) .ready .work (acknowledged r d)) :=
    ((running_accept (pRing r) 0x42 0 d).of_quiet (x := acknowledged r d) rfl).setState .ready .work
  have hring : ringSt r (acknowledged r d) = { ringSt r d with result := 0, arrivals := [] } :=
    ringSt_modRing r (fun x => { x with result := 0, arrivals := [] }) (accept (pRing r) 0x42 0 d)
  have hrd : ∀ off, rd (rRing r off) (endCmd (pRing r) true (setState (pRing r) .ready .work (acknowledged r d)))
      = rd (rRing r off) (acknowledged r d) := fun off => by
    rw [(reported_endCmd_done (by rw [hrun.cmd]; rfl)).rd_of_ty (by simp), rd_putPage, (reported_setState _ _ _ _).rd_of_ty (by simp), rd_putPage]
  rw [hrun.state_endCmd, stateOf_setState, hrd, hrd, ringSt_of_net ((net_endCmd _ _ _).trans (onPage_setState _ _ _ _).toSameQuiet.net), hring]
  refine ⟨rfl, rfl, rd_wr_same _ _ _, ?_, rfl, hrun.answers⟩
  rw [acknowledged, rd_wr_other _ _ (by simp [homeOf]), rd_wr_same, Nat.zero_mod]

theorem endPass_ends (hp : (ringSt r d).pass = some p) (ho : passOver r p d = true) :
    (ringSt r (endPass r d)).result = (if rd (rRing r 0xE4) d = 0 then 2 else 3)
      ∧ (pageOf (pRing r) (endPass r d)).events.getLsbD 16 = true := by
  simp only [endPass, hp, ho, if_true]
  refine ⟨?_, eventsStay_settlePage _ _ _ _ _ _ (events_raise (by decide) _ _)⟩
  rw [ringSt_of_net ((net_settleReduction _ _).trans (net_raise _ _ _)), ringSt_modRing]

theorem stepTimedOut_runs (hr : isRunning r d = true) (hb : (ringSt r d).begun = true) (hs : (pageOf (pRing r) d).state = .active)
    (ht : 1000000 * clampReg 1 60000 (rd (rRing r 0x7C) d) < (ringSt r d).timer) : stepTimedOut r d = true := by
  rw [stepTimedOut, hr, hb, stateOf, hs, decide_eq_true ht]
  rfl

/-- The events of an aborted pass, where the page runs no command. -/
theorem events_abortEnded {y : Dev} (hc : (pageOf (pRing r) y).cmd = none) :
    (pageOf (pRing r) (abortEnded r y)).events.getLsbD 19 = true := by
  have hnone : (pageOf (pRing r) (raise (pRing r) 16 (raise (pRing r) 19 y))).cmd = none := (Page.cmd_of_quiet (quiet_raised y)).trans hc
  rw [abortEnded, endCmdIf]
  simp only [hnone]
  exact eventsStay_settlePage _ _ _ _ _ _ (eventsStay_raise _ _ _ _ _ (events_raise (by decide) _ _))

end End

/-- Settles O42: what LAUNCH makes of a pass without work and of one entry, and what the end of a pass leaves. -/
theorem passesComplete : Obligations.PassesComplete := by
  intro r p s hon d g st n
  refine ⟨fun hm hl hr hn => does_of hon (f := cmdLaunch r 0) (launch_empty hm hl hr hn),
    fun hm hl hr hp hc hrep hw => does_of hon (f := cmdLaunch r 0) (launch_one hm hl hr hp hc hrep hw),
    fun hm hl hr => reaches_of_reported hon (f := cmdLaunch r 0) ?_,
    fun hm hs hp hr ho hn => does_of hon (f := cmdAbort r 0) ?_,
    fun hm hs hr => does_of hon (f := cmdAcknowledge r 0) (acknowledge_leaves hm hs hr),
    fun hp ho => does_of hon (f := endPass r) (endPass_ends hp ho),
    fun hp hr hb hs hc ho hn ht => does_of hon (f := fun d => if stepTimedOut r d then settleAll (abortPass r 1 none d) else d) ?_⟩
  · have hcmd : cmdLaunch r 0 d = reject (pRing r) 0x40 .rejectedRange d := by
      refine (pageCommand_judged _ _ _ _ _ _ hm).trans ?_
      rw [hl, hr]
      rfl
    have hrej := reported_reject (pRing r) 0x40 .rejectedRange d
    rw [show (pageOf (pRing r) d).state = .ready from ready_of_launchLegal hl] at hrej
    rw [show cmdLaunch r 0 s.dev = _ from hcmd]
    exact hrej
  · obtain ⟨y, hy, he⟩ := cmdAbort_ends hm hs hp hr ho hn
    obtain ⟨st, num, hsends⟩ := hy.sends
    rw [show cmdAbort r 0 s.dev = _ from he, ringSt_of_net (net_abortEnded y), net_abortEnded, hy.result, hy.told, hy.work, hsends]
    refine ⟨rfl, rfl, rfl, rfl, answers_abortEnded ?_⟩
    exact (running_accept (pRing r) 0x41 0 d).of_quiet (by rw [hy.pages])
  · obtain ⟨y, hy, he⟩ := abortPass_idle (reason := 1) hp hr ho hn
    have hcmd : (if stepTimedOut r s.dev then settleAll (abortPass r 1 none s.dev) else s.dev) = abortEnded r y := by
      rw [if_pos (stepTimedOut_runs hr hb hs ht), show abortPass r 1 none s.dev = abortEnded r y from he]
      exact sends_running hy
    rw [hcmd, ringSt_of_net (net_abortEnded y), hy.result, hy.told]
    refine ⟨rfl, rfl, events_abortEnded ?_⟩
    rw [hy.pages]
    exact hc

end Sys2Proof.Machine
end


section
/-!
SUPPORT. Input power and the ROM (R349 to R351, R422, R479, R480, R493, R496).
-/

namespace Sys2Proof.Machine

theorem inputPowerCompletes : Claims.InputPowerCompletes := by
  intro pins s lost
  refine ⟨fun h => ⟨_, if_pos h, rfl, rfl, rfl, rfl, rfl, rfl, rfl, rfl, rfl, rfl, rfl, rfl, rfl⟩, fun hon => if_neg hon, rfl,
    ⟨loseInput s, rfl, rfl, rfl, rfl, rfl, rfl, rfl, rfl, rfl, rfl⟩, ⟨loseInput s, rfl, rfl, rfl, rfl, rfl, rfl, rfl, rfl, rfl, rfl⟩⟩

/-! ### What the ROM reads stays as firmware is loaded -/

/-- Flash, fuses, the boot record, the reset, COOLANT_OK and the pins stay. -/
structure KeepsBoot (d e : Dev) : Prop where
  flash : e.flash = d.flash
  fused : e.fused = d.fused
  boot : e.boot = d.boot
  reset : e.reset = d.reset
  coolant : e.coolant = d.coolant
  pins : e.pins = d.pins

theorem KeepsBoot.trans {a b c : Dev} (h : KeepsBoot a b) (k : KeepsBoot b c) : KeepsBoot a c :=
  ⟨k.flash.trans h.flash, k.fused.trans h.fused, k.boot.trans h.boot, k.reset.trans h.reset, k.coolant.trans h.coolant,
    k.pins.trans h.pins⟩

theorem SameQuiet.keepsBoot {d e : Dev} (h : SameQuiet d e) : KeepsBoot d e :=
  ⟨h.field Dev.flash fun _ => rfl, h.field Dev.fused fun _ => rfl, h.field Dev.boot fun _ => rfl, h.field Dev.reset fun _ => rfl,
    h.field Dev.coolant fun _ => rfl, h.field Dev.pins fun _ => rfl⟩

theorem keepsBoot_loadComplex (i : Nat) (role : Role) (d : Dev) : KeepsBoot d (loadComplex i role d) := ⟨rfl, rfl, rfl, rfl, rfl, rfl⟩

theorem keepsBoot_loadTested (i : Nat) (role : Role) (d : Dev) : KeepsBoot d (loadTested i role d) :=
  ((sameQuiet_setState _ _ _ d).keepsBoot.trans (keepsBoot_loadComplex i role _)).trans (sameQuiet_setState _ _ _ _).keepsBoot

theorem keepsBoot_startLead (i : Nat) (d : Dev) : KeepsBoot d (startLead i d) :=
  ((keepsBoot_loadTested i .lead d).trans (sameQuiet_setState _ _ _ _).keepsBoot).trans (sameQuiet_setState _ _ _ _).keepsBoot

theorem keepsBoot_loadVersions (d : Dev) : KeepsBoot d (loadVersions d) := by
  unfold loadVersions
  simp only
  split <;> exact ⟨rfl, rfl, rfl, rfl, rfl, rfl⟩

theorem keepsBoot_startOther (r : RomResults) (i : Nat) (d : Dev) : KeepsBoot d (startOther r i d) := by
  have hmark : ∀ u x, KeepsBoot x (markFailed u x) := fun _ _ => ⟨rfl, rfl, rfl, rfl, rfl, rfl⟩
  unfold startOther
  split
  · exact ((sameQuiet_setState _ _ _ d).keepsBoot.trans (hmark _ _)).trans (sameQuiet_setState _ _ _ _).keepsBoot
  · split
    · exact (sameQuiet_setState _ _ _ d).keepsBoot
    · exact keepsBoot_loadTested i .rejoining d

/-! ### The lead, and the complex beside it -/

section Complexes

variable {i j : Nat} {d : Dev}

theorem complexOf_of_quiet {e : Dev} (h : SameQuiet d e) (i : Nat) : complexOf i e = complexOf i d := by
  rw [complexOf, h.field Dev.complexes fun _ => rfl, complexOf]

theorem complexOf_loadTested (role : Role) : (complexOf i (loadTested i role d)).role = role := by
  rw [loadTested, complexOf_of_quiet (sameQuiet_setState _ _ _ _), loadComplex, complexOf, putComplex]
  simp

theorem complexOf_loadTested_other (role : Role) (h : i ≠ j) : complexOf i (loadTested j role d) = complexOf i d := by
  rw [loadTested, complexOf_of_quiet (sameQuiet_setState _ _ _ _), loadComplex, complexOf, putComplex]
  exact (tbl_get_set_other _ _ _ h).trans (complexOf_of_quiet (sameQuiet_setState _ _ _ d) i)

theorem stateOf_loadTested_other (role : Role) (h : i ≠ j) : stateOf (pComplex i) (loadTested j role d) = stateOf (pComplex i) d := by
  have hp : pComplex i ≠ pComplex j := fun e => h (congrArg PageId.inst e)
  rw [loadTested, stateOf_of_quiet ((onPage_setState _ _ _ _).others _ hp)]
  exact stateOf_of_quiet ((onPage_setState (pComplex j) _ _ d).others _ hp)

/-- The complex beside the lead takes nothing from it. -/
theorem startOther_other (r : RomResults) (h : i ≠ j) : complexOf i (startOther r j d) = complexOf i d
    ∧ stateOf (pComplex i) (startOther r j d) = stateOf (pComplex i) d := by
  have hp : pComplex i ≠ pComplex j := fun e => h (congrArg PageId.inst e)
  have hset : ∀ st c x, stateOf (pComplex i) (setState (pComplex j) st c x) = stateOf (pComplex i) x := fun st c x =>
    stateOf_of_quiet ((onPage_setState (pComplex j) st c x).others _ hp)
  unfold startOther
  split
  · exact ⟨(complexOf_of_quiet (sameQuiet_setState _ _ _ _) i).trans (complexOf_of_quiet (sameQuiet_setState _ _ _ d) i),
      (hset _ _ _).trans (hset _ _ d)⟩
  · split
    · exact ⟨complexOf_of_quiet (sameQuiet_setState _ _ _ d) i, hset _ _ d⟩
    · exact ⟨complexOf_loadTested_other _ h, stateOf_loadTested_other _ h⟩

theorem startLead_leads : (complexOf i (startLead i d)).role = .lead ∧ stateOf (pComplex i) (startLead i d) = .active := by
  refine ⟨?_, stateOf_setState _ _ _ _⟩
  rw [startLead, complexOf_of_quiet (sameQuiet_setState _ _ _ _), complexOf_of_quiet (sameQuiet_setState _ _ _ _), complexOf_loadTested]

end Complexes

/-! ### Control firmware starts (R350, R351) -/

theorem onPage_settleLimit (d : Dev) : OnPage pPower d (settleLimit d) := by
  have hw : OnPage pPower d (wr (rPower 0x58) (limitWord d) d) := ⟨sameQuiet_wr _ _ d, fun _ _ => rfl⟩
  unfold settleLimit
  simp only
  split
  · exact hw
  · exact hw.trans ((reported_raise _ _ _).onPage pPower)

section Start

variable {r : RomResults} {lead : Nat} {d : Dev}

theorem checkSettings_fresh (h : d.flash.formats = []) : checkSettings d = d := by
  have hno : [1, 2, 3].filter (settingStale d.flash) = [] := by
    simp [settingStale, h]
  rw [checkSettings, hno]
  rfl

theorem variantUnits_none : variantUnits 0 = [] := by
  have hno : ∀ u, variantFused 0 u = false := fun _ => rfl
  simp [variantUnits, hno]

theorem holdBadSet_none (hv : variantOf d = 0) (hm : d.fused.manufacture = []) (hl : d.boot.lostFuses = []) (hc : d.boot.cairnRead = []) :
    holdBadSet d = d := by
  simp only [holdBadSet, hv, variantUnits_none, hm, hl, hc, List.append_nil, List.filter_nil, List.foldl_nil]

theorem dropAtStart_dry (h : d.coolant.ok = true) : dropAtStart d = d := by
  rw [dropAtStart, h, Bool.true_or, if_pos rfl]

/-- The complexes have been loaded. -/
def loadedDev (r : RomResults) (lead : Nat) (d : Dev) : Dev := startOther r (1 - lead) (startLead lead (loadVersions d))

/-- The lead's firmware runs, and the module's page has yet to say so. -/
def runningDev (lead now : Nat) (e : Dev) : Dev :=
  { e with
    boot := { e.boot with phase := .running }
    lead := { e.lead with watchFrom := now, beaconAt := now, cycleEnd := now, recordAt := now }
    always := { e.always with leadSelect := some lead } }

theorem keepsBoot_loadedDev : KeepsBoot d (loadedDev r lead d) :=
  ((keepsBoot_loadVersions d).trans (keepsBoot_startLead _ _)).trans (keepsBoot_startOther _ _ _)

/-- The module's page says TESTING. -/
def testedDev (r : RomResults) (lead : Nat) (d : Dev) : Dev :=
  setState pModule .testing d.startCause (runningDev lead d.now (loadedDev r lead d))

/-- A cold start takes its settings from flash, and reads the cairn record. -/
def coldOf (x : Dev) : Dev :=
  let y := modPower (fun p => { p with
    ceilings := x.flash.ceilings, silenceTime := x.flash.silenceTime, silenceCeiling := x.flash.silenceCeiling }) x
  { y with boot := { y.boot with cairnRead := y.flash.cairn.map (·.unit) } }

/-- The device once a cold start has begun, with nothing in the bad set. -/
def coldDev (r : RomResults) (lead : Nat) (d : Dev) : Dev :=
  settleAlert (modMgmt (fun m => { m with heard := d.now }) (coldOf (testedDev r lead d)))

theorem coldOf_frame (n : Nat) (x : Dev) :
    let y := settleAlert (modMgmt (fun m => { m with heard := n }) (coldOf x))
    y.boot.phase = x.boot.phase ∧ y.always = x.always ∧ y.complexes = x.complexes ∧ (∀ q, pageOf q y = pageOf q x)
      ∧ y.pins.powerGood = x.pins.powerGood ∧ y.reset = x.reset := by
  simp only [settleAlert, setPins, modMgmt, coldOf, modPower]
  exact ⟨trivial, trivial, trivial, fun _ => rfl, trivial, trivial⟩

theorem keepsBoot_testedDev_boot : (testedDev r lead d).boot = { d.boot with phase := .running } ∧ (testedDev r lead d).flash = d.flash
    ∧ (testedDev r lead d).fused = d.fused ∧ (testedDev r lead d).coolant = d.coolant ∧ (testedDev r lead d).reset = d.reset
    ∧ (testedDev r lead d).pins = d.pins := by
  have hload := keepsBoot_loadedDev (r := r) (lead := lead) (d := d)
  have hset := (sameQuiet_setState pModule .testing d.startCause (runningDev lead d.now (loadedDev r lead d))).keepsBoot
  refine ⟨hset.boot.trans ?_, hset.flash.trans hload.flash, hset.fused.trans hload.fused, hset.coolant.trans hload.coolant,
    hset.reset.trans hload.reset, hset.pins.trans hload.pins⟩
  rw [← hload.boot]
  rfl

theorem startFirmware_cold (hc : r.cairnOk = true) (ht : r.trimOk = true) (hf : d.flash.formats = []) (hl : d.reset.level = some 2)
    (hv : variantOf d = 0) (hm : d.fused.manufacture = []) (hu : d.boot.lostFuses = []) (hn : d.flash.cairn = [])
    (hk : d.coolant.ok = true) :
    startFirmware r lead d = settleLimit (coldDev r lead d) := by
  obtain ⟨hboot, hflash, hfused, hcool, -, -⟩ := keepsBoot_testedDev_boot (r := r) (lead := lead) (d := d)
  have hrun : startFirmware r lead d = settleLimit (settleAlert (modMgmt (fun m => { m with heard := d.now })
      (dropAtStart (holdBadSet (coldOf (testedDev r lead d)))))) := by
    have hcheck : checkSettings (testedDev r lead d) = testedDev r lead d := checkSettings_fresh (by rw [hflash, hf])
    simp only [startFirmware, hc, ht, if_true, hl]
    rw [← loadedDev, ← runningDev, ← testedDev, hcheck]
    rfl
  rw [hrun, coldDev]
  generalize testedDev r lead d = x at *
  have hcold : (coldOf x).boot = { x.boot with cairnRead := [] } := by
    rw [show (coldOf x).boot = { x.boot with cairnRead := x.flash.cairn.map (·.unit) } from rfl, hflash, hn]
    rfl
  have hvariant : variantOf (coldOf x) = 0 := by
    rw [variantOf, hcold, hboot, show (coldOf x).fused = x.fused from rfl, hfused]
    exact hv
  have hhold : holdBadSet (coldOf x) = coldOf x :=
    holdBadSet_none hvariant (by rw [show (coldOf x).fused = x.fused from rfl, hfused, hm]) (by rw [hcold, hboot]; exact hu) (by rw [hcold])
  rw [hhold, dropAtStart_dry (by rw [show (coldOf x).coolant = x.coolant from rfl, hcool, hk])]

/-- What a cold start leaves. -/
theorem startFirmware_leaves (hc : r.cairnOk = true) (ht : r.trimOk = true) (hf : d.flash.formats = []) (hl : d.reset.level = some 2)
    (hv : variantOf d = 0) (hm : d.fused.manufacture = []) (hu : d.boot.lostFuses = []) (hn : d.flash.cairn = [])
    (hk : d.coolant.ok = true) (hlead : lead < 2) :
    let t := startFirmware r lead d
    t.boot.phase = .running ∧ t.always.leadSelect = some lead ∧ stateOf (pComplex lead) t = .active
      ∧ (complexOf lead t).role = .lead ∧ stateOf pModule t = .testing ∧ t.pins.powerGood = d.pins.powerGood
      ∧ t.reset.phase = d.reset.phase := by
  intro t
  have ht' : t = settleLimit (coldDev r lead d) := startFirmware_cold hc ht hf hl hv hm hu hn hk
  obtain ⟨hboot, -, -, -, hreset, hpins⟩ := keepsBoot_testedDev_boot (r := r) (lead := lead) (d := d)
  have hset := onPage_setState pModule .testing d.startCause (runningDev lead d.now (loadedDev r lead d))
  have hlim := onPage_settleLimit (coldDev r lead d)
  obtain ⟨hcomplex, hstate⟩ := startOther_other (d := startLead lead (loadVersions d)) r (i := lead) (j := 1 - lead) (by omega)
  obtain ⟨hrole, hactive⟩ := startLead_leads (i := lead) (d := loadVersions d)
  obtain ⟨fboot, falways, fcomplexes, fpages, fpins, freset⟩ := coldOf_frame d.now (testedDev r lead d)
  have hpage : ∀ q, q ≠ pPower → stateOf q t = stateOf q (testedDev r lead d) := fun q hq => by
    rw [ht', stateOf_of_quiet (hlim.others q hq), stateOf, coldDev, fpages, stateOf]
  refine ⟨?_, ?_, ?_, ?_, ?_, ?_, ?_⟩
  · rw [ht', hlim.toSameQuiet.field (fun x => x.boot.phase) fun _ => rfl, coldDev, fboot, hboot]
  · rw [ht', hlim.toSameQuiet.field Dev.always fun _ => rfl, coldDev, falways, testedDev, hset.toSameQuiet.field Dev.always fun _ => rfl]
    rfl
  · rw [hpage _ (by simp [pComplex, pPower]), testedDev, stateOf_of_quiet (hset.others _ (by simp [pComplex, pModule]))]
    exact hstate.trans hactive
  · rw [ht', complexOf_of_quiet hlim.toSameQuiet, complexOf, coldDev, fcomplexes, testedDev, hset.toSameQuiet.field Dev.complexes fun _ => rfl]
    exact (congrArg Complex.role hcomplex).trans hrole
  · rw [hpage _ (by simp [pModule, pPower])]
    exact stateOf_setState _ _ _ _
  · rw [ht', hlim.toSameQuiet.field Dev.pins fun _ => rfl, coldDev, fpins, hpins]
  · rw [ht', hlim.toSameQuiet.field Dev.reset fun _ => rfl, coldDev, freset, hreset]

/-! ### Bivouac mode (R479, R480, R498) -/

theorem settleAlert_bivouac {x : Dev} (h : x.boot.phase = .bivouac) : (settleAlert x).pins.alert = true := by
  simp only [settleAlert, setPins, h]
  simp

/-- A drop that the ROM finds does no more in bivouac mode than note it. -/
theorem dropAtStart_bivouac {x : Dev} (h : x.boot.phase = .bivouac) :
    (dropAtStart x).boot.phase = .bivouac ∧ (dropAtStart x).reset = x.reset := by
  unfold dropAtStart
  split
  · exact ⟨h, rfl⟩
  · have hno : ∀ y : Dev, y.boot.phase = .bivouac → firmwareRuns y = false := fun y hy => by rw [firmwareRuns, hy]; rfl
    have hd : firmwareRuns (modPower (fun p => { p with filler := 0 }) (setCoolant (fun c => { c with falling := none, dropAt := some x.now }) x))
        = false := hno _ h
    simp only [acceptDrop, hd, Bool.false_eq_true, if_false]
    have hlim := onPage_settleLimit (settleAlert (modPower (fun p => { p with filler := 0 })
      (setCoolant (fun c => { c with falling := none, dropAt := some x.now }) x)))
    exact ⟨(hlim.toSameQuiet.field (fun y => y.boot.phase) fun _ => rfl).trans h, hlim.toSameQuiet.field Dev.reset fun _ => rfl⟩

theorem endBoot_bivouac : (endBoot .bivouac (some lead) d).boot.phase = .bivouac
    ∧ (endBoot .bivouac (some lead) d).reset.level = none ∧ (endBoot .bivouac (some lead) d).pins.alert = true := by
  have hx : ∀ x : Dev, (endBoot .bivouac (some lead) d) = settleAlert (dropAtStart x) → x.boot.phase = .bivouac → x.reset.level = none →
      (endBoot .bivouac (some lead) d).boot.phase = .bivouac
        ∧ (endBoot .bivouac (some lead) d).reset.level = none ∧ (endBoot .bivouac (some lead) d).pins.alert = true := by
    intro x he hb hr
    obtain ⟨hphase, hreset⟩ := dropAtStart_bivouac hb
    rw [he]
    refine ⟨hphase, ?_, settleAlert_bivouac hphase⟩
    rw [show (settleAlert (dropAtStart x)).reset = (dropAtStart x).reset from rfl, hreset, hr]
  exact hx _ rfl rfl rfl

end Start

/-! ### ROM_START -/

theorem lead_of_chooseLead {r : RomResults} {d : Dev} {lead : Nat} (h : chooseLead r d = some lead) : lead < 2 := by
  have ha : d.fused.defaultLead % 2 < 2 := Nat.mod_lt _ (by decide)
  simp only [chooseLead] at h
  split at h
  · cases h; exact ha
  · split at h
    · cases h; omega
    · cases h

theorem execRomStart_boots {r : RomResults} {s : State} (hon : s.on) (hr : romReady s.dev = true) (hw : romWaits s.dev = false) :
    execRomStart r s = .next { s with
      mlog := if someSetVerifies r s.dev.flash && (!atPowerOn s.dev || s.dev.pins.bivouacN) then bootLog (rollForward r s.dev.flash) s.dev.now
        else []
      dev := romBoot r s.fuses s.dev } := by
  have hno : ¬ (s.dev.boot.phase = .unpowered ∨ romReady s.dev = false) := by rw [hr]; simpa using hon
  simp only [execRomStart, hno, if_false, hw, Bool.false_eq_true]

theorem chooseLead_isSome {r : RomResults} {d e : Dev} (hc : e.flash.cairn = d.flash.cairn) (h : (chooseLead r e).isSome = true) :
    (chooseLead r d).isSome = true := by
  have hin : ∀ u, inCairn u e = inCairn u d := fun u => by rw [inCairn, hc, inCairn]
  have hall : ∀ x : Dev, (chooseLead r x).isSome = true ↔
      ((romPasses r 0 && !inCairn (uComplex 0) x) = true ∨ (romPasses r 1 && !inCairn (uComplex 1) x) = true) := by
    intro x
    obtain h0 | h1 : x.fused.defaultLead % 2 = 0 ∨ x.fused.defaultLead % 2 = 1 := by omega
    · simp only [chooseLead, h0]
      cases romPasses r 0 && !inCairn (uComplex 0) x <;> cases romPasses r 1 && !inCairn (uComplex 1) x <;> simp
    · simp only [chooseLead, h1]
      cases romPasses r 0 && !inCairn (uComplex 0) x <;> cases romPasses r 1 && !inCairn (uComplex 1) x <;> simp
  rw [hall] at h ⊢
  rwa [hin, hin] at h

/-- A cold start whose active set verifies, with nothing to roll forward. -/
theorem romBoot_cold {r : RomResults} {fuses : Fuses} {lead : Nat} {d : Dev} (hl : d.reset.level = some 2) (hv : fuses.variant = 0)
    (hm : fuses.manufacture = []) (hvo : r.variantFuseOk = true) (hff : r.failedFuseUnits = []) (hc : r.cairnOk = true) (ht : r.trimOk = true)
    (hn : d.flash.cairn = []) (hf : d.flash.formats = []) (hk : d.coolant.ok = true) (hroll : rollForward r d.flash = d.flash)
    (hstart : (chooseLead r d).isSome = true → romStarts r d = true) (hlead : chooseLead r (romPrepare r fuses d) = some lead) :
    let t := romBoot r fuses d
    t.boot.phase = .running ∧ t.always.leadSelect = some lead ∧ stateOf (pComplex lead) t = .active
      ∧ (complexOf lead t).role = .lead ∧ stateOf pModule t = .testing ∧ t.pins.powerGood = true ∧ t.reset.phase = .starting := by
  have hflash : (romPrepare r fuses d).flash = d.flash := hroll
  have hcold : (d.reset.level == some 2) = true := by rw [hl]; rfl
  have hfused : (romPrepare r fuses d).fused = fuses := if_pos hcold
  have hboot : (romPrepare r fuses d).boot = { d.boot with fuseError := !r.variantFuseOk, lostFuses := r.failedFuseUnits } := if_pos hcold
  have hgo : romBoot r fuses d = startFirmware r lead (romPrepare r fuses d) := by
    simp only [romBoot, hlead]
    exact if_pos (hstart (chooseLead_isSome (congrArg Flash.cairn hflash) (by rw [hlead]; rfl)))
  have hvariant : variantOf (romPrepare r fuses d) = 0 := by
    rw [variantOf, hboot, hfused, hv, hvo]
    rfl
  intro t
  have ht' : t = startFirmware r lead (romPrepare r fuses d) := hgo
  rw [ht']
  exact startFirmware_leaves hc ht (by rw [hflash, hf]) hl hvariant (by rw [hfused, hm]) (by rw [hboot]; exact hff) (by rw [hflash, hn])
    hk (lead_of_chooseLead hlead)

theorem romStartCompletes : Claims.RomStartCompletes := by
  intro r lead s hon d
  refine ⟨fun hr hw hl hv hm hvo hff hc ht ha hi hn hf hk hb hlead => ?_, fun hr hw ha hs hlead => ?_, fun hr hw => ?_⟩
  · have hroll : rollForward r d.flash = d.flash := by
      rw [rollForward, if_neg (fun h => hi h.1), if_neg (by rw [ha]; simp)]
    have hstrap : (!atPowerOn d || d.pins.bivouacN) = true := by
      cases hp : atPowerOn d with
      | false => rfl
      | true => rw [hb hp]; rfl
    have hset : someSetVerifies r d.flash = true := by rw [someSetVerifies, ha, Bool.true_or]
    have hleaves := romBoot_cold hl hv hm hvo hff hc ht hn hf hk hroll
      (fun h => by rw [romStarts, hset, h, hstrap]; rfl) hlead
    refine ⟨_, execRomStart_boots hon hr hw, rfl, rfl, ?_, hleaves⟩
    rw [show rollForward r s.dev.flash = s.dev.flash from hroll, show someSetVerifies r s.dev.flash = true from hset,
      show (!atPowerOn s.dev || s.dev.pins.bivouacN) = true from hstrap]
    rfl
  · have hset : someSetVerifies r d.flash = false := by rw [someSetVerifies, ha, hs]; rfl
    have hgo : romBoot r s.fuses d = endBoot .bivouac (some lead) (romPrepare r s.fuses d) := by
      simp only [romBoot, hlead, romStarts, hset, Bool.false_and, Bool.false_eq_true, if_false]
    refine ⟨_, execRomStart_boots hon hr hw, rfl, rfl, ?_, ?_⟩
    · rw [show someSetVerifies r s.dev.flash = false from hset]
      rfl
    · rw [show romBoot r s.fuses s.dev = _ from hgo]
      exact endBoot_bivouac
  · have hno : ¬ (s.dev.boot.phase = .unpowered ∨ romReady s.dev = false) := by
      rw [show romReady s.dev = true from hr]
      simpa using hon
    exact (if_neg hno).trans (if_pos hw)

/-- Settles O43: what a loss of input leaves, and what a cold start and bivouac mode write. -/
theorem powerOnAndRomComplete : Obligations.PowerOnAndRomComplete := ⟨inputPowerCompletes, romStartCompletes⟩

end Sys2Proof.Machine
end


section
/-!
SUPPORT. Bring-up: runs, the mesh test, core waves and retirement (R37, R353 to R371).
-/

namespace Sys2Proof.Machine

/-! ### Units without pages -/

theorem SameMap.unitRec {d e : Dev} (h : SameMap d e) (u : Nat) : unitRec u e = unitRec u d := by
  have hu : e.units = d.units := congrArg (fun x => x.2.1) h
  have hc : e.startCause = d.startCause := congrArg (fun x => x.2.2.1) h
  rw [Machine.unitRec, hu, hc, Machine.unitRec]

theorem SameMap.waves {d e : Dev} (h : SameMap d e) : e.boot.waves = d.boot.waves := congrArg (fun x => x.2.2.2.1) h

theorem SameMap.meshTested {d e : Dev} (h : SameMap d e) : e.boot.meshTested = d.boot.meshTested := congrArg (fun x => x.2.2.2.2) h

section Units

variable {u w : Nat} {st : PState} {c : Cause} {d : Dev}

theorem unitRec_setUnit_other (h : u ≠ w) : unitRec u (setUnit w st c d) = unitRec u d := by
  unfold setUnit
  split
  · exact (sameMap_setState _ _ _ d).unitRec u
  · exact tbl_get_set_other _ _ _ h

/-- Of what bring-up settles, the state of a unit changes its entry alone. -/
theorem boot_setUnit : (setUnit w st c d).boot = d.boot := by
  unfold setUnit
  split
  · exact (sameQuiet_setState _ _ _ d).field Dev.boot fun _ => rfl
  · rfl

theorem boot_startUnit : (startUnit w st d).boot = d.boot := by
  unfold startUnit
  split
  · exact boot_setUnit
  · rfl

theorem unitRec_startUnit_other (h : u ≠ w) : unitRec u (startUnit w st d) = unitRec u d := by
  unfold startUnit
  split
  · exact unitRec_setUnit_other h
  · rfl

theorem unitRec_setUnit_state (h : unitPage u = none) : (unitRec u (setUnit u st c d)).state = st := by
  rw [unitRec_setUnit_entry h]

/-- Of the units set to one state, each stands in it. -/
theorem state_foldl_setUnit {l : List Nat} (hu : unitPage u = none) (hl : u ∈ l ∨ (unitRec u d).state = st) :
    (unitRec u (l.foldl (fun x w => setUnit w st c x) d)).state = st := by
  induction l generalizing d with
  | nil => exact hl.resolve_left List.not_mem_nil
  | cons w l ih =>
    rw [List.foldl_cons]
    by_cases hw : u = w
    · exact ih (.inr (by rw [hw]; exact unitRec_setUnit_state (hw ▸ hu)))
    · refine ih (hl.imp (fun h => (List.mem_cons.1 h).resolve_left hw) fun h => ?_)
      rw [unitRec_setUnit_other hw, h]

theorem unitState_pageless (h : unitPage u = none) : unitState u d = (unitRec u d).state := by
  simp only [unitState, h]

theorem unitState_setUnit : unitState u (setUnit u st c d) = st ∧ unitCause u (setUnit u st c d) = c := by
  cases h : unitPage u with
  | none =>
    simp only [unitState, unitCause, h]
    rw [unitRec_setUnit_entry h]
    exact ⟨rfl, rfl⟩
  | some p =>
    simp only [unitState, unitCause, h, setUnit]
    obtain ⟨v, hv⟩ := pageOf_setState p st c d
    exact ⟨stateOf_setState p st c d, by rw [hv]; rfl⟩

end Units

/-! ### Die controllers, runs and waves -/

section BringUp

variable {i u w n k : Nat} {d : Dev}

theorem releaseDie_runs (hi : i < 10) (hb : bringsUp d = true) (ht : d.always.hardTrip = false) (ha : awaits (uDie i) d = true)
    (passed : Bool) : releaseDie i passed d = if passed then settleStart (startDie i (stepUnit (uDie i) .testing
        (wr (rDie i 0 0x44) (putField (rd (rDie i 0 0x44) d) 3 0 3) d)))
      else settleStart (orphanDie i (failUnit (uDie i) .testFailed d)) := by
  have hgo : (decide (10 ≤ i) || !bringsUp d || d.always.hardTrip || !awaits (uDie i) d) = false := by
    rw [decide_eq_false (Nat.not_le.2 hi), hb, ht, ha]
    rfl
  rw [releaseDie, if_neg (by rw [hgo]; exact Bool.false_ne_true)]

theorem countRunErrors_frame : (countRunErrors u n d).pages = d.pages ∧ SameQuiet d (countRunErrors u n d) := by
  unfold countRunErrors
  split <;> exact ⟨rfl, ⟨rfl, fun _ => rfl⟩⟩

theorem endRun_decides (hr : hasRun u = true) (hm : runMayEnd u d = true) (hs : starting u .testing d = true)
    (ht : d.boot.retesting = []) (passed : Bool) : endRun u passed n d =
      settleStart (settleWaves ((if passed then passRun u else failRun u) (countRun u passed (countRunErrors u n d)))) := by
  obtain ⟨hpages, hq⟩ := countRunErrors_frame (u := u) (n := n) (d := d)
  have hboot : (countRunErrors u n d).boot = d.boot := hq.field Dev.boot fun _ => rfl
  have hcause : (countRunErrors u n d).startCause = d.startCause := hq.field Dev.startCause fun _ => rfl
  have hunits : (countRunErrors u n d).units = d.units := hq.field Dev.units fun _ => rfl
  have hpage : ∀ p, pageOf p (countRunErrors u n d) = pageOf p d := fun p => by rw [pageOf, hpages, hcause, pageOf]
  have hrec : unitRec u (countRunErrors u n d) = unitRec u d := by rw [unitRec, hunits, hcause, unitRec]
  have hstart : starting u .testing (countRunErrors u n d) = true := by
    rw [← hs]
    simp only [starting, unitState, unitCause, stateOf, hpage, hrec]
  have hbrings : bringsUp d = true := by
    rw [runMayEnd, Bool.and_eq_true] at hm
    exact hm.1
  have hmay : runMayEnd u (countRunErrors u n d) = true := by
    rw [← hm]
    simp only [runMayEnd, bringsUp, coolantStopped, hboot, hq.field Dev.lead fun _ => rfl,
      hq.field Dev.coolant fun _ => rfl, hq.field Dev.reset fun _ => rfl]
  have hdec : decides d = true := by
    simp only [bringsUp, Bool.and_eq_true] at hbrings
    rw [decides, hbrings.1.1, hbrings.1.2]
    rfl
  have hstate : unitState u d = .testing := by
    rw [starting, Bool.and_eq_true, beq_iff_eq] at hs
    exact hs.1
  have hretest : ¬ (unitClass u = 0xB ∧ (countRunErrors u n d).boot.retesting.contains u = true) := by
    rw [hboot, ht]
    exact fun h => absurd h.2 (by simp)
  simp only [endRun, hr, hdec, Bool.not_true, Bool.or_self, Bool.false_eq_true, if_false, hstate, if_true, hretest, hstart, hmay]

theorem unitClass_router (hk : k < 2560) : unitClass (uRouter k) = 2 := by
  unfold unitClass uRouter
  omega

theorem unitPage_router (hk : k < 2560) : unitPage (uRouter k) = none := by
  simp only [unitPage, unitClass_router hk]

theorem router_ne_supervisor (hk : k < 2560) (hi : i < 160) : uRouter k ≠ uSupervisor i := by
  unfold uRouter uSupervisor
  omega

theorem sameMap_coreWithoutRoute (hk : unitPage (uCore k) ≠ none) : SameMap d (coreWithoutRoute k d) := by
  unfold coreWithoutRoute setUnit
  split
  · split
    · exact sameMap_setState _ _ _ d
    · next h => exact absurd h hk
  · rfl

theorem unitPage_core (hk : k < 2560) : unitPage (uCore k) ≠ none := by
  have hc : unitClass (uCore k) = 1 := by
    unfold unitClass uCore
    omega
  unfold unitPage
  rw [hc]
  exact Option.some_ne_none _

theorem sameMap_coresWithoutRoute {l : List Nat} (hl : ∀ k ∈ l, k < 2560) :
    SameMap d (l.foldl (fun x k => coreWithoutRoute k x) d) := by
  induction l generalizing d with
  | nil => rfl
  | cons k l ih =>
    exact (sameMap_coreWithoutRoute (unitPage_core (hl k List.mem_cons_self))).trans (ih fun j hj => hl j (List.mem_cons_of_mem k hj))

/-- The units of the mesh test. -/
def testedUnits (d : Dev) : List Nat := meshUnits.filter (fun u => starting u .testing d)

/-- Cores whose router is not usable. -/
def routerless (d : Dev) : List Nat := (List.range 2560).filter (fun k => !usable (uRouter k) d || [].contains k || [].contains (uRouter k))

/-- The device as a mesh test without failures has been judged. -/
def meshJudged (d : Dev) : Dev :=
  (routerless d).foldl (fun x k => coreWithoutRoute k x)
    ((testedUnits d).foldl (fun x u => setUnit u .ready .testPassed x) ((testedUnits d).foldl (fun x u => countRun u true x) d))

/-- The mesh test is over. -/
def meshEnded (d : Dev) : Dev :=
  { d with boot := { d.boot with meshTested := true }, packets := d.packets.map (fun p => { p with heldBack := false }) }

theorem unitRec_meshEnded : unitRec u (meshEnded d) = unitRec u d := rfl

theorem endMeshTest_passes (h : meshTestRuns d = true) : endMeshTest [] [] [] [] d =
    settleStart (if (meshEnded (meshJudged d)).boot.complete then
      (List.range 160).foldl (fun x i => startUnit (uSupervisor i) .testing x) (meshEnded (meshJudged d)) else meshEnded (meshJudged d)) := by
  have hbad : ∀ l : List Nat, l.filter (fun u => ([] : List Nat).contains u) = [] := fun l => by simp
  have hnone : ∀ x, retireStart [] x = x := fun _ => rfl
  have hloss : meshLosses [] [] = [] := rfl
  have hall : ∀ u : Nat, (!([] : List Nat).contains u) = true := fun _ => rfl
  have htrue : ∀ l : List Nat, l.filter (fun _ => true) = l := fun l => by simp
  have htested : meshUnits.filter (fun u => starting u .testing d) = testedUnits d := rfl
  have hcores : (List.range 2560).filter (fun k => !usable (uRouter k) d || [].contains k || [].contains (uRouter k)) = routerless d := rfl
  have hjudged : (routerless d).foldl (fun x k => coreWithoutRoute k x)
    ((testedUnits d).foldl (fun x u => setUnit u .ready .testPassed x) ((testedUnits d).foldl (fun x u => countRun u true x) d))
      = meshJudged d := rfl
  simp only [endMeshTest, h, Bool.not_true, Bool.false_eq_true, if_false, hbad, hall, List.filter_nil, List.foldl_nil, hloss, hnone,
    ite_self, installDetours, htrue, htested, hcores, hjudged]
  generalize meshJudged d = x
  rfl

theorem router_testedUnits (hk : k < 2560) (h : starting (uRouter k) .testing d = true) : uRouter k ∈ testedUnits d := by
  refine List.mem_filter.2 ⟨List.mem_append_left _ (List.mem_map.2 ⟨k, List.mem_range.2 hk, rfl⟩), h⟩

theorem supervisors_keep {x : Dev} (hk : k < 2560) (l : List Nat) (hl : ∀ i ∈ l, i < 160) :
    unitRec (uRouter k) (l.foldl (fun x i => startUnit (uSupervisor i) .testing x) x) = unitRec (uRouter k) x
      ∧ (l.foldl (fun x i => startUnit (uSupervisor i) .testing x) x).boot = x.boot := by
  induction l generalizing x with
  | nil => exact ⟨rfl, rfl⟩
  | cons i l ih =>
    obtain ⟨h1, h2⟩ := ih (x := startUnit (uSupervisor i) .testing x) fun j hj => hl j (List.mem_cons_of_mem i hj)
    exact ⟨h1.trans (unitRec_startUnit_other (router_ne_supervisor hk (hl i List.mem_cons_self))), h2.trans boot_startUnit⟩

theorem state_meshJudged (hk : k < 2560) (h : starting (uRouter k) .testing d = true) :
    (unitRec (uRouter k) (meshJudged d)).state = .ready := by
  have hcores : ∀ j ∈ routerless d, j < 2560 := fun j hj => List.mem_range.1 (List.mem_filter.1 hj).1
  rw [meshJudged, (sameMap_coresWithoutRoute hcores).unitRec]
  exact state_foldl_setUnit (unitPage_router hk) (.inl (router_testedUnits hk h))

theorem endMeshTest_leaves (h : meshTestRuns d = true) : (endMeshTest [] [] [] [] d).boot.meshTested = true
    ∧ ∀ k < 2560, starting (uRouter k) .testing d = true → unitState (uRouter k) (endMeshTest [] [] [] [] d) = .ready := by
  rw [endMeshTest_passes h, (sameMap_settleStart _).meshTested]
  have hsup : ∀ i ∈ List.range 160, i < 160 := fun i hi => List.mem_range.1 hi
  refine ⟨?_, fun k hk hs => ?_⟩
  · split
    · rw [(supervisors_keep (k := 0) (by decide) _ hsup).2]
      rfl
    · rfl
  · rw [unitState_pageless (unitPage_router hk), (sameMap_settleStart _).unitRec]
    have hend : (unitRec (uRouter k) (meshEnded (meshJudged d))).state = .ready := by
      rw [unitRec_meshEnded]
      exact state_meshJudged hk hs
    split
    · rw [(supervisors_keep hk _ hsup).1, hend]
    · exact hend

theorem waves_startWave (hb : bringsUp d = true) (hp : d.reset.phase = .starting) (ht : d.boot.meshTested = true)
    (hc : d.boot.complete = false) (hi : i < 8) (hw : w < 5) (hn : d.boot.waves.get 0 i = w)
    (hs : inState ⟨.dieController, i⟩ [.off, .retired] d = false) : (startWave i w d).boot.waves.get 0 i = w + 1 := by
  have hgo : (!bringsUp d || d.reset.phase != .starting || !d.boot.meshTested || d.boot.complete || decide (8 ≤ i) || decide (5 ≤ w)
      || d.boot.waves.get 0 i != w || inState ⟨.dieController, i⟩ [.off, .retired] d) = false := by
    rw [hb, hp, ht, hc, hn, hs, decide_eq_false (Nat.not_le.2 hi), decide_eq_false (Nat.not_le.2 hw)]
    simp
  have hstep : ∀ (l : List Nat) (x : Dev), (l.foldl (fun x i => startUnit (uSupervisor i) .testing x) x).boot = x.boot := fun l => by
    induction l with
    | nil => exact fun _ => rfl
    | cons j l ih => exact fun x => (ih _).trans boot_startUnit
  rw [startWave, if_neg (by rw [hgo]; exact Bool.false_ne_true)]
  simp only
  rw [(sameMap_settleStart _).waves, hstep]
  exact tbl_get_set_same d.boot.waves 0 (w + 1) i

theorem retireNow_runs {c : Cause} {detours : Detours} {cut : List Nat} (hf : firmwareRuns d = true) (hs : d.lead.safe = false)
    (he : unitExists u = true) (hu : usable u d = true) (hl : d.always.leadSelect.map uComplex ≠ some u) :
    retireNow u c detours cut d = settleStart (settleWaves (retireAll [(u, c)] (some ⟨detours, cut⟩) d)) := by
  have hgo : (!firmwareRuns d || d.lead.safe || !unitExists u || !usable u d || d.always.leadSelect.map uComplex == some u) = false := by
    rw [hf, hs, he, hu]
    simpa using hl
  rw [retireNow, if_neg (by rw [hgo]; exact Bool.false_ne_true)]

end BringUp

theorem bringUpCompletes : Claims.BringUpCompletes := by
  intro i u w n c detours cut s hon hpart d
  have hexec : ∀ passed, exec (.knownAnswerRunEnd u ⟨passed, n⟩) s = onDev (endRun u passed n) s := fun passed =>
    onDevPart_none 3 (fun d => unitClass u == 1 && passed && hasRun u && runMayEnd u d && starting u .testing d) (endRun u passed n) hpart
  refine ⟨fun hi hb ht ha => ⟨gives_of_eq hon (f := releaseDie i true) (releaseDie_runs hi hb ht ha true),
      gives_of_eq hon (f := releaseDie i false) (releaseDie_runs hi hb ht ha false)⟩,
    fun hr hm hs ht => ⟨?_, ?_⟩,
    fun h => does_of hon (f := endMeshTest [] [] [] []) (endMeshTest_leaves h),
    fun hb hp ht hc hi hw hn hs => does_of hon (f := startWave i w) (waves_startWave hb hp ht hc hi hw hn hs),
    fun hf hs he hu hl => gives_of_eq hon (f := retireNow u c detours cut) (retireNow_runs hf hs he hu hl)⟩
  · rw [hexec true]
    exact gives_of_eq hon (endRun_decides hr hm hs ht true)
  · rw [hexec false]
    exact gives_of_eq hon (endRun_decides hr hm hs ht false)

/-! ### What a run leaves (R37, R358, R361, R371) -/

section Mark

variable {u c : Nat} {cause : Cause} {d : Dev}

theorem unitState_addCairn (x : Dev) : unitState u (addCairn u cause (markFailed u x)) = unitState u x
    ∧ unitCause u (addCairn u cause (markFailed u x)) = unitCause u x
    ∧ (unitFlags u (addCairn u cause (markFailed u x))).failedAtStart = true := by
  have hflag : (unitFlags u (markFailed u x)).failedAtStart = true := by simp [unitFlags, markFailed]
  unfold addCairn
  split
  · exact ⟨rfl, rfl, hflag⟩
  · exact ⟨rfl, rfl, hflag⟩

theorem inCairn_addCairn (h : d.flash.cairn.length < 16384) : inCairn u (addCairn u cause d) = true := by
  unfold addCairn
  split
  · next hin => exact hin.resolve_right (Nat.not_le.2 h)
  · simp [inCairn]

theorem failUnit_leaves (h : d.flash.cairn.length < 16384) :
    unitState u (failUnit u cause d) = .off ∧ unitCause u (failUnit u cause d) = cause
      ∧ (unitFlags u (failUnit u cause d)).failedAtStart = true ∧ inCairn u (failUnit u cause d) = true := by
  obtain ⟨hst, hcause, hflag⟩ := unitState_addCairn (u := u) (cause := cause) (setUnit u .off cause d)
  obtain ⟨h1, h2⟩ := unitState_setUnit (u := u) (st := .off) (c := cause) (d := d)
  have hflash : (markFailed u (setUnit u .off cause d)).flash = d.flash := by
    rw [show (markFailed u (setUnit u .off cause d)).flash = (setUnit u .off cause d).flash from rfl]
    unfold setUnit
    split
    · exact (sameQuiet_setState _ _ _ d).field Dev.flash fun _ => rfl
    · rfl
  exact ⟨hst.trans h1, hcause.trans h2, hflag, inCairn_addCairn (by rw [hflash]; exact h)⟩

theorem countRun_counts (passed : Bool) : rd (rDie (dieOfUnit u) 0 0x48) (countRun u passed d) = (rd (rDie (dieOfUnit u) 0 0x48) d + 1) % 2 ^ 32
    ∧ rd (rDie (dieOfUnit u) 0 0x4C) (countRun u passed d) = (rd (rDie (dieOfUnit u) 0 0x4C) d + b2n (!passed)) % 2 ^ 32 := by
  cases passed with
  | true =>
    refine ⟨rd_addWrap_same _ _ _, (rd_addWrap_other _ _ (by simp [homeOf])).trans ?_⟩
    exact (Nat.mod_eq_of_lt (rd_lt _ _)).symm
  | false =>
    refine ⟨(rd_addWrap_other _ _ (by simp [homeOf])).trans (rd_addWrap_same _ _ _), ?_⟩
    refine (rd_addWrap_same _ _ _).trans ?_
    rw [rd_addWrap_other _ _ (by simp [homeOf])]
    rfl

/-- A page without holds, whose work asks for no more, becomes READY. -/
theorem becomeReady_idle {p : PageId} (hty : p.ty ≠ .memoryController) (hh : (pageOf p d).holds = [])
    (hw : workState p (setState p .ready cause d) = .ready) : becomeReady p cause d = setState p .ready cause d := by
  have hholds : (pageOf p (setState p .ready cause d)).holds = [] := by
    obtain ⟨v, hv⟩ := pageOf_setState p .ready cause d
    rw [hv]
    exact hh
  simp only [becomeReady, moveTo_up p (st := .ready) rfl, hholds, hw, if_true, afterHold, hty, if_false]

theorem workState_engine (h : (engOf c d).plans = []) (st : PState) : workState (pUpd c) (setState (pUpd c) st cause d) = .ready := by
  have heng : engOf c (setState (pUpd c) st cause d) = engOf c d := by
    rw [engOf, (sameQuiet_setState _ _ _ d).field Dev.engines fun _ => rfl, engOf]
  simp only [workState, followsJob, Bool.false_eq_true, if_false, if_true, heng, h, List.isEmpty_nil]

theorem endRetest_engine (hp : (engOf c d).plans = []) (hh : (pageOf (pUpd c) d).holds = []) (hc : inProgress (pUpd c) 3 d = true) :
    stateOf (pUpd c) (endRetest (uEngine c) (pUpd c) true d) = .ready
      ∧ (pageOf (pUpd c) (endRetest (uEngine c) (pUpd c) true d)).result = .done
      ∧ (pageOf (pUpd c) (endRetest (uEngine c) (pUpd c) true d)).cmd = none := by
  obtain ⟨k, hk, hcode⟩ := cmd_of_inProgress hc
  have hcmd : (pageOf (pUpd c) (setState (pUpd c) .ready .testPassed d)).cmd = some k := by
    obtain ⟨v, hv⟩ := pageOf_setState (pUpd c) .ready .testPassed d
    rw [hv]
    exact hk
  have hend : endRetest (uEngine c) (pUpd c) true d = endCmd (pUpd c) true (setState (pUpd c) .ready .testPassed d) := by
    have hno : ¬ (pUpd c).ty = .core := by simp
    simp only [endRetest, if_true, hno, if_false, becomeReady_idle (p := pUpd c) (by simp) hh (workState_engine hp .ready)]
    rw [← hcode]
    exact endCmdIf_same hcmd true
  obtain ⟨h1, h2, h3⟩ := endCmd_done_parts (p := pUpd c) (d := setState (pUpd c) .ready .testPassed d) (by rw [hcmd]; rfl)
  rw [hend]
  exact ⟨h1.trans (stateOf_setState _ _ _ _), h2, h3⟩

end Mark

/-- Settles O44: the equation of each step of bring-up, and what a run leaves of its unit. -/
theorem startCompletes : Obligations.StartCompletes :=
  ⟨bringUpCompletes, fun _ _ _ passed _ => ⟨failUnit_leaves, countRun_counts passed, endRetest_engine⟩⟩

end Sys2Proof.Machine
end


section
/-!
SUPPORT. The power loop, its targets and operating points (R377 to R391, R409).
-/

namespace Sys2Proof.Machine

/-! ### A period of the power loop (R377, R382 to R388) -/

section Period

variable {a : Activity} {i : Nat} {d : Dev}

/-- The shade of a cluster does not hang on registers, page headers or reports. -/
theorem appliedShade_of_quiet {e : Dev} (h : SameQuiet d e) (i : Nat) : appliedShade i e = appliedShade i d := h.field (appliedShade i) fun _ => rfl

/-- The work rates of a period. -/
def periodRates (a : Activity) (d : Dev) : List Nat :=
  (List.range 160).map (fun i => if supervisorUsable i d then a.stepRates.getD i 0 else 0)

/-- What a period plans. -/
def periodPlan (a : Activity) (d : Dev) : PeriodPlan :=
  planPeriod (ownLoad a d) (d.power.envelope.getD (ownLoad a d)) (nextBarrier d) d

def periodEst (a : Activity) (d : Dev) : Nat := ownLoad a d + (periodPlan a d).filler

def periodLevel (a : Activity) (d : Dev) : Nat := nextPowerLevel (periodEst a d) (periodPlan a d).bound d.power.sPower

/-- The levels of a period stand, and its sample has yet to be kept. -/
def periodSet (a : Activity) (d : Dev) : Dev :=
  modPower (fun p => { p with
    est := periodEst a d, filler := (periodPlan a d).filler, sPower := periodLevel a d, boundBy := (periodPlan a d).setter
    envelope := some (nextEnvelope (periodEst a d) (periodPlan a d).bound (periodLevel a d) (d.power.envelope.getD (ownLoad a d))
      (16 * p.ceilings.rise) (16 * p.ceilings.fall))
    sPace := (periodRates a d).map (paceLevel (jobPace d)), idleRun := (nextBarrier d).1, runMean := (nextBarrier d).2.1
    inBarrier := (nextBarrier d).2.2.1, barrierAt := if p.inBarrier then p.barrierAt else d.now
    holdEnded := (nextBarrier d).2.2.2, floor := (periodPlan a d).floor, cycleSum := p.cycleSum + periodEst a d
    cycleCount := p.cycleCount + 1 }) d

/-- What is kept of a period. -/
def periodSample (a : Activity) (d : Dev) : PowerSample :=
  { est := periodEst a d, rates := periodRates a d, shades := (List.range 160).map (fun i => appliedShade i (periodSet a d))
    limits := (List.range 160).map (fun i => limitShade i (periodSet a d)) }

/-- The period's sample and its laggards are kept, and the afterglow energy counted. -/
def periodKept (a : Activity) (d : Dev) : Dev :=
  modPower (fun p => { p with
    history := (periodSample a d :: p.history).take 50000, belowSince := laggards (periodSample a d) (periodSet a d) })
    { periodSet a d with always := { (periodSet a d).always with
        afterglow := (periodSet a d).always.afterglow + (d.always.afterglowRest + 20 * (periodPlan a d).filler) / 84000000
        afterglowRest := (d.always.afterglowRest + 20 * (periodPlan a d).filler) % 84000000 } }

theorem powerPeriod_runs (h : firmwareRuns d = true) : powerPeriod a d = settleLimit (periodKept a d) := by
  rw [powerPeriod, if_neg (by rw [h]; decide)]
  rfl

theorem power_settleLimit (d : Dev) : (settleLimit d).power = d.power := (onPage_settleLimit d).toSameQuiet.field Dev.power fun _ => rfl

theorem power_periodKept : (periodKept a d).power.est = periodEst a d ∧ (periodKept a d).power.filler = (periodPlan a d).filler
    ∧ (periodKept a d).power.sPower = periodLevel a d
    ∧ (periodKept a d).power.envelope = some (nextEnvelope (periodEst a d) (periodPlan a d).bound (periodLevel a d)
        (d.power.envelope.getD (ownLoad a d)) (16 * d.power.ceilings.rise) (16 * d.power.ceilings.fall))
    ∧ (periodKept a d).power.cycleSum = d.power.cycleSum + periodEst a d ∧ (periodKept a d).power.cycleCount = d.power.cycleCount + 1 := by
  simp only [periodKept, periodSet, modPower, and_self]

/-- The shade that a period leaves is the one that its sample keeps. -/
theorem appliedShade_kept : appliedShade i (periodKept a d) = appliedShade i (periodSet a d) := rfl

theorem getD_map_range {g : Nat → Nat} {n : Nat} (h : i < n) : ((List.range n).map g).getD i 0 = g i := by
  simp [h]

theorem rates_getD (hi : i < 160) (hu : supervisorUsable i d = true) : (periodRates a d).getD i 0 = a.stepRates.getD i 0 := by
  rw [periodRates, getD_map_range hi, if_pos hu]

theorem sPace_getD (hi : i < 160) (hu : supervisorUsable i d = true) :
    (periodKept a d).power.sPace.getD i 0 = paceLevel (jobPace d) (a.stepRates.getD i 0) := by
  have hmap : (periodKept a d).power.sPace = (List.range 160).map
      (fun i => paceLevel (jobPace d) (if supervisorUsable i d then a.stepRates.getD i 0 else 0)) := by
    rw [show (periodKept a d).power.sPace = (periodRates a d).map (paceLevel (jobPace d)) from rfl, periodRates, List.map_map]
    rfl
  rw [hmap, getD_map_range hi, if_pos hu]

/-- A cluster is among the laggards where it meets their condition. -/
theorem find_laggards (s : PowerSample) (hi : i < 160) : ((laggards s d).find? (fun x => x.1 == i)).isSome =
    (supervisorUsable i d && jobPace d != 0 && decide (1000 * workRate s i < 995 * 256 * jobPace d)) := by
  have hiff : ((laggards s d).find? (fun x => x.1 == i)).isSome = true ↔
      (supervisorUsable i d && jobPace d != 0 && decide (1000 * workRate s i < 995 * 256 * jobPace d)) = true := by
    rw [List.find?_isSome]
    constructor
    · rintro ⟨x, hx, he⟩
      obtain ⟨j, -, hj⟩ := List.mem_filterMap.1 hx
      rw [Option.ite_none_right_eq_some] at hj
      obtain ⟨hcond, hxj⟩ := hj
      cases hxj
      have hji : j = i := beq_iff_eq.1 he
      rwa [hji] at hcond
    · intro hcond
      exact ⟨(i, d.power.belowSince.get d.now i), List.mem_filterMap.2 ⟨i, List.mem_range.2 hi, if_pos hcond⟩, beq_self_eq_true i⟩
  rw [Bool.eq_iff_iff]
  exact hiff

theorem laggard_iff (hi : i < 160) (hu : supervisorUsable i d = true) :
    (1000 * (a.stepRates.getD i 0 * (256 - appliedShade i (periodKept a d))) < 995 * 256 * jobPace d ↔
      jobPace d ≠ 0 ∧ ((periodKept a d).power.belowSince.find? (fun x => x.1 == i)).isSome = true) := by
  have hrate : workRate (periodSample a d) i = a.stepRates.getD i 0 * (256 - appliedShade i (periodKept a d)) := by
    rw [workRate, show (periodSample a d).rates = periodRates a d from rfl, rates_getD hi hu,
      show (periodSample a d).shades = (List.range 160).map (fun i => appliedShade i (periodSet a d)) from rfl, getD_map_range hi,
      appliedShade_kept]
  have husable : supervisorUsable i (periodSet a d) = true := hu
  have hpace : jobPace (periodSet a d) = jobPace d := rfl
  rw [show (periodKept a d).power.belowSince = laggards (periodSample a d) (periodSet a d) from rfl, find_laggards _ hi, husable, hpace, hrate]
  simp only [Bool.true_and, Bool.and_eq_true, bne_iff_ne, ne_eq, decide_eq_true_eq]
  constructor
  · intro h
    have h0 : jobPace d ≠ 0 := fun h0 => by rw [h0] at h; omega
    exact ⟨h0, h0, h⟩
  · exact fun h => h.2.2

end Period

theorem belowPace_reports {i t : Nat} {d : Dev} (hb : d.power.belowSince = [(i, t)]) (hu : supervisorUsable i d = true)
    (hj : jobPace d ≠ 0) (ht : 10000000 ≤ d.now - t) : belowPace i d = raise pPower 17 d := by
  have hf : d.power.belowSince.find? (fun e => e.1 == i) = some (i, t) := by rw [hb]; simp
  simp only [belowPace, hf]
  exact if_pos ⟨hu, hj, ht⟩

theorem powerLoopCompletes : Claims.PowerLoopCompletes := by
  intro a i s hon hf d p own plan est
  refine ⟨does_of hon (f := powerPeriod a) ?_, fun h => gives_of_eq hon (f := holdEnds) (if_pos h),
    fun h => gives_of_eq hon (f := holdEnds) (if_neg (by rw [show holdPassed s.dev = false from h]; exact Bool.false_ne_true)),
    fun t hb hu hj ht => does_of hon (f := belowPace i) ?_⟩
  · rw [powerPeriod_runs hf, power_settleLimit, appliedShade_of_quiet (onPage_settleLimit _).toSameQuiet]
    obtain ⟨h1, h2, h3, h4, h5, h6⟩ := power_periodKept (a := a) (d := s.dev)
    rw [h1, h2, h3, h4, h5, h6]
    exact ⟨rfl, rfl, rfl, rfl, fun hi hu => ⟨sPace_getD hi hu, laggard_iff hi hu⟩, rfl, rfl⟩
  · rw [show belowPace i s.dev = _ from belowPace_reports hb hu hj ht]
    exact ⟨reported_raise _ _ _, events_raise (by decide) _ _⟩

/-! ### Targets and operating points (R379, R391, R409) -/

section Targets

variable {d : Dev}

/-- TARGET of a job pace and a host power limit, read back. -/
theorem targets_fields {j h : Nat} (hj : j < 2 ^ 16) (hh : h < 2 ^ 16) : (2 ^ 16 * h + j) % 2 ^ 32 % 2 ^ 16 = j
    ∧ fieldOf ((2 ^ 16 * h + j) % 2 ^ 32) 31 16 = h := by
  refine ⟨by omega, ?_⟩
  rw [fieldOf, Nat.shiftRight_eq_div_pow]
  omega

theorem rd_settleLimit {q : RegId} (h1 : q.ty ≠ .luawick) (h2 : homeOf q ≠ homeOf (rPower 0x58)) : rd q (settleLimit d) = rd q d := by
  unfold settleLimit
  simp only
  split
  · exact rd_wr_other _ _ h2
  · rw [(reported_raise _ _ _).rd_of_ty h1]
    exact rd_wr_other _ _ h2

theorem quiet_settleLimit (q : PageId) : (pageOf q (settleLimit d)).quiet = (pageOf q d).quiet := by
  unfold settleLimit
  simp only
  split
  · rfl
  · exact quiet_raise _ _ _ _

theorem designPower_le (v : Nat) : designPower v ≤ 4800 := by
  unfold designPower
  split <;> decide

/-- The targets are in force, and the command has yet to end. -/
def targetsSet (d : Dev) : Dev :=
  settleLimit (wr (rPower 0x48) (2 ^ 16 * rd (rPower 0x44) d + rd (rPower 0x40) d) (accept pPower 0x40 0 d))

theorem cmdApplyTargets_ends (hm : mayCommand pPower d = true) (hs : (pageOf pPower d).state = .active)
    (hj : rd (rPower 0x40) d = 0 ∨ (100 ≤ rd (rPower 0x40) d ∧ rd (rPower 0x40) d ≤ 4000))
    (hh : rd (rPower 0x44) d = 0 ∨ (1000 ≤ rd (rPower 0x44) d ∧ rd (rPower 0x44) d ≤ designPower (variantOf d))) :
    cmdApplyTargets 0 d = endCmd pPower true (targetsSet d) :=
  pageCommand_accepted _ _ _ hm rfl (inState_of hs rfl) (by simpa using ⟨hj, hh⟩)

theorem applyTargets_leaves (hm : mayCommand pPower d = true) (hs : (pageOf pPower d).state = .active)
    (hj : rd (rPower 0x40) d = 0 ∨ (100 ≤ rd (rPower 0x40) d ∧ rd (rPower 0x40) d ≤ 4000))
    (hh : rd (rPower 0x44) d = 0 ∨ (1000 ≤ rd (rPower 0x44) d ∧ rd (rPower 0x44) d ≤ designPower (variantOf d))) :
    jobPace (cmdApplyTargets 0 d) = rd (rPower 0x40) d ∧ hostTarget (cmdApplyTargets 0 d) = rd (rPower 0x44) d
      ∧ answers pPower 0x40 .done d (cmdApplyTargets 0 d) := by
  have hp := designPower_le (variantOf d)
  have hrun : Running pPower 0x40 0 d (targetsSet d) := (running_accept pPower 0x40 0 d).of_quiet (quiet_settleLimit pPower)
  have hrd : rd (rPower 0x48) (endCmd pPower true (targetsSet d)) = (2 ^ 16 * rd (rPower 0x44) d + rd (rPower 0x40) d) % 2 ^ 32 := by
    rw [(reported_endCmd_done (by rw [hrun.cmd]; rfl)).rd_of_ty (by simp), rd_putPage, targetsSet,
      rd_settleLimit (by simp) (by simp [homeOf]), rd_wr_same]
  obtain ⟨h1, h2⟩ := targets_fields (j := rd (rPower 0x40) d) (h := rd (rPower 0x44) d) (by omega) (by omega)
  rw [cmdApplyTargets_ends hm hs hj hh, jobPace, hostTarget, hrd]
  exact ⟨h1, h2, hrun.answers⟩

theorem cmdApplyTargets_rejects (hm : mayCommand pPower d = true) (hs : (pageOf pPower d).state = .active)
    (hj : (0 < rd (rPower 0x40) d ∧ rd (rPower 0x40) d < 100) ∨ 4000 < rd (rPower 0x40) d) :
    cmdApplyTargets 0 d = reject pPower 0x40 .rejectedRange d := by
  have hr : (rd (rPower 0x40) d == 0 || (decide (100 ≤ rd (rPower 0x40) d) && decide (rd (rPower 0x40) d ≤ 4000))) = false := by
    simp only [Bool.or_eq_false_iff, beq_eq_false_iff_ne, Bool.and_eq_false_iff, decide_eq_false_iff_not]
    omega
  refine (pageCommand_judged _ _ _ _ _ _ hm).trans ?_
  rw [inState_of hs rfl, hr]
  rfl

end Targets

theorem targetsComplete : Claims.TargetsComplete := by
  intro o s hon d g j h
  refine ⟨fun hm hs hj hh => does_of hon (f := cmdApplyTargets 0) (applyTargets_leaves hm hs hj hh),
    fun hm hs hj => reaches_of_reported hon (f := cmdApplyTargets 0) ?_,
    fun ho => reaches_of_reported hon (f := pointReached) ?_, fun ho => gives_of_eq hon (f := pointReached) ?_⟩
  · have hrej := reported_reject pPower 0x40 .rejectedRange d
    rw [show (pageOf pPower d).state = .active from hs] at hrej
    rw [show cmdApplyTargets 0 s.dev = _ from cmdApplyTargets_rejects hm hs hj]
    exact hrej
  · simp only [pointReached, show s.dev.power.opChange = some o from ho]
    exact reported_raise pPower 25 (modPower (fun p => { p with opChange := none, ceilings := { p.ceilings with opPoint := o } }) s.dev)
  · simp only [pointReached, show s.dev.power.opChange = none from ho]
    rfl

/-- Settles O45: the stages of a power period, and what APPLY_TARGETS leaves in the target register. -/
theorem powerAndTargetsComplete : Obligations.PowerAndTargetsComplete := ⟨powerLoopCompletes, targetsComplete⟩

end Sys2Proof.Machine
end


section
/-!
SUPPORT. Sensors, hot spots, the hard trip, trims and shadow failures (R392 to R401).
-/

namespace Sys2Proof.Machine

/-! ### What a judgement of sensors leaves -/

/-- The clock, the reset, the trip and every sensor but one stay. -/
structure OnSensor (n : Nat) (d e : Dev) : Prop where
  always : e.always = d.always
  now : e.now = d.now
  reset : e.reset = d.reset
  others : ∀ m, m ≠ n → sensorOf m e = sensorOf m d

/-- The clock, the reset, the trip and every sensor stay. -/
structure SameSensors (d e : Dev) : Prop where
  always : e.always = d.always
  now : e.now = d.now
  reset : e.reset = d.reset
  sensors : e.sensors = d.sensors

theorem SameSensors.trans {a b c : Dev} (h : SameSensors a b) (k : SameSensors b c) : SameSensors a c :=
  ⟨k.always.trans h.always, k.now.trans h.now, k.reset.trans h.reset, k.sensors.trans h.sensors⟩

theorem SameSensors.sensorOf {d e : Dev} (h : SameSensors d e) (n : Nat) : sensorOf n e = sensorOf n d := by
  rw [Machine.sensorOf, h.sensors, Machine.sensorOf]

theorem SameSensors.onSensor {d e : Dev} (h : SameSensors d e) (n : Nat) : OnSensor n d e :=
  ⟨h.always, h.now, h.reset, fun m _ => h.sensorOf m⟩

theorem OnSensor.trans {n : Nat} {a b c : Dev} (h : OnSensor n a b) (k : OnSensor n b c) : OnSensor n a c :=
  ⟨k.always.trans h.always, k.now.trans h.now, k.reset.trans h.reset, fun m hm => (k.others m hm).trans (h.others m hm)⟩

theorem SameQuiet.sameSensors {d e : Dev} (h : SameQuiet d e) : SameSensors d e :=
  ⟨h.field Dev.always fun _ => rfl, h.field Dev.now fun _ => rfl, h.field Dev.reset fun _ => rfl, h.field Dev.sensors fun _ => rfl⟩

theorem sameSensors_putSpot (h : Nat) (x : HotSpot) (d : Dev) : SameSensors d (putSpot h x d) := ⟨rfl, rfl, rfl, rfl⟩

theorem sameSensors_mgmtEvent (b : Nat) (d : Dev) : SameSensors d (mgmtEvent b d) := ⟨rfl, rfl, rfl, rfl⟩

theorem sameSensors_raise (p : PageId) (b : Nat) (d : Dev) : SameSensors d (raise p b d) := (reported_raise p b d).sameQuiet.sameSensors

theorem sameSensors_noteApart (h : Nat) (d : Dev) : SameSensors d (noteApart h d) := sameSensors_putSpot _ _ d

theorem sameSensors_settleSpot (h : Nat) (d : Dev) : SameSensors d (settleSpot h d) := by
  unfold settleSpot
  simp only
  split
  · exact ⟨rfl, rfl, rfl, rfl⟩
  · split
    · split
      · exact ⟨rfl, rfl, rfl, rfl⟩
      · exact ((sameSensors_putSpot _ _ d).trans (sameSensors_raise _ _ _)).trans (sameSensors_mgmtEvent _ _)
    · split <;> split <;> exact sameSensors_putSpot _ _ d

theorem sameSensors_settleLimit (d : Dev) : SameSensors d (settleLimit d) := (onPage_settleLimit d).toSameQuiet.sameSensors

section Sensors

variable {n : Nat} {d : Dev} {x : Sensor}

theorem sensorOf_putSensor : sensorOf n (putSensor n x d) = x := by simp [sensorOf, putSensor]

theorem onSensor_putSensor : OnSensor n d (putSensor n x d) :=
  ⟨rfl, rfl, rfl, fun _ hm => tbl_get_set_other _ _ _ hm⟩

/-- A sensor that has been judged faulted is so, and nothing ends its fault yet. -/
theorem faultSensor_faults : (sensorOf n (faultSensor n d)).faulted = true ∧ (sensorOf n (faultSensor n d)).plausibleSince = none
    ∧ OnSensor n d (faultSensor n d) := by
  unfold faultSensor
  simp only
  split
  · next h =>
    rw [sensorOf_putSensor]
    exact ⟨h, rfl, onSensor_putSensor⟩
  · have hput : ∀ y : HotSpot, sensorOf n (putSpot (n / 2) y (putSensor n { sensorOf n d with faulted := true, plausibleSince := none } d))
        = { sensorOf n d with faulted := true, plausibleSince := none } := fun y =>
      ((sameSensors_putSpot _ y _).sensorOf n).trans sensorOf_putSensor
    have hon : ∀ y : HotSpot, OnSensor n d (putSpot (n / 2) y (putSensor n { sensorOf n d with faulted := true, plausibleSince := none } d)) :=
      fun y => onSensor_putSensor.trans ((sameSensors_putSpot _ y _).onSensor n)
    split
    · have htold : ∀ y, SameSensors y (mgmtEvent 12 (raise pPower 20 y)) := fun y =>
        (sameSensors_raise _ _ y).trans (sameSensors_mgmtEvent _ _)
      rw [(htold _).sensorOf, hput]
      exact ⟨rfl, rfl, (hon _).trans ((htold _).onSensor n)⟩
    · rw [hput]
      exact ⟨rfl, rfl, hon _⟩

/-- The sensor has made a conversion within 1 ms. -/
abbrev converted (n : Nat) (d : Dev) : Prop := d.now - max (sensorOf n d).convertedAt d.reset.releasedAt < 1000000

theorem ageSensor_converted (h : converted n d) : ageSensor n d = d := if_pos h

theorem ageSensor_stale (h : ¬ converted n d) : ageSensor n d = noteApart (n / 2) (faultSensor n d) := if_neg h

theorem onSensor_ageSensor : OnSensor n d (ageSensor n d) := by
  by_cases h : converted n d
  · rw [ageSensor_converted h]
    exact ⟨rfl, rfl, rfl, fun _ _ => rfl⟩
  · rw [ageSensor_stale h]
    exact faultSensor_faults.2.2.trans ((sameSensors_noteApart _ _).onSensor n)

theorem faulted_ageSensor (h : ¬ converted n d ∨ (sensorOf n d).faulted = true) : (sensorOf n (ageSensor n d)).faulted = true := by
  by_cases hc : converted n d
  · rw [ageSensor_converted hc]
    exact h.resolve_left (fun h => h hc)
  · rw [ageSensor_stale hc, (sameSensors_noteApart _ _).sensorOf]
    exact faultSensor_faults.1

theorem partner_ne (n : Nat) : partner n ≠ n := by
  unfold partner
  split <;> omega

theorem converted_of {e : Dev} (hn : e.now = d.now) (hr : e.reset = d.reset) (hs : sensorOf n e = sensorOf n d) :
    converted n e ↔ converted n d := by rw [converted, converted, hn, hr, hs]

/-! ### The trip (R400, R401) -/

/-- A sensor above 105 °C that no valid partner near it gainsays. -/
def tripsBy (a b : Nat) (d : Dev) : Bool :=
  match validReading a d with
  | some x => decide (1050 < x) && ((sensorOf b d).faulted || (match validReading b d with
      | some y => decide (950 < y)
      | none => false))
  | none => false

theorem spotTrips_pair : spotTrips (n / 2) d = (tripsBy n (partner n) d || tripsBy (partner n) n d) := by
  have hs : spotTrips (n / 2) d = (tripsBy (2 * (n / 2)) (2 * (n / 2) + 1) d || tripsBy (2 * (n / 2) + 1) (2 * (n / 2)) d) := rfl
  rw [hs, partner]
  split
  · rw [show 2 * (n / 2) = n by omega]
  · rw [show 2 * (n / 2) = n - 1 by omega, show n - 1 + 1 = n by omega, Bool.or_comm]

theorem tripsBy_cool {a b : Nat} {x : Int} (h : validReading a d = some x) (hx : x ≤ 1050) : tripsBy a b d = false := by
  simp only [tripsBy, h, decide_eq_false (Int.not_lt.2 hx), Bool.false_and]

theorem tripsBy_invalid {a b : Nat} (h : validReading a d = none) : tripsBy a b d = false := by
  simp only [tripsBy, h]

theorem tripsBy_gainsaid {a b : Nat} {y : Int} (h : validReading b d = some y) (hf : (sensorOf b d).faulted = false) (hy : y ≤ 950) :
    tripsBy a b d = false := by
  unfold tripsBy
  split
  · simp only [hf, h, Bool.false_or, decide_eq_false (Int.not_lt.2 hy), Bool.and_false]
  · rfl

theorem tripsBy_hot {a b : Nat} {x : Int} (h : validReading a d = some x) (hx : 1050 < x) (hf : (sensorOf b d).faulted = true) :
    tripsBy a b d = true := by
  simp only [tripsBy, h, hf, decide_eq_true hx, Bool.true_or, Bool.and_true]

theorem validReading_of {y : Option Int} (hf : (sensorOf n d).faulted = false) (hr : (sensorOf n d).reading = y) : validReading n d = y := by
  rw [validReading, if_neg (by rw [hf]; exact Bool.false_ne_true), hr]

theorem validReading_faulted (hf : (sensorOf n d).faulted = true) : validReading n d = none := if_pos hf

theorem sameQuiet_addHold (p : PageId) (h : Hold) (d : Dev) : SameQuiet d (addHold p h d) := by
  have hput : ∀ (g : Page) (x : Dev), SameQuiet x (putPage p g x) := sameQuiet_putPage p
  unfold addHold
  simp only
  split
  · exact .refl d
  · split
    · rw [moveTo_up p (st := .quiesced) rfl]
      exact ((hput _ d).trans (hput _ _)).trans (sameQuiet_setState _ _ _ _)
    · exact hput _ d

theorem settleAlert_tripped (h : d.always.hardTrip = true) : (settleAlert d).pins.alert = true := by
  simp only [settleAlert, setPins, h, Bool.or_true, Bool.true_or, ite_self]

theorem hardTrip_settleAlert (d : Dev) : (settleAlert d).always.hardTrip = d.always.hardTrip := rfl

theorem mgmtEvent_leaves (b : Nat) (d : Dev) :
    (mgmtEvent b d).always = d.always ∧ (mgmtEvent b d).sensors = d.sensors := ⟨rfl, rfl⟩

theorem alert_mgmtEvent_tripped (b : Nat) (h : d.always.hardTrip = true) : (mgmtEvent b d).pins.alert = true :=
  settleAlert_tripped h

/-- A trip sets its latch, takes ALERT_N low and leaves the sensors. -/
theorem tripModule_trips (h : d.always.hardTrip = false) : (tripModule d).always.hardTrip = true ∧ (tripModule d).pins.alert = true
    ∧ (tripModule d).sensors = d.sensors := by
  rw [tripModule, if_neg (by rw [h]; exact Bool.false_ne_true)]
  simp only
  split
  · have hq : SameQuiet (settleAlert { d with always := { d.always with hardTrip := true } })
        (raise pPower 21 (portPages.foldl (fun x p => addHold p .thermal x) (settleAlert { d with always := { d.always with hardTrip := true } }))) :=
      (SameQuiet.foldl (fun x p => sameQuiet_addHold p .thermal x) _ _).trans (reported_raise _ _ _).sameQuiet
    have ht := (congrArg AlwaysOn.hardTrip (hq.field Dev.always fun _ => rfl)).trans (hardTrip_settleAlert _)
    obtain ⟨halways, hsensors⟩ := mgmtEvent_leaves 2
      (raise pPower 21 (portPages.foldl (fun x p => addHold p .thermal x) (settleAlert { d with always := { d.always with hardTrip := true } })))
    exact ⟨(congrArg AlwaysOn.hardTrip halways).trans ht, alert_mgmtEvent_tripped 2 ht,
      hsensors.trans (hq.field Dev.sensors fun _ => rfl)⟩
  · exact ⟨rfl, settleAlert_tripped rfl, rfl⟩

theorem sensors_tripModule : (tripModule d).sensors = d.sensors := by
  cases h : d.always.hardTrip with
  | false => exact (tripModule_trips h).2.2
  | true => rw [tripModule, if_pos h]

end Sensors

/-! ### Conversions (R396 to R401) -/

section Conversions

variable {n : Nat} {reading : Int} {d : Dev}

/-- The device once a reading has been kept, or its sensor faulted. -/
def readDev (n : Nat) (reading : Int) (d0 : Dev) : Dev :=
  let d := ageSensor (partner n) (ageSensor n d0)
  if -200 ≤ reading ∧ reading ≤ 1400 then keepReading n reading d
  else faultSensor n (putSensor n { sensorOf n d with reading := some reading, convertedAt := d.now } d)

/-- The device once the spot has been judged. -/
def judgedDev (n : Nat) (d1 : Dev) : Dev := settleSpot (n / 2) (noteApart (n / 2) d1)

theorem sameSensors_judgedDev (d1 : Dev) : SameSensors d1 (judgedDev n d1) :=
  (sameSensors_noteApart _ _).trans (sameSensors_settleSpot _ _)

theorem convertSensor_eq (hn : n < 88) : convertSensor n reading d = settleLimit
    (if spotTrips (n / 2) (judgedDev n (readDev n reading d)) then tripModule (judgedDev n (readDev n reading d))
      else judgedDev n (readDev n reading d)) := by
  rw [convertSensor, if_neg (Nat.not_le.2 hn)]
  rfl

/-- A conversion leaves the sensors as its reading does. -/
theorem sensorOf_convertSensor (hn : n < 88) (m : Nat) : sensorOf m (convertSensor n reading d) = sensorOf m (readDev n reading d) := by
  rw [convertSensor_eq hn, (sameSensors_settleLimit _).sensorOf, ← (sameSensors_judgedDev (n := n) (readDev n reading d)).sensorOf m]
  split
  · rw [sensorOf, sensors_tripModule, sensorOf]
  · rfl

theorem hardTrip_convertSensor (hn : n < 88)
    (ht : spotTrips (n / 2) (judgedDev n (readDev n reading d)) = false) :
    (convertSensor n reading d).always = (readDev n reading d).always := by
  rw [convertSensor_eq hn, if_neg (by rw [ht]; exact Bool.false_ne_true), (sameSensors_settleLimit _).always,
    (sameSensors_judgedDev _).always]

theorem tripsBy_congr {e : Dev} (h : SameSensors d e) (a b : Nat) : tripsBy a b e = tripsBy a b d := by
  simp only [tripsBy, validReading, h.sensorOf]

theorem spotTrips_judged (d1 : Dev) : spotTrips (n / 2) (judgedDev n d1) = (tripsBy n (partner n) d1 || tripsBy (partner n) n d1) := by
  rw [spotTrips_pair, tripsBy_congr (sameSensors_judgedDev d1), tripsBy_congr (sameSensors_judgedDev d1)]

theorem aged (n : Nat) (d : Dev) (h : converted n d) : ageSensor (partner n) (ageSensor n d) = ageSensor (partner n) d := by
  rw [ageSensor_converted h]

theorem sensorOf_aged (h : converted n d) : sensorOf n (ageSensor (partner n) (ageSensor n d)) = sensorOf n d := by
  rw [aged n d h]
  exact onSensor_ageSensor.others n (partner_ne n).symm

/-- The reading of a sensor in its range, as it is kept. -/
theorem readDev_kept (hr : -200 ≤ reading ∧ reading ≤ 1400) (h : converted n d) : readDev n reading d = putSensor n { sensorOf n d with
      reading := some reading
      faulted := (sensorOf n d).faulted && decide (d.now - (sensorOf n d).plausibleSince.getD d.now < 100000000)
      plausibleSince := if (sensorOf n d).faulted && decide (d.now - (sensorOf n d).plausibleSince.getD d.now < 100000000)
        then some ((sensorOf n d).plausibleSince.getD d.now) else none
      convertedAt := d.now } (ageSensor (partner n) d) := by
  have hs := sensorOf_aged h
  rw [aged n d h] at hs
  have hnow : (ageSensor (partner n) d).now = d.now := onSensor_ageSensor.now
  simp only [readDev, hr, and_self, if_true, aged n d h, keepReading, hs, hnow]

/-- What a plausible reading below 95 °C leaves. -/
theorem convert_cool (hn : n < 88) (h : converted n d) (hf : (sensorOf n d).faulted = false) (h1 : -200 ≤ reading) (h2 : reading ≤ 950) :
    (sensorOf n (convertSensor n reading d)).reading = some reading ∧ (sensorOf n (convertSensor n reading d)).faulted = false
      ∧ (convertSensor n reading d).always.hardTrip = d.always.hardTrip := by
  have hread := readDev_kept (reading := reading) ⟨h1, by omega⟩ h
  have hsens : (sensorOf n (readDev n reading d)).reading = some reading ∧ (sensorOf n (readDev n reading d)).faulted = false := by
    rw [hread, sensorOf_putSensor, hf]
    exact ⟨rfl, rfl⟩
  obtain ⟨hr, hff⟩ := hsens
  have hvalid := validReading_of hff hr
  have htrip : spotTrips (n / 2) (judgedDev n (readDev n reading d)) = false := by
    rw [spotTrips_judged, tripsBy_cool hvalid (by omega), tripsBy_gainsaid hvalid hff h2]
    rfl
  rw [sensorOf_convertSensor hn, hardTrip_convertSensor hn htrip]
  refine ⟨hr, hff, ?_⟩
  rw [hread]
  exact congrArg AlwaysOn.hardTrip onSensor_ageSensor.always

/-- What a reading out of range leaves, beside a partner that is no hotter than 105 °C. -/
theorem convert_implausible {b : Int} (hn : n < 88) (hr : reading < -200 ∨ 1400 < reading) (h : converted (partner n) d)
    (hv : validReading (partner n) d = some b) (hb : b ≤ 1050) : (sensorOf n (convertSensor n reading d)).faulted = true
      ∧ (sensorOf n (convertSensor n reading d)).plausibleSince = none
      ∧ (convertSensor n reading d).always.hardTrip = d.always.hardTrip := by
  have hno : ¬ (-200 ≤ reading ∧ reading ≤ 1400) := by omega
  have hage := onSensor_ageSensor (n := n) (d := d)
  have hpart : ageSensor (partner n) (ageSensor n d) = ageSensor n d :=
    ageSensor_converted ((converted_of hage.now hage.reset (hage.others _ (partner_ne n))).2 h)
  have hread : readDev n reading d = faultSensor n
      (putSensor n { sensorOf n (ageSensor n d) with reading := some reading, convertedAt := (ageSensor n d).now } (ageSensor n d)) := by
    simp only [readDev, hno, if_false, hpart]
  obtain ⟨hfault, hsince, hfon⟩ := faultSensor_faults (n := n)
    (d := putSensor n { sensorOf n (ageSensor n d) with reading := some reading, convertedAt := (ageSensor n d).now } (ageSensor n d))
  rw [← hread] at hfault hsince hfon
  have hon := (hage.trans onSensor_putSensor).trans hfon
  have hother : validReading (partner n) (readDev n reading d) = some b := by
    rw [validReading, hon.others _ (partner_ne n)]
    exact hv
  have htrip : spotTrips (n / 2) (judgedDev n (readDev n reading d)) = false := by
    rw [spotTrips_judged, tripsBy_invalid (validReading_faulted hfault), tripsBy_cool hother hb]
    rfl
  rw [sensorOf_convertSensor hn, hardTrip_convertSensor hn htrip]
  exact ⟨hfault, hsince, congrArg AlwaysOn.hardTrip hon.always⟩

/-- A valid reading above 105 °C beside a faulted partner trips. -/
theorem convert_hot (hn : n < 88) (h : converted n d) (hf : (sensorOf n d).faulted = false) (hp : (sensorOf (partner n) d).faulted = true)
    (h1 : 1050 < reading) (h2 : reading ≤ 1400) (ht : d.always.hardTrip = false) :
    (convertSensor n reading d).always.hardTrip = true ∧ (convertSensor n reading d).pins.alert = true := by
  have hread := readDev_kept (reading := reading) ⟨by omega, h2⟩ h
  have hff : (sensorOf n (readDev n reading d)).faulted = false := by rw [hread, sensorOf_putSensor, hf]; rfl
  have hr : (sensorOf n (readDev n reading d)).reading = some reading := by rw [hread, sensorOf_putSensor]
  have hpart : (sensorOf (partner n) (readDev n reading d)).faulted = true := by
    rw [hread, onSensor_putSensor.others _ (partner_ne n)]
    exact faulted_ageSensor (.inr hp)
  have htrip : spotTrips (n / 2) (judgedDev n (readDev n reading d)) = true := by
    rw [spotTrips_judged, tripsBy_hot (validReading_of hff hr) h1 hpart]
    rfl
  have halways : (judgedDev n (readDev n reading d)).always.hardTrip = false := by
    rw [(sameSensors_judgedDev _).always, hread]
    exact (congrArg AlwaysOn.hardTrip onSensor_ageSensor.always).trans ht
  obtain ⟨hlatch, halert, -⟩ := tripModule_trips halways
  rw [convertSensor_eq hn, if_pos htrip]
  exact ⟨(congrArg AlwaysOn.hardTrip (sameSensors_settleLimit _).always).trans hlatch,
    (congrArg Pins.alert ((onPage_settleLimit _).toSameQuiet.field Dev.pins fun _ => rfl)).trans halert⟩

/-- A fault lasts until plausible readings have come for 100 ms. -/
theorem convert_faulted (hn : n < 88) (hf : (sensorOf n d).faulted = true)
    (hs : (sensorOf n d).plausibleSince.any (fun t => decide (d.now - t < 100000000)) = true) (h : converted n d)
    (h1 : -200 ≤ reading) (h2 : reading ≤ 1400) : (sensorOf n (convertSensor n reading d)).faulted = true := by
  rw [sensorOf_convertSensor hn, readDev_kept ⟨h1, h2⟩ h, sensorOf_putSensor, hf]
  cases hsince : (sensorOf n d).plausibleSince with
  | none =>
    rw [hsince] at hs
    cases hs
  | some t =>
    rw [hsince] at hs
    exact hs

theorem staleSensor_faults (hn : n < 88) (h : ¬ converted n d) : (sensorOf n (staleSensor n d)).faulted = true := by
  rw [staleSensor, if_neg (Nat.not_le.2 hn)]
  simp only
  rw [(sameSensors_settleLimit _).sensorOf]
  split
  · rw [sensorOf, sensors_tripModule]
    exact faulted_ageSensor (.inl h)
  · exact faulted_ageSensor (.inl h)

theorem staleSensor_converted (hn : n < 88) (h : converted n d) (ht : spotTrips (n / 2) d = false) : staleSensor n d = settleLimit d := by
  rw [staleSensor, if_neg (Nat.not_le.2 hn), ageSensor_converted h]
  simp only [ht, Bool.false_eq_true, if_false]

theorem splitSpot_splits {h : Nat} {a b : Int} (hh : h < 44) (ha : validReading (2 * h) d = some a) (hb : validReading (2 * h + 1) d = some b)
    (hab : 60 < (a - b).natAbs) (hs : (hotSpot h d).split = false) (hl : leadWatches d = true)
    (ht : (hotSpot h d).apartSince.any (fun t => decide (50000000 < d.now - t)) = true) :
    (hotSpot h (splitSpot h d)).split = true ∧ (pageOf pPower (splitSpot h d)).events.getLsbD 19 = true := by
  have hapart : sensorsApart h d = some true := by simp only [sensorsApart, ha, hb, decide_eq_true hab]
  cases hsince : (hotSpot h d).apartSince with
  | none => rw [hsince] at ht; cases ht
  | some t =>
    have hlt : 50000000 < d.now - t := by simpa [hsince] using ht
    have he : splitSpot h d = mgmtEvent 12 (raise pPower 19 (putSpot h { hotSpot h d with split := true, closeSince := none } d)) := by
      simp only [splitSpot, hsince]
      exact if_pos ⟨hh, hl, hapart, hlt, hs⟩
    rw [he]
    refine ⟨?_, events_raise (by decide) _ _⟩
    have hq := (reported_raise pPower 19 (putSpot h { hotSpot h d with split := true, closeSince := none } d)).sameQuiet
    rw [show hotSpot h (mgmtEvent 12 (raise pPower 19 (putSpot h { hotSpot h d with split := true, closeSince := none } d)))
      = hotSpot h (raise pPower 19 (putSpot h { hotSpot h d with split := true, closeSince := none } d)) from rfl,
      hotSpot, hq.field Dev.spots fun _ => rfl]
    simp [putSpot]

end Conversions

/-! ### Trims (R392, R393, R395) -/

section Trims

variable {i : Nat} {d : Dev}

/-- A trim one step longer, before it is reported. -/
def trimDev (i : Nat) (d : Dev) : Dev :=
  let x := modPower (fun p => { p with trimAt := p.trimAt.set i d.now }) d
  addWrap (rDie (dieOfCluster i) 2 0x200) 1
    { x with flash := { x.flash with trims := x.flash.trims.set (3 * i + opPoint d) (trimOf i (opPoint d) d + 1) } }

theorem lengthenTrim_grows (hi : i < 160) (hu : supervisorUsable i d = true) (ht : trimDue i d = true) (hl : trimOf i (opPoint d) d < 32) :
    lengthenTrim i d = raise pPower 24 (trimDev i d) := by
  have hgo : ¬ (160 ≤ i ∨ supervisorUsable i d = false ∨ trimDue i d = false) := by rw [hu, ht]; simpa using hi
  rw [lengthenTrim, if_neg hgo]
  exact if_neg (Nat.not_le.2 hl)

theorem trimDev_leaves : trimOf i (opPoint d) (trimDev i d) = trimOf i (opPoint d) d + 1
    ∧ rd (rDie (dieOfCluster i) 2 0x200) (trimDev i d) = (rd (rDie (dieOfCluster i) 2 0x200) d + 1) % 2 ^ 32 := by
  refine ⟨?_, rd_addWrap_same _ _ _⟩
  exact tbl_get_set_same d.flash.trims 0 (trimOf i (opPoint d) d + 1) (3 * i + opPoint d)

theorem lengthenTrim_retires (hi : i < 160) (hu : supervisorUsable i d = true) (ht : trimDue i d = true) (hl : 32 ≤ trimOf i (opPoint d) d) :
    lengthenTrim i d = retireUnit (uSupervisor i) .selfFault (modPower (fun p => { p with trimAt := p.trimAt.set i d.now }) d) := by
  have hgo : ¬ (160 ≤ i ∨ supervisorUsable i d = false ∨ trimDue i d = false) := by rw [hu, ht]; simpa using hi
  rw [lengthenTrim, if_neg hgo]
  exact if_pos hl

end Trims

/-- Settles O46: what a reading leaves of its sensor, when a spot trips, and how a trim grows. -/
theorem sensorsComplete : Obligations.SensorsComplete := by
  intro n h i reading a b s hon d fresh other o
  refine ⟨fun hn hf hq h1 h2 => does_of hon (f := convertSensor n reading) (convert_cool hn (of_decide_eq_true hf) hq h1 h2),
    fun hn hr hf hv hb => does_of hon (f := convertSensor n reading) (convert_implausible hn hr (of_decide_eq_true hf) hv hb),
    fun hn hf hq hp h1 h2 ht => does_of hon (f := convertSensor n reading) (convert_hot hn (of_decide_eq_true hf) hq hp h1 h2 ht),
    fun hn hq hs hf h1 h2 => does_of hon (f := convertSensor n reading) (convert_faulted hn hq hs (of_decide_eq_true hf) h1 h2),
    fun hn hf => does_of hon (f := staleSensor n) (staleSensor_faults hn (of_decide_eq_false hf)),
    fun hn hf ht => gives_of_eq hon (f := staleSensor n) (staleSensor_converted hn (of_decide_eq_true hf) ht),
    fun hh ha hb hab hs hl ht => does_of hon (f := splitSpot h) (splitSpot_splits hh ha hb hab hs hl ht),
    fun hi hu ht hl => does_of hon (f := lengthenTrim i) ?_,
    fun hi hu ht hl => gives_of_eq hon (f := lengthenTrim i) (lengthenTrim_retires hi hu ht hl),
    fun ht => gives_of_eq hon (f := lengthenTrim i) (if_pos (.inr (.inr ht))),
    fun hi => gives_of_eq hon (f := fun d => if i < 160 then noteShadow i (bump (rDie (dieOfCluster i) 2 (0x100 + 4 * placeOnDie i)) d) else d)
      (if_pos hi)⟩
  obtain ⟨h1, h2⟩ := trimDev_leaves (i := i) (d := d)
  have hrep := reported_raise pPower 24 (trimDev i d)
  rw [show lengthenTrim i s.dev = _ from lengthenTrim_grows hi hu ht hl]
  refine ⟨?_, (hrep.rd_of_ty (by simp)).trans h2, events_raise (by decide) _ _⟩
  rw [trimOf, hrep.sameQuiet.field Dev.flash fun _ => rfl]
  exact h1

end Sys2Proof.Machine
end


section
/-!
SUPPORT. The coolant stop and the holds that stand on pages (R402 to R404, R508).
-/

namespace Sys2Proof.Machine

/-! ### What leaves the module's control -/

/-- Resets, boot, fuses, flash, power, coolant, the complexes, management and the pins stay. -/
def SameControl (d e : Dev) : Prop := controlOf e = controlOf d

theorem SameControl.refl (d : Dev) : SameControl d d := rfl

theorem SameControl.trans {a b c : Dev} (h : SameControl a b) (k : SameControl b c) : SameControl a c := Eq.trans k h

theorem SameControl.foldl {α : Type} {f : Dev → α → Dev} (h : ∀ d x, SameControl d (f d x)) (l : List α) (d : Dev) :
    SameControl d (l.foldl f d) := by
  induction l generalizing d with
  | nil => exact .refl d
  | cons x l ih => exact (h d x).trans (ih _)

theorem SameQuiet.sameControl {d e : Dev} (h : SameQuiet d e) : SameControl d e := h.field controlOf fun _ => rfl

theorem SameControl.coolant {d e : Dev} (h : SameControl d e) : e.coolant = d.coolant := by
  simp only [SameControl, controlOf, Prod.mk.injEq] at h
  exact h.2.2.2.2.2.2.1

theorem sameControl_setState (p : PageId) (st : PState) (c : Cause) (d : Dev) : SameControl d (setState p st c d) :=
  (sameQuiet_setState p st c d).sameControl

theorem sameControl_raise (p : PageId) (b : Nat) (d : Dev) : SameControl d (raise p b d) := (reported_raise p b d).sameQuiet.sameControl

theorem sameControl_putPage (p : PageId) (g : Page) (d : Dev) : SameControl d (putPage p g d) := rfl

theorem sameControl_refreshRate (k : StreamId) (d : Dev) : SameControl d (refreshRate k d) := rfl

theorem sameControl_takeDown (p : Nat) (d : Dev) : SameControl d (takeDown p d) := by
  unfold takeDown loseCarrier refreshRates
  split
  · refine SameControl.trans (b := raise (pPort p) 17 (bump (rPort p 0x44) (modPort p _ d))) ?_ (.foldl (fun x e => ?_) _ _)
    · exact sameControl_raise (pPort p) 17 (bump (rPort p 0x44) (modPort p _ d))
    · exact sameControl_refreshRate e.1 x
  · exact .refl d

theorem sameControl_moveTo (p : PageId) (st : PState) (c : Cause) (d : Dev) : SameControl d (moveTo p st c d) := by
  simp only [moveTo]
  refine SameControl.trans ?_ (sameControl_setState p st c _)
  split
  · exact sameControl_takeDown _ d
  · exact .refl d

theorem sameControl_freeMemory (l : List (Nat × Nat)) (d : Dev) : SameControl d (freeMemory l d) := by
  refine .foldl (fun x r => ?_) l d
  exact (inMemory_memWrite r.1 (freeList r.2 x) [] { x with fresh := x.fresh + r.2 }).control

theorem sameControl_landed (l : List (Nat × Nat)) (a : Nat) (bs : List Byte) (d : Dev) : SameControl d (landed l a bs d).2 := by
  unfold landed
  split <;> rfl

theorem sameControl_applyMemPacket (p : Packet) (d : Dev) : SameControl d (applyMemPacket p d) := by
  simp only [applyMemPacket]
  split
  · generalize (if fromCore p = true then racedOf (senderOf p) p.msgId d else []) = l
    refine (sameControl_landed l p.address p.payload d).trans ?_
    exact SameControl.trans (inMemory_memWrite p.address _ p.poison _).control (sameControl_freeMemory _ _)
  · exact (inMemory_memTouch p.address p.amount (some p.ctx) d).control

theorem sameControl_releaseHeld (c : Nat) (waiting kept : List Packet) (d : Dev) : SameControl d (releaseHeld waiting kept c d) := by
  induction waiting generalizing kept d with
  | nil => exact .refl d
  | cons p r ih =>
    rw [releaseHeld]
    split
    · exact ih _ _
    · exact (sameControl_applyMemPacket p d).trans (ih _ _)

theorem sameControl_afterHold (p : PageId) (d : Dev) : SameControl d (afterHold p d) := by
  unfold afterHold
  split
  · exact sameControl_releaseHeld _ _ _ d
  · exact .refl d

theorem sameControl_dropHold (p : PageId) (h : Hold) (c : Cause) (d : Dev) : SameControl d (dropHold p h c d) := by
  simp only [dropHold]
  split
  · exact ((sameControl_putPage p _ d).trans (sameControl_moveTo p _ c _)).trans (sameControl_afterHold p _)
  · exact sameControl_putPage p _ d

theorem sameControl_leaveFor (p : PageId) (st : PState) (c : Cause) (d : Dev) : SameControl d (leaveFor p st c d) :=
  (sameControl_putPage p _ d).trans (sameControl_moveTo p st c _)

theorem sameControl_trainChannel (n : Nat) (c : Cause) (d : Dev) : SameControl d (trainChannel n c d) := rfl

theorem sameControl_wakeMemory (c : Nat) (d : Dev) : SameControl d (wakeMemory c d) := by
  simp only [wakeMemory]
  split
  · exact .refl d
  · split
    · refine SameControl.trans ?_ (.foldl (fun x n => ?_) _ _)
      · have hasked : ∀ m g, SameControl d (raise (pMem c) 20 (putMemCtl c m (putPage (pMem c) g d))) := fun m g =>
          (SameControl.refl d).trans (sameControl_raise (pMem c) 20 _)
        split
        · exact hasked _ _
        · exact (hasked _ _).trans (sameControl_leaveFor _ _ _ _)
      · split
        · exact .refl x
        · exact sameControl_trainChannel n _ x
    · exact sameControl_dropHold _ _ _ d

theorem sameControl_releaseCoolant (p : PageId) (d : Dev) : SameControl d (releaseCoolant p d) := by
  unfold releaseCoolant
  split
  · exact sameControl_wakeMemory _ d
  · exact sameControl_dropHold _ _ _ d

/-! ### Holds (R508) -/

section Holds

variable {p : PageId} {h k : Hold} {c : Cause} {d : Dev}

theorem addHold_first (hs : (pageOf p d).state = .ready ∨ (pageOf p d).state = .active) :
    Reported (putPage p { (pageOf p d).moved .quiesced (holdCause h) d with
      holds := h :: (pageOf p d).holds.filter (· != h), before := (pageOf p d).state } d) (addHold p h d) := by
  have hon : ¬ ((pageOf p d).state = .off ∨ (pageOf p d).state = .retired) := by
    rcases hs with hs | hs <;> rw [hs] <;> decide
  rw [addHold, if_neg hon]
  simp only [hs, if_true, moveTo_up p (st := .quiesced) rfl, pageOf_putPage_same, putPage_putPage, setState]
  exact reported_raise p 0 _

theorem addHold_more (hs : (pageOf p d).state = .quiesced) :
    addHold p h d = putPage p { pageOf p d with holds := h :: (pageOf p d).holds.filter (· != h) } d := by
  simp [addHold, hs]

theorem dropHold_last (hty : p.ty ≠ .memoryController) (hs : (pageOf p d).state = .quiesced) (hh : (pageOf p d).holds = [h])
    (hb : (pageOf p d).before = .ready ∨ (pageOf p d).before = .active) :
    Reported (putPage p { (pageOf p d).moved (pageOf p d).before c d with holds := [] } d) (dropHold p h c d) := by
  have hup : ((pageOf p d).before == .ready || (pageOf p d).before == .active || (pageOf p d).before == .quiesced) = true := by
    rcases hb with hb | hb <;> rw [hb] <;> rfl
  have hgone : [h].filter (· != h) = [] := by simp
  have hlast : ((pageOf p d).holds.contains h && (pageOf p d).state == .quiesced && ((pageOf p d).holds.filter (· != h)).isEmpty) = true := by
    rw [hh, hs, hgone]
    simp
  have he : dropHold p h c d = setState p (pageOf p d).before c (putPage p { pageOf p d with holds := [] } d) := by
    rw [dropHold]
    simp only [hlast, if_true, afterHold, hty, if_false, moveTo_up p hup]
    rw [hh, hgone]
  rw [he, setState]
  simp only [pageOf_putPage_same, putPage_putPage]
  exact reported_raise p 0 _

theorem dropHold_other (hk : k ≠ h) (hs : (pageOf p d).state = .quiesced) (hh : (pageOf p d).holds = [k, h]) :
    dropHold p h c d = putPage p { pageOf p d with holds := [k] } d := by
  have hleft : [k, h].filter (· != h) = [k] := by simp [hk]
  simp [dropHold, hs, hh, hleft]

end Holds

theorem holdsStack : Claims.HoldsStack := fun _ _ _ _ _ => ⟨addHold_first, addHold_more, dropHold_last, dropHold_other⟩

/-! ### The coolant stop (R402 to R404) -/

section Coolant

variable {d : Dev}

theorem sameControl_settleLimit (d : Dev) : SameControl d (settleLimit d) := (onPage_settleLimit d).toSameQuiet.sameControl

theorem coolant_settleLimit (d : Dev) : (settleLimit d).coolant = d.coolant := (sameControl_settleLimit d).coolant

/-- The drop that stands: its time, no fall left to judge, and filler ended. -/
def droppedDev (d : Dev) : Dev :=
  modPower (fun p => { p with filler := 0 }) (setCoolant (fun c => { c with falling := none, dropAt := some d.now }) d)

theorem bitOf_mgmtEvent (b : Nat) (d : Dev) : bitOf (mgmtEvent b d).mgmt.events b = true := by
  have hset : (d.mgmt.events ||| 2 ^ b).testBit b = true := by rw [Nat.testBit_or, Nat.testBit_two_pow_self, Bool.or_true]
  rw [bitOf_iff, show (mgmtEvent b d).mgmt.events = d.mgmt.events ||| 2 ^ b from rfl]
  simpa [Nat.testBit_eq_decide_div_mod_eq] using hset

/-- An accepted drop that holds the pages of a list. -/
def dropWith (l : List PageId) (d : Dev) : Dev :=
  settleLimit (if firmwareRuns (droppedDev d) then
    mgmtEvent 3 (raise pPower 22 (l.foldl (fun x p => addHold p .coolant x) (droppedDev d)))
  else settleAlert (droppedDev d))

theorem acceptDrop_eq : acceptDrop d = dropWith coolantPages d := rfl

theorem dropWith_leaves (l : List PageId) : (dropWith l d).coolant.dropAt = some d.now ∧ (dropWith l d).coolant.falling = none
    ∧ (dropWith l d).power.filler = 0 ∧ (firmwareRuns d = true → bitOf (dropWith l d).mgmt.events 3 = true) := by
  have hh : SameQuiet (droppedDev d) (raise pPower 22 (l.foldl (fun x p => addHold p .coolant x) (droppedDev d))) :=
    (SameQuiet.foldl (fun x p => sameQuiet_addHold p .coolant x) _ _).trans (reported_raise _ _ _).sameQuiet
  have hq := fun y => (onPage_settleLimit y).toSameQuiet
  unfold dropWith
  rw [(hq _).field Dev.coolant fun _ => rfl, (hq _).field Dev.power fun _ => rfl, (hq _).field Dev.mgmt fun _ => rfl]
  split
  · exact ⟨congrArg Coolant.dropAt (hh.field Dev.coolant fun _ => rfl), congrArg Coolant.falling (hh.field Dev.coolant fun _ => rfl),
      congrArg PowerSt.filler (hh.field Dev.power fun _ => rfl), fun _ => bitOf_mgmtEvent 3 _⟩
  · next hr => exact ⟨rfl, rfl, rfl, fun hf => absurd hf hr⟩

/-- A return that releases the pages of a list. -/
def backWith (l : List PageId) (d : Dev) : Dev :=
  let x := l.foldl (fun x p => releaseCoolant p x) (setCoolant (fun c => { c with rising := none, dropAt := none }) d)
  settleLimit (if firmwareRuns x then mgmtEvent 4 (raise pPower 23 x) else settleAlert x)

theorem coolant_backWith (l : List PageId) : (backWith l d).coolant.dropAt = none ∧ (backWith l d).coolant.rising = none := by
  have hpages : SameControl (setCoolant (fun c => { c with rising := none, dropAt := none }) d)
      (l.foldl (fun x p => releaseCoolant p x) (setCoolant (fun c => { c with rising := none, dropAt := none }) d)) :=
    .foldl (fun x p => sameControl_releaseCoolant p x) _ _
  simp only [backWith]
  rw [coolant_settleLimit]
  generalize l.foldl (fun x p => releaseCoolant p x) _ = x at hpages ⊢
  split
  · rw [show (mgmtEvent 4 (raise pPower 23 x)).coolant = (raise pPower 23 x).coolant from rfl, (sameControl_raise pPower 23 x).coolant, hpages.coolant]
    exact ⟨rfl, rfl⟩
  · rw [show (settleAlert x).coolant = x.coolant from rfl, hpages.coolant]
    exact ⟨rfl, rfl⟩

theorem coolantBack_ends {t : Nat} (hr : d.coolant.rising = some t) (ht : d.coolant.tripped = false) (hd : d.coolant.dropAt.isSome = true)
    (hl : 1000000 ≤ d.now - t) : (coolantBack d).coolant.dropAt = none ∧ (coolantBack d).coolant.rising = none := by
  have hgo : ¬ (d.coolant.tripped || d.coolant.dropAt.isNone || !(d.coolant.rising.any (fun t => decide (1000000 ≤ d.now - t)))) = true := by
    rw [ht, hr]
    simpa [← Option.isSome_iff_ne_none] using ⟨hd, hl⟩
  have he : coolantBack d = backWith coolantPages d := if_neg hgo
  rw [he]
  exact coolant_backWith coolantPages

theorem coolantTrips_trips {t : Nat} (hd : d.coolant.dropAt = some t) (ht : d.coolant.tripped = false)
    (hl : 1000000 * d.power.ceilings.grace ≤ d.now - t) :
    (coolantTrips d).coolant.tripped = true ∧ (coolantTrips d).coolant.dropAt = d.coolant.dropAt := by
  have hgo : ¬ (d.coolant.tripped || !(d.coolant.dropAt.any (fun t => decide (1000000 * d.power.ceilings.grace ≤ d.now - t)))) = true := by
    rw [ht, hd]
    simpa using hl
  rw [coolantTrips, if_neg hgo]
  simp only
  rw [coolant_settleLimit]
  split
  · rw [show ∀ x, (mgmtEvent 2 (raise pPower 21 x)).coolant = (raise pPower 21 x).coolant from fun _ => rfl, (sameControl_raise pPower 21 _).coolant]
    exact ⟨rfl, rfl⟩
  · exact ⟨rfl, rfl⟩

theorem coolantTrips_early {t : Nat} (hd : d.coolant.dropAt = some t) (hl : d.now - t < 1000000 * d.power.ceilings.grace) :
    coolantTrips d = d := by
  rw [coolantTrips, if_pos (by rw [hd]; simpa using .inr hl)]

end Coolant

theorem coolantCompletes : Claims.CoolantCompletes := by
  intro s hon d c
  refine ⟨gives_of_eq hon (f := fun d => setCoolant (fun c => { c with
      ok := false, falling := if c.ok then some d.now else c.falling, rising := none }) d) rfl,
    fun hok => gives_of_eq hon (f := fun d => setCoolant (fun c => { c with
      ok := true, falling := none
      rising := if c.dropAt.isNone then none else if c.ok then c.rising else some d.now }) d) ?_,
    fun t hf hl => ⟨fun hn => ?_, fun hd => gives_of_eq hon (f := coolantDrop) ?_⟩,
    fun t hf hl => gives_of_eq hon (f := coolantDrop) ?_,
    fun t hr ht hd hl => does_of hon (f := coolantBack) (coolantBack_ends hr ht hd hl),
    fun ht => gives_of_eq hon (f := coolantBack) (if_pos (by rw [show s.dev.coolant.tripped = true from ht]; rfl)),
    fun t hd ht => ⟨fun hl => does_of hon (f := coolantTrips) (coolantTrips_trips hd ht hl),
      fun hl => gives_of_eq hon (f := coolantTrips) (coolantTrips_early hd hl)⟩⟩
  · have hok : s.dev.coolant.ok = false := hok
    simp only [setCoolant, hok]
    cases s.dev.coolant.dropAt <;> simp [d, c]
  · have hdrop : coolantDrop s.dev = dropWith coolantPages s.dev := by
      have hf : s.dev.coolant.falling = some t := hf
      have hn : s.dev.coolant.dropAt = none := hn
      simp only [coolantDrop, hf, hn]
      exact (if_neg (Nat.not_lt.2 hl)).trans acceptDrop_eq
    refine does_of hon (f := coolantDrop) ?_
    rw [show coolantDrop s.dev = _ from hdrop]
    exact dropWith_leaves coolantPages
  · have hf : s.dev.coolant.falling = some t := hf
    simp only [coolantDrop, hf]
    rw [if_neg (Nat.not_lt.2 hl), if_pos (show s.dev.coolant.dropAt.isSome = true from hd)]
    rfl
  · have hf : s.dev.coolant.falling = some t := hf
    simp only [coolantDrop, hf]
    exact if_pos hl

/-- Settles O47: the coolant functions case by case, and the holds of a page. -/
theorem coolantAndHoldsComplete : Obligations.CoolantAndHoldsComplete := ⟨coolantCompletes, holdsStack⟩

end Sys2Proof.Machine
end


section
/-!
SUPPORT. RESET_N, the end of a compute reset, and the beacons (R410 to R423).
-/

namespace Sys2Proof.Machine

/-! ### A request in the instant of an acceptance -/

/-- A pin reset is due while a compute reset of another source was accepted at this instant, and the pin is no longer driven. -/
def pinMeetsAccepted : State :=
  { State.reset with dev := { State.reset.dev with
      now := 100000
      always := { State.reset.dev.always with cause := 2 ^ 24 * 4 }
      boot := { State.reset.dev.boot with phase := .running }
      fused := { State.reset.dev.fused with resetMap := 0 }
      reset := { State.reset.dev.reset with
        level := some 0, accepted := 100000, driving := false, releasedAt := 0, pinHigh := false, pinTaken := false, fellAt := some 0 } } }

/-- Refutes O48: where the reset in progress was accepted at this very instant by another source, a pin reset joins it and takes
its cause (R423), while the clause on a merged pin reset has no premise that excludes that instant and says the always-on record
stays. -/
theorem not_resetsAreAccepted : ¬ Obligations.ResetsAreAccepted := by
  intro h
  have hon : pinMeetsAccepted.on := by decide
  obtain ⟨-, -, -, hmerged⟩ := h 0 pinMeetsAccepted hon
  obtain ⟨-, halways, -⟩ := (hmerged 0 (by decide) rfl rfl (by decide) (by decide) rfl (by decide)).holds hon
  exact absurd halways (by decide)

/-! ### RESET_N (R416, R421 to R423) -/

section ResetPin

variable {d : Dev}

theorem drainMesh_drains (hl : d.reset.level = some 0) (hp : d.reset.phase = .draining) :
    (drainMesh d).reset.phase = .asserted ∧ ∀ p ∈ (drainMesh d).packets, forEdge p = true := by
  rw [drainMesh, if_pos ⟨hl, hp⟩]
  exact ⟨rfl, fun p hp => (List.mem_filter.1 hp).2⟩

/-- RESET_N is no longer driven by the module. -/
def undriven (d : Dev) : Dev := setReset (fun r => { r with driving := false, releasedAt := d.now }) d

theorem releasePin_due (hh : heldInReset d = true) (hd : d.reset.driving = true) (hp : atPowerOn d = false) (hl : 2000000 ≤ d.now - d.reset.accepted) :
    releasePin d = if d.reset.pinHigh then pinFree (undriven d) else undriven d := by
  rw [releasePin, if_pos (by rw [hh, hd, hp, decide_eq_true hl]; rfl)]
  rfl

theorem releasePin_early (hl : d.now - d.reset.accepted < 2000000) : releasePin d = d := by
  rw [releasePin, if_neg (by rw [decide_eq_false (Nat.not_le.2 hl), Bool.and_false]; exact Bool.false_ne_true)]

theorem reset_setUnit (u : Nat) (st : PState) (c : Cause) (d : Dev) : (setUnit u st c d).reset = d.reset := by
  unfold setUnit
  split
  · exact (sameQuiet_setState _ _ _ d).field Dev.reset fun _ => rfl
  · rfl

/-- Units that pass a test take a state, one after the other. -/
def setUnits (test : Nat → Bool) (st : PState) (c : Cause) (l : List Nat) (d : Dev) : Dev :=
  l.foldl (fun x u => if test u then setUnit u st c x else x) d

theorem reset_setUnits (test : Nat → Bool) (st : PState) (c : Cause) (l : List Nat) (d : Dev) :
    (setUnits test st c l d).reset = d.reset := by
  induction l generalizing d with
  | nil => rfl
  | cons u l ih =>
    refine (ih _).trans ?_
    simp only
    split
    · exact reset_setUnit u st c d
    · rfl

theorem state_setUnits {test : Nat → Bool} {st : PState} {c : Cause} {u : Nat} (hu : unitPage u = none) (ht : test u = true)
    {l : List Nat} {d : Dev} (hl : u ∈ l ∨ (unitRec u d).state = st) : (unitRec u (setUnits test st c l d)).state = st := by
  induction l generalizing d with
  | nil => exact hl.resolve_left List.not_mem_nil
  | cons w l ih =>
    refine ih ?_
    simp only
    by_cases hw : u = w
    · subst hw
      rw [if_pos ht]
      exact .inr (unitRec_setUnit_state hu)
    · refine hl.imp (fun h => (List.mem_cons.1 h).resolve_left hw) fun h => ?_
      split
      · rw [unitRec_setUnit_other hw, h]
      · exact h

/-- The units of a compute reset OFF, and those that are tested first in TESTING. -/
def computeUnits (off test : List Nat) (d : Dev) : Dev :=
  setUnits (fun u => usable u d) .testing .reset test (setUnits (fun u => usable u d) .off .reset off d)

/-- Routers fresh, the mesh not tested, and the beacons of supervisors watched from now on, with the blocks starting. -/
def startingMesh (x : Dev) : Dev :=
  setReset (fun r => { r with phase := .starting }) { x with
    routers := []
    boot := { x.boot with meshTested := false }
    lead := { x.lead with
      watchFrom := x.now
      missed := x.lead.missed.drop (fun k => decide (k < 160))
      heard := x.lead.heard.drop (fun k => decide (k < 160)) } }

/-- The start of a compute reset over the units that go OFF and the units that are tested. -/
def startWith (off test : List Nat) (d : Dev) : Dev :=
  let off1 := fun (x : Dev) u => if usable u d then setUnit u .off .reset x else x
  let test1 := fun (x : Dev) u => if usable u d then setUnit u .testing .reset x else x
  let d1 := off.foldl off1 d
  let d2 := test.foldl test1 d1
  setReset (fun r => { r with phase := .starting }) { d2 with
    routers := []
    boot := { d2.boot with meshTested := false }
    lead := { d2.lead with watchFrom := d2.now, missed := d2.lead.missed.drop (fun k => decide (k < 160)), heard := d2.lead.heard.drop (fun k => decide (k < 160)) } }

theorem startCompute_eq (d : Dev) : startCompute d = startWith ((List.range 160).map uSupervisor ++ meshUnits) meshUnits d := rfl

theorem startWith_eq (off test : List Nat) (d : Dev) : startWith off test d = startingMesh (computeUnits off test d) := rfl

theorem reset_computeUnits (off test : List Nat) (d : Dev) : (computeUnits off test d).reset = d.reset :=
  (reset_setUnits _ _ _ _ _).trans (reset_setUnits _ _ _ _ _)

theorem startWith_leaves (off test : List Nat) (d : Dev) : (startWith off test d).reset = { d.reset with phase := .starting }
    ∧ (startWith off test d).boot.meshTested = false ∧ (startWith off test d).routers = [] := by
  have hr := reset_computeUnits off test d
  rw [startWith_eq, ← hr]
  exact ⟨rfl, rfl, rfl⟩

theorem startWith_tests {off test : List Nat} {u : Nat} (hp : unitPage u = none) (hm : u ∈ test) (hu : usable u d = true) :
    unitState u (startWith off test d) = .testing := by
  rw [startWith_eq, unitState_pageless hp]
  exact state_setUnits (test := fun u => usable u d) hp hu (.inl hm)

theorem startCompute_leaves (d : Dev) : (startCompute d).reset = { d.reset with phase := .starting }
    ∧ (startCompute d).boot.meshTested = false ∧ (startCompute d).routers = [] := by
  rw [startCompute_eq]
  exact startWith_leaves _ _ d

theorem unitPage_uRouter {k : Nat} (hk : k < 2560) : unitPage (uRouter k) = none := by
  have hc : unitClass (uRouter k) = 2 := by
    unfold unitClass uRouter
    omega
  simp [unitPage, hc]

theorem uRouter_mem_meshUnits {k : Nat} (hk : k < 2560) : uRouter k ∈ meshUnits := by
  unfold meshUnits
  exact List.mem_append_left _ (List.mem_map_of_mem (List.mem_range.2 hk))

theorem startCompute_tests {k : Nat} (hk : k < 2560) (hu : usable (uRouter k) d = true) :
    unitState (uRouter k) (startCompute d) = .testing := by
  rw [startCompute_eq]
  exact startWith_tests (unitPage_uRouter hk) (uRouter_mem_meshUnits hk) hu

theorem finishRecovery_ends (h : recovered d = true) : (finishRecovery d).reset.level = none
    ∧ (pageOf pReset (finishRecovery d)).events.getLsbD 17 = true
    ∧ rd (rReset 0x60) (finishRecovery d) = (d.now - d.reset.accepted) / 1000000 % 2 ^ 32 := by
  let e := wr (rReset 0x60) ((d.now - d.reset.accepted) / 1000000) (setReset (fun r => { r with level := none }) d)
  have hlevel : (raise pReset 17 e).reset.level = none := by rw [(reported_raise pReset 17 e).sameQuiet.field Dev.reset fun _ => rfl]; rfl
  have hrd : rd (rReset 0x60) (raise pReset 17 e) = (d.now - d.reset.accepted) / 1000000 % 2 ^ 32 :=
    ((reported_raise pReset 17 e).rd_of_ty (by simp)).trans (rd_wr_same _ _ _)
  have hev := events_raise (b := 17) (by decide) pReset e
  rw [finishRecovery, if_pos h]
  generalize raise pReset 17 e = x at hlevel hrd hev ⊢
  unfold endCmdIf
  split
  · next c hc =>
    split
    · have hend : endCmd pReset true x = raise pReset 1 (putPage pReset { pageOf pReset x with result := .done, cmd := none } x) := by
        simp [endCmd, hc]
      rw [hend]
      have hrep := reported_raise pReset 1 (putPage pReset { pageOf pReset x with result := .done, cmd := none } x)
      refine ⟨(congrArg ResetCtl.level (hrep.sameQuiet.field Dev.reset fun _ => rfl)).trans hlevel, ?_, (hrep.rd_of_ty (by simp)).trans hrd⟩
      exact eventsStay_raise pReset pReset 1 _ 17 (by rw [pageOf_putPage_same]; exact hev)
    · exact ⟨hlevel, hev, hrd⟩
  · exact ⟨hlevel, hev, hrd⟩

end ResetPin

theorem resetPinCompletes : Claims.ResetPinCompletes := by
  intro s hon d r
  refine ⟨gives_of_eq hon (f := fun d => setReset (fun r => { r with
        pinHigh := false
        fellAt := if pinIgnored d then none else some d.now }) d) rfl,
    fun hl hp => does_of hon (f := drainMesh) (drainMesh_drains hl hp),
    fun hh hd hp hpin hl => gives_of_eq hon (f := releasePin) ((releasePin_due hh hd hp hl).trans ?_),
    fun hh hd hp hpin hl hlev => does_of hon (f := releasePin) ?_,
    fun hl => gives_of_eq hon (f := releasePin) (releasePin_early hl),
    fun hh hi hpin => gives_of_eq hon (f := fun d => if heldInReset d && !pinIgnored d && !d.reset.pinHigh then
      setReset (fun r => { r with phase := .pinHeld }) d else d) (if_pos ?_),
    fun hh hd hpin hlev => gives_of_eq hon (f := risePin) ?_,
    fun hh => gives_of_eq hon (f := risePin) ?_,
    fun hr => does_of hon (f := finishRecovery) (finishRecovery_ends hr)⟩
  · exact if_neg (by rw [show s.dev.reset.pinHigh = false from hpin]; exact Bool.false_ne_true)
  · obtain ⟨h1, h2, h3⟩ := startCompute_leaves (undriven s.dev)
    have he : releasePin s.dev = startCompute (undriven s.dev) := by
      rw [releasePin_due hh hd hp hl, show s.dev.reset.pinHigh = true from hpin, if_pos rfl, pinFree,
        if_pos (show (undriven s.dev).reset.level = some 0 from hlev)]
    rw [he]
    exact ⟨h1, h2, h3, fun k hk hu => startCompute_tests hk hu⟩
  · rw [show heldInReset s.dev = true from hh, show pinIgnored s.dev = false from hi, show s.dev.reset.pinHigh = false from hpin]
    rfl
  · simp only [risePin, show heldInReset s.dev = true from hh, show s.dev.reset.driving = false from hd,
      show s.dev.reset.pinHigh = false from hpin, Bool.not_false, Bool.and_self, if_true]
    exact if_neg hlev
  · simp only [risePin, show heldInReset s.dev = false from hh, Bool.false_and, Bool.false_eq_true, if_false]
    rfl

/-! ### Beacons (R410, R412) -/

section Beacons

variable {k : Nat} {d : Dev}

theorem countMiss_early (h : ¬ 1000000 ≤ d.now - d.lead.heard.get d.lead.watchFrom k) : countMiss k false d = d := by
  simp only [countMiss, Bool.not_false, Bool.true_and, decide_eq_true_eq]
  exact if_pos (Nat.not_le.1 h)

theorem missed_countMiss (h : 1000000 ≤ d.now - d.lead.heard.get d.lead.watchFrom k) :
    (countMiss k false d).lead.missed.get 0 k = d.lead.missed.get 0 k + 1 := by
  simp only [countMiss, Bool.not_false, Bool.true_and, decide_eq_true_eq]
  rw [if_neg (Nat.not_lt.2 h)]
  exact tbl_get_set_same _ _ _ _

theorem missed_countMiss_came : (countMiss k true d).lead.missed.get 0 k = 0 := by
  simp only [countMiss, Bool.not_true, Bool.false_and, Bool.false_eq_true, if_false]
  exact tbl_get_set_same _ _ _ _

theorem leadBeacon_due (hl : (leadRuns d).isSome = true) (h : 10000000 ≤ d.now - d.lead.beaconAt) :
    Reported (addWrap (rModule 0x50) 1 { d with lead := { d.lead with beaconAt := d.now } }) (leadBeacon d) := by
  rw [leadBeacon, if_pos (by rw [hl, decide_eq_true h]; rfl)]
  exact reported_deliver _ _ _

theorem leadBeacon_early (h : d.now - d.lead.beaconAt < 10000000) : leadBeacon d = d := by
  rw [leadBeacon, if_neg (by rw [decide_eq_false (Nat.not_le.2 h), Bool.and_false]; exact Bool.false_ne_true)]

/-- What follows a beacon that came or not: the fourth miss in a row is acted on. -/
def judgeMiss (k : Nat) (came : Bool) (act : Dev → Dev) (d : Dev) : Dev :=
  if 4 ≤ (countMiss k came d).lead.missed.get 0 k then act (countMiss k came d) else countMiss k came d

variable {act : Dev → Dev}

theorem judgeMiss_came : judgeMiss k true act d = countMiss k true d := if_neg (by rw [missed_countMiss_came]; decide)

theorem judgeMiss_early (h : ¬ 1000000 ≤ d.now - d.lead.heard.get d.lead.watchFrom k) (hm : d.lead.missed.get 0 k < 4) :
    judgeMiss k false act d = d := by
  rw [judgeMiss, countMiss_early h, if_neg (Nat.not_le.2 hm)]

theorem judgeMiss_counts (h : 1000000 ≤ d.now - d.lead.heard.get d.lead.watchFrom k) (hm : d.lead.missed.get 0 k < 3) :
    judgeMiss k false act d = countMiss k false d := if_neg (by rw [missed_countMiss h]; omega)

theorem judgeMiss_acts (h : 1000000 ≤ d.now - d.lead.heard.get d.lead.watchFrom k) (hm : 3 ≤ d.lead.missed.get 0 k) :
    judgeMiss k false act d = act (countMiss k false d) := if_pos (by rw [missed_countMiss h]; omega)

end Beacons

theorem beaconsComplete : Claims.BeaconsComplete := by
  intro i s hon hlead d missed due
  refine ⟨fun hi hst hph => ?_, fun hi hu => ?_, fun k hk => missed_countMiss hk,
    fun h => reaches_of_reported hon (f := leadBeacon) (leadBeacon_due hlead h),
    fun h => gives_of_eq hon (f := leadBeacon) (leadBeacon_early h)⟩
  · have hgives : ∀ came e, judgeMiss i came (supervisorHung i) s.dev = e → Gives s (exec (.supervisorBeacon i came) s) e := by
      intro came e he
      have hgo : ((leadRuns s.dev).isSome && decide (i < 160) && unitState (uSupervisor i) s.dev == .ready && s.dev.reset.phase == .starting) = true := by
        rw [hlead, decide_eq_true hi, show unitState (uSupervisor i) s.dev = .ready from hst, show s.dev.reset.phase = .starting from hph]
        rfl
      exact gives_of_eq hon (f := fun d =>
        if (leadRuns d).isSome && decide (i < 160) && unitState (uSupervisor i) d == .ready && d.reset.phase == .starting then
          judgeMiss i came (supervisorHung i) d else d) ((if_pos hgo).trans he)
    exact ⟨⟨missed_countMiss_came, hgives _ _ judgeMiss_came⟩, fun hd hm => hgives _ _ (judgeMiss_early hd hm),
      fun hd hm => hgives _ _ (judgeMiss_counts hd hm), fun hd hm => hgives _ _ (judgeMiss_acts hd hm)⟩
  · have hgives : ∀ came e, judgeMiss (160 + i) came (fun x => retireUnit (uDie i) .hang (logHang (uDie i) 3 0 0 x)) s.dev = e →
        Gives s (exec (.dieControllerBeacon i came) s) e := by
      intro came e he
      have hgo : ((leadRuns s.dev).isSome && decide (i < 10) && usable (uDie i) s.dev) = true := by
        rw [hlead, decide_eq_true hi, show usable (uDie i) s.dev = true from hu]
        rfl
      exact gives_of_eq hon (f := fun d => if (leadRuns d).isSome && decide (i < 10) && usable (uDie i) d then
        judgeMiss (160 + i) came (fun x => retireUnit (uDie i) .hang (logHang (uDie i) 3 0 0 x)) d else d) ((if_pos hgo).trans he)
    exact ⟨hgives _ _ judgeMiss_came, fun hd hm => hgives _ _ (judgeMiss_early hd hm),
      fun hd hm => hgives _ _ (judgeMiss_counts hd hm), fun hd hm => hgives _ _ (judgeMiss_acts hd hm)⟩

/-- Settles O49: RESET_N and the compute reset function by function, and a beacon by the count of its misses. -/
theorem resetPinAndBeaconsComplete : Obligations.ResetPinAndBeaconsComplete := ⟨resetPinCompletes, beaconsComplete⟩

end Sys2Proof.Machine
end


section
/-!
SUPPORT. The control cycle and its mirror record (R431 to R437).
-/

namespace Sys2Proof.Machine

/-! ### What the readings of a cycle leave -/

/-- Power, always-on state and the lead stay, and every register of the complexes. -/
structure KeepsCycle (d e : Dev) : Prop where
  power : e.power = d.power
  always : e.always = d.always
  lead : e.lead = d.lead
  regs : ∀ i off, rd (rComplex i off) e = rd (rComplex i off) d

theorem KeepsCycle.refl (d : Dev) : KeepsCycle d d := ⟨rfl, rfl, rfl, fun _ _ => rfl⟩

theorem KeepsCycle.trans {a b c : Dev} (h : KeepsCycle a b) (k : KeepsCycle b c) : KeepsCycle a c :=
  ⟨k.power.trans h.power, k.always.trans h.always, k.lead.trans h.lead, fun i off => (k.regs i off).trans (h.regs i off)⟩

theorem KeepsCycle.foldl {α : Type} {f : Dev → α → Dev} (h : ∀ d x, KeepsCycle d (f d x)) (l : List α) (d : Dev) :
    KeepsCycle d (l.foldl f d) := by
  induction l generalizing d with
  | nil => exact .refl d
  | cons x l ih => exact (h d x).trans (ih _)

theorem Reported.keepsCycle {d e : Dev} (h : Reported d e) : KeepsCycle d e :=
  ⟨h.sameQuiet.field Dev.power fun _ => rfl, h.sameQuiet.field Dev.always fun _ => rfl, h.sameQuiet.field Dev.lead fun _ => rfl,
    fun _ _ => h.rd_of_ty (by simp)⟩

theorem keepsCycle_wr {r : RegId} (hr : r.ty ≠ .controlComplex) (n : Nat) (d : Dev) : KeepsCycle d (wr r n d) :=
  ⟨rfl, rfl, rfl, fun i off => rd_wr_other n d fun h => hr ((homeOf_ty r).symm.trans ((congrArg RegId.ty h.symm).trans (homeOf_ty (rComplex i off))))⟩

theorem keepsCycle_settleLimit (d : Dev) : KeepsCycle d (settleLimit d) := by
  have hw : KeepsCycle d (wr (rPower 0x58) (limitWord d) d) := keepsCycle_wr (by simp) _ d
  unfold settleLimit
  simp only
  split
  · exact hw
  · exact hw.trans (reported_raise _ _ _).keepsCycle

theorem keepsCycle_cycleSpot (h : Nat) (d : Dev) : KeepsCycle d (cycleSpot h d) := by
  have hput : ∀ x, KeepsCycle d (putSpot h x d) := fun _ => ⟨rfl, rfl, rfl, fun _ _ => rfl⟩
  unfold cycleSpot
  split
  · exact .refl d
  · simp only
    split
    · exact .refl d
    · split
      · exact (hput _).trans (reported_raise _ _ _).keepsCycle
      · exact hput _

/-- What the power loop keeps of a cycle's readings. -/
def tookReadings (m : CycleInputs) (p : PowerSt) : PowerSt :=
  { p with offset := nextOffset m.measured p, measured := m.measured, volts := m.volts, amps := m.amps, cycleSum := 0, cycleCount := 0 }

/-- The readings of a cycle are kept and judged, spot by spot of a list. -/
def judgedCycle (spots : List Nat) (m : CycleInputs) (d : Dev) : Dev :=
  settleLimit (spots.foldl (fun x h => cycleSpot h x) (modPower (tookReadings m) d))

section CyclePower

variable (m : CycleInputs) (d : Dev)

theorem cyclePower_eq : cyclePower m d = noteReadings (judgedCycle (List.range 44) m d) := by
  simp only [cyclePower, judgedCycle]
  rfl

theorem keepsCycle_judged (spots : List Nat) : KeepsCycle (modPower (tookReadings m) d) (judgedCycle spots m d) :=
  (KeepsCycle.foldl (fun x h => keepsCycle_cycleSpot h x) _ _).trans (keepsCycle_settleLimit _)

/-- The readings noted for the view of the lead change neither registers nor what the loop keeps. -/
theorem noteReadings_leaves : (noteReadings d).always = d.always ∧ (noteReadings d).lead = d.lead ∧ (noteReadings d).regs = d.regs
    ∧ (noteReadings d).power.measured = d.power.measured ∧ (noteReadings d).power.volts = d.power.volts
    ∧ (noteReadings d).power.amps = d.power.amps ∧ (noteReadings d).power.offset = d.power.offset
    ∧ (noteReadings d).power.cycleCount = d.power.cycleCount := by
  simp only [noteReadings, modPower, and_self]

theorem cyclePower_leaves : (cyclePower m d).always = d.always ∧ (cyclePower m d).lead = d.lead
    ∧ ∀ i off, rd (rComplex i off) (cyclePower m d) = rd (rComplex i off) d := by
  have h := keepsCycle_judged m d (List.range 44)
  rw [cyclePower_eq]
  generalize judgedCycle (List.range 44) m d = x at h ⊢
  obtain ⟨h1, h2, h3, -⟩ := noteReadings_leaves x
  exact ⟨h1.trans h.always, h2.trans h.lead, fun i off => (show rd (rComplex i off) (noteReadings x) = rd (rComplex i off) x by simp only [rd, h3]).trans (h.regs i off)⟩

theorem power_cyclePower : (cyclePower m d).power.measured = m.measured ∧ (cyclePower m d).power.volts = m.volts
    ∧ (cyclePower m d).power.amps = m.amps ∧ (cyclePower m d).power.offset = nextOffset m.measured d.power
    ∧ (cyclePower m d).power.cycleCount = 0 := by
  have h := (keepsCycle_judged m d (List.range 44)).power
  rw [cyclePower_eq]
  generalize judgedCycle (List.range 44) m d = x at h ⊢
  obtain ⟨-, -, -, h4, h5, h6, h7, h8⟩ := noteReadings_leaves x
  exact ⟨h4.trans (congrArg PowerSt.measured h), h5.trans (congrArg PowerSt.volts h), h6.trans (congrArg PowerSt.amps h),
    h7.trans (congrArg PowerSt.offset h), h8.trans (congrArg PowerSt.cycleCount h)⟩

end CyclePower

/-! ### Registers of a complex -/

section Registers

variable {i j a b n : Nat} {d : Dev}

theorem rd_wr_complex (h : a ≠ b) : rd (rComplex i a) (wr (rComplex j b) n d) = rd (rComplex i a) d :=
  rd_wr_other n d (by simp [homeOf, h])

theorem rd_addWrap_complex (h : a ≠ b) : rd (rComplex i a) (addWrap (rComplex j b) n d) = rd (rComplex i a) d := rd_wr_complex h

end Registers

/-! ### The cycle (R431, R432, R434, R437) -/

section Cycle

variable {m : CycleInputs} {c : OpenCycle} {i j code : Nat} {d : Dev}

/-- The counts of a cycle that has run: its energy, a late end, and the errors corrected. -/
def countedDev (i : Nat) (m : CycleInputs) (d : Dev) : Dev :=
  countEnergy m ((if m.overrun then bump (rComplex i 0x4C) else id) (addSat (rComplex i 0x70) m.corrected d))

/-- The counts of a cycle change only two counters of the lead's complex and the energy. -/
theorem countedDev_eq (i : Nat) (m : CycleInputs) (d : Dev) : ∃ regs, (∀ k a, a ≠ 0x4C → a ≠ 0x70 →
      rd (rComplex k a) { d with regs := regs } = rd (rComplex k a) d)
    ∧ countedDev i m d = { d with
      regs := regs
      always := { d.always with
        energy := d.always.energy + (d.always.energyRest + m.measured) / 160
        energyRest := (d.always.energyRest + m.measured) % 160 } } := by
  cases ho : m.overrun with
  | false =>
    refine ⟨(addSat (rComplex i 0x70) m.corrected d).regs, fun k a _ h => rd_wr_complex (d := d) h, ?_⟩
    simp only [countedDev, ho]
    rfl
  | true =>
    refine ⟨(bump (rComplex i 0x4C) (addSat (rComplex i 0x70) m.corrected d)).regs, fun k a h h' =>
      (rd_wr_complex (d := addSat (rComplex i 0x70) m.corrected d) h).trans (rd_wr_complex (d := d) h'), ?_⟩
    simp only [countedDev, ho]
    rfl

theorem rd_countedDev {a : Nat} (h : a ≠ 0x4C) (h' : a ≠ 0x70) (k : Nat) : rd (rComplex k a) (countedDev i m d) = rd (rComplex k a) d := by
  obtain ⟨regs, hregs, he⟩ := countedDev_eq i m d
  rw [he]
  exact hregs k a h h'

theorem countedDev_leaves (i : Nat) (m : CycleInputs) (d : Dev) : (countedDev i m d).lead = d.lead ∧ (countedDev i m d).power = d.power
    ∧ (countedDev i m d).complexes = d.complexes
    ∧ 160 * (countedDev i m d).always.energy + (countedDev i m d).always.energyRest = 160 * d.always.energy + d.always.energyRest + m.measured := by
  obtain ⟨regs, -, he⟩ := countedDev_eq i m d
  rw [he]
  refine ⟨rfl, rfl, rfl, ?_⟩
  simp only
  omega

theorem inRole_of_complexes {e : Dev} (h : e.complexes = d.complexes) (r : Role) : inRole r e = inRole r d := by
  simp only [inRole, complexOf, h]

theorem leadRuns_countEnergy : leadRuns (countEnergy m d) = leadRuns d := rfl

section NoCycle

variable (hl : leadRuns d = some i) (hc : d.lead.cycle = none)
include hc

theorem freeCycle_none : freeCycle i (countEnergy m d) = countEnergy m d := by
  simp only [freeCycle, show (countEnergy m d).lead.cycle = none from hc]

omit hc in
theorem countedDev_comm : (if m.overrun then bump (rComplex i 0x4C) else id) (addSat (rComplex i 0x70) m.corrected (countEnergy m d))
    = countedDev i m d := by
  unfold countedDev
  cases m.overrun <;> rfl

include hl

theorem runCycle_surrenders (hf : m.failedCheck = some code) : runCycle m (countEnergy m d) = surrender i code (countedDev i m d) := by
  simp only [runCycle, leadRuns_countEnergy, hl, freeCycle_none hc, show (countEnergy m d).lead.cycle = none from hc, Option.isSome_none,
    Bool.false_eq_true, if_false, countedDev_comm, hf]

theorem runCycle_passes (hf : m.failedCheck = none) : runCycle m (countEnergy m d) =
    if (inRole .second (countedDev i m d)).isSome then sendRecord i m (countedDev i m d)
    else releaseCycle i m (countedDev i m d).lead.latches (modLead (fun l => { l with latches := [] }) (countedDev i m d)) := by
  simp only [runCycle, leadRuns_countEnergy, hl, freeCycle_none hc, show (countEnergy m d).lead.cycle = none from hc, Option.isSome_none,
    Bool.false_eq_true, if_false, countedDev_comm, hf]

end NoCycle

/-- A cycle has ended: its time, and one more counted. -/
def cycleEnded (i : Nat) (d : Dev) : Dev := addWrap (rComplex i 0x48) 1 (modLead (fun l => { l with cycleEnd := d.now }) d)

theorem releaseCycle_eq (i : Nat) (m : CycleInputs) (hl : d.lead.takeover = none) :
    releaseCycle i m [] d = cyclePower m (cycleEnded i d) := by
  have ht : (cyclePower m (cycleEnded i d)).lead.takeover = none :=
    (congrArg Lead.takeover (cyclePower_leaves m (cycleEnded i d)).2.1).trans hl
  unfold releaseCycle
  rw [List.foldl_nil, ← cycleEnded]
  generalize cyclePower m (cycleEnded i d) = x at ht ⊢
  simp only [ht]

/-- With no takeover and nothing judged, a released cycle leaves its readings and one more cycle counted. -/
theorem releaseCycle_leaves (i : Nat) (m : CycleInputs) (hl : d.lead.takeover = none) :
    (releaseCycle i m [] d).lead = { d.lead with cycleEnd := d.now } ∧ (releaseCycle i m [] d).always = d.always
    ∧ rd (rComplex i 0x48) (releaseCycle i m [] d) = (rd (rComplex i 0x48) d + 1) % 2 ^ 32
    ∧ (∀ k a, a ≠ 0x48 → rd (rComplex k a) (releaseCycle i m [] d) = rd (rComplex k a) d) := by
  obtain ⟨h1, h2, h3⟩ := cyclePower_leaves m (cycleEnded i d)
  rw [releaseCycle_eq i m hl]
  exact ⟨h2, h1, (h3 i 0x48).trans (rd_addWrap_same _ _ _), fun k a ha => (h3 k a).trans (rd_addWrap_complex ha)⟩

theorem power_releaseCycle (i : Nat) (m : CycleInputs) (hl : d.lead.takeover = none) :
    (releaseCycle i m [] d).power.measured = m.measured ∧ (releaseCycle i m [] d).power.volts = m.volts
    ∧ (releaseCycle i m [] d).power.amps = m.amps ∧ (releaseCycle i m [] d).power.offset = nextOffset m.measured d.power
    ∧ (releaseCycle i m [] d).power.cycleCount = 0 := by
  rw [releaseCycle_eq i m hl]
  exact power_cyclePower m (cycleEnded i d)

theorem runCycle_alone (hl : leadRuns d = some i) (hc : d.lead.cycle = none) (hs : inRole .second d = none)
    (hla : d.lead.latches = []) (hf : m.failedCheck = none) :
    runCycle m (countEnergy m d) = releaseCycle i m [] (modLead (fun l => { l with latches := [] }) (countedDev i m d)) := by
  obtain ⟨h1, -, h3, -⟩ := countedDev_leaves i m d
  rw [runCycle_passes hl hc hf, inRole_of_complexes h3, hs, h1, hla]
  exact if_neg Bool.false_ne_true

/-- The counts of a cycle, and its latches taken. -/
def latchedDev (i : Nat) (m : CycleInputs) (d : Dev) : Dev := modLead (fun l => { l with latches := [] }) (countedDev i m d)

theorem runCycle_alone_leaves (hl : leadRuns d = some i) (hc : d.lead.cycle = none) (ht : d.lead.takeover = none) (hs : inRole .second d = none)
    (hla : d.lead.latches = []) (hf : m.failedCheck = none) :
    rd (rComplex i 0x48) (runCycle m (countEnergy m d)) = (rd (rComplex i 0x48) d + 1) % 2 ^ 32
    ∧ (runCycle m (countEnergy m d)).power.measured = m.measured ∧ (runCycle m (countEnergy m d)).power.volts = m.volts
    ∧ (runCycle m (countEnergy m d)).power.amps = m.amps
    ∧ (runCycle m (countEnergy m d)).power.offset = nextOffset m.measured d.power ∧ (runCycle m (countEnergy m d)).power.cycleCount = 0
    ∧ 160 * (runCycle m (countEnergy m d)).always.energy + (runCycle m (countEnergy m d)).always.energyRest
      = 160 * d.always.energy + d.always.energyRest + m.measured := by
  obtain ⟨h1, h2, -, h4⟩ := countedDev_leaves i m d
  have ht' : (latchedDev i m d).lead.takeover = none := (congrArg Lead.takeover h1).trans ht
  obtain ⟨-, halways, hrd, -⟩ := releaseCycle_leaves i m ht'
  obtain ⟨p1, p2, p3, p4, p5⟩ := power_releaseCycle i m ht'
  have he : runCycle m (countEnergy m d) = releaseCycle i m [] (latchedDev i m d) := runCycle_alone hl hc hs hla hf
  rw [he]
  generalize releaseCycle i m [] (latchedDev i m d) = x at halways hrd p1 p2 p3 p4 p5 ⊢
  refine ⟨hrd.trans ?_, p1, p2, p3, p4.trans (congrArg (nextOffset m.measured) h2), p5, by rw [halways]; exact h4⟩
  rw [show rd (rComplex i 0x48) (latchedDev i m d) = rd (rComplex i 0x48) (countedDev i m d) from rfl, rd_countedDev (by decide) (by decide)]

theorem sendRecord_leaves : (sendRecord i m d).lead.cycle = some ⟨m, d.lead.latches, false, d.now⟩
    ∧ rd (rComplex i 0x50) (sendRecord i m d) = (rd (rComplex i 0x50) d + 1) % 2 ^ 32 :=
  ⟨rfl, (rd_wr_complex (d := addWrap (rComplex i 0x50) 1 (modLead (fun l => { l with cycle := some ⟨m, l.latches, false, d.now⟩, latches := [] }) d))
    (by decide : (0x50 : Nat) ≠ 0x58)).trans (rd_addWrap_same _ _ _)⟩

/-- The cycle that an acknowledged record releases: the second's register holds the record's number. -/
def acknowledgedDev (i j : Nat) (d : Dev) : Dev :=
  modLead (fun l => { l with cycle := none }) (wr (rComplex j 0x50) (rd (rComplex i 0x50) d) (modLead (fun l => { l with recordAt := d.now }) d))

theorem takeRecord_good (hl : leadRuns d = some i) (hc : d.lead.cycle = some c) (hs : inRole .second d = some j) :
    takeRecord true d = releaseCycle i c.inputs c.judged (acknowledgedDev i j d) := by
  simp only [takeRecord, hl, hc, hs]
  rfl

theorem takeRecord_bad (hl : leadRuns d = some i) (hc : d.lead.cycle = some c) (hs : inRole .second d = some j) :
    takeRecord false d = { d with lead := { d.lead with recordAt := d.now } } := by
  have he : takeRecord false d = modLead (fun l => { l with recordAt := d.now }) d := by
    simp only [takeRecord, hl, hc, hs, Bool.false_eq_true, if_false]
  exact he

theorem takeRecord_leaves (hl : leadRuns d = some i) (hc : d.lead.cycle = some c) (hs : inRole .second d = some j)
    (ht : d.lead.takeover = none) (hj : c.judged = []) : (takeRecord true d).lead.cycle = none
    ∧ rd (rComplex i 0x48) (takeRecord true d) = (rd (rComplex i 0x48) d + 1) % 2 ^ 32
    ∧ rd (rComplex j 0x50) (takeRecord true d) = rd (rComplex i 0x50) d ∧ (takeRecord true d).lead.recordAt = d.now
    ∧ (takeRecord true d).lead.cycleEnd = d.now ∧ (takeRecord true d).power.measured = c.inputs.measured := by
  obtain ⟨h1, -, h3, h4⟩ := releaseCycle_leaves (d := acknowledgedDev i j d) i c.inputs ht
  obtain ⟨h5, -⟩ := power_releaseCycle (d := acknowledgedDev i j d) i c.inputs ht
  rw [takeRecord_good hl hc hs, hj, h1, h3, h4 j 0x50 (by decide), h5]
  refine ⟨rfl, ?_, ?_, rfl, rfl, rfl⟩
  · rw [show rd (rComplex i 0x48) (acknowledgedDev i j d) = rd (rComplex i 0x48) d from
      rd_wr_complex (d := modLead (fun l => { l with recordAt := d.now }) d) (by decide : (0x48 : Nat) ≠ 0x50)]
  · exact (rd_wr_same (rComplex j 0x50) (rd (rComplex i 0x50) d) _).trans (Nat.mod_eq_of_lt (rd_lt _ _))

theorem resendRecord_again (hl : leadRuns d = some i) (hc : d.lead.cycle = some c) (hs : inRole .second d = some j) (hr : c.resent = false)
    (ht : 10000 ≤ d.now - c.sentAt) : resendRecord d = bump (rComplex i 0x54)
      { d with lead := { d.lead with cycle := some { c with resent := true, sentAt := d.now } } } := by
  simp only [resendRecord, hl, hc, hs, hr, if_neg (Nat.not_lt.2 ht), Bool.false_eq_true, if_false]
  rfl

theorem resendRecord_early (hl : leadRuns d = some i) (hc : d.lead.cycle = some c) (ht : d.now - c.sentAt < 10000) : resendRecord d = d := by
  cases hs : inRole .second d with
  | none => simp only [resendRecord, hl, hc, hs]
  | some j => simp only [resendRecord, hl, hc, hs, if_pos ht]

end Cycle

/-- Settles O50: the cycle without a second and with one, the record acknowledged or not, and the record sent once more. -/
theorem controlCyclesComplete : Obligations.ControlCyclesComplete := by
  intro m c i j code s hon hl ht d d1 d2
  have hd2 : d2 = countedDev i m s.dev := rfl
  obtain ⟨hlead, -, hcomplexes, -⟩ := countedDev_leaves i m s.dev
  refine ⟨fun hs hc hla hf => does_of hon (f := fun d => runCycle m (countEnergy m d)) (runCycle_alone_leaves hl hc ht hs hla hf),
    fun hs hc hf => ⟨gives_of_eq hon (f := fun d => runCycle m (countEnergy m d)) ?_, ?_⟩,
    fun hc hf => gives_of_eq hon (f := fun d => runCycle m (countEnergy m d)) ?_,
    fun hs hc hj => ⟨does_of hon (f := takeRecord true) (takeRecord_leaves hl hc hs ht hj),
      gives_of_eq hon (f := takeRecord false) (takeRecord_bad hl hc hs)⟩,
    fun hs hc hr hn => gives_of_eq hon (f := resendRecord) (resendRecord_again hl hc hs hr hn),
    fun hc hn => gives_of_eq hon (f := resendRecord) (resendRecord_early hl hc hn)⟩
  · rw [runCycle_passes hl hc hf, inRole_of_complexes hcomplexes, show inRole .second s.dev = some j from hs]
    rfl
  · rw [hd2]
    obtain ⟨h1, h2⟩ := sendRecord_leaves (i := i) (m := m) (d := countedDev i m s.dev)
    refine ⟨h1.trans ?_, h2.trans (by rw [rd_countedDev (by decide) (by decide)])⟩
    obtain ⟨regs, -, he⟩ := countedDev_eq i m s.dev
    rw [he]
  · exact runCycle_surrenders hl hc hf

end Sys2Proof.Machine
end


section
/-!
SUPPORT. Takeover by the second, rejoining, and the safe state (R436 to R448).
-/

namespace Sys2Proof.Machine

/-! ### What leaves the complexes -/

/-- The complexes, the lead, the always-on state and the pages of the complexes stay, but for reports. -/
structure KeepsComplex (d e : Dev) : Prop where
  complexes : e.complexes = d.complexes
  lead : e.lead = d.lead
  always : e.always = d.always
  pages : ∀ p : PageId, p.ty = .controlComplex → (pageOf p e).quiet = (pageOf p d).quiet

theorem KeepsComplex.refl (d : Dev) : KeepsComplex d d := ⟨rfl, rfl, rfl, fun _ _ => rfl⟩

theorem KeepsComplex.trans {a b c : Dev} (h : KeepsComplex a b) (k : KeepsComplex b c) : KeepsComplex a c :=
  ⟨k.complexes.trans h.complexes, k.lead.trans h.lead, k.always.trans h.always, fun p hp => (k.pages p hp).trans (h.pages p hp)⟩

theorem KeepsComplex.foldl {α : Type} {f : Dev → α → Dev} {l : List α} (h : ∀ d, ∀ x ∈ l, KeepsComplex d (f d x)) (d : Dev) :
    KeepsComplex d (l.foldl f d) := by
  induction l generalizing d with
  | nil => exact .refl d
  | cons x l ih => exact (h d x List.mem_cons_self).trans (ih (fun d y hy => h d y (List.mem_cons_of_mem _ hy)) _)

theorem Reported.keepsComplex {d e : Dev} (h : Reported d e) : KeepsComplex d e :=
  ⟨h.sameQuiet.field Dev.complexes fun _ => rfl, h.sameQuiet.field Dev.lead fun _ => rfl, h.sameQuiet.field Dev.always fun _ => rfl,
    fun p _ => h.2.1 p⟩

theorem InMemory.keepsComplex {d e : Dev} (h : InMemory d e) : KeepsComplex d e := by
  have hc := h.control
  simp only [controlOf, Prod.mk.injEq] at hc
  obtain ⟨halways, -, -, -, -, -, -, hcomplexes, hlead, -, -⟩ := hc
  exact ⟨hcomplexes, hlead, halways, fun p hp => h.pages p (by rw [hp]; decide)⟩

theorem KeepsComplex.stateOf {d e : Dev} (h : KeepsComplex d e) (i : Nat) : stateOf (pComplex i) e = stateOf (pComplex i) d := by
  have hs := congrArg Page.state (h.pages (pComplex i) rfl)
  exact hs

theorem KeepsComplex.complexOf {d e : Dev} (h : KeepsComplex d e) (i : Nat) : complexOf i e = complexOf i d := by
  rw [Machine.complexOf, h.complexes, Machine.complexOf]

section Pages

variable {p : PageId} (hp : p.ty ≠ .controlComplex)
include hp

theorem keepsComplex_putPage (g : Page) (d : Dev) : KeepsComplex d (putPage p g d) :=
  ⟨rfl, rfl, rfl, fun q hq => by rw [pageOf_putPage_other g d fun h => hp (by rw [← h, hq])]⟩

theorem keepsComplex_setState (st : PState) (c : Cause) (d : Dev) : KeepsComplex d (setState p st c d) :=
  (keepsComplex_putPage hp { pageOf p d with state := st, cause := c, gen := fpGen d % 65536 } d).trans (reported_raise p 0 _).keepsComplex

end Pages

theorem keepsComplex_applyMemPacket (p : Packet) (d : Dev) : KeepsComplex d (applyMemPacket p d) := by
  have hlanded : ∀ l a bs, KeepsComplex d (landed l a bs d).2 := fun l a bs => by
    unfold landed
    split <;> exact ⟨rfl, rfl, rfl, fun _ _ => rfl⟩
  have hfree : ∀ l x, KeepsComplex x (freeMemory l x) := fun l x =>
    .foldl (fun y r _ => KeepsComplex.trans (b := { y with fresh := y.fresh + r.2 }) ⟨rfl, rfl, rfl, fun _ _ => rfl⟩
      (inMemory_memWrite r.1 (freeList r.2 y) [] _).keepsComplex) x
  simp only [applyMemPacket]
  split
  · generalize (if fromCore p = true then racedOf (senderOf p) p.msgId d else []) = l
    refine (hlanded l p.address p.payload).trans ?_
    refine KeepsComplex.trans (inMemory_memWrite p.address (landed l p.address p.payload d).1 p.poison _).keepsComplex ?_
    exact (hfree _ _).trans ⟨rfl, rfl, rfl, fun _ _ => rfl⟩
  · exact (inMemory_memTouch p.address p.amount (some p.ctx) d).keepsComplex.trans ⟨rfl, rfl, rfl, fun _ _ => rfl⟩

theorem keepsComplex_releaseHeld (c : Nat) (waiting kept : List Packet) (d : Dev) : KeepsComplex d (releaseHeld waiting kept c d) := by
  induction waiting generalizing kept d with
  | nil => exact ⟨rfl, rfl, rfl, fun _ _ => rfl⟩
  | cons p r ih =>
    rw [releaseHeld]
    split
    · exact ih _ _
    · exact (keepsComplex_applyMemPacket p d).trans (ih _ _)

theorem keepsComplex_afterHold (p : PageId) (d : Dev) : KeepsComplex d (afterHold p d) := by
  unfold afterHold
  split
  · exact keepsComplex_releaseHeld _ _ _ d
  · exact .refl d

theorem keepsComplex_becomeReady {p : PageId} (hp : p.ty ≠ .controlComplex) (c : Cause) (d : Dev) : KeepsComplex d (becomeReady p c d) := by
  have h1 := keepsComplex_setState hp .ready c d
  simp only [becomeReady, moveTo_up p (st := .ready) rfl]
  refine h1.trans ?_
  generalize setState p .ready c d = x
  split
  · next h _ _ =>
    rw [moveTo_up p (st := .quiesced) rfl]
    exact ((keepsComplex_putPage hp { pageOf p x with before := .ready } x).trans (keepsComplex_setState hp .quiesced (holdCause h) _)).trans
      (keepsComplex_afterHold p _)
  · refine KeepsComplex.trans ?_ (keepsComplex_afterHold p _)
    split
    · exact .refl x
    · exact keepsComplex_setState hp _ _ x

theorem keepsComplex_readyPage {p : PageId} (hp : p.ty ≠ .controlComplex) (d : Dev) : KeepsComplex d (readyPage p d) := by
  unfold readyPage
  split
  · exact keepsComplex_becomeReady hp _ d
  · exact .refl d

theorem keepsComplex_wr (r : RegId) (n : Nat) (d : Dev) : KeepsComplex d (wr r n d) := ⟨rfl, rfl, rfl, fun _ _ => rfl⟩

theorem keepsComplex_mgmtEvent (b : Nat) (d : Dev) : KeepsComplex d (mgmtEvent b d) := ⟨rfl, rfl, rfl, fun _ _ => rfl⟩

theorem keepsComplex_modMgmt (f : Mgmt → Mgmt) (d : Dev) : KeepsComplex d (modMgmt f d) := ⟨rfl, rfl, rfl, fun _ _ => rfl⟩

theorem plainPages_ty {side : Nat} {p : PageId} (h : p ∈ plainPages side) : p.ty ≠ .controlComplex := by
  simp only [plainPages, List.mem_append, List.mem_cons, List.not_mem_nil, or_false, List.mem_flatMap] at h
  obtain (rfl | rfl | rfl | rfl) | ⟨r, -, rfl | rfl⟩ := h <;> exact fun h => nomatch h

theorem keepsComplex_settleIo (d : Dev) : KeepsComplex d (settleIo d) := by
  have hpages : KeepsComplex d ([0, 1].foldl (fun x s =>
      if stateOf ⟨.dieController, 8 + s⟩ x == .testing && sideTested s x then
        (plainPages s).foldl (fun y p => readyPage p y) x else x) d) := by
    refine .foldl (fun x s _ => ?_) d
    split
    · exact .foldl (fun y p hp => keepsComplex_readyPage (plainPages_ty hp) y) x
    · exact .refl x
  simp only [settleIo]
  refine hpages.trans ?_
  generalize List.foldl _ d [0, 1] = x
  split
  · exact ((keepsComplex_wr (rModule 0x5C) _ x).trans (keepsComplex_readyPage (p := pJob) (by simp) _)).trans
      (keepsComplex_readyPage (p := pPower) (by simp) _)
  · exact .refl x

theorem keepsComplex_judgeGuarantee (b m : Bool) (d : Dev) : KeepsComplex d (judgeGuarantee b m d) := by
  simp only [judgeGuarantee]
  split
  · exact ((keepsComplex_wr _ _ d).trans (reported_raise pModule 17 _).keepsComplex).trans (keepsComplex_mgmtEvent 1 _)
  · exact .refl d

theorem keepsComplex_completeStart (d : Dev) : KeepsComplex d (completeStart d) := by
  have hset : ∀ x, KeepsComplex d x → KeepsComplex d (mgmtEvent 13 (raise pModule 18 (setState pModule .ready .testPassed x))) :=
    fun x hx => ((hx.trans (keepsComplex_setState (p := pModule) (by simp) .ready .testPassed x)).trans (reported_raise pModule 18 _).keepsComplex).trans
      (keepsComplex_mgmtEvent 13 _)
  refine KeepsComplex.trans (hset _ ?_) (keepsComplex_judgeGuarantee true false _)
  refine KeepsComplex.trans (KeepsComplex.trans ?_ (keepsComplex_wr (rModule 0x5C) _ _)) (keepsComplex_wr (rModule 0x60) _ _)
  exact ⟨rfl, rfl, rfl, fun _ _ => rfl⟩

theorem keepsComplex_settleStart (d : Dev) : KeepsComplex d (settleStart d) := by
  simp only [settleStart]
  split
  · exact .refl d
  · refine (keepsComplex_settleIo d).trans ?_
    have hdies : ∀ x : Dev, KeepsComplex x ((List.range 10).foldl (fun x die =>
        if stateOf ⟨.dieController, die⟩ x == .testing && dieDone die x then
          becomeReady ⟨.dieController, die⟩ .testPassed (wr (rDie die 0 0x44) (putField (rd (rDie die 0 0x44) x) 3 0 4) x)
        else x) x) := fun x => by
      refine KeepsComplex.foldl (l := List.range 10) (fun y die _ => ?_) x
      split
      · exact (keepsComplex_wr _ _ y).trans (keepsComplex_becomeReady (p := ⟨.dieController, die⟩) (by simp) _ _)
      · exact .refl y
    refine (hdies _).trans ?_
    generalize List.foldl _ (settleIo d) (List.range 10) = x
    split
    · exact (keepsComplex_wr _ _ x).trans (keepsComplex_completeStart _)
    · exact keepsComplex_wr _ _ x

theorem keepsComplex_endOrder (kind : Nat) (ok : Bool) (d : Dev) : KeepsComplex d (endOrder kind ok d) := by
  unfold endOrder
  split
  · refine KeepsComplex.trans ?_ (keepsComplex_mgmtEvent 7 _)
    exact (keepsComplex_modMgmt _ d).trans (reported_raise pView 18 _).keepsComplex
  · exact .refl d

/-! ### Surrender, claim and check (R438 to R441) -/

section Takeover

variable {i j reason : Nat} {t : TakeoverSt} {d : Dev}

theorem complexOf_setRole (i : Nat) (r : Role) (d : Dev) : complexOf i (setRole i r d) = { complexOf i d with role := r } :=
  tbl_get_set_same _ _ _ _

theorem complexOf_setRole_other (h : j ≠ i) (r : Role) : complexOf j (setRole i r d) = complexOf j d := tbl_get_set_other _ _ _ h

/-- The lead is given up: LEAD_SELECT names none, the old lead is fenced, and its takeover stands. -/
def givenDev (i reason : Nat) (d : Dev) : Dev :=
  setRole i .fenced (modMgmt (fun m => { m with incoming := none, attest := none })
    (modLead (fun l => { dropCycle l with takeover := some ⟨i, reason, d.now, false, false⟩, handover := false })
      { d with always := { d.always with leadSelect := none } }))

/-- The reason of a surrender is kept in the lead's register where it has one. -/
def reasonDev (i reason : Nat) (d : Dev) : Dev := if reason ≤ 4 then wr (rComplex i 0x74) reason d else d

theorem inRole_reasonDev (r : Role) : inRole r (reasonDev i reason d) = inRole r d := by
  unfold reasonDev
  split <;> rfl

theorem surrender_second (hs : inRole .second d = some j) (ht : d.lead.takeover = none) :
    surrender i reason d = endOrder 2 false (givenDev i reason (reasonDev i reason d)) := by
  have hnow : (reasonDev i reason d).now = d.now := by
    unfold reasonDev
    split <;> rfl
  have hr : inRole .second (reasonDev i reason d) = some j := inRole_reasonDev .second |>.trans hs
  rw [surrender, ← reasonDev]
  simp only [hr, ht, Bool.false_eq_true, if_false, givenDev, hnow]

theorem surrender_alone (hs : inRole .second d = none) : surrender i reason d = enterSafe reason d.now (reasonDev i reason d) := by
  have hr : inRole .second (reasonDev i reason d) = none := inRole_reasonDev .second |>.trans hs
  rw [surrender, ← reasonDev]
  simp only [hr]

theorem surrender_leaves (hs : inRole .second d = some j) (ht : d.lead.takeover = none) :
    (surrender i reason d).lead.takeover = some ⟨i, reason, d.now, false, false⟩ ∧ (surrender i reason d).always.leadSelect = none
    ∧ (complexOf i (surrender i reason d)).role = .fenced ∧ (surrender i reason d).lead.cycle = none := by
  have hnow : (reasonDev i reason d).now = d.now := by
    unfold reasonDev
    split <;> rfl
  have hk := keepsComplex_endOrder 2 false (givenDev i reason (reasonDev i reason d))
  rw [surrender_second hs ht, hk.lead, hk.always, hk.complexOf, givenDev, complexOf_setRole, hnow]
  exact ⟨rfl, rfl, rfl, rfl⟩

theorem rd_endOrder (kind : Nat) (ok : Bool) (off : Nat) : rd (rComplex i off) (endOrder kind ok d) = rd (rComplex i off) d := by
  unfold endOrder
  split
  · exact (reported_raise pView 18 (modMgmt _ d)).rd_of_ty (by simp)
  · rfl

theorem watchdogTrips_due (hl : leadRuns d = some i) (h : 300000 ≤ d.now - d.lead.cycleEnd) : watchdogTrips d = surrender i 4 d := by
  simp only [watchdogTrips, hl]
  exact if_pos h

theorem watchdogTrips_early (h : d.now - d.lead.cycleEnd < 300000) : watchdogTrips d = d := by
  unfold watchdogTrips
  split
  · exact if_neg (Nat.not_le.2 h)
  · rfl

theorem silenceHeard_due (hl : leadRuns d = some i) (hs : inRole .second d = some j) (h : 300000 ≤ d.now - d.lead.recordAt) :
    silenceHeard d = surrender i 5 d := by
  simp only [silenceHeard, hl, hs]
  exact if_pos h

theorem silenceHeard_early (h : d.now - d.lead.recordAt < 300000) : silenceHeard d = d := by
  unfold silenceHeard
  split
  · exact if_neg (Nat.not_le.2 h)
  · rfl

theorem silenceHeard_alone (hs : inRole .second d = none) : silenceHeard d = d := by
  unfold silenceHeard
  split
  · next h => rw [hs] at h; cases h
  · rfl

theorem watchdog_leaves (hl : leadRuns d = some i) (hs : inRole .second d = some j) (ht : d.lead.takeover = none)
    (h : 300000 ≤ d.now - d.lead.cycleEnd) : ((watchdogTrips d).lead.takeover = some ⟨i, 4, d.now, false, false⟩
      ∧ (watchdogTrips d).always.leadSelect = none ∧ (complexOf i (watchdogTrips d)).role = .fenced ∧ (watchdogTrips d).lead.cycle = none)
    ∧ rd (rComplex i 0x74) (watchdogTrips d) = 4 := by
  rw [watchdogTrips_due hl h]
  refine ⟨surrender_leaves hs ht, ?_⟩
  rw [surrender_second hs ht, rd_endOrder]
  exact rd_wr_same (rComplex i 0x74) 4 d

theorem claimLead_claims (ht : d.lead.takeover = some t) (hh : d.lead.handover = false) (hc : t.claimed = false) : claimLead d =
    { d with always := { d.always with leadSelect := some (1 - t.old) }, lead := { d.lead with takeover := some { t with claimed := true } } } := by
  unfold claimLead
  rw [ht]
  exact if_neg (by rw [hh, hc]; exact Bool.false_ne_true)

/-- The second has passed its check and becomes the lead. -/
def passedDev (t : TakeoverSt) (d : Dev) : Dev := becomeLead (1 - t.old) (modLead (fun l => { l with takeover := some { t with passed := true } }) d)

section Check

variable (hw : leadWatches d = true) (ht : d.lead.takeover = some t) (hh : d.lead.handover = false) (hc : t.claimed = true) (hp : t.passed = false)
include hw ht hh hc hp

theorem endCheck_judges (passed : Bool) : endCheck passed d = if passed then passedDev t d else enterSafe t.reason t.since d := by
  have hgo : (!firmwareRuns d || d.lead.safe) = false := by
    rw [leadWatches, Bool.and_eq_true] at hw
    rw [hw.1, Bool.not_true, Bool.false_or]
    exact Bool.not_eq_true' _ ▸ hw.2
  unfold endCheck
  rw [if_neg (by rw [hgo]; exact Bool.false_ne_true), ht]
  refine (if_neg (by rw [hh]; exact Bool.false_ne_true)).trans ?_
  exact if_neg (by rw [hc, hp]; exact Bool.false_ne_true)

theorem endCheck_leaves : (endCheck true d).lead.takeover = some { t with passed := true } ∧ (complexOf (1 - t.old) (endCheck true d)).role = .lead
    ∧ stateOf (pComplex (1 - t.old)) (endCheck true d) = .active ∧ (endCheck true d).always.leadSelect = some (1 - t.old) := by
  rw [endCheck_judges hw ht hh hc hp true, if_pos rfl, passedDev, becomeLead]
  have hq := fun x => sameQuiet_setState (pComplex (1 - t.old)) .active .work x
  rw [stateOf_setState, complexOf_of_quiet (hq _), complexOf_setRole, (hq _).field Dev.lead fun _ => rfl, (hq _).field Dev.always fun _ => rfl]
  exact ⟨rfl, rfl, rfl, rfl⟩

end Check

/-! ### Rejoining (R436, R448) -/

/-- The complex that has read the lead's records stands as the second. -/
def rejoinedDev (j : Nat) (d : Dev) : Dev :=
  raise (pComplex j) 18 (setState (pComplex j) .ready .testPassed (setRole j .second (modLead (fun l => { l with recordAt := d.now }) d)))

theorem rejoin_reads (hl : leadRuns d = some i) (hr : inRole .rejoining d = some j) (hf : readsFormat (complexOf j d) (complexOf i d) = true) :
    rejoin d = settleStart (endOrder 3 true (rejoinedDev j d)) := by
  simp only [rejoin, hl, hr, hf, if_true, rejoinedDev]

theorem rejoin_lost (hl : leadRuns d = some i) (hr : inRole .rejoining d = some j) (hf : readsFormat (complexOf j d) (complexOf i d) = false) :
    rejoin d = settleStart (endOrder 3 false (loseSecond i j d)) := by
  simp only [rejoin, hl, hr, hf, Bool.false_eq_true, if_false]

theorem rejoin_leaves (hl : leadRuns d = some i) (hr : inRole .rejoining d = some j) (hf : readsFormat (complexOf j d) (complexOf i d) = true) :
    (complexOf j (rejoin d)).role = .second ∧ stateOf (pComplex j) (rejoin d) = .ready := by
  have hk := (keepsComplex_endOrder 3 true (rejoinedDev j d)).trans (keepsComplex_settleStart _)
  have hrep := reported_raise (pComplex j) 18 (setState (pComplex j) .ready .testPassed (setRole j .second (modLead (fun l => { l with recordAt := d.now }) d)))
  rw [rejoin_reads hl hr hf, hk.complexOf, hk.stateOf, rejoinedDev, hrep.keepsComplex.complexOf, hrep.keepsComplex.stateOf, stateOf_setState,
    complexOf_of_quiet (sameQuiet_setState _ _ _ _), complexOf_setRole]
  exact ⟨rfl, rfl⟩

/-! ### The safe state (R442, R443, R455) -/

/-- Both complexes fenced and the module safe, with the views of the lead frozen, before the limit is judged. -/
def safeDev (frozen : List (RegId × Nat)) (reason since : Nat) (d : Dev) : Dev :=
  settleAlert (modMgmt (fun m => { m with incoming := none, attest := none }) (setRole 1 .fenced (setRole 0 .fenced
    (modLead (fun l => { l with safe := true, frozen := frozen, cycle := none, takeover := none, handover := false })
      (recordTakeover reason 1 0 since { d with always := { d.always with leadSelect := none } })))))

theorem enterSafe_unmapped (hm : mappedLevel 2 d = 3) (reason since : Nat) :
    enterSafe reason since d = settleLimit (safeDev (frozenViews d) reason since d) := by
  have hl : mappedLevel 2 (settleLimit (safeDev (frozenViews d) reason since d)) = 3 := by
    rw [(onPage_settleLimit _).toSameQuiet.field (mappedLevel 2) fun _ => rfl]
    exact hm
  exact if_pos (.inl (Nat.le_of_eq hl.symm))

theorem safeDev_leaves (frozen : List (RegId × Nat)) (reason since : Nat) (hb : d.boot.phase = .running) :
    (safeDev frozen reason since d).lead.safe = true ∧ (complexOf 0 (safeDev frozen reason since d)).role = .fenced
    ∧ (complexOf 1 (safeDev frozen reason since d)).role = .fenced ∧ (safeDev frozen reason since d).always.leadSelect = none
    ∧ (safeDev frozen reason since d).pins.alert = true ∧ ∀ i, 192 ≤ appliedShade i (safeDev frozen reason since d) := by
  have hc : ∀ k, complexOf k (safeDev frozen reason since d) = complexOf k (setRole 1 .fenced (setRole 0 .fenced
      (modLead (fun l => { l with safe := true, frozen := frozen, cycle := none, takeover := none, handover := false })
        (recordTakeover reason 1 0 since { d with always := { d.always with leadSelect := none } })))) := fun _ => rfl
  refine ⟨rfl, ?_, ?_, rfl, ?_, fun i => ?_⟩
  · rw [hc, complexOf_setRole_other (by decide), complexOf_setRole]
  · rw [hc, complexOf_setRole]
  · rw [safeDev, settleAlert]
    simp [setPins, modMgmt, setRole, putComplex, modLead, recordTakeover, hb]
  · have hsafe : (safeDev frozen reason since d).lead.safe = true := rfl
    rw [appliedShade, limitShade, hsafe]
    simp only [if_true]
    omega

end Takeover

theorem safeStateStands : Claims.SafeStateStands := by
  intro reason since d hm hb e
  have he : e = settleLimit (safeDev (frozenViews d) reason since d) := enterSafe_unmapped hm reason since
  have hq := (onPage_settleLimit (safeDev (frozenViews d) reason since d)).toSameQuiet
  obtain ⟨h1, h2, h3, h4, h5, h6⟩ := safeDev_leaves (frozenViews d) reason since hb
  rw [he, hq.field Dev.lead fun _ => rfl, complexOf_of_quiet hq, complexOf_of_quiet hq,
    hq.field Dev.always fun _ => rfl, hq.field Dev.pins fun _ => rfl]
  exact ⟨h1, h2, h3, h4, h5, fun i => by rw [appliedShade_of_quiet hq]; exact h6 i⟩

theorem takeoversComplete : Claims.TakeoversComplete := by
  intro i j t s hon d given
  refine ⟨fun hl hs ht => ⟨fun h => does_of hon (f := watchdogTrips) (watchdog_leaves hl hs ht h),
      fun h => gives_of_eq hon (f := watchdogTrips) (watchdogTrips_early h),
      fun h => does_of hon (f := silenceHeard) ?_,
      fun h => gives_of_eq hon (f := silenceHeard) (silenceHeard_early h)⟩,
    fun hl hs => ⟨fun h => gives_of_eq hon (f := watchdogTrips) ((watchdogTrips_due hl h).trans (surrender_alone hs)),
      gives_of_eq hon (f := silenceHeard) (silenceHeard_alone hs)⟩,
    fun ht hh hc => gives_of_eq hon (f := claimLead) (claimLead_claims ht hh hc),
    fun hw ht hh hc hp => ?_,
    fun hl hr hf => does_of hon (f := rejoin) (rejoin_leaves hl hr hf),
    fun hl hr hf => gives_of_eq hon (f := rejoin) (rejoin_lost hl hr hf)⟩
  · rw [show silenceHeard s.dev = surrender i 5 s.dev from silenceHeard_due hl hs h]
    exact surrender_leaves hs ht
  · have hexec : ∀ passed, exec (.takeoverCheckEnd passed) s = onDev (endCheck passed) s := fun passed => by
      show execTakeoverCheckEnd passed s = _
      simp [execTakeoverCheckEnd, show s.dev.lead.handover = false from hh]
    rw [hexec, hexec]
    exact ⟨does_of hon (f := endCheck true) (endCheck_leaves hw ht hh hc hp),
      gives_of_eq hon (f := endCheck false) (endCheck_judges hw ht hh hc hp false)⟩

/-- Settles O51: surrender, claim, check and rejoining case by case, and what the safe state leaves. -/
theorem takeoversAndSafeStateComplete : Obligations.TakeoversAndSafeStateComplete := ⟨takeoversComplete, safeStateStands⟩

end Sys2Proof.Machine
end


section
/-!
SUPPORT. Answers to management, and what I3C, MCTP control and PLDM answer (R450 to R457).
-/

namespace Sys2Proof.Machine

/-! ### A request is heard and answered (R457, R462) -/

/-- A request of management has been heard, and nothing told yet. -/
structure Heard (d x : Dev) : Prop where
  out : x.mgmt.out = d.mgmt.out
  eventsOn : x.mgmt.eventsOn = d.mgmt.eventsOn
  heard : x.mgmt.heard = d.now
  silenced : x.mgmt.silenced = false

theorem Heard.of_mgmt {d x e : Dev} (h : Heard d x) (he : e.mgmt = x.mgmt) : Heard d e :=
  ⟨by rw [he, h.out], by rw [he, h.eventsOn], by rw [he, h.heard], by rw [he, h.silenced]⟩

/-- The time of a request, which ends silence. -/
def heardDev (d : Dev) : Dev := modMgmt (fun m => { m with heard := d.now, silenced := false }) d

theorem sameQuiet_hear (d : Dev) : SameQuiet (heardDev d) (hear d) := by
  unfold hear
  simp only
  split
  · exact (reported_raise pView 17 (heardDev d)).sameQuiet.trans (onPage_settleLimit _).toSameQuiet
  · exact .refl _

section Hear

variable {d : Dev}

theorem mgmt_hear : (hear d).mgmt = { d.mgmt with heard := d.now, silenced := false } := (sameQuiet_hear d).field Dev.mgmt fun _ => rfl

theorem heard_hear : Heard d (hear d) := by
  constructor <;> rw [mgmt_hear]

theorem flash_hear : (hear d).flash = d.flash := (sameQuiet_hear d).field Dev.flash fun _ => rfl

theorem power_hear : (hear d).power = d.power := (sameQuiet_hear d).field Dev.power fun _ => rfl

theorem fused_hear : (hear d).fused = d.fused := (sameQuiet_hear d).field Dev.fused fun _ => rfl

theorem boot_hear : (hear d).boot = d.boot := (sameQuiet_hear d).field Dev.boot fun _ => rfl

theorem reset_hear : (hear d).reset = d.reset := (sameQuiet_hear d).field Dev.reset fun _ => rfl

theorem always_hear : (hear d).always = d.always := (sameQuiet_hear d).field Dev.always fun _ => rfl

theorem lead_hear : (hear d).lead = d.lead := (sameQuiet_hear d).field Dev.lead fun _ => rfl

theorem fresh_hear : (hear d).fresh = d.fresh := (sameQuiet_hear d).field Dev.fresh fun _ => rfl

theorem now_hear : (hear d).now = d.now := (sameQuiet_hear d).field Dev.now fun _ => rfl

theorem stateOf_hear {p : PageId} (hp : p ≠ pPower) : stateOf p (hear d) = stateOf p d := by
  unfold hear
  simp only
  split
  · have h1 := congrArg Page.state ((onPage_settleLimit (raise pView 17 (heardDev d))).others p hp)
    exact h1.trans ((reported_raise pView 17 (heardDev d)).stateOf p)
  · rfl

theorem onMessage_answers (h : mgmtAnswers d = true) (f : Dev → Dev) : onMessage f d = f (hear d) := if_pos h

end Hear

theorem send_told {d x : Dev} (h : Heard d x) (t : Nat) (bytes : List Byte) :
    told (.message t bytes) d (send (.message t bytes) x) := by
  refine ⟨?_, h.heard, h.silenced⟩
  rw [show (send (.message t bytes) x).mgmt.out = x.mgmt.out ++ interruptFor x.mgmt ++ [.message t bytes] from rfl, h.out,
    interruptFor, h.eventsOn, interruptFor]

/-! ### Common command codes (R450 to R452) -/

section Port

variable {s : State} {d : Dev}

theorem send_ccc (bytes : List Byte) : send (.ccc bytes) d = { d with mgmt := { d.mgmt with out := d.mgmt.out ++ [.ccc bytes] } } := by
  simp only [send, modMgmt, List.append_nil]

theorem gives_onPort (hon : s.on) (hf : frontEnd s.dev = true) (f : Mgmt → Mgmt) :
    Gives s (onDev (onPort f) s) { s.dev with mgmt := f s.dev.mgmt } := gives_of_eq hon (if_pos hf)

theorem gives_portReads (hon : s.on) (hf : frontEnd s.dev = true) (bytes : Dev → List Byte) :
    Gives s (onDev (portReads bytes) s) { s.dev with mgmt := { s.dev.mgmt with out := s.dev.mgmt.out ++ [.ccc (bytes s.dev)] } } :=
  gives_of_eq hon ((if_pos hf).trans (send_ccc _))

end Port

theorem commonCommandCodesComplete : Claims.CommonCommandCodesComplete := by
  intro n addr s hon hf d m with_ reads
  have hreads : ∀ bytes : Dev → List Byte, portReads bytes s.dev = reads (bytes s.dev) := fun bytes => (if_pos hf).trans (send_ccc _)
  have hset : ∀ a, frontEnd s.dev = true → onPort (fun m => { m with address := some (a % 128) }) s.dev = with_ { m with address := some (a % 128) } :=
    fun a h => if_pos h
  refine ⟨gives_onPort hon hf _, gives_onPort hon hf _, gives_onPort hon hf _,
    fun ha => gives_of_eq hon (f := fun d => if frontEnd d && d.mgmt.address.isNone then
      send (.ccc (pidBytes d ++ [bcr, 0x00])) (modMgmt (fun m => { m with address := some (addr % 128) }) d) else d) ?_,
    fun ha => gives_of_eq hon (f := fun d =>
      if staticAddress s.dev = staticAddress d ∧ d.mgmt.address = none then onPort (fun m => { m with address := some (addr % 128) }) d else d)
      ((if_pos ⟨rfl, ha⟩).trans (hset addr hf)),
    fun ha => gives_of_eq hon (f := fun d =>
      if staticAddress s.dev = staticAddress d ∧ d.mgmt.address = none then onPort (fun m => { m with address := some (addr % 128) }) d else d)
      (if_neg fun h => by rw [show s.dev.mgmt.address = none from h.2] at ha; cases ha),
    fun ha => gives_of_eq hon (f := onPort (fun m => { m with address := m.address.map (fun _ => addr % 128) })) ?_,
    gives_portReads hon hf _, gives_portReads hon hf _, gives_portReads hon hf _,
    does_of hon (f := fun d => if frontEnd d then tickFree (portReads (fun x => leBytes 2 (drawFree x).toNat) d) else d) ?_,
    ⟨BitVec.ofNat 8 (drawFree s.dev).toNat, gives_of_eq hon (f := fun d =>
      if frontEnd d then tickFree (portReads (fun x => beBytes 2 x.mgmt.mrl ++ leBytes 1 (drawFree x).toNat) d) else d) ?_⟩,
    gives_portReads hon hf _, gives_onPort hon hf _, gives_onPort hon hf _⟩
  · refine (if_pos (by rw [show frontEnd s.dev = true from hf, show s.dev.mgmt.address = none from ha]; rfl)).trans ?_
    exact send_ccc _
  · refine (if_pos (show frontEnd s.dev = true from hf)).trans ?_
    obtain ⟨a, ha⟩ := Option.isSome_iff_exists.1 ha
    simp only [modMgmt, show s.dev.mgmt.address = some a from ha, Option.map_some]
    rfl
  · simp only [show frontEnd s.dev = true from hf, if_true, hreads]
    exact ⟨by simp [tickFree, reads, with_, d, m], rfl⟩
  · refine (if_pos (show frontEnd s.dev = true from hf)).trans ?_
    rw [hreads]
    rfl

/-! ### MCTP control (R452) -/

section Mctp

variable {s : State} {d x : Dev}

theorem control_told (h : Heard d x) (inst cmd code : Nat) (data : List Byte) :
    told (.message 0x00 (BitVec.ofNat 8 (inst % 32) :: BitVec.ofNat 8 cmd :: BitVec.ofNat 8 code :: data)) d (control inst cmd code data x) :=
  send_told h _ _

theorem does_onMessage (hon : s.on) (hm : mgmtAnswers s.dev = true) {f : Dev → Dev} {P : Dev → Prop} (h : P (f (hear s.dev))) :
    Does s (onDev (onMessage f) s) P := does_of hon (by rw [onMessage_answers hm]; exact h)

end Mctp

theorem mctpControlCompletes : Claims.MctpControlCompletes := by
  intro inst eid mtype s hon hm d tells
  have hh : Heard s.dev (hear s.dev) := heard_hear
  have hgood : ∀ e, 8 ≤ e → e < 255 → eidGood e = true := fun e h1 h2 => by simp [eidGood, h1, h2]
  refine ⟨fun h1 h2 => does_onMessage hon hm (f := fun d =>
      if 0 ≤ 1 ∧ eidGood eid = true then
        control inst 0x01 0 (leBytes 1 0 ++ leBytes 1 eid ++ leBytes 1 0) (modMgmt (fun m => { m with eid := eid }) d)
      else control inst 0x01 0x02 [] d) ?_,
    fun hbad => does_onMessage hon hm (f := fun d =>
      if 0 ≤ 1 ∧ eidGood eid = true then
        control inst 0x01 0 (leBytes 1 0 ++ leBytes 1 eid ++ leBytes 1 0) (modMgmt (fun m => { m with eid := eid }) d)
      else control inst 0x01 0x02 [] d) ?_,
    does_onMessage hon hm (f := fun d => control inst 0x02 0 (leBytes 1 d.mgmt.eid ++ [0x00, 0x00]) d) ?_,
    does_onMessage hon hm (control_told hh inst 0x03 0 _),
    does_onMessage hon hm (control_told hh inst 0x04 0 _),
    does_onMessage hon hm (control_told hh inst 0x05 0 _),
    does_onMessage hon hm (control_told hh inst 0x06 0 _),
    fun h0 h1 h7 => gives_of_eq hon (f := fun d =>
      if mgmtAnswers d && !(mtype == 0x00 || mtype == 0x01 || mtype == 0x7F) then modMgmt (fun m => { m with discarded := m.discarded + 1 }) d
      else d) (if_pos ?_),
    fun t ht hl => gives_of_eq hon (f := fun d => if d.mgmt.incoming.any (fun t => decide (100000000 ≤ d.now - t)) then
      modMgmt (fun m => { m with incoming := none }) d else d) (if_pos ?_),
    fun t ht hl => gives_of_eq hon (f := fun d => if d.mgmt.incoming.any (fun t => decide (100000000 ≤ d.now - t)) then
      modMgmt (fun m => { m with incoming := none }) d else d) (if_neg ?_)⟩
  · rw [if_pos ⟨by decide, hgood eid h1 h2⟩]
    exact ⟨control_told ⟨hh.out, hh.eventsOn, hh.heard, hh.silenced⟩ inst 0x01 0 _, rfl⟩
  · have hb : ¬ (0 ≤ 1 ∧ eidGood eid = true) := by
      simp only [eidGood, Bool.and_eq_true, decide_eq_true_eq]
      omega
    rw [if_neg hb]
    refine ⟨control_told hh inst 0x01 0x02 _, ?_⟩
    rw [show (control inst 0x01 0x02 [] (hear s.dev)).mgmt.eid = (hear s.dev).mgmt.eid from rfl, mgmt_hear]
  · have ht := control_told hh inst 0x02 0 (leBytes 1 (hear s.dev).mgmt.eid ++ [0x00, 0x00])
    rw [mgmt_hear] at ht
    rw [mgmt_hear]
    exact ht
  · rw [show mgmtAnswers s.dev = true from hm]
    simp [h0, h1, h7]
  · rw [show s.dev.mgmt.incoming = some t from ht]
    simpa using hl
  · rw [show s.dev.mgmt.incoming = some t from ht]
    simpa using hl

/-! ### PLDM (R453 to R455) -/

section Pldm

variable {s : State} {d x : Dev}

theorem pldm_told (h : Heard d x) (inst type cmd code : Nat) (data : List Byte) :
    told (.message 0x01 (BitVec.ofNat 8 (inst % 32) :: BitVec.ofNat 8 type :: BitVec.ofNat 8 cmd :: BitVec.ofNat 8 code :: data)) d
      (pldm inst type cmd code data x) := send_told h _ _

theorem does_onPldm (hon : s.on) (hm : mgmtAnswers s.dev = true) (hb : s.dev.boot.phase = .running) {f : Dev → Dev} {P : Dev → Prop}
    (h : P (f (hear s.dev))) : Does s (onDev (onPldm f) s) P := by
  refine does_of hon ?_
  rw [onPldm, if_neg (by rw [hb]; decide), onMessage_answers hm]
  exact h

theorem firstBelow_lowest {n b : Nat} {p : Nat → Bool} (hb : b < n) (hp : p b = true) (hl : ∀ k < b, p k = false) :
    firstBelow n p = some b := by
  refine List.find?_range_eq_some.2 ⟨hp, List.mem_range.2 hb, fun k hk => ?_⟩
  rw [hl k hk]
  rfl

theorem firstBelow_none {n : Nat} {p : Nat → Bool} (h : ∀ k, p k = false) : firstBelow n p = none :=
  List.find?_eq_none.2 fun k _ => by rw [h k]; exact Bool.false_ne_true

end Pldm

theorem pldmCompletes : Claims.PldmCompletes := by
  intro inst n b ptype cmd s hon hm hb d tells
  have hh : Heard s.dev (hear s.dev) := heard_hear
  have htid : (hear s.dev).mgmt.tid = s.dev.mgmt.tid := by rw [mgmt_hear]
  have hevents : (hear s.dev).mgmt.events = s.dev.mgmt.events := by rw [mgmt_hear]
  have hcommands : leBytes 32 ((pldmCommands 0).foldl (fun n c => n + 2 ^ c) 0) = 0x3E :: zeros 31 := by decide
  refine ⟨does_onPldm hon hm hb (f := fun d => pldm inst 0 0x02 0 (leBytes 1 d.mgmt.tid) d) ?_,
    fun h0 h255 => does_onPldm hon hm hb (f := fun d =>
      if n = 0 ∨ 255 ≤ n then pldm inst 0 0x01 0x02 [] d else pldm inst 0 0x01 0 [] (modMgmt (fun m => { m with tid := n }) d)) ?_,
    does_onPldm hon hm hb (pldm_told hh inst 0 0x03 0 _),
    does_onPldm hon hm hb (pldm_told hh inst 0 0x04 0 _),
    does_onPldm hon hm hb (f := pldm inst 0 0x05 0 (leBytes 32 ((pldmCommands 0).foldl (fun n c => n + 2 ^ c) 0))) ?_,
    does_onPldm hon hm hb ⟨pldm_told ⟨hh.out, hh.eventsOn, hh.heard, hh.silenced⟩ inst 2 0x04 0 _, rfl⟩,
    does_onPldm hon hm hb ⟨pldm_told ⟨hh.out, hh.eventsOn, hh.heard, hh.silenced⟩ inst 2 0x04 0 _, rfl⟩,
    does_onPldm hon hm hb (pldm_told hh inst 2 0x50 0 _),
    does_onPldm hon hm hb (f := if Config.pdrRecord n = [] then pldm inst 2 0x51 0x82 [] else pldm inst 2 0x51 0 (Config.pdrRecord n)) ?_,
    ⟨leBytes 4 (drawFree (hear s.dev)).toNat, does_onPldm hon hm hb (f := fun d => pldm inst 2 0x11 0
      ([0x07, 0x00] ++ leBytes 4 (drawFree d).toNat ++ readingBytes (d.power.measured / 16 : Nat)) (tickFree (tickFree d))) ?_⟩,
    ⟨leBytes 2 (drawFree (hear s.dev)).toNat, does_onPldm hon hm hb (f := fun d => pldm inst 2 0x21 0
      ([0x01, 0x00] ++ leBytes 1 (stateCode (stateOf pModule d)) ++ leBytes 2 (drawFree d).toNat) (tickFree d)) ?_⟩,
    fun hb14 hset hlow => ?_, fun hnone => ?_,
    fun hc => does_onPldm hon hm hb (f := fun d => if (pldmCommands ptype).contains cmd then d else pldm inst ptype cmd 0x05 [] d) ?_⟩
  · have ht := pldm_told hh inst 0 0x02 0 (leBytes 1 (hear s.dev).mgmt.tid)
    rw [htid] at ht
    rw [htid]
    exact ht
  · rw [if_neg (by omega)]
    exact ⟨pldm_told ⟨hh.out, hh.eventsOn, hh.heard, hh.silenced⟩ inst 0 0x01 0 _, rfl⟩
  · rw [hcommands]
    exact pldm_told hh inst 0 0x05 0 _
  · split
    · exact pldm_told hh inst 2 0x51 0x82 _
    · exact pldm_told hh inst 2 0x51 0 _
  · have ht := pldm_told (hh.of_mgmt (e := tickFree (tickFree (hear s.dev))) rfl) inst 2 0x11 0
      ([0x07, 0x00] ++ leBytes 4 (drawFree (hear s.dev)).toNat ++ readingBytes ((hear s.dev).power.measured / 16 : Nat))
    rw [power_hear] at ht
    rw [power_hear]
    exact ht
  · have ht := pldm_told (hh.of_mgmt (e := tickFree (hear s.dev)) rfl) inst 2 0x21 0
      ([0x01, 0x00] ++ leBytes 1 (stateCode (stateOf pModule (hear s.dev))) ++ leBytes 2 (drawFree (hear s.dev)).toNat)
    rw [stateOf_hear (by decide)] at ht
    rw [stateOf_hear (by decide)]
    exact ht
  · have hfirst : firstBelow 14 (bitOf (hear s.dev).mgmt.events) = some b := by
      rw [hevents]
      exact firstBelow_lowest hb14 hset hlow
    have hsmall : leBytes 2 (b + 1) = [BitVec.ofNat 8 (b + 1), 0x00] := by
      simp only [leBytes, show (b + 1) / 256 = 0 by omega]
      rfl
    have ht := pldm_told hh inst 2 0x0B 0 (leBytes 1 (hear s.dev).mgmt.tid ++ leBytes 2 (b + 1) ++ zeros 4 ++ [0x05, 0xF0] ++ leBytes 4 1 ++ leBytes 1 b)
    refine does_onPldm hon hm hb ?_
    simp only [hfirst]
    rw [htid, hsmall] at ht
    rw [htid, hsmall]
    exact ht
  · have hfirst : firstBelow 14 (bitOf (hear s.dev).mgmt.events) = none := by
      rw [hevents, show s.dev.mgmt.events = 0 from hnone]
      exact firstBelow_none fun k => by simp [bitOf]
    have ht := pldm_told hh inst 2 0x0B 0 (leBytes 1 (hear s.dev).mgmt.tid ++ leBytes 2 0)
    refine does_onPldm hon hm hb ?_
    simp only [hfirst]
    rw [htid] at ht
    rw [htid]
    exact ht
  · rw [if_neg (by rw [hc]; exact Bool.false_ne_true)]
    exact pldm_told hh inst ptype cmd 0x05 _

/-- Settles O52: each row of the port is heard and tells its bytes. -/
theorem managementPortCompletes : Obligations.ManagementPortCompletes := ⟨commonCommandCodesComplete, mctpControlCompletes, pldmCompletes⟩

end Sys2Proof.Machine
end


section
/-!
SUPPORT. Vendor requests of management: those that read, and those that set ceilings, silence, settings and the cairn record
(R456 to R466, R473, R478, R480, R481).
-/

namespace Sys2Proof.Machine

/-! ### The judgement of a request (R457) -/

section Request

variable {r : Request} {checks : Dev → List (Bool × Nat)} {act : Dev → Dev × List Byte} {d x : Dev} {n : Nat}

theorem vendorCode_passes {l : List (Bool × Nat)} (hb : d.boot.phase = .running) (hl : r.lengthOk = true) (hc : ∀ c ∈ l, c.1 = false) :
    vendorCode r l d = 0 := by
  have hnone : l.find? (·.1) = none := List.find?_eq_none.2 fun c h => by rw [hc c h]; exact Bool.false_ne_true
  simp [vendorCode, hb, hl, hnone]

theorem vendorCode_short {l : List (Bool × Nat)} (hb : d.boot.phase = .running) (hl : r.lengthOk = false) : vendorCode r l d = 3 := by
  simp [vendorCode, hb, hl]

theorem vendorCode_fails {l : List (Bool × Nat)} (hb : d.boot.phase = .running) (hl : r.lengthOk = true) {c : Bool × Nat}
    (hc : l.find? (·.1) = some c) : vendorCode r l d = c.2 := by
  simp [vendorCode, hb, hl, hc]

theorem vendorRow_code (hm : mgmtAnswers d = true) (hc : vendorCode r (checks (hear d)) (hear d) = n) : vendorRow r checks act d =
    if n = 0 then respond r.inst r.cmd 0 (act (hear d)).2 (act (hear d)).1 else respond r.inst r.cmd n [] (hear d) := by
  rw [vendorRow, onMessage_answers hm]
  simp only [hc]

theorem running_hear (hb : d.boot.phase = .running) : (hear d).boot.phase = .running := by rw [boot_hear, hb]

/-- A request whose length and checks hold has its effect and is answered with SUCCESS. -/
theorem vendorRow_takes (hm : mgmtAnswers d = true) (hb : d.boot.phase = .running) (hl : r.lengthOk = true)
    (hc : ∀ c ∈ checks (hear d), c.1 = false) : vendorRow r checks act d = respond r.inst r.cmd 0 (act (hear d)).2 (act (hear d)).1 :=
  vendorRow_code hm (vendorCode_passes (running_hear hb) hl hc)

theorem vendorRow_short (hm : mgmtAnswers d = true) (hb : d.boot.phase = .running) (hl : r.lengthOk = false) :
    vendorRow r checks act d = respond r.inst r.cmd 3 [] (hear d) :=
  vendorRow_code hm (vendorCode_short (running_hear hb) hl)

/-- A request is answered with the code of its first check that fails, and has no effect. -/
theorem vendorRow_fails (hm : mgmtAnswers d = true) (hb : d.boot.phase = .running) (hl : r.lengthOk = true)
    (hc : (checks (hear d)).find? (·.1) = some (true, n)) (hn : n ≠ 0) : vendorRow r checks act d = respond r.inst r.cmd n [] (hear d) :=
  (vendorRow_code hm (vendorCode_fails (running_hear hb) hl hc)).trans (if_neg hn)

theorem respond_told (h : Heard d x) (inst cmd code : Nat) (body : List Byte) :
    told (vendor inst cmd code body) d (respond inst cmd code body x) := send_told h _ _

end Request

/-! ### Requests that read (R459, R460, R465, R473, R478, R480, R481) -/

section Reads

variable {s : State} {r : Request} {checks : Dev → List (Bool × Nat)} {bytes : Dev → List Byte}

/-- A request that only reads tells its bytes. -/
theorem does_read (hon : s.on) (hm : mgmtAnswers s.dev = true) (hb : s.dev.boot.phase = .running) (hl : r.lengthOk = true)
    (hc : ∀ c ∈ checks (hear s.dev), c.1 = false) {told' : List Byte} (ht : bytes (hear s.dev) = told') :
    Does s (onDev (vendorRow r checks (fun d => (d, bytes d))) s) (told (vendor r.inst r.cmd 0 told') s.dev) := by
  refine does_of hon ?_
  rw [vendorRow_takes hm hb hl hc, ← ht]
  exact respond_told heard_hear _ _ _ _

end Reads

theorem vendorReadsComplete : Claims.VendorReadsComplete := by
  intro inst cmd b s hon hm hb d h c key
  have hh : Heard s.dev (hear s.dev) := heard_hear
  have hf : (hear s.dev).flash = s.dev.flash := flash_hear
  refine ⟨does_of hon (f := vendorRow ⟨inst, 0x01, true, true⟩ (fun _ => []) readState) ?_,
    fun hne => does_of hon (f := vendorRow ⟨inst, 0x01, true, b.isEmpty⟩ (fun _ => []) readState) ?_,
    does_read (r := ⟨inst, 0x02, false, true⟩) hon hm hb rfl (by simp) (by rw [power_hear]),
    fun hl h1 h13 h64 hlast => does_read (r := ⟨inst, 0x10, false, b.length == 4⟩) (checks := floorChecks b) hon hm hb
      (beq_of_eq hl) ?_ rfl,
    fun hl hbad => does_of hon (f := vendorRow ⟨inst, 0x10, false, b.length == 4⟩ (floorChecks b) (fun d => (d, floorBytes b d))) ?_,
    fun hl h3 h64 => ⟨does_read (r := ⟨inst, 0x11, false, b.length == 4⟩) (checks := listChecks b) hon hm hb (beq_of_eq hl) ?_
        (by rw [cairnBytes, hf, ← cairnBytes]),
      does_read (r := ⟨inst, 0x28, false, b.length == 4⟩) (checks := listChecks b) (bytes := fun _ => logFrom s.mlog (leAt b 0 2) (leAt b 2 1))
        hon hm hb (beq_of_eq hl) ?_ rfl⟩,
    fun hl hp => does_read (r := ⟨inst, 0x1B, true, b.length == 2⟩) (checks := fun d => [(decide (stagedPieces d ≤ leAt b 0 2), 4)])
      (bytes := stagingBytes b) hon hm hb (beq_of_eq hl) ?_ rfl,
    fun hl hk => does_read (r := ⟨inst, 0x20, false, b.length == 2⟩) (checks := fun _ => [(!keyKnown (leAt b 0 2), 2)])
      (bytes := fun d => leBytes 2 (d.flash.formats.get (schemaOf (leAt b 0 2) d) (leAt b 0 2)) ++ leBytes 2 (settingLength (leAt b 0 2))
        ++ settingBytes (leAt b 0 2) d) hon hm hb (beq_of_eq hl) ?_ ?_,
    fun hl h1024 hlen => does_read (r := ⟨inst, 0x29, false, b.length == 6⟩)
      (checks := fun _ => [(decide (1024 < leAt b 4 2) || decide (Config.certificateChain.length < leAt b 0 4), 4)])
      (bytes := fun _ => leBytes 4 Config.certificateChain.length ++ (Config.certificateChain.drop (leAt b 0 4)).take (leAt b 4 2))
      hon hm hb (beq_of_eq hl) ?_ rfl,
    fun hu => does_of hon (f := fun d =>
      if (if d.boot.phase = .bivouac then bivouacCommands else vendorCommands).contains cmd then d else onMessage (respond inst cmd 1 []) d) ?_⟩
  · rw [vendorRow_takes hm hb rfl (by simp)]
    exact ⟨respond_told ⟨hh.out, hh.eventsOn, hh.heard, hh.silenced⟩ _ _ _ _, rfl⟩
  · rw [vendorRow_short hm hb (by simpa using hne)]
    refine ⟨respond_told hh _ _ _ _, ?_⟩
    rw [show (respond inst 0x01 3 [] (hear s.dev)).mgmt.events = (hear s.dev).mgmt.events from rfl, mgmt_hear]
  · have h1 : leAt b 0 1 ≠ 0 := by
      have : 1 ≤ leAt b 0 1 := h1
      omega
    simpa [floorChecks, h1] using ⟨h13, h64, hlast⟩
  · have hc : (leAt b 0 1 == 0 || decide (13 < leAt b 0 1)) = true := by simpa using hbad
    rw [vendorRow_fails (n := 2) hm hb (beq_of_eq hl) (by simp only [floorChecks, hc, List.find?_cons]) (by decide)]
    exact respond_told hh _ _ _ _
  · simpa [listChecks, reservedBits, h3] using h64
  · simpa [listChecks, reservedBits, h3] using h64
  · have hs : stagedPieces (hear s.dev) = stagedPieces s.dev := by rw [stagedPieces, hf, ← stagedPieces]
    simpa [hs] using hp
  · have hk : keyKnown (leAt b 0 2) = true := hk
    simp [hk]
  · have hs : settingBytes (leAt b 0 2) (hear s.dev) = settingBytes (leAt b 0 2) s.dev := by simp only [settingBytes, hf]
    simp only [hs, hf, schemaOf]
    rfl
  · simpa using ⟨h1024, hlen⟩
  · have hgo : ¬ (if s.dev.boot.phase = .bivouac then bivouacCommands else vendorCommands).contains cmd = true := by
      rw [hb, if_neg (by decide), hu]
      exact Bool.false_ne_true
    rw [if_neg hgo, onMessage_answers hm]
    exact respond_told hh _ _ _ _

/-! ### Ceilings, silence, settings and the cairn record (R378, R391, R461, R462, R466, R478) -/

section Settings

variable {s : State} {b : List Byte} {d : Dev} {inst : Nat}

/-- The ceilings of a body that come into force at once: the operating point waits. -/
def newCeilings (b : List Byte) (d : Dev) : Ceilings :=
  { mergeCeilings (leAt b 0 2) (ceilingsOf b) d.power.ceilings with opPoint := d.power.ceilings.opPoint }

/-- Ceilings in force, and kept in flash where the body says so, before the limit is judged. -/
def ceiledDev (b : List Byte) (d : Dev) : Dev :=
  let x := modPower (fun p => { p with
    ceilings := newCeilings b d
    opChange := if bitOf (leAt b 0 2) 6 && (mergeCeilings (leAt b 0 2) (ceilingsOf b) d.power.ceilings).opPoint != d.power.ceilings.opPoint
      then some (mergeCeilings (leAt b 0 2) (ceilingsOf b) d.power.ceilings).opPoint else p.opChange }) d
  if bitOf (leAt b 0 2) 15 && leAt b 0 2 % 512 != 0 then
    storeSetting 1 (fun f => { f with ceilings := mergeCeilings (leAt b 0 2) (ceilingsOf b) f.ceilings }) x
  else x

theorem sameQuiet_applyCeilings : SameQuiet (ceiledDev b d) (applyCeilings b d) := by
  have h : applyCeilings b d = settleLimit (if newCeilings b d = d.power.ceilings then ceiledDev b d else raise pPower 26 (ceiledDev b d)) := rfl
  rw [h]
  refine SameQuiet.trans ?_ (onPage_settleLimit _).toSameQuiet
  split
  · exact .refl _
  · exact (reported_raise _ _ _).sameQuiet

theorem ceiledDev_leaves (b : List Byte) (d : Dev) : (ceiledDev b d).power.ceilings = newCeilings b d
    ∧ (ceiledDev b d).power.opChange = (if bitOf (leAt b 0 2) 6
        && (mergeCeilings (leAt b 0 2) (ceilingsOf b) d.power.ceilings).opPoint != d.power.ceilings.opPoint
      then some (mergeCeilings (leAt b 0 2) (ceilingsOf b) d.power.ceilings).opPoint else d.power.opChange)
    ∧ (ceiledDev b d).flash.ceilings = (if bitOf (leAt b 0 2) 15 = true ∧ leAt b 0 2 % 512 ≠ 0
      then mergeCeilings (leAt b 0 2) (ceilingsOf b) d.flash.ceilings else d.flash.ceilings)
    ∧ (ceiledDev b d).mgmt = d.mgmt := by
  unfold ceiledDev
  simp only [Bool.and_eq_true, bne_iff_ne]
  split <;> exact ⟨rfl, rfl, rfl, rfl⟩

theorem ceilingChecks_pass (he : ceilingsEncoded b = true) (hr : ceilingsInRange (leAt b 0 2) (designPower (variantOf d)) (ceilingsOf b) = true)
    (ha : (bitOf (leAt b 0 2) 6 && coreActive d) = false) : ∀ c ∈ ceilingChecks b (hear d), c.1 = false := by
  have hv : variantOf (hear d) = variantOf d := (sameQuiet_hear d).field variantOf fun _ => rfl
  have hcore : coreActive (hear d) = coreActive d := by
    simp only [coreActive]
    congr 1
    funext k
    rw [stateOf_hear (by simp)]
  simp only [ceilingChecks, hv, hcore, he, hr, ha, List.mem_cons, List.not_mem_nil, or_false]
  rintro c (rfl | rfl | rfl) <;> rfl

/-- A SET_CEILINGS that is accepted. -/
theorem setCeilings_takes (hon : s.on) (hm : mgmtAnswers s.dev = true) (hb : s.dev.boot.phase = .running) (hl : b.length = 16)
    (hc : ∀ c ∈ ceilingChecks b (hear s.dev), c.1 = false) {P : Dev → Prop}
    (h : P (respond inst 0x03 0 (ceilingBytes (newCeilings b s.dev)) (applyCeilings b (hear s.dev)))) :
    Does s (exec (.setCeilings inst b) s) P := by
  refine does_of hon (f := vendorRow ⟨inst, 0x03, false, b.length == 16⟩ (ceilingChecks b) (fun d =>
    (applyCeilings b d, ceilingBytes (applyCeilings b d).power.ceilings))) ?_
  have hp : (applyCeilings b (hear s.dev)).power.ceilings = newCeilings b s.dev := by
    rw [sameQuiet_applyCeilings.field Dev.power fun _ => rfl, (ceiledDev_leaves b (hear s.dev)).1, newCeilings, power_hear, ← newCeilings]
  rw [vendorRow_takes hm hb (beq_of_eq hl) hc, hp]
  exact h

theorem heard_applyCeilings : Heard s.dev (applyCeilings b (hear s.dev)) := by
  have hq : (applyCeilings b (hear s.dev)).mgmt = (hear s.dev).mgmt :=
    (sameQuiet_applyCeilings.field Dev.mgmt fun _ => rfl).trans (ceiledDev_leaves b (hear s.dev)).2.2.2
  exact heard_hear.of_mgmt hq

theorem engageSilence_leaves (hl : (leadRuns d).isSome = true) (ht : d.power.silenceTime ≠ 0) (hs : d.mgmt.silenced = false)
    (hd : 1000000000 * d.power.silenceTime ≤ d.now - d.mgmt.heard) : (engageSilence d).mgmt.silenced = true
    ∧ bitOf (engageSilence d).mgmt.events 11 = true ∧ mgmtLimit (engageSilence d) = min d.power.ceilings.power d.power.silenceCeiling := by
  have hgo : ((leadRuns d).isSome && d.power.silenceTime != 0 && !d.mgmt.silenced
      && decide (1000000000 * d.power.silenceTime ≤ d.now - d.mgmt.heard)) = true := by
    rw [hl, hs, decide_eq_true hd]
    simpa using ht
  have he : engageSilence d = settleLimit (mgmtEvent 11 (raise pView 16 (modMgmt (fun m => { m with silenced := true }) d))) := if_pos hgo
  have hq := (onPage_settleLimit (mgmtEvent 11 (raise pView 16 (modMgmt (fun m => { m with silenced := true }) d)))).toSameQuiet
  have hr := (reported_raise pView 16 (modMgmt (fun m => { m with silenced := true }) d)).sameQuiet
  have hsil : (mgmtEvent 11 (raise pView 16 (modMgmt (fun m => { m with silenced := true }) d))).mgmt.silenced = true :=
    congrArg Mgmt.silenced (hr.field Dev.mgmt fun _ => rfl)
  have hpow : (mgmtEvent 11 (raise pView 16 (modMgmt (fun m => { m with silenced := true }) d))).power = d.power := hr.field Dev.power fun _ => rfl
  rw [he, hq.field Dev.mgmt fun _ => rfl, hq.field mgmtLimit fun _ => rfl]
  exact ⟨hsil, bitOf_mgmtEvent 11 _, by rw [mgmtLimit, hsil, if_pos rfl, hpow]⟩

theorem leAt_drop (b : List Byte) (k off n : Nat) : leAt (b.drop k) off n = leAt b (k + off) n := by
  rw [leAt, leAt, List.drop_drop]

end Settings

section Settings

variable {s : State} {b : List Byte} {inst : Nat} (hon : s.on) (hm : mgmtAnswers s.dev = true) (hb : s.dev.boot.phase = .running)

theorem variantOf_hear (d : Dev) : variantOf (hear d) = variantOf d := (sameQuiet_hear d).field variantOf fun _ => rfl

section Ceilings

theorem respond_keeps {cmd code : Nat} {body : List Byte} (x : Dev) :
    (respond inst cmd code body x).power = x.power ∧ (respond inst cmd code body x).flash = x.flash := ⟨rfl, rfl⟩

/-- What an answered SET_CEILINGS leaves of power and flash. -/
theorem respond_applyCeilings (body : List Byte) :
    (respond inst 0x03 0 body (applyCeilings b (hear s.dev))).power = (ceiledDev b (hear s.dev)).power
    ∧ (respond inst 0x03 0 body (applyCeilings b (hear s.dev))).flash = (ceiledDev b (hear s.dev)).flash :=
  ⟨(respond_keeps (applyCeilings b (hear s.dev))).1.trans (sameQuiet_applyCeilings.field Dev.power fun _ => rfl),
    (respond_keeps (applyCeilings b (hear s.dev))).2.trans (sameQuiet_applyCeilings.field Dev.flash fun _ => rfl)⟩

theorem newCeilings_hear : newCeilings b (hear s.dev) = newCeilings b s.dev := by rw [newCeilings, newCeilings, power_hear]

variable (hl : b.length = 16) (he : ceilingsEncoded b = true)
include hon hm hb hl he

theorem setCeilings_merges (hr : ceilingsInRange (leAt b 0 2) (designPower (variantOf s.dev)) (ceilingsOf b) = true)
    (hbit : bitOf (leAt b 0 2) 6 = false) : Does s (exec (.setCeilings inst b) s) (fun e =>
      told (vendor inst 0x03 0 (ceilingBytes (mergeCeilings (leAt b 0 2) (ceilingsOf b) s.dev.power.ceilings))) s.dev e
      ∧ e.power.ceilings = mergeCeilings (leAt b 0 2) (ceilingsOf b) s.dev.power.ceilings ∧ e.power.opChange = s.dev.power.opChange
      ∧ e.flash.ceilings = (if bitOf (leAt b 0 2) 15 = true ∧ leAt b 0 2 % 512 ≠ 0
        then mergeCeilings (leAt b 0 2) (ceilingsOf b) s.dev.flash.ceilings else s.dev.flash.ceilings)) := by
  have hmerged : newCeilings b s.dev = mergeCeilings (leAt b 0 2) (ceilingsOf b) s.dev.power.ceilings := by
    simp only [newCeilings, mergeCeilings, hbit, Bool.false_eq_true, if_false]
  obtain ⟨h1, h2, h3, -⟩ := ceiledDev_leaves b (hear s.dev)
  refine setCeilings_takes hon hm hb hl (ceilingChecks_pass he hr (by rw [hbit]; rfl)) ?_
  obtain ⟨r1, r2⟩ := respond_applyCeilings (s := s) (b := b) (inst := inst) (ceilingBytes (newCeilings b s.dev))
  rw [r1, r2, h1, h2, h3, newCeilings_hear, power_hear, flash_hear, hmerged, hbit, Bool.false_and, if_neg Bool.false_ne_true]
  exact ⟨respond_told heard_applyCeilings _ _ _ _, rfl, rfl, rfl⟩

theorem setCeilings_changesPoint (hr : ceilingsInRange (leAt b 0 2) (designPower (variantOf s.dev)) (ceilingsOf b) = true)
    (hbit : bitOf (leAt b 0 2) 6 = true) (hcore : coreActive s.dev = false) (hop : leAt b 12 1 ≠ s.dev.power.ceilings.opPoint) :
    Does s (exec (.setCeilings inst b) s) (fun e => e.power.opChange = some (leAt b 12 1)
      ∧ e.power.ceilings = { mergeCeilings (leAt b 0 2) (ceilingsOf b) s.dev.power.ceilings with opPoint := s.dev.power.ceilings.opPoint }) := by
  have hpoint : (mergeCeilings (leAt b 0 2) (ceilingsOf b) s.dev.power.ceilings).opPoint = leAt b 12 1 := by
    simp only [mergeCeilings, hbit, if_true, ceilingsOf]
  obtain ⟨h1, h2, -, -⟩ := ceiledDev_leaves b (hear s.dev)
  refine setCeilings_takes hon hm hb hl (ceilingChecks_pass he hr (by rw [hcore, Bool.and_false])) ?_
  rw [(respond_applyCeilings (ceilingBytes (newCeilings b s.dev))).1, h1, h2, newCeilings_hear, power_hear, hpoint, hbit]
  exact ⟨if_pos (by simpa using hop), rfl⟩

theorem setCeilings_outOfRange (hr : ceilingsInRange (leAt b 0 2) (designPower (variantOf s.dev)) (ceilingsOf b) = false) :
    Does s (exec (.setCeilings inst b) s) (fun e =>
      told (vendor inst 0x03 4 []) s.dev e ∧ e.power = s.dev.power ∧ e.flash = s.dev.flash) := by
  have hfind : (ceilingChecks b (hear s.dev)).find? (·.1) = some (true, 4) := by
    simp only [ceilingChecks, variantOf_hear, he, hr, Bool.not_true, Bool.not_false, List.find?_cons]
  refine does_of hon (f := vendorRow ⟨inst, 0x03, false, b.length == 16⟩ (ceilingChecks b) (fun d =>
    (applyCeilings b d, ceilingBytes (applyCeilings b d).power.ceilings))) ?_
  rw [vendorRow_fails hm hb (beq_of_eq hl) hfind (by decide)]
  exact ⟨respond_told heard_hear _ _ _ _, power_hear, flash_hear⟩

end Ceilings

theorem applySilence_leaves (b : List Byte) (d : Dev) : (applySilence b d).power.silenceTime = leAt b 0 2
    ∧ (applySilence b d).power.silenceCeiling = leAt b 2 2
    ∧ (applySilence b d).flash.silenceTime = (if leAt b 4 1 = 1 then leAt b 0 2 else d.flash.silenceTime)
    ∧ (applySilence b d).mgmt = d.mgmt := by
  unfold applySilence
  simp only
  split <;> exact ⟨rfl, rfl, rfl, rfl⟩

include hon hm hb

theorem setSilence_takes (hl : b.length = 8) (h1 : leAt b 4 1 ≤ 1) (h5 : leAt b 5 3 = 0) (hsmall : leAt b 0 2 ≤ 3600)
    (hrange : leAt b 0 2 = 0 ∨ within 1000 (designPower (variantOf s.dev)) (leAt b 2 2) = true) :
    Does s (exec (.setSilence inst b) s) (fun e => e.power.silenceTime = leAt b 0 2 ∧ e.power.silenceCeiling = leAt b 2 2
      ∧ e.flash.silenceTime = (if leAt b 4 1 = 1 then leAt b 0 2 else s.dev.flash.silenceTime)
      ∧ told (vendor inst 0x04 0 (b.take 4 ++ zeros 4)) s.dev e) := by
  have hchecks : ∀ c ∈ silenceChecks b (hear s.dev), c.1 = false := by
    simp only [silenceChecks, variantOf_hear, List.mem_cons, List.not_mem_nil, or_false]
    rintro c (rfl | rfl)
    · simpa [reservedBits, h5] using h1
    · rcases hrange with h0 | hin
      · simp [h0]
      · simpa [hin] using hsmall
  obtain ⟨h1, h2, h3, h4⟩ := applySilence_leaves b (hear s.dev)
  refine does_of hon (f := vendorRow ⟨inst, 0x04, false, b.length == 8⟩ (silenceChecks b) (fun d => (applySilence b d, b.take 4 ++ zeros 4))) ?_
  rw [vendorRow_takes hm hb (beq_of_eq hl) hchecks]
  rw [flash_hear] at h3
  exact ⟨h1, h2, h3, respond_told (heard_hear.of_mgmt h4) _ _ _ _⟩

theorem setSetting_mapLocal (hl : b.length = 8) (hkey : leAt b 0 2 = 3) (h4 : leAt b 2 2 = 4) :
    Does s (exec (.setSetting inst b) s) (fun e =>
      if Config.schemaAllows (releaseOf s.dev.flash.active.manifest) 3 (b.drop 4) = true
      then e.flash.mapLocal = leAt b 4 4 % 1024 ∧ told (vendor inst 0x21 0 []) s.dev e
      else e.flash = s.dev.flash ∧ told (vendor inst 0x21 4 []) s.dev e) := by
  have hlen : (decide (4 ≤ b.length) && b.length == 4 + leAt b 2 2) = true := by rw [hl, h4]; rfl
  refine does_of hon (f := vendorRow ⟨inst, 0x21, false, decide (4 ≤ b.length) && b.length == 4 + leAt b 2 2⟩ (settingChecks b)
    (fun d => (setSetting b d, []))) ?_
  cases ha : Config.schemaAllows (releaseOf s.dev.flash.active.manifest) 3 (b.drop 4) with
  | true =>
    have hchecks : ∀ c ∈ settingChecks b (hear s.dev), c.1 = false := by
      simp only [settingChecks, hkey, h4, flash_hear, ha, List.mem_cons, List.not_mem_nil, or_false]
      rintro c (rfl | rfl | rfl | rfl) <;> rfl
    have hset : setSetting b (hear s.dev) = setMapLocal (leAt (b.drop 4) 0 4) (hear s.dev) := by simp only [setSetting, hkey]
    rw [vendorRow_takes hm hb hlen hchecks, hset, leAt_drop, if_pos rfl]
    exact ⟨rfl, respond_told (heard_hear.of_mgmt rfl) _ _ _ _⟩
  | false =>
    have hfind : (settingChecks b (hear s.dev)).find? (·.1) = some (true, 4) := by
      simp only [settingChecks, hkey, h4, flash_hear, ha]
      rfl
    rw [vendorRow_fails hm hb hlen hfind (by decide), if_neg Bool.false_ne_true]
    exact ⟨flash_hear, respond_told heard_hear _ _ _ _⟩

theorem clearCairn_clears (hl : b.length = 4) (h24 : fieldOf (leAt b 0 4) 30 24 = 0) (h31 : bitOf (leAt b 0 4) 31 = false)
    (hfu : isFused (leAt b 0 4 % 2 ^ 24) s.dev = false) :
    Does s (exec (.clearCairn inst b) s) (fun e => e.flash.cairn = s.dev.flash.cairn.filter (fun e => e.unit != leAt b 0 4 % 2 ^ 24)
      ∧ told (vendor inst 0x12 0 (leBytes 2 (s.dev.flash.cairn.length
        - (s.dev.flash.cairn.filter (fun e => e.unit != leAt b 0 4 % 2 ^ 24)).length))) s.dev e) := by
  have hfused : isFused (leAt b 0 4 % 2 ^ 24) (hear s.dev) = false :=
    ((sameQuiet_hear s.dev).field (isFused (leAt b 0 4 % 2 ^ 24)) fun _ => rfl).trans hfu
  have hchecks : ∀ c ∈ clearChecks b (hear s.dev), c.1 = false := by
    simp only [clearChecks, h24, h31, hfused, List.mem_cons, List.not_mem_nil, or_false]
    rintro c (rfl | rfl) <;> rfl
  have hclear : clearCairn b (hear s.dev) = ({ hear s.dev with
      flash := { (hear s.dev).flash with cairn := s.dev.flash.cairn.filter (fun e => e.unit != leAt b 0 4 % 2 ^ 24) } },
      leBytes 2 (s.dev.flash.cairn.length - (s.dev.flash.cairn.filter (fun e => e.unit != leAt b 0 4 % 2 ^ 24)).length)) := by
    simp only [clearCairn, h31, flash_hear, Bool.false_eq_true, if_false]
  refine does_of hon (f := vendorRow ⟨inst, 0x12, false, b.length == 4⟩ (clearChecks b) (clearCairn b)) ?_
  rw [vendorRow_takes hm hb (beq_of_eq hl) hchecks, hclear]
  exact ⟨rfl, respond_told (heard_hear.of_mgmt rfl) _ _ _ _⟩

end Settings

theorem vendorSettingsComplete : Claims.VendorSettingsComplete := by
  intro inst b s hon hm hb d valid w merged design kept
  exact ⟨setCeilings_merges hon hm hb, setCeilings_changesPoint hon hm hb, setCeilings_outOfRange hon hm hb, setSilence_takes hon hm hb,
    fun hlead ht hs hd => does_of hon (f := engageSilence) (engageSilence_leaves hlead ht hs hd),
    setSetting_mapLocal hon hm hb, clearCairn_clears hon hm hb⟩

/-- Settles O53: each request is judged, has its effect where its checks hold, and is told its bytes. -/
theorem vendorRequestsComplete : Obligations.VendorRequestsComplete := ⟨vendorReadsComplete, vendorSettingsComplete⟩

end Sys2Proof.Machine
end


section
/-!
SUPPORT. Orders of management: reset, power-off, handover and restart of the second (R445 to R447, R463, R464, R467).
-/

namespace Sys2Proof.Machine

/-! ### A reset that is accepted (R422 to R424) -/

section Resets

variable {source level : Nat} {d : Dev}

theorem sameControl_spoilMemory (d : Dev) : SameControl d (spoilMemory d) := by
  unfold spoilMemory
  simp only
  split
  · exact .refl d
  · exact sameControl_freeMemory _ d

theorem resetCompute_keeps (d : Dev) : (resetCompute d).always = d.always ∧ (resetCompute d).reset = d.reset := by
  unfold resetCompute
  simp only
  have h1 := sameControl_spoilMemory d
  generalize spoilMemory d = x at h1 ⊢
  generalize coresReached x = l
  have h2 : SameControl x (l.foldl (fun y k => resetPage (pCore k) y) (regsReset (fun r => r.ty == .core && l.contains r.inst) x)) :=
    (SameControl.refl x).trans (.foldl (fun y k => sameControl_putPage (pCore k) _ y) l _)
  have h := h1.trans h2
  generalize List.foldl _ _ l = y at h ⊢
  simp only [SameControl, controlOf, Prod.mk.injEq] at h
  exact ⟨h.1, h.2.1⟩

/-- An accepted reset stands with its level, and the always-on state keeps its source. -/
theorem acceptReset_stamps : (acceptReset level source d).reset.level = some level
    ∧ (acceptReset level source d).always.cause = 2 ^ 24 * source + 2 ^ 16 * level := by
  have h := resetCompute_keeps (stampReset level source d)
  unfold acceptReset
  simp only
  split
  · generalize resetCompute (stampReset level source d) = x at h ⊢
    exact ⟨congrArg ResetCtl.level h.2, congrArg AlwaysOn.cause h.1⟩
  · exact ⟨rfl, rfl⟩

theorem requestReset_accepts (hm : mappedLevel source d < 3) (hs : d.lead.safe = false) (hl : d.reset.level = none) :
    requestReset source d = acceptReset (mappedLevel source d) source d := by
  unfold requestReset
  simp only
  rw [if_neg (by rw [hs]; simpa using hm), hl]

end Resets

/-! ### Orders -/

section Orders

variable {s : State} {d : Dev} {i j inst : Nat}

theorem respond_last (inst cmd code : Nat) (body : List Byte) (x : Dev) :
    (respond inst cmd code body x).mgmt.out.getLast? = some (vendor inst cmd code body) := List.getLast?_concat ..

theorem mgmtAnswers_notSafe (h : mgmtAnswers d = true) : d.lead.safe = false := by
  simp only [mgmtAnswers, frontEnd, portAlive, Bool.and_eq_true, Bool.not_eq_true'] at h
  exact h.1.1.2

theorem endOrder_keeps (kind : Nat) (ok : Bool) (d : Dev) : (endOrder kind ok d).power = d.power
    ∧ (endOrder kind ok d).mgmt.powerOff = d.mgmt.powerOff := by
  unfold endOrder
  split
  · have hq := (reported_raise pView 18 (modMgmt (fun m => { m with orderState := if ok then 2 else 3 }) d)).sameQuiet
    have hoff := congrArg Mgmt.powerOff (hq.field Dev.mgmt fun _ => rfl)
    exact ⟨hq.field Dev.power fun _ => rfl, hoff⟩
  · exact ⟨rfl, rfl⟩

/-- A power-off that holds the pages of a list. -/
def powerOffWith (l : List PageId) (d : Dev) : Dev :=
  settleLimit (settlePowerOff (l.foldl (fun x p => addHold p .powerOff x)
    (beginOrder 1 (modMgmt (fun m => { m with powerOff := true }) (modPower (fun p => { p with filler := 0 }) d)))))

theorem startPowerOff_eq : startPowerOff d = powerOffWith coolantPages d := rfl

theorem powerOffWith_leaves (l : List PageId) : (powerOffWith l d).mgmt.powerOff = true ∧ (powerOffWith l d).power.filler = 0 := by
  have hh : SameQuiet (beginOrder 1 (modMgmt (fun m => { m with powerOff := true }) (modPower (fun p => { p with filler := 0 }) d)))
      (l.foldl (fun x p => addHold p .powerOff x)
        (beginOrder 1 (modMgmt (fun m => { m with powerOff := true }) (modPower (fun p => { p with filler := 0 }) d)))) :=
    SameQuiet.foldl (fun x p => sameQuiet_addHold p .powerOff x) _ _
  have hq := fun y => (onPage_settleLimit y).toSameQuiet
  unfold powerOffWith
  rw [(hq _).field Dev.mgmt fun _ => rfl, (hq _).field Dev.power fun _ => rfl]
  generalize List.foldl _ _ l = x at hh ⊢
  have hx : x.mgmt.powerOff = true ∧ x.power.filler = 0 :=
    ⟨congrArg Mgmt.powerOff (hh.field Dev.mgmt fun _ => rfl), congrArg PowerSt.filler (hh.field Dev.power fun _ => rfl)⟩
  obtain ⟨h1, h2⟩ := endOrder_keeps 1 true x
  unfold settlePowerOff
  split
  · exact ⟨h2.trans hx.1, (congrArg PowerSt.filler h1).trans hx.2⟩
  · exact hx

theorem handoverChecks_hear : handoverChecks (hear d) = handoverChecks d := (sameQuiet_hear d).field handoverChecks fun _ => rfl

theorem restartChecks_hear : restartChecks (hear d) = restartChecks d := (sameQuiet_hear d).field restartChecks fun _ => rfl

theorem restartTarget_hear : restartTarget (hear d) = restartTarget d := (sameQuiet_hear d).field restartTarget fun _ => rfl

theorem startHandover_starts (h : d.always.leadSelect = some i) : startHandover d =
    beginOrder 2 (modLead (fun l => { l with takeover := some ⟨i, 6, d.now, false, false⟩, handover := true }) d) := by
  simp only [startHandover, h]

/-- The second restarts: its complex loads, and rejoins. -/
def restartDev (j : Nat) (d : Dev) : Dev := setState (pComplex j) .loading .mgmtOrder (loadComplex j .rejoining (beginOrder 3 d))

theorem restartSecond_restarts (h : restartTarget d = some j) : restartSecond d = restartDev j d := by
  simp only [restartSecond, h]
  rfl

theorem restartDev_leaves : (complexOf j (restartDev j d)).role = .rejoining ∧ (pageOf (pComplex j) (restartDev j d)).state = .loading
    ∧ (pageOf (pComplex j) (restartDev j d)).cause = .mgmtOrder ∧ (restartDev j d).mgmt = { d.mgmt with orderKind := 3, orderState := 1 } := by
  have hq := sameQuiet_setState (pComplex j) .loading .mgmtOrder (loadComplex j .rejoining (beginOrder 3 d))
  obtain ⟨w, hw⟩ := pageOf_setState (pComplex j) .loading .mgmtOrder (loadComplex j .rejoining (beginOrder 3 d))
  rw [restartDev, hw, complexOf_of_quiet hq, hq.field Dev.mgmt fun _ => rfl]
  refine ⟨?_, rfl, rfl, rfl⟩
  rw [loadComplex, complexOf, putComplex]
  exact congrArg Complex.role (tbl_get_set_same _ _ _ _)

variable (hon : s.on) (hm : mgmtAnswers s.dev = true) (hb : s.dev.boot.phase = .running)
include hon hm hb

theorem orderReset_accepts {b : List Byte} (hl : b.length = 1) (h2 : leAt b 0 1 ≤ 2) (hmap : mappedLevel (5 + leAt b 0 1) s.dev < 3)
    (hr : s.dev.reset.level = none) : Does s (exec (.orderReset inst b) s) (fun e =>
      e.reset.level = some (mappedLevel (5 + leAt b 0 1) s.dev)
      ∧ e.always.cause = 2 ^ 24 * (5 + leAt b 0 1) + 2 ^ 16 * mappedLevel (5 + leAt b 0 1) s.dev
      ∧ e.mgmt.out.getLast? = some (vendor inst 0x08 0 [])) := by
  have hmapped : ∀ src, mappedLevel src (hear s.dev) = mappedLevel src s.dev :=
    fun src => (sameQuiet_hear s.dev).field (mappedLevel src) fun _ => rfl
  have hmerge : mergesWith (5 + leAt b 0 1) (hear s.dev) = false := by
    rw [mergesWith, reset_hear, hr]
  have hchecks : ∀ c ∈ resetChecks b (hear s.dev), c.1 = false := by
    simp only [resetChecks, hmerge, hmapped, boot_hear, hb, List.mem_cons, List.not_mem_nil, or_false]
    rintro c (rfl | rfl | rfl)
    · rfl
    · rw [Bool.or_eq_false_iff]
      exact ⟨decide_eq_false (Nat.not_lt.2 h2), beq_false_of_ne (Nat.ne_of_lt hmap)⟩
    · rfl
  have hreq := requestReset_accepts (d := hear s.dev) (by rw [hmapped]; exact hmap) (by rw [lead_hear]; exact mgmtAnswers_notSafe hm)
    (by rw [reset_hear, hr])
  obtain ⟨h1, h2⟩ := acceptReset_stamps (source := 5 + leAt b 0 1) (level := mappedLevel (5 + leAt b 0 1) s.dev) (d := hear s.dev)
  refine does_of hon (f := vendorRow ⟨inst, 0x08, true, b.length == 1⟩ (resetChecks b) (fun d => (requestReset (5 + leAt b 0 1) d, []))) ?_
  rw [vendorRow_takes hm hb (beq_of_eq hl) hchecks, hreq, hmapped]
  exact ⟨h1, h2, respond_last _ _ _ _ _⟩

theorem orderPowerOff_begins (ho : s.dev.mgmt.orderState ≠ 1) : Does s (exec (.orderPowerOff inst []) s) (fun e =>
    e.mgmt.powerOff = true ∧ e.power.filler = 0 ∧ e.mgmt.out.getLast? = some (vendor inst 0x09 0 [])) := by
  have hchecks : ∀ c ∈ [(orderRuns (hear s.dev), 6)], c.1 = false := by
    rw [orderRuns, mgmt_hear]
    simpa using ho
  have hstart : ∃ x, startPowerOff (hear s.dev) = x ∧ x.mgmt.powerOff = true ∧ x.power.filler = 0 :=
    ⟨_, startPowerOff_eq, powerOffWith_leaves coolantPages⟩
  obtain ⟨x, hx, h1, h2⟩ := hstart
  refine does_of hon (f := vendorRow ⟨inst, 0x09, false, List.isEmpty []⟩ (fun d => [(orderRuns d, 6)]) (fun d => (startPowerOff d, []))) ?_
  rw [vendorRow_takes hm hb rfl hchecks, hx]
  exact ⟨h1, h2, respond_last _ _ _ _ _⟩

theorem orderPowerOff_busy (ho : s.dev.mgmt.orderState = 1) : Does s (exec (.orderPowerOff inst []) s) (fun e =>
    told (vendor inst 0x09 6 []) s.dev e ∧ e.mgmt.powerOff = s.dev.mgmt.powerOff) := by
  have hfind : ([(orderRuns (hear s.dev), 6)] : List (Bool × Nat)).find? (·.1) = some (true, 6) := by
    rw [orderRuns, mgmt_hear]
    simp [ho]
  have hoff : (hear s.dev).mgmt.powerOff = s.dev.mgmt.powerOff := by rw [mgmt_hear]
  refine does_of hon (f := vendorRow ⟨inst, 0x09, false, List.isEmpty []⟩ (fun d => [(orderRuns d, 6)]) (fun d => (startPowerOff d, []))) ?_
  rw [vendorRow_fails hm hb rfl hfind (by decide)]
  exact ⟨respond_told heard_hear _ _ _ _, hoff⟩

theorem handover_begins (hc : handoverChecks s.dev = [(false, 6), (false, 8)]) (hi : s.dev.always.leadSelect = some i) :
    Does s (exec (.handover inst []) s) (fun e => e.lead.takeover = some ⟨i, 6, s.dev.now, false, false⟩
      ∧ e.lead.handover = true ∧ e.mgmt.orderKind = 2 ∧ e.mgmt.orderState = 1 ∧ told (vendor inst 0x0C 0 []) s.dev e) := by
  have hchecks : ∀ c ∈ handoverChecks (hear s.dev), c.1 = false := by
    rw [handoverChecks_hear, hc]
    simp
  have hstart := startHandover_starts (d := hear s.dev) (i := i) (by rw [always_hear, hi])
  refine does_of hon (f := vendorRow ⟨inst, 0x0C, false, true⟩ handoverChecks (fun d => (startHandover d, []))) ?_
  rw [vendorRow_takes hm hb rfl hchecks, hstart, now_hear]
  have hh : Heard s.dev (hear s.dev) := heard_hear
  exact ⟨rfl, rfl, rfl, rfl, respond_told ⟨hh.out, hh.eventsOn, hh.heard, hh.silenced⟩ _ _ _ _⟩

theorem restartSecond_begins (hu : s.dev.unrun = []) (hc : restartChecks s.dev = [(false, 6), (false, 8)]) (hj : restartTarget s.dev = some j) :
    Does s (exec (.restartSecond inst []) s) (fun e => (complexOf j e).role = .rejoining
      ∧ (pageOf (pComplex j) e).state = .loading ∧ (pageOf (pComplex j) e).cause = .mgmtOrder
      ∧ e.mgmt.orderKind = 3 ∧ e.mgmt.orderState = 1 ∧ told (vendor inst 0x0D 0 []) s.dev e) := by
  have hchecks : ∀ c ∈ restartChecks (hear s.dev), c.1 = false := by
    rw [restartChecks_hear, hc]
    simp
  have hstart := restartSecond_restarts (d := hear s.dev) (restartTarget_hear.trans hj)
  obtain ⟨h1, h2, h3, h4⟩ := restartDev_leaves (j := j) (d := hear s.dev)
  rw [show exec (.restartSecond inst []) s = _ from onDevPart_none 1 (vendorTakes (restartRequest inst []) restartChecks)
    (vendorRow (restartRequest inst []) restartChecks (fun d => (restartSecond d, []))) hu]
  refine does_of hon ?_
  rw [vendorRow_takes hm hb rfl hchecks, hstart]
  have hh : Heard s.dev (restartDev j (hear s.dev)) := by
    have hh : Heard s.dev (hear s.dev) := heard_hear
    exact ⟨by rw [h4, hh.out], by rw [h4, hh.eventsOn], by rw [h4, hh.heard], by rw [h4, hh.silenced]⟩
  generalize restartDev j (hear s.dev) = x at h1 h2 h3 h4 hh ⊢
  exact ⟨h1, h2, h3, congrArg Mgmt.orderKind h4, congrArg Mgmt.orderState h4, respond_told hh _ _ _ _⟩

end Orders

/-- Settles O54: each order is judged and begins, and a restart of the management controller drops what it was answered. -/
theorem ordersComplete : Obligations.OrdersComplete := by
  intro inst i j b s hon hm hb hu d level
  exact ⟨orderReset_accepts hon hm hb, orderPowerOff_begins hon hm hb, orderPowerOff_busy hon hm hb, handover_begins hon hm hb,
    restartSecond_begins hon hm hb hu, gives_of_eq hon (f := modMgmt (fun m => { m with
      incoming := none, out := m.out.filter (fun x => !isAnswer x), assemblies := [] })) rfl⟩

end Sys2Proof.Machine
end


section
/-!
SUPPORT. Staging and activation of firmware, attestation and debug (R471 to R483).
-/

namespace Sys2Proof.Machine

/-! ### What a request finds once it is heard -/

section Heard

variable {d : Dev} {i : Nat}

theorem stagedPieces_hear : stagedPieces (hear d) = stagedPieces d := (sameQuiet_hear d).field stagedPieces fun _ => rfl

theorem pieceLength_hear : pieceLength i (hear d) = pieceLength i d := (sameQuiet_hear d).field (pieceLength i) fun _ => rfl

theorem assemblyOf_hear : assemblyOf i (hear d) = assemblyOf i d := (sameQuiet_hear d).field (assemblyOf i) fun _ => rfl

theorem activating_hear : activating (hear d) = activating d := (sameQuiet_hear d).field activating fun _ => rfl

theorem orderRuns_hear : orderRuns (hear d) = orderRuns d := (sameQuiet_hear d).field orderRuns fun _ => rfl

theorem stagingState_hear : stagingState (hear d) = stagingState d := (sameQuiet_hear d).field stagingState fun _ => rfl

theorem stagedHash_hear : stagedHash (hear d) = stagedHash d := (sameQuiet_hear d).field stagedHash fun _ => rfl

theorem stagedGood_hear (fz : Fuses) : stagedGood fz (hear d) = stagedGood fz d := by
  unfold stagedGood
  rw [flash_hear]

theorem coolantStopped_hear : coolantStopped (hear d) = coolantStopped d := (sameQuiet_hear d).field coolantStopped fun _ => rfl

theorem writes_hear (b : List Byte) : writes b (hear d) = writes b d := by
  unfold writes
  rw [flash_hear]

theorem assemblies_hear : (hear d).mgmt.assemblies = d.mgmt.assemblies := by rw [mgmt_hear]

theorem pieceBytes_hear : pieceBytes i (hear d) = pieceBytes i d := by
  unfold pieceBytes
  rw [assemblyOf_hear, pieceLength_hear]

theorem newNonce_hear : newNonce (hear d) = newNonce d := by
  unfold newNonce
  rw [fresh_hear]

theorem attestBody_hear (fz : Fuses) (log : List LogEntry) (b : List Byte) : attestBody fz log b (hear d) = attestBody fz log b d := by
  have hv := variantOf_hear d
  have hs : (hear d).mgmt.scope = d.mgmt.scope := by rw [mgmt_hear]
  unfold attestBody
  rw [fused_hear, flash_hear, always_hear, hv, hs]

end Heard

/-! ### Staging (R471 to R473) -/

section Staging

variable {s : State} {d : Dev} {b : List Byte} {inst i : Nat} {set : FwSet}

theorem assemblyOf_dropAssembly (i : Nat) (d : Dev) : assemblyOf i (dropAssembly i d) = none := by
  refine List.find?_eq_none.2 fun a ha => ?_
  have h := (List.mem_filter.1 ha).2
  simpa using h

/-- The bytes of a piece that have been assembled. -/
def assembled (i : Nat) (d : Dev) : Mem := match assemblyOf i d with | some a => a.bytes | none => []

theorem stageData_writes (hw : writes b d = true) : assemblyOf (leAt b 0 2) (stageData b d)
      = some ⟨leAt b 0 2, (assembled (leAt b 0 2) d).write (leAt b 2 2) ((b.drop 6).take (leAt b 4 2))⟩
    ∧ (stageData b d).flash = d.flash ∧ Heard d (hear d) := by
  have hgone : (d.mgmt.assemblies.filter (fun a => a.piece != leAt b 0 2)).find? (fun a => a.piece == leAt b 0 2) = none :=
    assemblyOf_dropAssembly (leAt b 0 2) d
  have he : stageData b d = modMgmt (fun m => { m with
      assemblies := m.assemblies.filter (fun a => a.piece != leAt b 0 2)
        ++ [⟨leAt b 0 2, (assembled (leAt b 0 2) d).write (leAt b 2 2) ((b.drop 6).take (leAt b 4 2))⟩] }) d := by
    unfold stageData
    rw [if_neg (by rw [hw]; decide)]
    rfl
  rw [he]
  refine ⟨?_, rfl, heard_hear⟩
  simp only [assemblyOf, modMgmt, List.find?_append, hgone, Option.none_or, List.find?_cons, beq_self_eq_true]

theorem heard_stageData (h : Heard d (hear d)) : Heard d (stageData b (hear d)) := by
  unfold stageData
  split
  · exact h
  · exact ⟨h.out, h.eventsOn, h.heard, h.silenced⟩

theorem pieceMatches_iff (hp : d.flash.pieces.contains (leAt b 0 2) = false) :
    pieceMatches b d = (sha256 (pieceBytes (leAt b 0 2) d) == (b.drop 2).take 32) := by
  rw [pieceMatches, hp, Bool.false_or]

/-- The piece in staging and counted, its buffer gone. -/
def pieceKept (b : List Byte) (set : FwSet) (d : Dev) : Dev :=
  dropAssembly (leAt b 0 2) { d with flash := { d.flash with
    staged := some { set with body := set.body.write (65536 * leAt b 0 2) (pieceBytes (leAt b 0 2) d) },
    pieces := d.flash.pieces ++ [leAt b 0 2] } }

theorem finishPiece_keeps (hs : d.flash.staged = some set) (hp : d.flash.pieces.contains (leAt b 0 2) = false) :
    finishPiece b d = (pieceKept b set d, leBytes 2 (d.flash.pieces.length + 1)) := by
  have hlen : (d.flash.pieces ++ [leAt b 0 2]).length = d.flash.pieces.length + 1 := List.length_append
  simp only [finishPiece, hs, hp, Bool.false_eq_true, if_false]
  rw [← hlen]
  rfl

variable (hon : s.on) (hm : mgmtAnswers s.dev = true) (hb : s.dev.boot.phase = .running)
include hon hm hb

theorem stageBegin_judges (hl : b.length = 8336) (ha : s.dev.mgmt.activation = none) (hs : s.dev.flash.staged = none) :
    Does s (exec (.stageBegin inst b) s) (fun e => if manifestGood s.fuses b = true ∧ versionsGood s.fuses b = true
      then e.flash.staged = some ⟨b, []⟩ ∧ e.flash.pieces = []
        ∧ told (vendor inst 0x18 0 (leBytes 2 (setPieces b) ++ leBytes 2 0 ++ [0])) s.dev e
      else e.flash = s.dev.flash ∧ told (vendor inst 0x18 7 []) s.dev e) := by
  have hact : activating (hear s.dev) = false := by rw [activating_hear, activating, ha]; rfl
  have hchecks : beginChecks s.fuses b (hear s.dev) = [(false, 5), (false, 5), (!(manifestGood s.fuses b && versionsGood s.fuses b), 7)] := by
    rw [beginChecks, hact, flash_hear, hs]
  have hh : Heard s.dev (hear s.dev) := heard_hear
  refine does_of hon (f := vendorRow ⟨inst, 0x18, true, b.length == 8336⟩ (beginChecks s.fuses b) (beginStaging b)) ?_
  cases hg : (manifestGood s.fuses b && versionsGood s.fuses b) with
  | true =>
    have hbegin : beginStaging b (hear s.dev) = (modMgmt (fun x => { x with assemblies := [] })
        { hear s.dev with flash := { (hear s.dev).flash with staged := some ⟨b, []⟩, pieces := [] } },
        leBytes 2 (setPieces b) ++ leBytes 2 0 ++ [0]) := by
      have hs' : (hear s.dev).flash.staged = none := by rw [flash_hear, hs]
      simp only [beginStaging, hs']
    rw [vendorRow_takes hm hb (beq_of_eq hl) (by rw [hchecks, hg]; simp), hbegin, if_pos (by simpa using hg)]
    exact ⟨rfl, rfl, respond_told ⟨hh.out, hh.eventsOn, hh.heard, hh.silenced⟩ _ _ _ _⟩
  | false =>
    rw [vendorRow_fails (n := 7) hm hb (beq_of_eq hl) (by rw [hchecks, hg]; rfl) (by decide), if_neg (by rw [← Bool.and_eq_true, hg]; exact Bool.false_ne_true)]
    exact ⟨flash_hear, respond_told hh _ _ _ _⟩

theorem stageData_assembles (hl : b.length = 6 + leAt b 4 2) (h4096 : leAt b 4 2 ≤ 4096) (hi : leAt b 0 2 < stagedPieces s.dev)
    (hlen : leAt b 2 2 + leAt b 4 2 ≤ pieceLength (leAt b 0 2) s.dev) (hw : writes b s.dev = true)
    (hroom : (assemblyOf (leAt b 0 2) s.dev).isSome = true ∨ s.dev.mgmt.assemblies.length < 4) :
    Does s (exec (.stageData inst b) s) (fun e => assemblyOf (leAt b 0 2) e
        = some ⟨leAt b 0 2, (assembled (leAt b 0 2) s.dev).write (leAt b 2 2) ((b.drop 6).take (leAt b 4 2))⟩
      ∧ e.flash = s.dev.flash ∧ told (vendor inst 0x19 0 []) s.dev e) := by
  have hlength : (decide (6 ≤ b.length) && b.length == 6 + leAt b 4 2) = true := by
    rw [hl]
    simp
  have hchecks : ∀ c ∈ dataChecks b (hear s.dev), c.1 = false := by
    simp only [dataChecks, stagedPieces_hear, pieceLength_hear, writes_hear, assemblyOf_hear, assemblies_hear, hw, List.mem_cons,
      List.not_mem_nil, or_false]
    rintro c (rfl | rfl)
    · simpa using ⟨⟨h4096, hi⟩, hlen⟩
    · rcases hroom with h | h
      · simp [Option.isNone_eq_false_iff.2 h]
      · simp [h]
  have hh := heard_stageData (b := b) (heard_hear (d := s.dev))
  obtain ⟨h1, h2, -⟩ := stageData_writes (b := b) (d := hear s.dev) (by rw [writes_hear, hw])
  have hold : assembled (leAt b 0 2) (hear s.dev) = assembled (leAt b 0 2) s.dev := by
    unfold assembled
    rw [assemblyOf_hear]
  refine does_of hon (f := vendorRow ⟨inst, 0x19, true, decide (6 ≤ b.length) && b.length == 6 + leAt b 4 2⟩ (dataChecks b)
    (fun d => (stageData b d, []))) ?_
  rw [vendorRow_takes hm hb hlength hchecks]
  rw [hold] at h1
  exact ⟨h1, h2.trans flash_hear, respond_told hh _ _ _ _⟩

theorem stagePieceDone_judges (hl : b.length = 34) (hi : leAt b 0 2 < stagedPieces s.dev) (hs : s.dev.flash.staged = some set)
    (hp : s.dev.flash.pieces.contains (leAt b 0 2) = false) :
    Does s (exec (.stagePieceDone inst b) s) (fun e => assemblyOf (leAt b 0 2) e = none
      ∧ if sha256 (pieceBytes (leAt b 0 2) s.dev) = (b.drop 2).take 32
        then e.flash.pieces = s.dev.flash.pieces ++ [leAt b 0 2]
          ∧ e.flash.staged = some { set with body := set.body.write (65536 * leAt b 0 2) (pieceBytes (leAt b 0 2) s.dev) }
          ∧ told (vendor inst 0x1A 0 (leBytes 2 (s.dev.flash.pieces.length + 1))) s.dev e
        else e.flash = s.dev.flash ∧ told (vendor inst 0x1A 7 []) s.dev e) := by
  have hgood : (b.length == 34) = true := beq_of_eq hl
  have hmatch := pieceMatches_iff hp
  have hknown : decide (leAt b 0 2 < stagedPieces s.dev) = true := decide_eq_true hi
  refine does_of hon (f := pieceDone inst b) ?_
  unfold pieceDone
  simp only [hgood, hknown, hm, Bool.and_self, Bool.true_and, Bool.not_true]
  generalize hsum : sha256 (pieceBytes (leAt b 0 2) s.dev) = sum at hmatch ⊢
  by_cases hsame : sum = (b.drop 2).take 32
  · have hpm : pieceMatches b s.dev = true := hmatch.trans (beq_of_eq hsame)
    have hfin := finishPiece_keeps (b := b) (d := hear s.dev) (set := set) (by rw [flash_hear, hs]) (by rw [flash_hear, hp])
    rw [hpm, if_pos hsame, Bool.not_true, if_neg Bool.false_ne_true, vendorRow_takes hm hb rfl (by simp), hfin, flash_hear]
    refine ⟨assemblyOf_dropAssembly (leAt b 0 2) _, ?_, ?_, respond_told (x := pieceKept b set (hear s.dev)) ?_ _ _ _ _⟩
    · exact congrArg (fun f => f.pieces ++ [leAt b 0 2]) flash_hear
    · have hbytes : pieceBytes (leAt b 0 2) (hear s.dev) = pieceBytes (leAt b 0 2) s.dev := pieceBytes_hear
      exact congrArg (fun l => some { set with body := set.body.write (65536 * leAt b 0 2) l }) hbytes
    · have hh : Heard s.dev (hear s.dev) := heard_hear
      exact ⟨hh.out, hh.eventsOn, hh.heard, hh.silenced⟩
  · have hpm : pieceMatches b s.dev = false := hmatch.trans (beq_false_of_ne hsame)
    have hh : Heard (dropAssembly (leAt b 0 2) s.dev) (hear (dropAssembly (leAt b 0 2) s.dev)) := heard_hear
    rw [hpm, if_neg hsame, Bool.not_false, if_pos rfl,
      vendorRow_fails (n := 7) (d := dropAssembly (leAt b 0 2) s.dev) hm hb rfl (by rfl) (by decide)]
    refine ⟨?_, flash_hear, respond_told (x := hear (dropAssembly (leAt b 0 2) s.dev)) ⟨hh.out, hh.eventsOn, hh.heard, hh.silenced⟩ _ _ _ _⟩
    exact (assemblyOf_hear (d := dropAssembly (leAt b 0 2) s.dev)).trans (assemblyOf_dropAssembly (leAt b 0 2) s.dev)

theorem stageAbandon_empties (ha : s.dev.mgmt.activation = none) : Does s (exec (.stageAbandon inst []) s) (fun e =>
    e.flash.staged = none ∧ e.flash.pieces = [] ∧ e.mgmt.assemblies = [] ∧ told (vendor inst 0x1C 0 []) s.dev e) := by
  have hchecks : ∀ c ∈ [(activating (hear s.dev), 5)], c.1 = false := by
    rw [activating_hear, activating, ha]
    simp
  have hh : Heard s.dev (hear s.dev) := heard_hear
  refine does_of hon (f := vendorRow ⟨inst, 0x1C, true, List.isEmpty []⟩ (fun d => [(activating d, 5)]) (fun d =>
    (modMgmt (fun m => { m with assemblies := [] }) { d with flash := { d.flash with staged := none, pieces := [] } }, []))) ?_
  rw [vendorRow_takes hm hb rfl hchecks]
  exact ⟨rfl, rfl, rfl, respond_told ⟨hh.out, hh.eventsOn, hh.heard, hh.silenced⟩ _ _ _ _⟩

end Staging

/-! ### Activation (R474, R475, R477) -/

section Activation

variable {s : State} {d : Dev} {b : List Byte} {inst tries : Nat} {adv : Bool} {set : FwSet}

theorem latestCommit_writeCommit (st : Nat) (hash : List Byte) (f : Flash) :
    latestCommit (writeCommit st hash f) = ⟨(latestCommit f).sequence + 1, st, hash⟩ := by
  by_cases h : f.commit0.sequence < f.commit1.sequence
  · have hl : latestCommit f = f.commit1 := if_pos h
    rw [writeCommit, if_pos h, hl]
    exact if_neg (by simp)
  · have hl : latestCommit f = f.commit0 := if_neg h
    rw [writeCommit, if_neg h, hl]
    exact if_pos (by simp)

theorem active_writeCommit (st : Nat) (hash : List Byte) (f : Flash) : (writeCommit st hash f).active = f.active := by
  unfold writeCommit
  simp only
  split <;> rfl

/-- Settings that return to their defaults leave the sets and the commit records. -/
theorem defaultSetting_keeps (variant key : Nat) (f : Flash) : (defaultSetting variant key f).active = f.active
    ∧ latestCommit (defaultSetting variant key f) = latestCommit f := by
  unfold defaultSetting
  simp only
  split <;> exact ⟨rfl, rfl⟩

theorem defaultSettings_keep (variant : Nat) (l : List Nat) (f : Flash) :
    (l.foldl (fun f k => defaultSetting variant k f) f).active = f.active
    ∧ latestCommit (l.foldl (fun f k => defaultSetting variant k f) f) = latestCommit f := by
  induction l generalizing f with
  | nil => exact ⟨rfl, rfl⟩
  | cons k l ih =>
    obtain ⟨h1, h2⟩ := ih (defaultSetting variant k f)
    obtain ⟨h3, h4⟩ := defaultSetting_keeps variant k f
    exact ⟨h1.trans h3, h2.trans h4⟩

theorem checkSettings_keeps (d : Dev) : (checkSettings d).flash.active = d.flash.active
    ∧ latestCommit (checkSettings d).flash = latestCommit d.flash ∧ (checkSettings d).mgmt.activation = d.mgmt.activation := by
  unfold checkSettings
  simp only
  generalize List.filter (settingStale d.flash) [1, 2, 3] = l
  split
  · exact ⟨rfl, rfl, rfl⟩
  · have hq := fun x => (reported_raise pView 20 x).sameQuiet
    obtain ⟨h1, h2⟩ := defaultSettings_keep (variantOf d) l d.flash
    simp only [mgmtEvent, settleAlert, setPins, modMgmt]
    rw [(hq _).field Dev.flash fun _ => rfl, (hq _).field Dev.mgmt fun _ => rfl]
    exact ⟨h1, h2, rfl⟩

theorem endOrder_flash (kind : Nat) (ok : Bool) (d : Dev) : (endOrder kind ok d).flash = d.flash
    ∧ (endOrder kind ok d).mgmt.activation = d.mgmt.activation := by
  unfold endOrder
  split
  · have hq := (reported_raise pView 18 (modMgmt (fun m => { m with orderState := if ok then 2 else 3 }) d)).sameQuiet
    have hact := congrArg Mgmt.activation (hq.field Dev.mgmt fun _ => rfl)
    exact ⟨hq.field Dev.flash fun _ => rfl, hact⟩
  · exact ⟨rfl, rfl⟩

/-- The staged set copied and COMMITTED, before the settings are checked. -/
def committedDev (d : Dev) : Dev :=
  modMgmt (fun m => { m with activation := none }) { d with flash := writeCommit 2 (stagedHash d) (copyStaging d.flash) }

theorem commitSet_running (hb : d.boot.phase = .running) : commitSet d = raise pView 19 (endOrder 4 true (checkSettings (committedDev d))) := by
  unfold commitSet
  rw [if_neg (by rw [hb]; decide)]
  rfl

theorem commitSet_leaves (hb : d.boot.phase = .running) (hs : d.flash.staged = some set) : (commitSet d).flash.active = set
    ∧ (latestCommit (commitSet d).flash).state = 2 ∧ (commitSet d).mgmt.activation = none := by
  obtain ⟨h1, h2, h3⟩ := checkSettings_keeps (committedDev d)
  obtain ⟨h4, h5⟩ := endOrder_flash 4 true (checkSettings (committedDev d))
  have hq := (reported_raise pView 19 (endOrder 4 true (checkSettings (committedDev d)))).sameQuiet
  have hcopy : (copyStaging d.flash).active = set := by simp only [copyStaging, hs]
  rw [commitSet_running hb, hq.field Dev.flash fun _ => rfl, hq.field Dev.mgmt fun _ => rfl, h4, h5, h1, h2, h3]
  exact ⟨(active_writeCommit _ _ _).trans hcopy, congrArg Commit.state (latestCommit_writeCommit _ _ _), rfl⟩

theorem retryCopy_again (ht : tries < 3) : retryCopy adv tries d = { d with mgmt := { d.mgmt with activation := some (adv, tries + 1) } } :=
  if_pos ht

theorem copyDone_eq (hon : s.on) (hm : mgmtAnswers s.dev = true) (verified : Bool) :
    exec (.activationCopyDone verified) s = .next (finishCopy verified s) := by
  have hp : portAlive s.dev = true := by
    simp only [mgmtAnswers, frontEnd, Bool.and_eq_true] at hm
    exact hm.1.1
  exact if_neg (by rw [hp]; simpa using hon)

theorem copyDone_commits (hon : s.on) (hm : mgmtAnswers s.dev = true) (hb : s.dev.boot.phase = .running)
    (ha : s.dev.mgmt.activation = some (adv, tries)) (hs : s.dev.flash.staged = some set) :
    ∃ t, exec (.activationCopyDone true) s = .next t ∧ t.pending = s.pending ∧ t.dev.flash.active = set
      ∧ (latestCommit t.dev.flash).state = 2 ∧ t.dev.mgmt.activation = none
      ∧ t.fuses = (if adv then { s.fuses with svn := burned s.fuses.svn set.manifest } else s.fuses) := by
  obtain ⟨h1, h2, h3⟩ := commitSet_leaves hb hs
  refine ⟨_, copyDone_eq hon hm true, ?_⟩
  cases adv with
  | true =>
    simp only [finishCopy, ha, hs, Bool.not_true, Bool.false_eq_true, if_false, if_true]
    exact ⟨trivial, h1, h2, h3, trivial⟩
  | false =>
    simp only [finishCopy, ha, hs, Bool.not_true, Bool.false_eq_true, if_false]
    exact ⟨trivial, h1, h2, h3, trivial⟩

theorem copyDone_again (hon : s.on) (hm : mgmtAnswers s.dev = true) (ha : s.dev.mgmt.activation = some (adv, tries))
    (hs : s.dev.flash.staged = some set) (ht : tries < 3) : Gives s (exec (.activationCopyDone false) s)
      { s.dev with mgmt := { s.dev.mgmt with activation := some (adv, tries + 1) } } := by
  have he : finishCopy false s = { s with dev := retryCopy adv tries s.dev } := by
    simp only [finishCopy, ha, hs, Bool.not_false, if_true]
  rw [Gives, copyDone_eq hon hm false, he, retryCopy_again ht]

theorem bit0_of_le {n : Nat} (h : n ≤ 1) : bitOf n 0 = (n == 1) := by
  match n, h with
  | 0, _ => rfl
  | 1, _ => rfl

theorem activate_judges (hon : s.on) (hm : mgmtAnswers s.dev = true) (hb : s.dev.boot.phase = .running) (hl : b.length = 1)
    (h1 : leAt b 0 1 ≤ 1) (ho : s.dev.mgmt.orderState ≠ 1) (hst : stagingState s.dev = 2) (hr : s.dev.reset.level = none)
    (hc : coolantStopped s.dev = false) (ht : s.dev.always.hardTrip = false) :
    Does s (exec (.activate inst b) s) (fun e => if stagedGood s.fuses s.dev = true
      then e.mgmt.activation = some (leAt b 0 1 == 1, 0) ∧ (latestCommit e.flash).state = 1
        ∧ (latestCommit e.flash).hash = stagedHash s.dev ∧ e.mgmt.orderKind = 4 ∧ e.mgmt.orderState = 1
        ∧ e.unrun = [1, 2, 3, 4, 5, 6] ∧ told (vendor inst 0x1D 0 []) s.dev e
      else e.flash = s.dev.flash ∧ e.mgmt.orderState = s.dev.mgmt.orderState ∧ told (vendor inst 0x1D 7 []) s.dev e) := by
  have hrun : orderRuns (hear s.dev) = false := by
    rw [orderRuns_hear, orderRuns]
    exact beq_false_of_ne ho
  have hchecks : activateChecks s.fuses b (hear s.dev) = [(false, 2), (false, 6), (false, 5), (!stagedGood s.fuses s.dev, 7)] := by
    rw [activateChecks, hrun, stagingState_hear, reset_hear, coolantStopped_hear, always_hear, stagedGood_hear, hst, hr, hc, ht,
      decide_eq_false (Nat.not_lt.2 h1)]
    rfl
  have hh : Heard s.dev (hear s.dev) := heard_hear
  refine does_of hon (f := vendorRow ⟨inst, 0x1D, true, b.length == 1⟩ (activateChecks s.fuses b) (fun d =>
    (startActivation (bitOf (leAt b 0 1) 0) d, []))) ?_
  cases hg : stagedGood s.fuses s.dev with
  | true =>
    rw [vendorRow_takes hm hb (beq_of_eq hl) (by rw [hchecks, hg]; simp), if_pos rfl, bit0_of_le h1]
    have hcommit := latestCommit_writeCommit 1 (stagedHash (hear s.dev)) (hear s.dev).flash
    rw [stagedHash_hear] at hcommit
    have hflash : (respond inst 0x1D 0 [] (startActivation (leAt b 0 1 == 1) (hear s.dev))).flash
        = writeCommit 1 (stagedHash s.dev) (hear s.dev).flash := by
      rw [← stagedHash_hear]
      rfl
    rw [hflash, hcommit]
    exact ⟨rfl, rfl, rfl, rfl, rfl, rfl,
      respond_told (x := startActivation (leAt b 0 1 == 1) (hear s.dev)) ⟨hh.out, hh.eventsOn, hh.heard, hh.silenced⟩ _ _ _ _⟩
  | false =>
    have horder : (hear s.dev).mgmt.orderState = s.dev.mgmt.orderState := by rw [mgmt_hear]
    rw [vendorRow_fails (n := 7) hm hb (beq_of_eq hl) (by rw [hchecks, hg]; rfl) (by decide), if_neg Bool.false_ne_true]
    exact ⟨flash_hear, horder, respond_told hh _ _ _ _⟩

end Activation

theorem stagingCompletes : Claims.StagingCompletes := by
  intro inst tries adv b set s hon hm hb d i old
  exact ⟨stageBegin_judges hon hm hb, stageData_assembles hon hm hb, stagePieceDone_judges hon hm hb, stageAbandon_empties hon hm hb,
    activate_judges hon hm hb, copyDone_commits hon hm hb, copyDone_again hon hm⟩

/-! ### Attestation and debug (R480, R482, R483) -/

section Debug

variable {s : State} {d : Dev} {b bytes : List Byte} {inst : Nat}

theorem attestSigned_tells (hon : s.on) (hm : mgmtAnswers s.dev = true) (ha : s.dev.mgmt.attest = some bytes) :
    Gives s (exec .attestSigned s) { s.dev with mgmt := { s.dev.mgmt with
      attest := none, out := s.dev.mgmt.out ++ interruptFor s.dev.mgmt ++ [.message 0x7F (bytes ++ Config.slhSign (0x7F :: bytes))] } } := by
  refine gives_of_eq hon (f := finishAttest) ?_
  simp only [finishAttest, ha, hm, if_true]
  rfl

/-- DEBUG_UNLOCK changes the device as a row does, and logs what it opens. -/
theorem debugUnlock_eq (hon : s.on) : exec (.debugUnlock inst b) s = .next { s with
    mlog := if vendorTakes (unlockRequest inst b) (unlockChecks s.fuses b) s.dev = true then logEntry (unlockEntry b s.dev.now) s.mlog else s.mlog
    dev := vendorRow (unlockRequest inst b) (unlockChecks s.fuses b) (openScopes b) s.dev } := by
  show execDebugUnlock inst b s = _
  unfold execDebugUnlock
  simp only
  by_cases ht : vendorTakes (unlockRequest inst b) (unlockChecks s.fuses b) s.dev = true
  · rw [if_pos ⟨hon, ht⟩, if_pos ht]
  · rw [if_neg fun h => ht h.2, if_neg ht, onDev_on hon]

theorem openScopes_leaves : (openScopes b d).1.mgmt = { d.mgmt with scope := Nat.lor d.mgmt.scope (leAt b 12 4), nonce := none } :=
  (reported_raise pView 21 (modMgmt (fun m => { m with scope := Nat.lor d.mgmt.scope (leAt b 12 4), nonce := none }) d)).sameQuiet.field Dev.mgmt fun _ => rfl

variable (hon : s.on) (hm : mgmtAnswers s.dev = true) (hb : s.dev.boot.phase = .running)
include hon hm hb

theorem attest_waits (hl : b.length = 36) (h35 : leAt b 35 1 = 0) (h64 : leAt b 34 1 ≤ 64) (hlog : leAt b 32 2 ≤ s.mlog.length)
    (ha : s.dev.mgmt.attest = none) : Does s (exec (.attest inst b) s) (fun e =>
      e.mgmt.attest = some (vendorBytes inst 0x2A 0 (attestBody s.fuses s.mlog b s.dev)) ∧ e.mgmt.out = s.dev.mgmt.out) := by
  have hattest : (hear s.dev).mgmt.attest = none := by rw [mgmt_hear]; exact ha
  have hchecks : ∀ c ∈ attestChecks s.mlog b (hear s.dev), c.1 = false := by
    simp only [attestChecks, hattest, reservedBits, h35, List.mem_cons, List.not_mem_nil, or_false]
    rintro c (rfl | rfl | rfl)
    · rfl
    · simpa using ⟨h64, hlog⟩
    · rfl
  have hcode := vendorCode_passes (r := ⟨inst, 0x2A, false, b.length == 36⟩) (running_hear hb) (beq_of_eq hl) hchecks
  have hh : Heard s.dev (hear s.dev) := heard_hear
  refine does_of hon (f := attest s.fuses s.mlog inst b) ?_
  rw [attest, onMessage_answers hm]
  simp only [hcode, if_true]
  rw [attestBody_hear]
  exact ⟨rfl, hh.out⟩

theorem debugChallenge_draws : Does s (exec (.debugChallenge inst []) s) (fun e => e.mgmt.nonce = some (newNonce s.dev)
    ∧ e.fresh = s.dev.fresh + 4
    ∧ told (vendor inst 0x30 0 (leBytes 8 s.dev.fused.serial ++ leBytes 4 s.dev.flash.powerOns ++ newNonce s.dev)) s.dev e) := by
  have hbytes : (challenge (hear s.dev)).2 = leBytes 8 s.dev.fused.serial ++ leBytes 4 s.dev.flash.powerOns ++ newNonce s.dev := by
    rw [← newNonce_hear, ← fused_hear (d := s.dev), ← flash_hear (d := s.dev)]
    rfl
  have hnonce : (challenge (hear s.dev)).1.mgmt.nonce = some (newNonce s.dev) := by
    rw [← newNonce_hear]
    rfl
  have hh : Heard s.dev (hear s.dev) := heard_hear
  refine does_of hon (f := vendorRow ⟨inst, 0x30, false, List.isEmpty []⟩ (fun _ => []) challenge) ?_
  rw [vendorRow_takes hm hb rfl (by simp), hbytes]
  exact ⟨hnonce, congrArg (· + 4) fresh_hear,
    respond_told (x := (challenge (hear s.dev)).1) ⟨hh.out, hh.eventsOn, hh.heard, hh.silenced⟩ _ _ _ _⟩

omit hb in
theorem debugUnlock_judges : ∃ t, exec (.debugUnlock inst b) s = .next t ∧ t.pending = s.pending ∧ t.fuses = s.fuses
    ∧ if vendorTakes (unlockRequest inst b) (unlockChecks s.fuses b) s.dev = true
      then t.mlog = logEntry (unlockEntry b s.dev.now) s.mlog ∧ t.dev.mgmt.scope = Nat.lor s.dev.mgmt.scope (leAt b 12 4)
        ∧ t.dev.mgmt.nonce = none ∧ told (vendor inst 0x31 0 (leBytes 4 (Nat.lor s.dev.mgmt.scope (leAt b 12 4)))) s.dev t.dev
      else t.mlog = s.mlog ∧ t.dev.mgmt.scope = s.dev.mgmt.scope ∧ t.dev.mgmt.nonce = s.dev.mgmt.nonce := by
  refine ⟨_, debugUnlock_eq hon, rfl, rfl, ?_⟩
  have hrow := vendorRow_code (r := unlockRequest inst b) (checks := unlockChecks s.fuses b) (act := openScopes b) (d := s.dev) hm rfl
  have hh : Heard s.dev (hear s.dev) := heard_hear
  have hscope : (hear s.dev).mgmt.scope = s.dev.mgmt.scope := by rw [mgmt_hear]
  have hnonce : (hear s.dev).mgmt.nonce = s.dev.mgmt.nonce := by rw [mgmt_hear]
  by_cases ht : vendorTakes (unlockRequest inst b) (unlockChecks s.fuses b) s.dev = true
  · have hcode : vendorCode (unlockRequest inst b) (unlockChecks s.fuses b (hear s.dev)) (hear s.dev) = 0 := by
      rw [vendorTakes, Bool.and_eq_true, beq_iff_eq] at ht
      exact ht.2
    have hopen := openScopes_leaves (b := b) (d := hear s.dev)
    rw [if_pos hcode] at hrow
    simp only [hrow, if_pos ht]
    rw [hscope] at hopen
    refine ⟨trivial, congrArg Mgmt.scope hopen, congrArg Mgmt.nonce hopen, ?_⟩
    have hx : Heard s.dev (openScopes b (hear s.dev)).1 :=
      ⟨by rw [hopen, hh.out], by rw [hopen, hh.eventsOn], by rw [hopen, hh.heard], by rw [hopen, hh.silenced]⟩
    rw [show (openScopes b (hear s.dev)).2 = leBytes 4 (Nat.lor (hear s.dev).mgmt.scope (leAt b 12 4)) from rfl, hscope]
    exact respond_told hx _ _ _ _
  · have hcode : vendorCode (unlockRequest inst b) (unlockChecks s.fuses b (hear s.dev)) (hear s.dev) ≠ 0 := fun h => ht (by
      rw [vendorTakes, hm, h]
      rfl)
    rw [if_neg hcode] at hrow
    simp only [hrow, if_neg ht]
    exact ⟨trivial, hscope, hnonce⟩

theorem debugUnlock_short (hl : b.length ≠ 7908) : Does s (exec (.debugUnlock inst b) s) (fun e =>
    told (vendor inst 0x31 3 []) s.dev e ∧ e.mgmt.scope = s.dev.mgmt.scope) := by
  have hlen : (unlockRequest inst b).lengthOk = false := beq_false_of_ne hl
  have hscope : (hear s.dev).mgmt.scope = s.dev.mgmt.scope := by rw [mgmt_hear]
  have htakes : ¬ vendorTakes (unlockRequest inst b) (unlockChecks s.fuses b) s.dev = true := by
    rw [vendorTakes, vendorCode_short (running_hear hb) hlen, Bool.and_eq_true]
    exact fun h => absurd h.2 (by decide)
  refine ⟨_, debugUnlock_eq hon, rfl, rfl, if_neg htakes, ?_⟩
  simp only [vendorRow_short hm hb hlen]
  exact ⟨respond_told heard_hear _ _ _ _, hscope⟩

end Debug

theorem attestationAndDebugComplete : Claims.AttestationAndDebugComplete := by
  intro inst b bytes s hon hm hb d scope
  exact ⟨attest_waits hon hm hb, attestSigned_tells hon hm, debugChallenge_draws hon hm hb, debugUnlock_judges hon hm,
    debugUnlock_short hon hm hb⟩

/-- Settles O55: staging and activation request by request, and what attestation and debug leave. -/
theorem firmwareAndDebugComplete : Obligations.FirmwareAndDebugComplete := ⟨stagingCompletes, attestationAndDebugComplete⟩

end Sys2Proof.Machine
end


section
/-!
SUPPORT. The JTAG port, and the module right after a power-on (R29, R33, R489, R500).
-/

namespace Sys2Proof.Machine

/-! ### JTAG (R489, R500) -/

section Jtag

variable {s : State} {d : Dev} {f : Jtag → Jtag} {instr : JtagInstr} {drives : Bool} {cells : List Nat}

theorem onTap_free (h : d.jtag.held = false) : onTap f d = { d with jtag := f d.jtag } := if_neg (by rw [h]; exact Bool.false_ne_true)

theorem onTap_held (h : d.jtag.held = true) : onTap f d = d := if_pos h

theorem shiftCells_held (h : d.jtag.held = true) : shiftCells instr drives cells d = d := if_pos h

theorem shiftCells_leaves (h : d.jtag.held = false) : (shiftCells instr drives cells d).jtag.cells = cells
    ∧ (shiftCells instr drives cells d).jtag.instr = instr ∧ (shiftCells instr drives cells d).jtag.drives = drives
    ∧ (shiftCells instr drives cells d).jtag.tdo.length = d.jtag.tdo.length + cells.length := by
  rw [shiftCells, if_neg (by rw [h]; exact Bool.false_ne_true)]
  exact ⟨rfl, rfl, rfl, by simp⟩

theorem idcodeWord_low : idcodeWord.setWidth 28 = 0x5804C6F#28 := BitVec.setWidth_append_eq_right

/-- TRST_N takes a level: low holds the TAP in reset. -/
def levelTrst (level : Bool) (d : Dev) : Dev :=
  if level then { d with jtag := { d.jtag with held := false } }
  else { d with jtag := { d.jtag with held := true, instr := .idcode, bit := false, drives := false } }

end Jtag

/-- Settles O56: the TAP takes an instruction unless it is held, and the cells are shifted in and out. -/
theorem jtagCompletes : Obligations.JtagCompletes := by
  intro tdi cells s hon d j
  refine ⟨fun hh => ⟨gives_of_eq hon (f := onTap fun j => { j with
        instr := .bypass, bit := tdi, drives := false
        tdo := j.tdo ++ [BitVec.ofNat 32 (if j.instr = .bypass then b2n j.bit else 0)] }) (onTap_free hh),
      gives_of_eq hon (f := onTap fun j => { j with instr := .idcode, drives := false, tdo := j.tdo ++ [idcodeWord] }) (onTap_free hh),
      does_of hon (f := shiftCells .samplePreload false cells) (shiftCells_leaves hh),
      does_of hon (f := fun d => shiftCells (if trayHoldsReset d then .extest else .samplePreload) (trayHoldsReset d) cells d) ?_⟩,
    fun hh => ⟨gives_of_eq hon (f := onTap fun j => { j with instr := .idcode, drives := false, tdo := j.tdo ++ [idcodeWord] }) (onTap_held hh),
      gives_of_eq hon (f := fun d => shiftCells (if trayHoldsReset d then .extest else .samplePreload) (trayHoldsReset d) cells d)
        (shiftCells_held hh)⟩,
    idcodeWord_low, gives_of_eq hon (f := levelTrst true) rfl, gives_of_eq hon (f := levelTrst false) rfl⟩
  · obtain ⟨h1, -, h3, h4⟩ := shiftCells_leaves (instr := if trayHoldsReset s.dev then .extest else .samplePreload)
      (drives := trayHoldsReset s.dev) (cells := cells) hh
    exact ⟨h1, h3, h4⟩

/-! ### Right after a power-on (R29, R33, R349, R424) -/

theorem pageOf_reset (p : PageId) : pageOf p State.reset.dev = freshPage .powerOn 0 := rfl

theorem rd_reset (r : RegId) : rd r State.reset.dev = (regReset (homeOf r)).toNat := rfl

/-- Settles O57: tables that hold nothing read as fresh, and every field has its value at power-on. -/
theorem resetState : Obligations.ResetState := by
  refine ⟨rfl, rfl, pageOf_reset, fun p => ?_, rd_reset, rfl, rfl, rfl, rfl, rfl, rfl, rfl, rfl, rfl, rfl, rfl, fun _ => rfl, fun _ => rfl,
    rfl, rfl, rfl, rfl, Nat.zero_le _, rfl, rfl, rfl⟩
  rw [pageOf_reset]
  exact ⟨rfl, rfl, rfl, rfl, rfl, rfl⟩

end Sys2Proof.Machine
end


section
/-!
SUPPORT. The tick of an empty command queue while nothing waits on the network (log entries 2 and 85).
-/

namespace Sys2Proof.Machine

theorem foldl_of_fixed {α β : Type} {f : α → β → α} {a : α} (h : ∀ b, f a b = a) (l : List β) : l.foldl f a = a := by
  induction l with
  | nil => rfl
  | cons b l ih => rw [List.foldl_cons, h, ih]

section Idle

variable {d : Dev} (h : idleNet d)
include h

theorem ageRing_idle (ns r : Nat) : ageRing ns r d = d := if_neg (by rw [h.passes r]; exact Bool.false_ne_true)

theorem transmit_idle (p : Nat) (data : Bool) : transmit p data d = d := by
  unfold transmit
  simp only [h.records]

theorem consumeRx_idle (side q : Nat) : consumeRx side q d = d := by
  unfold consumeRx
  simp only [h.records]

theorem runQueues_idle : runQueues d = d := by
  have hsend : allPorts.foldl (fun x p => transmit p true (transmit p false x)) d = d :=
    foldl_of_fixed (fun p => by rw [transmit_idle h p false, transmit_idle h p true]) allPorts
  unfold runQueues
  rw [hsend]
  exact foldl_of_fixed (fun p => by rw [consumeRx_idle h _ (rxQueue p false), consumeRx_idle h _ (rxQueue p true)]) allPorts

theorem admitHeaders_idle (side : Nat) : admitHeaders side d = d := if_pos (by rw [h.headers side]; rfl)

theorem admitWork_idle (r : Nat) : admitWork (ringSt r d).waiting.length r d = d := by
  rw [h.firings r, List.length_nil]
  unfold admitWork
  rfl

theorem pumpPort_idle (p : Nat) (ctrl : Bool) : pumpPort p ctrl d = d := by
  rw [pumpPort, h.frames p ctrl, List.length_nil]
  unfold pumpBuffer
  rfl

theorem goOnWaiting_idle : goOnWaiting d = d := by
  have hwork : allPorts.foldl (fun x r => admitWork (ringSt r x).waiting.length r x) d = d :=
    foldl_of_fixed (fun r => admitWork_idle h r) allPorts
  unfold goOnWaiting
  rw [admitHeaders_idle h 0, admitHeaders_idle h 1]
  simp only
  rw [hwork]
  exact foldl_of_fixed (fun p => by rw [pumpPort_idle h p true, pumpPort_idle h p false]) allPorts

/-- While nothing waits, the network does nothing of itself. -/
theorem tickNet_idle (ns : Nat) : tickNet ns d = d := by
  have hrings : allPorts.foldl (fun x r => ageRing ns r x) d = d := foldl_of_fixed (fun r => ageRing_idle h ns r) allPorts
  have hrates : refreshRates d = d := by
    unfold refreshRates
    rw [h.streams]
    rfl
  unfold tickNet
  rw [h.streams, hrings]
  simp only [List.map_nil, List.foldl_nil]
  rw [runQueues_idle h, goOnWaiting_idle h, hrates]
  exact settleAll_running fun y hy => by rw [h.sends] at hy; cases hy

theorem idleNet_later (n : Nat) : idleNet { d with now := n } :=
  ⟨h.streams, h.sends, h.records, h.headers, h.frames, h.firings, h.passes⟩

end Idle

/-- Settles O2: the tick is the network's, which rests without power and while nothing waits on it. -/
theorem emptyQueueTicks : Obligations.EmptyQueueTicks := by
  intro s hp
  refine ⟨by rw [step, hp], rfl, fun hoff => if_pos (Classical.not_not.1 hoff), fun hi => ?_⟩
  rw [tick, powered]
  split
  · rfl
  · exact tickNet_idle (idleNet_later hi _) 40

end Sys2Proof.Machine
end
